-- ==== Sys2Proof/Word.lean ====
section
/-!
DEFINITION. The word types of the KZ7640 (R9): bytes, 16-, 32- and 64-bit words, 512-bit descriptors.
-/
namespace Sys2Proof

abbrev Byte := BitVec 8
abbrev Half := BitVec 16
abbrev Word := BitVec 32
abbrev Dword := BitVec 64
/-- A 64-byte descriptor; bit 0 is the least significant bit of byte 0 (R9, R72). -/
abbrev Desc := BitVec 512

end Sys2Proof
end

