-- ==== Sys2Proof/Syntax.lean ====
section
/-!
DEFINITION. The commands of the block: one constructor per row of the spec's table of operations and events, with the row's
operands. A unit number that the device has a fixed count of is a Fin; physical quantities that come from outside the device (a
temperature, a reading, the outcome of a self-test or of a search for lock) are operands of the event that reports them.
-/
namespace Sys2Proof

/-- A mailbox command as Enmora takes it (R101): the H2E mailbox it was posted on, its TAG, and its payload (the LENGTH bytes
of it; the payload beyond LENGTH is ignored). OPCODE is that of the row. -/
structure Req where
  mb : Fin 16
  tag : Half
  pay : List Byte
  deriving DecidableEq, Repr

/-- A sequenced frame as it arrives at a port (Table 16.3): its session, SEQ, FTAG, the reserved bits 23:8 of its header, its decrypted
payload (LENGTH is its length), whether its GCM tag verifies, and the codewords that the port has corrected or could not correct since the
frame before (Table 16.12). TYPE is that of the row. -/
structure Frm where
  session : Fin 8
  seq : BitVec 64
  ftag : Half
  resv : Half
  tagOk : Bool
  pay : List Byte
  fixed : Word := 0
  uncorr : Word := 0
  deriving DecidableEq, Repr

/-- A DDR5 module as its channel finds it at boot (R451, Table 12.3): the highest rate it supports (0 to 4: 4,800, 5,600, 6,400, 8,000, 8,800
MT/s), MRDIMM or RDIMM, the codes of its capacity and logical ranks (Table 12.7), 32 Gbit DRAM, and whether the channel trains. -/
structure Dimm where
  rate : Fin 5
  mrdimm : Bool
  cap : Fin 4
  ranks : Fin 3
  dense : Bool
  trains : Bool
  deriving DecidableEq, Repr


/-- What a device keeps of a packet that it holds, beside what the wire carries: the link and the buffer class whose entries it fills until it leaves
(R417), of a piece of its own the ring entry and the number that select its link (R378) and the TAG of its REDUCE (R398), and of a TIDE packet
that arrives the tree neighbour that sent it, where its link blocks know it (R618), and of each channel the flits of the packet under way that had come
by then (R410, R413). -/
structure Custody where
  via : Option (Nat × Nat) := none
  ring : Option Nat := none
  turn : Nat := 0
  tag : Half := 0xFFFF
  sender : Option Half := none
  begun : List Nat := []
  deriving DecidableEq, Repr

/-- A packet of the link layer (R410, R411): its link header (Table 11.4), its virtual channel, the further fields of its header flit, and
the bytes of its data flits. TIDE, BARRIER and LOSS_REPORT packets use the fields of Table 11.16 and pieces those of Table 10.5; of memory
operations, credits and UNREACH the spec gives no layout, and the model gives them an address, a length, the originator's operation
number and a failed flag. A field that a kind does not use is 0 (R412). -/
structure Pkt where
  kind : Fin 16
  flits : Fin 128 := 0
  dl : Bool := false
  src : Half := 0
  dst : Half
  vc : Fin 4 := 0
  ttype : Byte := 0
  stale : Bool := false
  beat : Dword := 0
  tide : Dword := 0
  barrier : Half := 0
  step : Dword := 0
  snapSeq : Word := 0
  link : Fin 64 := 0
  lastSeq : Half := 0
  /-- Memory operations: target address, bytes, operation number, and whether it failed at its target. -/
  addr : BitVec 48 := 0
  len : Nat := 0
  op : Nat := 0
  fail : Bool := false
  /-- Pieces: BUCKET with its complement, PHASE, R_INDEX, OFFSET, NONFIN with its complement, EXTENT, and STEP with its complement. LEN is `len`. -/
  bucket : BitVec 6 := 0
  bucketC : BitVec 6 := 0
  phase : Fin 4 := 0
  reducer : Fin 64 := 0
  offset : BitVec 26 := 0
  nonfin : Bool := false
  nonfinC : Bool := false
  extent : BitVec 27 := 0
  pstep : Word := 0
  pstepC : Word := 0
  data : List Byte := []
  here : Custody := {}
  deriving DecidableEq, Repr

/-- A word of on-chip state that has lost more bits than its ECC corrects, as it comes about: a core's copy of a record's SCALE (R306), a frame record or
a Shelf's chunk map (R325), the resolved copy of an update record (R366), DEV_ID or the routing entry of a device (R422, R435). -/
inductive Spoil where
  | scale (core record : Nat)
  | frame (shelf depth : Nat)
  | chunks (shelf : Nat)
  | update (record : Nat)
  | devId
  | route (dst : Nat)
  deriving DecidableEq, Repr


/-- The cycles of a tide that an engine reports beside its working cycles: those stalled (R31, but those of R151), and those in which a request
of it waited for a local-store bank (R215). -/
structure Stalls where
  stall : Word
  conflicts : Word
  deriving DecidableEq, Repr

/-- What an ACK returns (R413, R432): the credits of its body, and the codewords that the receiver has corrected since the flit before. -/
structure AckBody where
  credits : BitVec 96
  fixed : Word
  deriving DecidableEq, Repr

/-- A flit that a receiver discards (R409, R415): whether its codeword is uncorrectable, its 544 bits, and of each channel the flits of the packet
under way that came before it whole. -/
structure BadFlit where
  uncorr : Bool
  flit : BitVec 544
  good : List Nat
  deriving DecidableEq, Repr

/-- What a receiver finds of a physical receive lane (R418): loss of signal or lock, the symbol errors of the window, and the eye margins of
this window and the one before; and of each channel the flits of the packet under way that have come by then. -/
structure LaneFinding where
  lane : Fin 5
  lost : Bool
  errors : Word
  margin : Half
  before : Half
  begun : List Nat
  deriving DecidableEq, Repr

/-- A link whose receiver is to acknowledge, and of each channel the flits of the packet under way that have come by then (R410, R414). -/
structure AckDue where
  link : Fin 64
  begun : List Nat
  deriving DecidableEq, Repr

/-- A sampling of the junction sensors (R509, R617), with what has come since the one before: the uncorrectable ECC errors of the device's own copies, and
the 32-byte units of memory that no longer fit their check words (R441, R454), whose error is 0 correctable, 1 not, 2 one of the address bits. -/
structure Sample where
  temps : List Byte
  soft : List Spoil
  struck : List (Nat × Fin 3)
  deriving DecidableEq, Repr

/-- A port that has lost FEC lock (R558), with the codewords it could not correct meanwhile (Table 16.12). -/
structure PortLoss where
  port : Fin 2
  uncorr : Word
  deriving DecidableEq, Repr

/-- The commands and events of the KZ7640: one constructor per row of the spec's table of operations and events. -/
inductive Instr where
  /-- DEV_IDENTIFY (R555). Returns the ordering code, stepping, serial, firmware and ROM versions and SEC_VERSION_MIN. -/
  | devIdentify (r : Req)
  /-- DEV_STATUS (R555). Returns the power state, profile state, boot stage, status bits and EVT_LOST. -/
  | devStatus (r : Req)
  /-- DEV_CAPS (R555). Returns the HBM and DDR5 capacities, stack height, DDR state, link count and active core count. -/
  | devCaps (r : Req)
  /-- DEV_RESET_CAUSE (R555). Returns the RESET_CAUSE register. -/
  | devResetCause (r : Req)
  /-- DEV_SPARES (R555). Returns, for each spare class, the spares fitted, the spares in use and whether the class is exhausted. -/
  | devSpares (r : Req)
  /-- DEV_SLEEP (R518). Schedules entry to Sleep at a named boundary, after its refusal checks. -/
  | devSleep (r : Req)
  /-- DEV_WAKE (R519). Starts the power-up of the regions from Sleep towards Idle. -/
  | devWake (r : Req)
  /-- DEV_ECHO (R555). Returns its payload unchanged. -/
  | devEcho (r : Req)
  /-- DEV_ARRAY_CHECK (R173). Writes CHECK_EN to ARRAY_CTRL of each core in the mask, as a shadowed write. -/
  | devArrayCheck (r : Req)
  /-- TIDE_LOAD (R81). Records a KTT image held in memory, checks its MAGIC, VERSION and IMAGE_LEN, and gives it a handle. -/
  | tideLoad (r : Req)
  /-- TIDE_ARM (R50). Runs the admission checks on a loaded image for tide k0; it admits the image or refuses it with a code. -/
  | tideArm (r : Req)
  /-- TIDE_DISARM (R81). Withdraws an admitted image whose first tide has not opened and returns its handle to loaded. -/
  | tideDisarm (r : Req)
  /-- TIDE_UNLOAD (R81). Frees a handle that is loaded and not admitted, or that is finished. -/
  | tideUnload (r : Req)
  /-- TIDE_RUN (R40). Accepts, or replaces, the group beat at which the stopped sequencer opens boundary k. -/
  | tideRun (r : Req)
  /-- TIDE_STOP (R42). Names the boundary at which the tide sequencer stops, after the state and R65 checks. -/
  | tideStop (r : Req)
  /-- TIDE_HOLD (R55). Holds a named boundary until TIDE_RELEASE and, in a tide group, sends HOLD at once. -/
  | tideHold (r : Req)
  /-- TIDE_RELEASE (R81). Releases a boundary held by TIDE_HOLD. -/
  | tideRelease (r : Req)
  /-- TIDE_CONFIG (R77). Sets TIDE_PERIOD, TIDE_SLACK and HOLD_LIMIT; a field of 0 leaves its register unchanged. -/
  | tideConfig (r : Req)
  /-- TIDE_STATUS (R80). Returns the tide and beat counts, the group offset, the status flags and the state of each handle. -/
  | tideStatus (r : Req)
  /-- PROF_SET (R65). Sets the commanded profile for a named boundary, subject to the R65 and R66 checks. -/
  | profSet (r : Req)
  /-- PROF_GET (R520). Returns the effective, commanded and ceiling profiles and the pending changes. -/
  | profGet (r : Req)
  /-- PROF_LIMITS (R520). Returns the thermal thresholds, the junction temperatures, the package power and the limit in force. -/
  | profLimits (r : Req)
  /-- PROF_RAMP (R520). Writes RAMP_LEN to ARRAY_CTRL of each core in the mask, as a shadowed write. -/
  | profRamp (r : Req)
  /-- PROF_HISTORY (R520). Returns the last 16 profile changes with their causes. -/
  | profHistory (r : Req)
  /-- MEM_WINDOW_OPEN (R572). Opens a Lysholt bulk window onto a device address range for the posting session. -/
  | memWindowOpen (r : Req)
  /-- MEM_WINDOW_CLOSE (R572). Closes a bulk window. -/
  | memWindowClose (r : Req)
  /-- MEM_READ (R457). Reads up to 224 bytes on VC2 through Enmora's mesh port. -/
  | memRead (r : Req)
  /-- MEM_WRITE (R457). Writes up to 224 bytes on VC2 through Enmora's mesh port. -/
  | memWrite (r : Req)
  /-- MEM_FILL (R457). Fills a range with a repeated 64-bit pattern. -/
  | memFill (r : Req)
  /-- MEM_INFO (R457). Returns the stack, pseudo-channel map, channel and capacity state. -/
  | memInfo (r : Req)
  /-- MEM_SCRUB (R461). Sets SCRUB_HOURS, the patrol scrub period. -/
  | memScrub (r : Req)
  /-- MEM_SHELF_LIMIT (R336). Sets SHELF_LIMIT, the HBM limit for Shelf bodies. -/
  | memShelfLimit (r : Req)
  /-- LINK_STATUS (R430). Returns the state, IN_SERVICE and spare status of each link. -/
  | linkStatus (r : Req)
  /-- LINK_TRAIN (R406). Starts the training of the named links, which must be DISABLED or DOWN, in the reach chosen. -/
  | linkTrain (r : Req)
  /-- LINK_MARGIN (R408). Returns the eye margins and pre-FEC symbol errors of the 10 lanes of a link. -/
  | linkMargin (r : Req)
  /-- LINK_DISABLE (R407). Takes the named links out of service at step 3 of the next boundary. -/
  | linkDisable (r : Req)
  /-- LINK_ENABLE (R407). Puts the named ACTIVE links in service at step 3 of the next boundary. -/
  | linkEnable (r : Req)
  /-- LINK_COUNTERS (R430). Returns the CRC, retry, FEC, swap and down counters of a link, with BAD_PACKETS. -/
  | linkCounters (r : Req)
  /-- LINK_LOOPBACK (R430). Runs a near-end or far-end loopback test on an ACTIVE link that is out of service. -/
  | linkLoopback (r : Req)
  /-- JOB_CREATE (R83). Creates a job: records its id, seed and cursor, writes the job registers as shadowed writes and reads the job tables. -/
  | jobCreate (r : Req)
  /-- JOB_SET_ID (R422). Sets DEV_ID, this device's 16-bit id, with its complement. -/
  | jobSetId (r : Req)
  /-- JOB_ROUTE_SET (R430). Loads routing entries or ring entries, which take effect at the next boundary. -/
  | jobRouteSet (r : Req)
  /-- JOB_ROUTE_GET (R82). Returns routing entries or ring entries. -/
  | jobRouteGet (r : Req)
  /-- JOB_MEASURE (R82). Measures the round trip to a directly linked peer as the median of 16 VC0 probes. -/
  | jobMeasure (r : Req)
  /-- JOB_GROUP_FORM (R84). Makes the device a member of a tide group and sets HOLD_WINDOW and MARK_INTERVAL. -/
  | jobGroupForm (r : Req)
  /-- JOB_GROUP_LEAVE (R84). Names the boundary at which the device leaves its tide group. -/
  | jobGroupLeave (r : Req)
  /-- JOB_CURSOR (R82). Returns the data cursor and STEP_NUMBER. -/
  | jobCursor (r : Req)
  /-- JOB_STATUS (R82). Returns the job id and state, the step number, the skipped steps and the group size. -/
  | jobStatus (r : Req)
  /-- JOB_END (R83). Ends the job and frees its state. -/
  | jobEnd (r : Req)
  /-- SNAP_CONFIG (R474). Sets the buddy, the parity group and the snapshot table, and reads the table. -/
  | snapConfig (r : Req)
  /-- SNAP_POLICY (R494). Sets MIRROR_MAX and DIRTY_PCT. -/
  | snapPolicy (r : Req)
  /-- SNAP_INTERVAL (R484). Sets MTBF_S, the fleet MTBF estimate used for the snapshot interval. -/
  | snapInterval (r : Req)
  /-- SNAP_NOW (R480). Requests a snapshot and broadcasts SNAP_REQ for the next eligible tideline. -/
  | snapNow (r : Req)
  /-- SNAP_STATUS (R491). Returns the last snapshot, its cost, the interval and the snapshot state. -/
  | snapStatus (r : Req)
  /-- RESTORE_PREPARE (R485). Prepares a restore from a named SNAP_SEQ with the lost devices and a restore map, stopping the job. -/
  | restorePrepare (r : Req)
  /-- RESTORE_RUN (R486). Names the boundary at which the restore runs. -/
  | restoreRun (r : Req)
  /-- RESTORE_STATUS (R491). Returns the restore state, the bytes restored and RESTORE_SKEWS. -/
  | restoreStatus (r : Req)
  /-- RESTORE_VERIFY (R491). Compares the stored and the recomputed SHA-512 of the restored job state block. -/
  | restoreVerify (r : Req)
  /-- TEL_LOG_READ (R121). Returns up to 3 log entries from a sequence number and, with ADVANCE set, moves the read pointer. -/
  | telLogRead (r : Req)
  /-- TEL_LOG_STATUS (R121). Returns the unread count, the lost-entry counter, the sequence bounds and the read pointer. -/
  | telLogStatus (r : Req)
  /-- TEL_AREA_SET (R123). Sets the base and size of the telemetry area, in effect from the next record. -/
  | telAreaSet (r : Req)
  /-- TEL_ALARM_SET (R303). Sets one alarm threshold for a layer or a scale record. -/
  | telAlarmSet (r : Req)
  /-- TEL_COUNTERS (R121). Returns the counters of one block unit, or of the block's device group. -/
  | telCounters (r : Req)
  /-- TEL_EVENT_MASK (R121). Sets which event classes are suppressed on E2H 15. -/
  | telEventMask (r : Req)
  /-- SEC_CERT_GET (R582). Returns one part of a certificate of the device chain. -/
  | secCertGet (r : Req)
  /-- SEC_ATTEST (R579). Builds a signed attestation report with PART 0, or returns a later part of it. -/
  | secAttest (r : Req)
  /-- SEC_MEASURE_LOG (R582). Returns TIDE_MEASURES and up to 2 entries of the measurement log. -/
  | secMeasureLog (r : Req)
  /-- SEC_EXPERT (R570). Verifies an expert operator-key signature and raises the posting session to expert privilege. -/
  | secExpert (r : Req)
  /-- SEC_DROP (R582). Returns the posting session to basic privilege. -/
  | secDrop (r : Req)
  /-- SEC_SELFTEST (R575). Repeats the Lighthouse power-up self-tests. -/
  | secSelftest (r : Req) (failed : Option Byte)
  /-- REG_READ (R110). Reads 1 to 56 consecutive registers. -/
  | regRead (r : Req)
  /-- REG_WRITE (R111). Writes 1 to 56 consecutive registers; writes to data-plane configuration registers are shadowed. -/
  | regWrite (r : Req)
  /-- REG_MODIFY (R110). Reads one register, applies a mask and a value, and writes it back. -/
  | regModify (r : Req)
  /-- REG_POLL (R110). Starts reading one register every 1 us until a masked value matches or 1 ms passes. -/
  | regPoll (r : Req)
  /-- REG_POLL_END (R110). A register poll ends with a match or with its 1 ms timeout, and the response is posted. -/
  | regPollEnd (mb : Fin 16) (timedOut : Bool)
  /-- BAY_POWER (R116). Bay order that sets a bay Active, Idle or off. -/
  | bayPower (b : Fin 16) (mode : Fin 3)
  /-- BAY_CORE_MAP (R23). Bay order that gives a failed core's logical number to slot 16 at a named boundary. -/
  | bayCoreMap (b pos : Fin 16) (boundary : Nat)
  /-- BAY_ROW_MAP (R153). Bay order that maps out one array row of a core at a named boundary. -/
  | bayRowMap (b pos : Fin 16) (row : Fin 64) (boundary : Nat)
  /-- BAY_CLKGEN (R116). Bay order that switches the bay to its standby clock generator. -/
  | bayClkgen (b : Fin 16)
  /-- BAY_SELFTEST (R116). Bay order that self-tests named cores that have no admitted work. -/
  | baySelftest (b : Fin 16) (named faulty : BitVec 17)
  /-- SLD (R128). Stationary load: loads a 64 x 64 tile into the array over 64 cycles and forms the check-row sums. -/
  | sld (core : Fin 256) (list : Fin 8)
  /-- APD (R140). Array pass: streams N vectors through the stationary tile, and the drain scales and accumulates each output. -/
  | apd (core : Fin 256) (list : Fin 8) (cold : Bool) (bad : List (Nat × Fin 130 × Word))
  /-- ARRAY_RETRY (R149). Once the flagged passes have taken in their last vectors, the array reruns them and sorts the outcome. -/
  | arrayRetry (core : Fin 256) (lf : List Half) (run1 run2 : List (Fin 4 × Nat × Fin 130 × Word)) (faulty : List (Fin 130))
  /-- VOD_MOV (R142). Vector operation MOV: a, converted to DFMT. -/
  | vodMov (core : Fin 256) (list : Fin 8)
  /-- VOD_ADD (R142). Vector operation ADD: a + b. -/
  | vodAdd (core : Fin 256) (list : Fin 8)
  /-- VOD_SUB (R142). Vector operation SUB: a − b. -/
  | vodSub (core : Fin 256) (list : Fin 8)
  /-- VOD_MUL (R142). Vector operation MUL: a × b. -/
  | vodMul (core : Fin 256) (list : Fin 8)
  /-- VOD_FMA (R142). Vector operation FMA: a × b + c. -/
  | vodFma (core : Fin 256) (list : Fin 8)
  /-- VOD_MAX (R142). Vector operation MAX: max(a, b). -/
  | vodMax (core : Fin 256) (list : Fin 8)
  /-- VOD_MIN (R142). Vector operation MIN: min(a, b). -/
  | vodMin (core : Fin 256) (list : Fin 8)
  /-- VOD_ABS (R142). Vector operation ABS: |a|. -/
  | vodAbs (core : Fin 256) (list : Fin 8)
  /-- VOD_SEL (R142). Vector operation SEL: a where c is non-zero, otherwise b. -/
  | vodSel (core : Fin 256) (list : Fin 8)
  /-- VOD_RCP (R142). Vector operation RCP: 1/a. -/
  | vodRcp (core : Fin 256) (list : Fin 8)
  /-- VOD_RSQRT (R142). Vector operation RSQRT: 1/√a. -/
  | vodRsqrt (core : Fin 256) (list : Fin 8)
  /-- VOD_SQRT (R142). Vector operation SQRT: √a, at one vector per 4 cycles. -/
  | vodSqrt (core : Fin 256) (list : Fin 8)
  /-- VOD_EXP (R142). Vector operation EXP: e to the power a. -/
  | vodExp (core : Fin 256) (list : Fin 8)
  /-- VOD_LOG (R142). Vector operation LOG: ln a. -/
  | vodLog (core : Fin 256) (list : Fin 8)
  /-- VOD_DIV (R142). Vector operation DIV: a/b, at one vector per 4 cycles. -/
  | vodDiv (core : Fin 256) (list : Fin 8)
  /-- VOD_ACT (R142). Vector operation ACT: the function f(a), multiplied by b when GATED is set. -/
  | vodAct (core : Fin 256) (list : Fin 8)
  /-- VOD_RSUM (R142). Vector operation RSUM: the sum over the 64 lanes, placed in lane 0. -/
  | vodRsum (core : Fin 256) (list : Fin 8)
  /-- VOD_RMAX (R142). Vector operation RMAX: the maximum over the lanes, placed in lane 0. -/
  | vodRmax (core : Fin 256) (list : Fin 8)
  /-- VOD_RAMAX (R142). Vector operation RAMAX: the maximum |a| over the lanes, placed in lane 0. -/
  | vodRamax (core : Fin 256) (list : Fin 8)
  /-- VOD_RSSQ (R142). Vector operation RSSQ: the sum of a² over the lanes, placed in lane 0. -/
  | vodRssq (core : Fin 256) (list : Fin 8)
  /-- VOD_RNG (R142). Vector operation RNG: uniform values in [0, 1) from the core's random stream. -/
  | vodRng (core : Fin 256) (list : Fin 8)
  /-- SGD_MOM (R351). Gated update operation that forms the SGD momentum and the update direction u. -/
  | sgdMom (core : Fin 256) (list : Fin 8) (gateWait : Word)
  /-- ADAM_MOM (R352). Gated update operation that forms the AdamW moments and the update direction u. -/
  | adamMom (core : Fin 256) (list : Fin 8) (gateWait : Word)
  /-- APPLY (R353). Gated update operation that computes w′, stores it under the weight mode and adds to the layer sums. -/
  | applyUpd (core : Fin 256) (list : Fin 8) (gateWait pinWait : Word)
  /-- CH_SCALES (R357). Gated update operation that writes the channel scales, the broadcast vectors and the scaled bias. -/
  | chScales (core : Fin 256) (list : Fin 8) (gateWait pinWait : Word)
  /-- QUANT (R357). Gated update operation that writes the FP8 copy of w′ under the channel scales. -/
  | quant (core : Fin 256) (list : Fin 8) (gateWait pinWait : Word)
  /-- GMOV (R355). Gated move with conversion, used for persistent optimizer state. -/
  | gmov (core : Fin 256) (list : Fin 8) (gateWait : Word)
  /-- GRAD_PASS (R350). Gated operation that completes at once under PASS and as a no-op under SKIP. -/
  | gradPass (core : Fin 256) (list : Fin 8) (gateWait : Word)
  /-- VER_PIN (R360). Pins the record's current version slot for a Shelf. -/
  | verPin (core : Fin 256) (list : Fin 8) (wait : Word)
  /-- VER_UNPIN (R360). Releases a Shelf's pin on a record. -/
  | verUnpin (core : Fin 256) (list : Fin 8)
  /-- VER_COMMIT (R362). Commits the record's new version: VERSION increments and the current slot moves. -/
  | verCommit (core : Fin 256) (list : Fin 8) (gateWait : Word)
  /-- SD (R250). Stream descriptor: arms a row-by-row data movement into a queue of the stream engine. -/
  | sd (core : Fin 256) (list : Fin 8)
  /-- SD_ARM_RETRY (R236). An arm rejected because OWN was set is repeated until the queue entry is free. -/
  | sdArmRetry (core : Fin 256) (list : Fin 8)
  /-- SD_COMPLETE (R235). An SD's last completion is acknowledged, OWN clears, and any descriptor that it feeds may issue. -/
  | sdComplete (core : Fin 256) (queue : Fin 4) (entry : Fin 16)
  /-- MEM_OP_COMPLETE (R231). A memory operation receives its last read data or its write acknowledgement. -/
  | memOpComplete (op : Nat) (outcome : Fin 4)
  /-- RUN_AHEAD_START (R243). A stream engine starts the reads of an RA descriptor before the descriptor issues. -/
  | runAheadStart (core : Fin 256) (list : Fin 8) (idx : Nat)
  /-- RLD (R185). Reel descriptor: gives the core's role in a stream pass; at the head, its vectors are injected onto the ring. -/
  | rld (core : Fin 256) (list : Fin 8)
  /-- REEL_VECTOR_LAND (R187). A vector lands at a Reel port, is forwarded first and is placed in the skid buffer for a using role. -/
  | reelVectorLand (core : Fin 256) (stream : Fin 2)
  /-- REEL_CREDIT_RETURN (R189). A hop's sender regains a credit h cycles after a slot leaves the landing buffer. -/
  | reelCreditReturn (core : Fin 256) (stream : Fin 2)
  /-- COMMIT_TOKEN (R200). A port receives COMMIT, marks the stream's provisional vectors as committed and passes the token on. -/
  | commitToken (core : Fin 256) (stream : Fin 2)
  /-- VOID_TOKEN (R201). A port receives VOID, discards the stream's provisional vectors, returns their credits and passes the token on. -/
  | voidToken (core : Fin 256) (stream : Fin 2)
  /-- REEL_STALL (R193). A stall episode longer than REEL_STALL_THRESH ends or meets step 1, and a REEL_STALL entry is logged. -/
  | reelStall (core : Fin 256) (stream : Fin 2) (cycles : Word) (stall held : List (Fin 256 × Word))
  /-- SHF_PUSH (R318). Shelf push: writes vectors into a frame, creating its record or sealing it. -/
  | shfPush (core : Fin 256) (list : Fin 8)
  /-- SHF_POP (R319). Shelf pop: checks the frame record at issue and waits until the frame may be read. -/
  | shfPop (core : Fin 256) (list : Fin 8)
  /-- POP_WAIT_END (R319). A waiting pop finds its frame SEALED and every higher frame EMPTY, reads its vectors and may release the frame. -/
  | popWaitEnd (core : Fin 256) (list : Fin 8) (idx : Nat) (cycles : Word)
  /-- SHELF_ORDER (R319). A pop has waited SHELF_WAIT_LIMIT cycles and ends with SHELF_ORDER. -/
  | shelfOrder (core : Fin 256) (list : Fin 8) (idx : Nat)
  /-- CHUNK_MOVE_DONE (R313). A chunk move ends, and the accesses that waited for it go on. -/
  | chunkMoveDone (shelf : Fin 32) (idx : BitVec 16)
  /-- OPEN (R372). BKT OPEN defines a bucket's memory, topology, rings and reducer cores for the step. -/
  | bktOpen (core : Fin 256) (list : Fin 8)
  /-- CONTRIB (R374). BKT CONTRIB marks a byte range of a bucket as ready. -/
  | bktContrib (core : Fin 256) (list : Fin 8)
  /-- BUCKET_LAUNCH (R375). A full bucket, or one whose LAST contribution has issued, launches and enters REDUCING. -/
  | bucketLaunch (slot : Fin 64)
  /-- REDUCE (R380). BKT REDUCE runs one reducer of a bucket once the bucket has launched, and its credits are granted. -/
  | bktReduce (core : Fin 256) (list : Fin 8)
  /-- DECIDE (R391). Once NBUCKETS buckets are DONE, DECIDE sets the step gate to PASS or SKIP. -/
  | decideGate (core : Fin 256) (list : Fin 8)
  /-- PIECE (R382). A received reduction piece is added to the local copy or written to bucket memory, and is sent on where the phase requires. -/
  | piece (l : Fin 64) (resent : Bool) (p : Pkt)
  /-- PIECE_CREDIT (R384). A reducer receives a credit for a receive slot of the next member. -/
  | pieceCredit (l : Fin 64) (resent : Bool) (p : Pkt) (cycles : Word)
  /-- LOCAL_MARK (R74). TMK LOCAL_MARK records MARK_ID and the group beat in the tide's telemetry record. -/
  | localMark (core : Fin 256) (list : Fin 8)
  /-- WAIT_BEAT (R74). TMK WAIT_BEAT waits until the group beat reaches the opening boundary plus BEAT_OFF. -/
  | waitBeat (core : Fin 256) (list : Fin 8)
  /-- WAIT_BEAT_REACHED (R74). The group beat reaches the target of a WAIT_BEAT, which completes. -/
  | waitBeatReached (core : Fin 256) (list : Fin 8)
  /-- SIGNAL (R74). TMK SIGNAL adds COUNT to event counter EVT of every target core over VC0. -/
  | tmkSignal (core : Fin 256) (list : Fin 8)
  /-- EVT_COUNTER_ADD (R75). A target core applies a SIGNAL increment to its saturating event counter. -/
  | evtCounterAdd (core : Fin 256) (k : Nat)
  /-- WAIT_EVENT (R74). TMK WAIT_EVENT completes once the core's counter EVT is at least COUNT. -/
  | waitEvent (core : Fin 256) (list : Fin 8)
  /-- GROUP_BARRIER (R392). TMK GROUP_BARRIER joins a barrier instance, and local arrival sends ARRIVE once every local party has issued. -/
  | groupBarrier (core : Fin 256) (list : Fin 8)
  /-- BARRIER_ARRIVE (R393). A member receives a barrier ARRIVE from a child and sends its own once all have arrived. -/
  | barrierArrive (l : Fin 64) (resent : Bool) (p : Pkt)
  /-- BARRIER_RELEASE (R393). A member receives a barrier RELEASE, forwards it and completes its local parties' TMKs. -/
  | barrierRelease (l : Fin 64) (resent : Bool) (p : Pkt)
  /-- ENGINE_REPORT (R31). An engine reports completion of its admitted work for the closing tide. -/
  | engineReport (core : Fin 256) (working : Word) (stall : Stalls)
  /-- NOMINAL_BOUNDARY (R51). P beats after the opening boundary, the nominal boundary falls and is held if its conditions are unmet. -/
  | nominalBoundary
  /-- HOLD_DECISION (R62). At the decision beat D, a member with an engine still to report sends HOLD. -/
  | holdDecision
  /-- TIDE_BOUNDARY (R31). Once its last condition is met, a boundary runs its steps: close the tide, apply pending changes, release the next tide's lists. -/
  | tideBoundary
  /-- FREQ_SETTLE_END (R507). The 512-beat settling delay ends, and step 4 of the boundary proceeds. -/
  | freqSettleEnd
  /-- STOPPED_APPLY (R41). While the sequencer is stopped, an accepted change is applied by step 3 run on its own. -/
  | stoppedApply
  /-- TIDE_HANG (R54). The counted hold reaches HOLD_LIMIT, and a core fault is raised on the lowest-numbered engine still to report. -/
  | tideHang (ue : Bool)
  /-- TIDE_MARK_EMIT (R58). Every MARK_INTERVAL beats, the master emits a tide mark on VC0. -/
  | tideMarkEmit
  /-- TIDE_MARK (R59). A member receives a tide mark, corrects GROUP_OFFSET and forwards the mark to its children. -/
  | tideMark (l : Fin 64) (resent : Bool) (p : Pkt)
  /-- HOLD (R63). A member receives a HOLD for a boundary, relays it and records the holder. -/
  | holdMsg (l : Fin 64) (resent : Bool) (p : Pkt)
  /-- RELEASE (R63). A member receives a hold RELEASE with its release beat and relays it. -/
  | releaseMsg (l : Fin 64) (resent : Bool) (p : Pkt)
  /-- CORE_FAULT (R468). A core fault substitutes the spare and replays the tide, or restarts the job. -/
  | coreFault (core : Fin 256) (ue : Bool)
  /-- ENMORA_CORE_FAIL (R87). An Enmora core's watchdog expires or it reports an uncorrectable error, and the spare takes its role. -/
  | enmoraCoreFail (core : Fin 4)
  /-- E2B_TIMEOUT (R97). An E2B message passes its 10 ms timeout, and BAY_NO_RESPONSE is logged and posted. -/
  | e2bTimeout (b : Fin 16)
  /-- RESPONSE_POST (R105). Once its E2H mailbox is free, Enmora posts a command response, releases the H2E mailbox and a NOTIFY is sent. -/
  | responsePost (mb : Fin 16)
  /-- EVENT_POST (R107). A waiting event is posted on E2H 15 once the mailbox is free. -/
  | eventPost
  /-- E2H_DOORBELL (R92). Enmora rings an E2H mailbox, which sets FULL unless the mailbox is already full. -/
  | e2hDoorbell (n : Fin 16) (msg : List Byte)
  /-- E2B_DOORBELL (R92). Enmora rings an E2B mailbox, which sets FULL and wakes the bay. -/
  | e2bDoorbell (b : Fin 16) (msg : List Byte)
  /-- MAILBOX_RELEASE (R94). A write of 1 to a FULL bit releases the mailbox and may raise an interrupt. -/
  | mailboxRelease (set : Fin 3) (v : Half)
  /-- H2E_NEXT_READ (R590). A read by the Command role returns, and clears, the oldest H2E doorbell not yet returned. -/
  | h2eNextRead (q : Fin 9)
  /-- BEAT_COUNT_LO_READ (R78). A read of BEAT_COUNT_LO latches BEAT_COUNT_HI for the reading requester. -/
  | beatCountLoRead (q : Fin 9)
  /-- TIDE_COUNT_LO_READ (R78). A read of TIDE_COUNT_LO latches TIDE_COUNT_HI for the reading requester. -/
  | tideCountLoRead (q : Fin 9)
  /-- STEP_NUMBER_LO_READ (R367). A read of STEP_NUMBER_LO latches STEP_NUMBER_HI for the reading requester. -/
  | stepNumberLoRead (q : Fin 9)
  /-- TJ_PEAK_READ (R521). A read of TJ_PEAK returns it and clears it. -/
  | tjPeakRead (q : Fin 9)
  /-- OPS_PEAK_READ (R253). A read of OPS_PEAK returns it and clears it. -/
  | opsPeakRead (q : Fin 9) (core : Fin 256)
  /-- MAX_SLIP_READ (R521). A read of MAX_SLIP returns it and clears it. -/
  | maxSlipRead (q : Fin 9) (region : Fin 40)
  /-- HBM_CHUNKS_PEAK_READ (R333). A read of HBM_CHUNKS_PEAK returns it and clears it. -/
  | hbmChunksPeakRead (q : Fin 9)
  /-- PROF_TARGET_WRITE (R521). A write to PROF_TARGET submits a commanded profile change at the boundary held in PROF_BOUNDARY. -/
  | profTargetWrite (q : Fin 9) (v : Word)
  /-- ROUTE_DATA_WRITE (R588). A write to ROUTE_DATA stages the low half of a routing entry for the requester. -/
  | routeDataWrite (q : Fin 9) (v : Word)
  /-- ROUTE_DATA_C_WRITE (R432). A write to ROUTE_DATA_C queues the staged pair as one shadowed routing-entry write. -/
  | routeDataCWrite (q : Fin 9) (v : Word)
  /-- DEV_ID_WRITE (R588). A write to DEV_ID, refused while the device is a member of a tide group. -/
  | devIdWrite (q : Fin 9) (v : Word)
  /-- LANE_MAP_WRITE (R435). A write to LANE_MAP, refused on a link in service or ignored whole for a reserved encoding. -/
  | laneMapWrite (q : Fin 9) (link : Fin 64) (v : Word)
  /-- REGISTER_WRITE (R30). A write to any register without a row of its own: applied at once, made pending under shadowing, or W1C clears. -/
  | registerWrite (q : Fin 9) (block : Byte) (off : BitVec 22) (v : Word)
  /-- HELLO (R566). A HELLO frame starts a session: ECDH, identity signature and HELLO_REPLY. -/
  | hello (p : Fin 2) (pay : List Byte)
  /-- AUTH (R566). An AUTH frame's operator-key signature is verified, and the device answers OPEN or CLOSE. -/
  | auth (f : Frm)
  /-- FRAME_ACK (R563). A Lysholt ACK frame frees the acknowledged frames at the sender. -/
  | frameAck (f : Frm)
  /-- CLOSE (R568). A session closes: its keys are zeroised and its windows, privilege and unacknowledged frames end. -/
  | closeFrame (f : Frm)
  /-- FRAME_RESEND (R563). An unacknowledged frame is resent 200 us after its previous sending; after 16 sendings the session closes. -/
  | frameResend (session : Fin 8) (seq : Dword)
  /-- MBX_POST (R92). A frame writes an H2E slot and rings its doorbell, or is rejected with MBX_FULL. -/
  | mbxPost (f : Frm)
  /-- MBX_READ (R561). A frame reads an E2H mailbox. -/
  | mbxRead (f : Frm)
  /-- MBX_RELEASE (R94). A frame releases an E2H mailbox. -/
  | mbxRelease (f : Frm)
  /-- WIN_READ (R572). A bulk-window read of up to 4 KiB, carried out by the Lighthouse on VC2. -/
  | winRead (f : Frm)
  /-- WIN_WRITE (R572). A bulk-window write of up to 4 KiB, carried out by the Lighthouse on VC2. -/
  | winWrite (f : Frm)
  /-- REG_RD (R571). An expert register-window frame reads up to 1,024 registers directly. -/
  | regRd (f : Frm)
  /-- REG_WR (R571). An expert register-window frame writes registers directly. -/
  | regWr (f : Frm)
  /-- KEYS (R569). A boot-session frame delivers the operator keys, and OPERATOR_DIGEST is recorded. -/
  | keys (f : Frm)
  /-- IMAGE (R569). A boot-session frame writes firmware image data into Enmora private SRAM. -/
  | imageFrame (f : Frm)
  /-- IMAGE_VERIFY (R545). Once the image is held, the ROM checks it and enters ENMORA or RECOVERY. -/
  | imageVerify
  /-- READ_REQ (R411). A remote read request packet arrives for this device, or is forwarded. -/
  | readReq (l : Fin 64) (resent : Bool) (p : Pkt) (outcome : Fin 4)
  /-- READ_DATA (R411). Remote read data arrives for an operation in flight. -/
  | readData (l : Fin 64) (resent : Bool) (p : Pkt)
  /-- WRITE (R411). A remote write packet arrives and is applied. -/
  | writePkt (l : Fin 64) (resent : Bool) (p : Pkt)
  /-- WRITE_ACK (R411). A remote write acknowledgement arrives for an operation in flight. -/
  | writeAck (l : Fin 64) (resent : Bool) (p : Pkt)
  /-- UNREACH (R425). An UNREACH packet fails the originating operation. -/
  | unreach (l : Fin 64) (resent : Bool) (p : Pkt)
  /-- LOSS_REPORT (R428). A LOSS_REPORT arrives, and the held packets beyond the one it names are sent again by routing. -/
  | lossReport (l : Fin 64) (resent : Bool) (p : Pkt)
  /-- LOSS_WAIT_EXPIRE (R429). LOSS_WAIT expires without a LOSS_REPORT, so the held packets fail and LOSS_TIMEOUT is logged. -/
  | lossWaitExpire (l : Fin 64)
  /-- LINK_ACK (R414). A LINK ACK flit frees the acknowledged packets from the replay buffer. -/
  | linkAck (l : Fin 64) (seq : Half) (cr : AckBody)
  /-- LINK_ACK_SEND (R414). 20 ns after the first flit not yet acknowledged, the receiver sends an ACK. -/
  | linkAckSend (due : AckDue)
  /-- NACK (R415). A NACK makes the transmitter resend every unacknowledged flit from the named sequence. -/
  | nack (l : Fin 64) (seq : Half) (cr : BitVec 96)
  /-- NACK_REPEAT (R415). No resent flit arrives within 2 x RTT_ACK, so the NACK is repeated; after 8 the link goes DOWN. -/
  | nackRepeat (l : Fin 64)
  /-- FLIT_CRC_ERROR (R415). A flit with a CRC error, or an uncorrectable codeword, is discarded with later flits and a NACK is sent. -/
  | flitCrcError (l : Fin 64) (bad : BadFlit)
  /-- RTT_PROBE (R406). An RTT_PROBE flit is answered with an echo. -/
  | rttProbe (l : Fin 64)
  /-- RTT_ECHO (R406). An RTT_ECHO flit completes the RTT_ACK measurement in PARAM. -/
  | rttEcho (l : Fin 64) (ns : Word)
  /-- LINK_DETECT_DONE (R406). Both ends see the training pattern, and training moves to EQUALISE. -/
  | linkDetectDone (l : Fin 64)
  /-- LINK_EQUALISE_DONE (R406). Equalisation completes, and training moves to FEC_LOCK. -/
  | linkEqualiseDone (l : Fin 64)
  /-- LINK_FEC_LOCK_DONE (R406). Codeword alignment and the error-ratio test pass, and training moves to DESKEW. -/
  | linkFecLockDone (l : Fin 64)
  /-- LINK_DESKEW_DONE (R406). The lanes are aligned, and training moves to PARAM. -/
  | linkDeskewDone (l : Fin 64)
  /-- LINK_PARAM_DONE (R406). The partner parameters and RTT_ACK are known, and the link becomes ACTIVE. -/
  | linkParamDone (l : Fin 64) (partner : Half) (plink : Byte) (allPass : Bool)
  /-- LINK_STATE_TIMEOUT (R406). A training state reaches its limit and returns to DETECT; the third return leaves the link DOWN. -/
  | linkStateTimeout (l : Fin 64)
  /-- LANE_FAIL (R418). A receiver declares a lane failed, enters SWAP and sends LANE_SWAP, or the link goes DOWN. -/
  | laneFail (l : Fin 64) (lane : LaneFinding)
  /-- LANE_SWAP (R419). On LANE_SWAP, the transmitter stops sequenced flits, moves the lane to the spare and sends SWAP_MARK. -/
  | laneSwap (l : Fin 64) (lane : Fin 4)
  /-- SWAP_MARK (R419). On SWAP_MARK, the receiver realigns and deskews the codewords with the spare in place. -/
  | swapMark (l : Fin 64) (lane : Fin 4)
  /-- SWAP_LOCK_DONE (R419). After FEC lock, the receiver returns to ACTIVE and sends NACK; the swap is logged and counted. -/
  | swapLockDone (l : Fin 64)
  /-- LINK_DOWN (R427). A link goes DOWN, leaves service, is logged and sends a LOSS_REPORT. -/
  | linkDown (l : Fin 64) (partnerStopped : Bool)
  /-- SWELL (R500). A replica-path monitor warning stretches the region's next clock period by 25 %. -/
  | swell (r : Fin 20) (gap : Nat)
  /-- MARGIN_LOW (R502). A region swells 64 times in a row, so MARGIN_LOW sets and a throttle follows. -/
  | marginLow (r : Fin 20)
  /-- XING_HOLD (R499). Slip reaches 3 cycles, and the side that is ahead inserts a one-cycle hold on the queue. -/
  | xingHold (r o : Fin 20)
  /-- GEN_FAIL (R496). A running generator loses lock, and the region switches to its standby. -/
  | genFail (r : Fin 20)
  /-- GEN_FREQ_WINDOW (R496). Each 1,024-beat window, a generator's frequency is checked against the 1 % limit. -/
  | genFreqWindow (r : Fin 20) (standby : Bool) (cycles : Nat)
  /-- FIXED_PLL_LOSS (R529). A fixed PLL or the beat PLL loses lock, so the device stops issue and asserts RESET_REQ_N. -/
  | fixedPllLoss (d : Fin 41)
  /-- JUNCTION_SAMPLE (R509). Every 50 us the junction sensors are sampled and TJ_WEST and TJ_EAST update. -/
  | junctionSample (sample : Sample)
  /-- CEILING_RISE (R511). After 100 ms of resume conditions, a ceiling rise is named for boundary n + 2. -/
  | ceilingRise (half : Fin 2)
  /-- THERMTRIP (R513). A sensor reads 110 °C, so THERMTRIP_N asserts, the array clocks are gated and the trip is logged. -/
  | thermtrip (sensor : Fin 80) (reading : Byte)
  /-- PMBUS_POLL (R600). Every 1 ms Enmora reads READ_POUT from each regulator and updates the package power average. -/
  | pmbusPoll (reads : List (Option Nat))
  /-- VR_FAULT (R602). A regulator fails to answer for 10 ms or asserts PMB_ALERT_N with a fault, and VR_FAULT is logged. -/
  | vrFault (addr : Fin 8) (status : Option Half)
  /-- HBM_REFRESH (R444). Per-bank refresh is issued at the JEDEC interval, doubled when the stack is hot. -/
  | hbmRefresh
  /-- STACK_TEMP_READ (R444). Every 1 ms each stack's temperature is read, and refresh doubling starts or stops. -/
  | stackTempRead (temps : List Byte)
  /-- PC_CE_WINDOW (R445). A 2^33-beat window of pseudo-channel correctable-error counts ends and a new one starts. -/
  | pcCeWindow
  /-- PC_THRESHOLD (R446). A pseudo-channel fails its threshold; PENDING sets and a tideline is requested, or R449 applies. -/
  | pcThreshold (st : Fin 8)
  /-- PC_COPY_DONE (R448). The last block of a pseudo-channel is copied, and PC_MAP maps it to the spare. -/
  | pcCopyDone (st : Fin 8)
  /-- SLICE_THRESHOLD (R464). A slice's correctable errors reach 256 in a window, and its copy is scheduled or R465 applies. -/
  | sliceThreshold (n : Fin 128)
  /-- SLICE_COPY_DONE (R464). A slice copy ends, and the spare slice takes the logical number. -/
  | sliceCopyDone (h : Fin 2)
  /-- PATROL_SCRUB (R455). Patrol scrub reads and corrects the next DDR5 burst at its even pace. -/
  | patrolScrub (channel : Fin 8) (outcome : Fin 4)
  /-- SNAP_INTERVAL_EXPIRE (R484). The interval T since the last freeze elapses, and a snapshot is requested at the next step advance. -/
  | snapIntervalExpire
  /-- SNAP_REQ (R480). A member receives SNAP_REQ and records the request's tideline. -/
  | snapReq (l : Fin 64) (resent : Bool) (p : Pkt)
  /-- SNAP_FREEZE_DONE (R481). Every freeze copy completes, the cost C is recorded, and step 4 follows. -/
  | snapFreezeDone
  /-- SNAP_TRANSFER_DONE (R482). A member has had everything it sent acknowledged and has received everything owed, and sends SNAP_DONE. -/
  | snapTransferDone
  /-- SNAP_DONE (R482). The master receives SNAP_DONE and broadcasts SNAP_COMMIT once every member has sent one. -/
  | snapDone (l : Fin 64) (resent : Bool) (p : Pkt)
  /-- SNAP_COMMIT (R482). A member commits the snapshot: mirror slot, parity shares, base copy and SNAP_SEQ. -/
  | snapCommit (l : Fin 64) (resent : Bool) (p : Pkt)
  /-- SNAP_FAIL (R483). The master receives SNAP_FAIL and broadcasts SNAP_ABORT. -/
  | snapFail (l : Fin 64) (resent : Bool) (p : Pkt)
  /-- SNAP_ABORT (R483). A member abandons the snapshot and posts EVT_SNAP_DONE with SNAP_FAILED set. -/
  | snapAbort (l : Fin 64) (resent : Bool) (p : Pkt)
  /-- RESTORE_DONE (R486). The restore completes, RESTORE_STATUS reports DONE, and records not restored take JIT scaling. -/
  | restoreDone
  /-- RESET_N_ASSERT (R531). A RESET_N low of at least the filter time is honoured, and every domain outside always-on enters reset. -/
  | resetNAssert
  /-- RESET_N_RELEASE (R532). RESET_N stays high for the filter time, the straps are sampled and release begins. -/
  | resetNRelease (bootsel clkmode : BitVec 2)
  /-- POWER_ON_ASSERT (R528). VDD_AON falls below its threshold, and power-on detection asserts reset. -/
  | powerOnAssert
  /-- POWER_ON_RELEASE (R528). 1 ms after VDD_AON rises above its threshold, power-on detection releases reset. -/
  | powerOnRelease (bootsel clkmode : BitVec 2)
  /-- DOMAIN_CLOCK_VALID (R536). A domain's clock has run 256 cycles within 1 % after lock, and the domain is released. -/
  | domainClockValid (d : Fin 41)
  /-- DOMAIN_CLOCK_FAIL (R537). A generator runs 2 ms without a valid clock, so the standby is tried or the region stays in reset. -/
  | domainClockFail (d : Fin 41)
  /-- ROM_SELFTEST_DONE (R575). The Lighthouse power-up self-tests end and boot moves to PORT, or stops at ROM. -/
  | romSelftestDone (ok : Bool)
  /-- ENMORA_STAGE_DONE (R548). Every region has been released, and boot moves to MEMORY. -/
  | enmoraStageDone
  /-- MEMORY_TRAINED (R549). HBM4 and DDR5 finish training, and the device is READY in Idle. -/
  | memoryTrained (hbm : Bool) (dimms : List (Option Dimm)) (us : Word)
  /-- WAKE_DONE (R519). The wake from Sleep completes with the memories out of self-refresh and every queue centred. -/
  | wakeDone
  /-- PORT_ACQUIRE_DONE (R558). A Lysholt port's receivers acquire on all four wavelengths, and the port moves to ALIGN. -/
  | portAcquireDone (p : Fin 2)
  /-- PORT_ALIGN_DONE (R558). FEC lock and deskew complete, and the port is UP. -/
  | portAlignDone (p : Fin 2)
  /-- PORT_LIGHT_LOSS (R559). A port in UP loses light, closes its sessions and returns to ACQUIRE. -/
  | portLightLoss (p : Fin 2)
  /-- PORT_FEC_LOSS (R558). A port in UP has lost FEC lock for 1 ms, closes its sessions and returns to ACQUIRE. -/
  | portFecLoss (p : PortLoss)
  /-- LIGHTHOUSE_ERROR (R576). A self-test fails after power-up, and the Lighthouse enters its error state and closes every session. -/
  | lighthouseError (test : Byte)
  /-- DESC_DONE (R73). A descriptor other than an SD (SLD, APD, VOD, RLD, SHF, TMK, BKT) completes after its work has drained, writing DESC_DONE when LOG is set and letting FENCE and FREE_SEQ waiters go on. -/
  | descDone (core : Fin 256) (list : Fin 8) (idx : Nat)
  /-- SLEEP_ENTRY_DONE (R518). The roughly 2 ms Sleep entry ends with memories in self-refresh, links DISABLED and the link blocks and controller logic off, and the device is asleep. -/
  | sleepEntryDone
  /-- DDR5_REFRESH (R451). The DDR5 controller issues same-bank refresh at its interval, doubled while the module temperature is above 85 °C. -/
  | ddr5Refresh
  /-- BLOCK_COPY_DONE (R447). During a spare copy, one block (or slice line) finishes copying, COPY_PTR advances and accesses that waited on that block go on. -/
  | blockCopyDone (target : Fin 10) (outcome : Fin 4)
  /-- MEASURE_PROBE (R82). A JOB_MEASURE probe on VC0 reaches the peer and is returned; after the 16th return the median round trip is formed and the response posted. -/
  | measureProbe (mb : Fin 16) (beats : Word)
  deriving DecidableEq, Repr

end Sys2Proof
end

