-- ==== Sys2Proof/Decode.lean ====
section
/-!
DEFINITION. The table's words: spec/opcode_table.json gives no row any bits (every row's "fields" is empty), so no word spells a
command and this decoder answers none on every word.
-/
namespace Sys2Proof

/-- The rows of the opcode table to which the table gives bits: the bits (a count, and the number they spell) and the command. -/
def tableRows : List (Nat × Nat × Instr) := []

/-- The command that the word `w` of `nbits` bits spells by the table's bits; none where no row has these bits. -/
def decodeTableWord (nbits w : Nat) : Option Instr :=
  (tableRows.find? fun r => r.1 == nbits && r.2.1 == w).map (·.2.2)

end Sys2Proof
end

