-- ==== Sys2Proof/Config.lean ====
section
/-!
DEFINITION. What the spec leaves open. Each `opaque` constant has no body: nothing in Lean can evaluate it or prove a value of
it, so a statement that holds of the model holds whatever value the hardware gives.
-/
namespace Sys2Proof.Config

/-- A 64-bit value the spec does not fix, fresh for each number it is applied to (State's counter `free`). -/
opaque freeDword : Nat → Dword

/-- A byte string the spec does not fix (a certificate body, a signature), fresh for each number it is applied to. [DESIGN CHOICE, log entry 12] -/
opaque freeBytes : Nat → List Byte

/-- The result of a vector operation whose value the spec bounds but does not fix (Table 7.5), from its operands. [DESIGN CHOICE, log entry 84] -/
opaque freeWord : Nat → Word

/-- The number of mesochronous queues between two adjacent array-clock regions (R497), which the spec does not give. [DEDUCED, log entry 36] -/
opaque queueCount : Nat → Nat → Nat

/-- Bits 511:72 of the header flit of a packet whose kind the spec gives no layout for: memory operations, credits and UNREACH (R411). [DESIGN CHOICE, log entry 118] -/
opaque opHeader : Pkt → BitVec 440

/-- What a physical reading (an optical power) shows at a beat; the spec gives the quantity and no value. [DESIGN CHOICE, log entry 11] -/
opaque reading : (register beat : Nat) → Word

/-- Whether an ECDSA P-521 signature (r then s) over a SHA-512 digest verifies under a public key (R545, R566, R570). The
spec names the standard algorithm and gives no arithmetic for it. [DESIGN CHOICE, log entry 12] -/
opaque ecdsaVerifies : (key digest sig : List Byte) → Bool

/-- The ECDH P-521 shared secret Z of the device's ephemeral key, named by its public half, and the peer's public key (R566). [DESIGN CHOICE, log entry 12] -/
opaque ecdh : (ownPublic peerPublic : List Byte) → List Byte

/-- The FixedInfo of the key derivation (R567), which the spec does not give. [DESIGN CHOICE, log entry 12] -/
opaque fixedInfo : List Byte

/-- The Aiwiska firmware key whose digest the ROM holds (R545). [DESIGN CHOICE, log entry 12] -/
opaque firmwareKey : List Byte

/-- How many 128-bit blocks of its stream a vector of RNG consumes (R142, R488 give the stream and no count). [DESIGN CHOICE, log entry 85] -/
opaque rngBlocks : Nat

/-- The lane value of RNG, a multiple of 2^-24 below 1 (Table 7.5), from the blocks drawn: its numerator, taken modulo 2^24. [DESIGN CHOICE, log entry 85] -/
opaque rngLane : (blocks : List Nat) → (lane : Nat) → Nat

end Sys2Proof.Config
end

