-- ==== Sys2Proof/Machine/Bits.lean ====
section
/-!
DEFINITION. Bit fields, byte order (R9: little-endian), complement pairs (R12) and saturating counts:
the plain helpers that every other file uses.
-/
namespace Sys2Proof.Machine

/-- The field of `len` bits of `x` from bit `lo`, as a number (R9). -/
def bits {w : Nat} (x : BitVec w) (lo len : Nat) : Nat := (x.toNat >>> lo) % 2 ^ len

/-- Bit `i` of `x`. -/
def bit {w : Nat} (x : BitVec w) (i : Nat) : Bool := x.getLsbD i

/-- The field of `len` bits from bit `lo` of a number. -/
def nbits (x lo len : Nat) : Nat := (x >>> lo) % 2 ^ len

/-- `x` with the `len` bits from `lo` replaced by `v`. -/
def setBits {w : Nat} (x : BitVec w) (lo len v : Nat) : BitVec w :=
  let mask : BitVec w := BitVec.ofNat w ((2 ^ len - 1) <<< lo)
  (x &&& ~~~mask) ||| (BitVec.ofNat w ((v % 2 ^ len) <<< lo))

/-- A Boolean as the bit 0 or 1. -/
def b2n (b : Bool) : Nat := if b then 1 else 0

/-- R12: a value and its complement are a valid pair when their exclusive or has every bit set. -/
def pairOk (len a b : Nat) : Bool := a ^^^ b == 2 ^ len - 1

/-- R12 for two fields of `x` of `len` bits, at `lo` and `loC`. -/
def fieldPairOk {w : Nat} (x : BitVec w) (len lo loC : Nat) : Bool := pairOk len (bits x lo len) (bits x loC len)

/-- Ceiling division. -/
def cdiv (a b : Nat) : Nat := (a + b - 1) / b

/-- Addition that saturates at `2 ^ w - 1`. -/
def satAdd {w : Nat} (x : BitVec w) (n : Nat) : BitVec w :=
  if x.toNat + n < 2 ^ w then BitVec.ofNat w (x.toNat + n) else BitVec.allOnes w

/-- The signed number in two's complement of `w` bits that the number `n` spells. -/
def sext (w n : Nat) : Int := if n % 2 ^ w < 2 ^ (w - 1) then (n % 2 ^ w : Nat) else (n % 2 ^ w : Nat) - (2 ^ w : Nat)

/-- The `n` low bytes of a number, least significant first (R9). -/
def leBytes : Nat → Nat → List Byte
  | 0, _ => []
  | n + 1, x => BitVec.ofNat 8 x :: leBytes n (x / 256)

/-- The number that bytes spell, least significant first (R9). -/
def leNat : List Byte → Nat
  | [] => 0
  | b :: bs => b.toNat + 256 * leNat bs

/-- The number spelled by the `len` bytes from byte `at`; missing bytes read as zero. -/
def bytesAt (bs : List Byte) (at_ len : Nat) : Nat := leNat ((bs.drop at_).take len)

/-- A list cut or filled with zeros to `n` bytes. -/
def padBytes (n : Nat) (bs : List Byte) : List Byte := (bs ++ List.replicate (n - bs.length) 0#8).take n

/-- A 32-bit pattern as a word. -/
def word (n : Nat) : Word := BitVec.ofNat 32 n

/-- The positions of the set bits of `x` among the first `n`, ascending. -/
def setBitsOf (n x : Nat) : List Nat := (List.range n).filter (x.testBit ·)

/-- The number of set bits of `x` among the first `n`. -/
def popCount (n x : Nat) : Nat := (setBitsOf n x).length

/-- `x` placed in a rising list without repeats. -/
def insertRising (x : Nat) : List Nat → List Nat
  | [] => [x]
  | y :: ys => if x < y then x :: y :: ys else if x = y then y :: ys else y :: insertRising x ys

/-- The members of a list, rising and without repeats. -/
def sortDedup (xs : List Nat) : List Nat := xs.foldl (fun l x => insertRising x l) []

/-- Byte-wise exclusive or. -/
def xorBytes (a b : List Byte) : List Byte := List.zipWith (· ^^^ ·) a b

end Sys2Proof.Machine
end

