-- ==== Sys2Proof/Machine/RegIndex.lean ====
section
/-!
DEFINITION. The register index (R586, R587, R593; Tables 17.1 and 17.3): the key of every register (its block number times 2^24
plus its offset), its access code, its reset value, the bits it implements, whether it is shadowed (R588), and which field values
are legal (R18).
-/
namespace Sys2Proof.Machine

/-- The access codes of Table 0.3. -/
inductive Access where
  | ro | rw | wo | w1c | rc
  deriving DecidableEq, Repr

/-- A run of registers of one kind: `run` consecutive words from `base`, repeated `count` times at `stride`. -/
structure RegRow where
  base : Nat
  run : Nat := 1
  stride : Nat := 0x1000000
  count : Nat := 1
  acc : Access := .ro
  reset : Nat := 0
  mask : Nat := 0xFFFFFFFF
  shadow : Bool := false
  /-- Each requester holds its own copy (R589). -/
  own : Bool := false
  deriving DecidableEq, Repr

/-- The key of offset `off` in block `b`. -/
def blk (b off : Nat) : Nat := b * 0x1000000 + off

/-- Base address of the register window (R586). -/
def windowBase : Nat := 0x0F0000000000

/-! ### Names of the registers -/
namespace R
abbrev resetCause := blk 0x00 0x000
abbrev straps := blk 0x00 0x004
abbrev bootState := blk 0x00 0x008
abbrev domainFailLo := blk 0x00 0x00C
abbrev domainFailHi := blk 0x00 0x010
abbrev domainSpared := blk 0x00 0x014
abbrev fwVersion := blk 0x00 0x018
abbrev secVersionMin := blk 0x00 0x01C
abbrev bootTimeUs := blk 0x00 0x020
abbrev profTarget := blk 0x01 0x000
abbrev profBoundaryLo := blk 0x01 0x004
abbrev profBoundaryHi := blk 0x01 0x008
abbrev profState := blk 0x01 0x00C
abbrev thermCtrl := blk 0x01 0x010
abbrev pwrCtrl := blk 0x01 0x014
abbrev clkStatus := blk 0x01 0x018
abbrev tjWest := blk 0x01 0x01C
abbrev tjEast := blk 0x01 0x020
abbrev tjPeak := blk 0x01 0x024
abbrev pkgPower := blk 0x01 0x028
abbrev throttles := blk 0x01 0x02C
abbrev xingRecentres := blk 0x01 0x030
abbrev regionState (r : Nat) := blk 0x01 (0x100 + 0x20 * r)
abbrev swells (r : Nat) := blk 0x01 (0x104 + 0x20 * r)
abbrev xingHolds (r : Nat) := blk 0x01 (0x108 + 0x20 * r)
abbrev maxSlip (r : Nat) := blk 0x01 (0x10C + 0x20 * r)
abbrev marginRuns (r : Nat) := blk 0x01 (0x110 + 0x20 * r)
abbrev portState (p : Nat) := blk 0x03 (0x40 * p)
abbrev portStatus (p : Nat) := blk 0x03 (0x40 * p + 0x04)
abbrev rxPower (p : Nat) := blk 0x03 (0x40 * p + 0x08)
abbrev txPower (p : Nat) := blk 0x03 (0x40 * p + 0x0C)
abbrev portFecCorrected (p : Nat) := blk 0x03 (0x40 * p + 0x10)
abbrev portFecUncorr (p : Nat) := blk 0x03 (0x40 * p + 0x14)
abbrev framesRx (p : Nat) := blk 0x03 (0x40 * p + 0x18)
abbrev framesTx (p : Nat) := blk 0x03 (0x40 * p + 0x1C)
abbrev tagFails (p : Nat) := blk 0x03 (0x40 * p + 0x20)
abbrev seqDiscards (p : Nat) := blk 0x03 (0x40 * p + 0x24)
abbrev resends (p : Nat) := blk 0x03 (0x40 * p + 0x28)
abbrev sessionsOpened (p : Nat) := blk 0x03 (0x40 * p + 0x2C)
abbrev sessionsRefused (p : Nat) := blk 0x03 (0x40 * p + 0x30)
abbrev h2eSlot (n : Nat) := blk 0x04 (0x100 * n)
abbrev e2hSlot (n : Nat) := blk 0x04 (0x1000 + 0x100 * n)
abbrev e2bSlot (n : Nat) := blk 0x04 (0x2000 + 0x100 * n)
abbrev h2eFull := blk 0x04 0x3000
abbrev e2hFull := blk 0x04 0x3004
abbrev e2bFull := blk 0x04 0x3008
abbrev e2hDoorbell := blk 0x04 0x300C
abbrev e2bDoorbell := blk 0x04 0x3010
abbrev h2eReject := blk 0x04 0x3014
abbrev e2hReject := blk 0x04 0x3018
abbrev e2bReject := blk 0x04 0x301C
abbrev mbxIrqEn := blk 0x04 0x3020
abbrev h2eNext := blk 0x04 0x3024
abbrev bayResult (b : Nat) := blk 0x05 (0x10 * b)
abbrev baySelftestFail (b : Nat) := blk 0x05 (0x10 * b + 4)
abbrev bayApplied (b : Nat) := blk 0x05 (0x10 * b + 8)
abbrev beatCountLo := blk 0x08 0x000
abbrev beatCountHi := blk 0x08 0x004
abbrev tideCountLo := blk 0x08 0x008
abbrev tideCountHi := blk 0x08 0x00C
abbrev tidePeriod := blk 0x08 0x010
abbrev tideSlack := blk 0x08 0x014
abbrev holdWindow := blk 0x08 0x018
abbrev holdLimit := blk 0x08 0x01C
abbrev groupOffsetLo := blk 0x08 0x020
abbrev groupOffsetHi := blk 0x08 0x024
abbrev markInterval := blk 0x08 0x028
abbrev tideStatus := blk 0x08 0x02C
abbrev lastHoldBeats := blk 0x08 0x030
abbrev heldTides := blk 0x08 0x034
abbrev alignError := blk 0x08 0x038
abbrev numCtrl := blk 0x09 0x000
abbrev numStatus := blk 0x09 0x004
abbrev scaleBaseLo := blk 0x09 0x008
abbrev scaleBaseHi := blk 0x09 0x00C
abbrev scaleCount := blk 0x09 0x010
abbrev layerCount := blk 0x09 0x014
abbrev skippedSteps := blk 0x09 0x018
abbrev nonfinValues := blk 0x09 0x01C
abbrev jitRecords := blk 0x09 0x020
abbrev alarmIndex := blk 0x09 0x024
abbrev alarmHi := blk 0x09 0x028
abbrev alarmLo := blk 0x09 0x02C
abbrev numAlarms := blk 0x09 0x030
abbrev shelfCtrl := blk 0x0A 0x000
abbrev shelfStatus := blk 0x0A 0x004
abbrev shelfTopBase := blk 0x0A 0x008
abbrev shelfBodyBaseLo := blk 0x0A 0x00C
abbrev shelfBodyBaseHi := blk 0x0A 0x010
abbrev shelfLimit := blk 0x0A 0x014
abbrev shelfSpillBaseLo := blk 0x0A 0x018
abbrev shelfSpillBaseHi := blk 0x0A 0x01C
abbrev shelfSpillSize := blk 0x0A 0x020
abbrev shelfWaitLimit := blk 0x0A 0x024
abbrev layerBaseLo := blk 0x0A 0x028
abbrev layerBaseHi := blk 0x0A 0x02C
abbrev frameIndex := blk 0x0A 0x030
abbrev shelfErrInfo := blk 0x0A 0x034
abbrev hbmChunks := blk 0x0A 0x038
abbrev hbmChunksPeak := blk 0x0A 0x03C
abbrev spillChunks := blk 0x0A 0x040
abbrev spillAllocs := blk 0x0A 0x044
abbrev pushUnits := blk 0x0A 0x048
abbrev popUnits := blk 0x0A 0x04C
abbrev chunkMoves := blk 0x0A 0x050
abbrev leftoverFrames := blk 0x0A 0x054
abbrev popWaitCycles := blk 0x0A 0x058
abbrev frameData (i : Nat) := blk 0x0A (0x060 + 4 * i)
abbrev updBaseLo := blk 0x0B 0x000
abbrev updBaseHi := blk 0x0B 0x004
abbrev updCount := blk 0x0B 0x008
abbrev hpBaseLo := blk 0x0B 0x00C
abbrev hpBaseHi := blk 0x0B 0x010
abbrev updDefaults := blk 0x0B 0x014
abbrev updStatus := blk 0x0B 0x018
abbrev gate := blk 0x0B 0x01C
abbrev stepNumberLo := blk 0x0B 0x020
abbrev stepNumberHi := blk 0x0B 0x024
abbrev recordIndex := blk 0x0B 0x028
abbrev recState (i : Nat) := blk 0x0B (0x02C + 4 * i)
abbrev updErrInfo := blk 0x0B 0x03C
abbrev gateWaitCycles := blk 0x0B 0x040
abbrev verWaitCycles := blk 0x0B 0x044
abbrev commits := blk 0x0B 0x048
abbrev skippedUpdates := blk 0x0B 0x04C
abbrev gateNoneSteps := blk 0x0B 0x050
abbrev snapCtrl := blk 0x0C 0x000
abbrev snapStatus := blk 0x0C 0x004
abbrev snapSeq := blk 0x0C 0x008
abbrev snapCostUs := blk 0x0C 0x00C
abbrev snapTS := blk 0x0C 0x010
abbrev mtbfS := blk 0x0C 0x014
abbrev snapTableLo := blk 0x0C 0x018
abbrev snapTableHi := blk 0x0C 0x01C
abbrev snapCount := blk 0x0C 0x020
abbrev snapshots := blk 0x0C 0x024
abbrev snapDeferred := blk 0x0C 0x028
abbrev replays := blk 0x0C 0x02C
abbrev restoreSkews := blk 0x0C 0x030
abbrev dirtyBlocks := blk 0x0C 0x034
abbrev arrayCtrl (n : Nat) := blk 0x10 (0x40 * n)
abbrev rowMap (n : Nat) := blk 0x10 (0x40 * n + 0x04)
abbrev arrayStatus (n : Nat) := blk 0x10 (0x40 * n + 0x08)
abbrev chkFails (n : Nat) := blk 0x10 (0x40 * n + 0x0C)
abbrev retryCycles (n : Nat) := blk 0x10 (0x40 * n + 0x10)
abbrev passes (n : Nat) := blk 0x10 (0x40 * n + 0x14)
abbrev apdNoop (n : Nat) := blk 0x10 (0x40 * n + 0x18)
abbrev apdK0 (n : Nat) := blk 0x10 (0x40 * n + 0x1C)
abbrev loadCycles (n : Nat) := blk 0x10 (0x40 * n + 0x20)
abbrev vectorCycles (n : Nat) := blk 0x10 (0x40 * n + 0x24)
abbrev coldStarts (n : Nat) := blk 0x10 (0x40 * n + 0x28)
abbrev reelStallThresh := blk 0x11 0x000
abbrev reelStatus := blk 0x11 0x004
abbrev reelStalls := blk 0x11 0x008
abbrev reelVoids := blk 0x11 0x00C
abbrev setCfgLo := blk 0x11 0x010
abbrev setCfgHi := blk 0x11 0x014
abbrev portSlot (n : Nat) := blk 0x11 (0x100 + 0x20 * n)
abbrev fwdVectors (n : Nat) := blk 0x11 (0x104 + 0x20 * n)
abbrev usedVectors (n : Nat) := blk 0x11 (0x108 + 0x20 * n)
abbrev stallCycles (n : Nat) := blk 0x11 (0x10C + 0x20 * n)
abbrev heldCycles (n : Nat) := blk 0x11 (0x110 + 0x20 * n)
abbrev provDiscards (n : Nat) := blk 0x11 (0x114 + 0x20 * n)
abbrev turnCold (n : Nat) := blk 0x11 (0x118 + 0x20 * n)
abbrev fabricMode := blk 0x12 0x000
abbrev fabricStatus := blk 0x12 0x004
abbrev sramCeCount := blk 0x12 0x008
abbrev streamCtrl (n : Nat) := blk 0x12 (0x100 + 0x40 * n)
abbrev streamStatus (n : Nat) := blk 0x12 (0x104 + 0x40 * n)
abbrev queueOwnLo (n : Nat) := blk 0x12 (0x108 + 0x40 * n)
abbrev queueOwnHi (n : Nat) := blk 0x12 (0x10C + 0x40 * n)
abbrev opsInFlight (n : Nat) := blk 0x12 (0x110 + 0x40 * n)
abbrev opsPeak (n : Nat) := blk 0x12 (0x114 + 0x40 * n)
abbrev coreStall (n : Nat) := blk 0x12 (0x118 + 0x40 * n)
abbrev listSwitches (n : Nat) := blk 0x12 (0x11C + 0x40 * n)
abbrev rearmWaits (n : Nat) := blk 0x12 (0x120 + 0x40 * n)
abbrev lsConflicts (n : Nat) := blk 0x12 (0x124 + 0x40 * n)
abbrev raStarted (n : Nat) := blk 0x12 (0x128 + 0x40 * n)
abbrev raCommitted (n : Nat) := blk 0x12 (0x12C + 0x40 * n)
abbrev raCancelled (n : Nat) := blk 0x12 (0x130 + 0x40 * n)
abbrev raDiscardBytes (n : Nat) := blk 0x12 (0x134 + 0x40 * n)
abbrev raErrors (n : Nat) := blk 0x12 (0x138 + 0x40 * n)
abbrev bytesMoved (n : Nat) := blk 0x12 (0x13C + 0x40 * n)
abbrev bktCtrl := blk 0x13 0x000
abbrev bktStatus := blk 0x13 0x004
abbrev bktErrInfo := blk 0x13 0x008
abbrev bktState (i : Nat) := blk 0x13 (0x00C + 4 * i)
abbrev bktFlagsLo := blk 0x13 0x01C
abbrev bktFlagsHi := blk 0x13 0x020
abbrev bucketsDone := blk 0x13 0x024
abbrev nonfinBuckets := blk 0x13 0x028
abbrev piecesSent := blk 0x13 0x02C
abbrev piecesReceived := blk 0x13 0x030
abbrev creditWaitCycles := blk 0x13 0x034
abbrev barriersDone := blk 0x13 0x038
abbrev barLastBeats := blk 0x13 0x03C
abbrev ringCfg (n : Nat) := blk 0x13 (0x100 + 0x20 * n)
abbrev ringNext (n : Nat) := blk 0x13 (0x104 + 0x20 * n)
abbrev ringPrev (n : Nat) := blk 0x13 (0x108 + 0x20 * n)
abbrev ringLinksLo (n : Nat) := blk 0x13 (0x10C + 0x20 * n)
abbrev ringLinksHi (n : Nat) := blk 0x13 (0x110 + 0x20 * n)
abbrev devId := blk 0x18 0x000
abbrev routeIndex := blk 0x18 0x004
abbrev routeData := blk 0x18 0x008
abbrev routeDataC := blk 0x18 0x00C
abbrev linkThresh := blk 0x18 0x010
abbrev lossWait := blk 0x18 0x014
abbrev routeErrors := blk 0x18 0x018
abbrev linkCtrl (k : Nat) := blk 0x18 (0x100 + 0x40 * k)
abbrev linkState (k : Nat) := blk 0x18 (0x104 + 0x40 * k)
abbrev linkStatus (k : Nat) := blk 0x18 (0x108 + 0x40 * k)
abbrev laneMap (k : Nat) := blk 0x18 (0x10C + 0x40 * k)
abbrev partner (k : Nat) := blk 0x18 (0x110 + 0x40 * k)
abbrev rttAck (k : Nat) := blk 0x18 (0x114 + 0x40 * k)
abbrev crcErrors (k : Nat) := blk 0x18 (0x118 + 0x40 * k)
abbrev retries (k : Nat) := blk 0x18 (0x11C + 0x40 * k)
abbrev replayedFlits (k : Nat) := blk 0x18 (0x120 + 0x40 * k)
abbrev linkFecCorrected (k : Nat) := blk 0x18 (0x124 + 0x40 * k)
abbrev linkFecUncorr (k : Nat) := blk 0x18 (0x128 + 0x40 * k)
abbrev laneSwaps (k : Nat) := blk 0x18 (0x12C + 0x40 * k)
abbrev linkDowns (k : Nat) := blk 0x18 (0x130 + 0x40 * k)
abbrev laneSel (k : Nat) := blk 0x18 (0x134 + 0x40 * k)
abbrev laneSymErr (k : Nat) := blk 0x18 (0x138 + 0x40 * k)
abbrev laneMargin (k : Nat) := blk 0x18 (0x13C + 0x40 * k)
abbrev memCtrl := blk 0x20 0x000
abbrev memStatus := blk 0x20 0x004
abbrev hbmCapacity := blk 0x20 0x008
abbrev ddrCapacity := blk 0x20 0x00C
abbrev ueAddrLo := blk 0x20 0x010
abbrev ueAddrHi := blk 0x20 0x014
abbrev ueCount := blk 0x20 0x018
abbrev hbmState (s : Nat) := blk 0x20 (0x100 + 0x40 * s)
abbrev pcMap (s : Nat) := blk 0x20 (0x104 + 0x40 * s)
abbrev copyPtr (s : Nat) := blk 0x20 (0x108 + 0x40 * s)
abbrev ceCount (s : Nat) := blk 0x20 (0x10C + 0x40 * s)
abbrev stackUe (s : Nat) := blk 0x20 (0x110 + 0x40 * s)
abbrev pcSel (s : Nat) := blk 0x20 (0x114 + 0x40 * s)
abbrev pcCe (s : Nat) := blk 0x20 (0x118 + 0x40 * s)
abbrev stackTemp (s : Nat) := blk 0x20 (0x11C + 0x40 * s)
abbrev ddrState (c : Nat) := blk 0x20 (0x300 + 0x40 * c)
abbrev chCeCount (c : Nat) := blk 0x20 (0x304 + 0x40 * c)
abbrev chUeCount (c : Nat) := blk 0x20 (0x308 + 0x40 * c)
abbrev scrubPasses (c : Nat) := blk 0x20 (0x30C + 0x40 * c)
abbrev scrubCe (c : Nat) := blk 0x20 (0x310 + 0x40 * c)
end R

/-! ### Table 17.3, by block -/

/-- [DESIGN CHOICE, log entry 7] -/
def regRowsControl : List RegRow :=
  [ ⟨R.resetCause, 9, 0x1000000, 1, .ro, 0, 0xFFFFFFFF, false, false⟩,
    -- clock and power (Table 14.8)
    ⟨R.profTarget, 1, 0x1000000, 1, .rw, 1, 0x3, false, false⟩,
    ⟨R.profBoundaryLo, 2, 0x1000000, 1, .rw, 0, 0xFFFFFFFF, false, false⟩,
    ⟨R.profState, 1, 0x1000000, 1, .ro, 0x685, 0x3FCF, false, false⟩,
    ⟨R.thermCtrl, 1, 0x1000000, 1, .rw, 0x15A64, 0x3FFFF, false, false⟩,
    ⟨R.pwrCtrl, 1, 0x1000000, 1, .rw, 0x5A0A, 0xFFFF, false, false⟩,
    ⟨R.clkStatus, 1, 0x1000000, 1, .w1c, 0, 0x3F, false, false⟩,
    ⟨R.tjWest, 2, 0x1000000, 1, .ro, 0, 0xFF, false, false⟩,
    ⟨R.tjPeak, 1, 0x1000000, 1, .rc, 0, 0xFF, false, false⟩,
    ⟨R.pkgPower, 3, 0x1000000, 1, .ro, 0, 0xFFFFFFFF, false, false⟩,
    ⟨R.regionState 0, 1, 0x20, 40, .ro, 3, 0x1F, false, false⟩,
    ⟨R.swells 0, 2, 0x20, 40, .ro, 0, 0xFFFFFFFF, false, false⟩,
    ⟨R.maxSlip 0, 1, 0x20, 40, .rc, 0, 0x3, false, false⟩,
    ⟨R.marginRuns 0, 1, 0x20, 40, .ro, 0, 0xFFFFFFFF, false, false⟩,
    -- Lysholt (Table 16.12)
    ⟨R.portState 0, 1, 0x40, 2, .ro, 0, 0x173, false, false⟩,
    ⟨R.portStatus 0, 1, 0x40, 2, .w1c, 0, 0xF, false, false⟩,
    ⟨R.rxPower 0, 11, 0x40, 2, .ro, 0, 0xFFFFFFFF, false, false⟩,
    -- mailbox (Table 3.4)
    ⟨R.h2eSlot 0, 0x400, 0x1000000, 1, .ro, 0, 0xFFFFFFFF, false, false⟩,
    ⟨R.e2hSlot 0, 0x800, 0x1000000, 1, .rw, 0, 0xFFFFFFFF, false, false⟩,
    ⟨R.h2eFull, 3, 0x1000000, 1, .w1c, 0, 0xFFFF, false, false⟩,
    ⟨R.e2hDoorbell, 2, 0x1000000, 1, .wo, 0, 0xFFFF, false, false⟩,
    ⟨R.h2eReject, 3, 0x1000000, 1, .w1c, 0, 0xFFFF, false, false⟩,
    ⟨R.mbxIrqEn, 1, 0x1000000, 1, .rw, 7, 7, false, false⟩,
    ⟨R.h2eNext, 1, 0x1000000, 1, .rc, 0, 0x1F, false, false⟩,
    -- bay control (Table 17.4)
    ⟨R.bayResult 0, 1, 0x10, 16, .ro, 0, 0xFFFFFF0F, false, false⟩,
    ⟨R.baySelftestFail 0, 1, 0x10, 16, .ro, 0, 0x1FFFF, false, false⟩,
    ⟨R.bayApplied 0, 1, 0x10, 16, .ro, 0, 0xFFFFFF01, false, false⟩ ]

def regRowsSequencer : List RegRow :=
  [ -- tide sequencer (Table 2.9)
    ⟨R.beatCountLo, 4, 0x1000000, 1, .ro, 0, 0xFFFFFFFF, false, false⟩,
    ⟨R.tidePeriod, 1, 0x1000000, 1, .rw, 0x40000, 0xFFFFFFFF, true, false⟩,
    ⟨R.tideSlack, 1, 0x1000000, 1, .rw, 0x1E, 0xFFFFFFFF, true, false⟩,
    ⟨R.holdWindow, 1, 0x1000000, 1, .rw, 0, 0xFFFFFFFF, true, false⟩,
    ⟨R.holdLimit, 1, 0x1000000, 1, .rw, 0x1000000, 0xFFFFFFFF, false, false⟩,
    ⟨R.groupOffsetLo, 2, 0x1000000, 1, .ro, 0, 0xFFFFFFFF, false, false⟩,
    ⟨R.markInterval, 1, 0x1000000, 1, .rw, 0x4000, 0xFFFFFFFF, true, false⟩,
    ⟨R.tideStatus, 1, 0x1000000, 1, .w1c, 0, 0x3F, false, false⟩,
    ⟨R.lastHoldBeats, 3, 0x1000000, 1, .ro, 0, 0xFFFFFFFF, false, false⟩,
    -- numerics (Table 7.13)
    ⟨R.numCtrl, 1, 0x1000000, 1, .rw, 0xD, 0x1F, true, false⟩,
    ⟨R.numStatus, 1, 0x1000000, 1, .w1c, 0, 0x1F, false, false⟩,
    ⟨R.scaleBaseLo, 1, 0x1000000, 1, .rw, 0, 0xFFFFFFFF, true, false⟩,
    ⟨R.scaleBaseHi, 1, 0x1000000, 1, .rw, 0, 0xFFFF, true, false⟩,
    ⟨R.scaleCount, 2, 0x1000000, 1, .rw, 0, 0xFFFFFFFF, true, false⟩,
    ⟨R.skippedSteps, 3, 0x1000000, 1, .ro, 0, 0xFFFFFFFF, false, false⟩,
    ⟨R.alarmIndex, 1, 0x1000000, 1, .rw, 0, 0xFFFFFF, false, true⟩,
    ⟨R.alarmHi, 2, 0x1000000, 1, .rw, 0, 0xFFFFFFFF, false, false⟩,
    ⟨R.numAlarms, 1, 0x1000000, 1, .ro, 0, 0xFFFFFFFF, false, false⟩,
    -- Shelf (Table 8.11)
    ⟨R.shelfCtrl, 1, 0x1000000, 1, .rw, 0, 0x3F, true, false⟩,
    ⟨R.shelfStatus, 1, 0x1000000, 1, .w1c, 0, 0x1F, false, false⟩,
    ⟨R.shelfTopBase, 1, 0x1000000, 1, .rw, 0, 0x1F, true, false⟩,
    ⟨R.shelfBodyBaseLo, 1, 0x1000000, 1, .rw, 0, 0xFFFFFFFF, true, false⟩,
    ⟨R.shelfBodyBaseHi, 1, 0x1000000, 1, .rw, 0, 0xFFFF, true, false⟩,
    ⟨R.shelfLimit, 1, 0x1000000, 1, .rw, 0xC0, 0xFFFFFFFF, true, false⟩,
    ⟨R.shelfSpillBaseLo, 1, 0x1000000, 1, .rw, 0, 0xFFFFFFFF, true, false⟩,
    ⟨R.shelfSpillBaseHi, 1, 0x1000000, 1, .rw, 0, 0xFFFF, true, false⟩,
    ⟨R.shelfSpillSize, 1, 0x1000000, 1, .rw, 0, 0xFFFFFFFF, true, false⟩,
    ⟨R.shelfWaitLimit, 1, 0x1000000, 1, .rw, 0x16, 0xFFFFFFFF, true, false⟩,
    ⟨R.layerBaseLo, 1, 0x1000000, 1, .rw, 0, 0xFFFFFFFF, true, false⟩,
    ⟨R.layerBaseHi, 1, 0x1000000, 1, .rw, 0, 0xFFFF, true, false⟩,
    ⟨R.frameIndex, 1, 0x1000000, 1, .rw, 0, 0x1F03FF, false, true⟩,
    ⟨R.shelfErrInfo, 2, 0x1000000, 1, .ro, 0, 0xFFFFFFFF, false, false⟩,
    ⟨R.hbmChunksPeak, 1, 0x1000000, 1, .rc, 0, 0xFFFFFFFF, false, false⟩,
    ⟨R.spillChunks, 7, 0x1000000, 1, .ro, 0, 0xFFFFFFFF, false, false⟩,
    ⟨R.frameData 0, 8, 0x1000000, 1, .ro, 0, 0xFFFFFFFF, false, false⟩,
    -- update (Table 9.7)
    ⟨R.updBaseLo, 1, 0x1000000, 1, .rw, 0, 0xFFFFFFFF, true, false⟩,
    ⟨R.updBaseHi, 1, 0x1000000, 1, .rw, 0, 0xFFFF, true, false⟩,
    ⟨R.updCount, 1, 0x1000000, 1, .rw, 0, 0xFFFFFFFF, true, false⟩,
    ⟨R.hpBaseLo, 1, 0x1000000, 1, .rw, 0, 0xFFFFFFFF, true, false⟩,
    ⟨R.hpBaseHi, 1, 0x1000000, 1, .rw, 0, 0xFFFF, true, false⟩,
    ⟨R.updDefaults, 1, 0x1000000, 1, .rw, 6, 0xF, true, false⟩,
    ⟨R.updStatus, 1, 0x1000000, 1, .w1c, 0, 0x1F, false, false⟩,
    ⟨R.gate, 3, 0x1000000, 1, .ro, 0, 0xFFFFFFFF, false, false⟩,
    ⟨R.recordIndex, 1, 0x1000000, 1, .rw, 0, 0xFFF, false, true⟩,
    ⟨R.recState 0, 10, 0x1000000, 1, .ro, 0, 0xFFFFFFFF, false, false⟩,
    -- snapshot (Table 13.8)
    ⟨R.snapCtrl, 1, 0x1000000, 1, .rw, 0x190100, 0x7FFFFF, false, false⟩,
    ⟨R.snapStatus, 1, 0x1000000, 1, .w1c, 0, 0x3FF, false, false⟩,
    ⟨R.snapSeq, 3, 0x1000000, 1, .ro, 0, 0xFFFFFFFF, false, false⟩,
    ⟨R.mtbfS, 2, 0x1000000, 1, .rw, 0, 0xFFFFFFFF, false, false⟩,
    ⟨R.snapTableHi, 1, 0x1000000, 1, .rw, 0, 0xFFFF, false, false⟩,
    ⟨R.snapCount, 1, 0x1000000, 1, .rw, 0, 0xFFFFFFFF, false, false⟩,
    ⟨R.snapshots, 5, 0x1000000, 1, .ro, 0, 0xFFFFFFFF, false, false⟩ ]

/-- [DESIGN CHOICE, log entry 7] -/
def regRowsData : List RegRow :=
  [ -- array (Table 4.18)
    ⟨R.arrayCtrl 0, 1, 0x40, 256, .rw, 1, 0x77, true, false⟩,
    ⟨R.rowMap 0, 1, 0x40, 256, .ro, 0x7F007F, 0xC07F007F, false, false⟩,
    ⟨R.arrayStatus 0, 1, 0x40, 256, .w1c, 0, 0x7F, false, false⟩,
    ⟨R.chkFails 0, 8, 0x40, 256, .ro, 0, 0xFFFFFFFF, false, false⟩,
    -- Reel (Table 5.11)
    ⟨R.reelStallThresh, 1, 0x1000000, 1, .rw, 0x1000, 0xFFFFFFFF, true, false⟩,
    ⟨R.reelStatus, 1, 0x1000000, 1, .w1c, 0, 0xF, false, false⟩,
    ⟨R.reelStalls, 2, 0x1000000, 1, .ro, 0, 0xFFFFFFFF, false, false⟩,
    ⟨R.setCfgLo, 2, 0x1000000, 1, .ro, 0xFFFFFFFF, 0xFFFFFFFF, false, false⟩,
    ⟨R.portSlot 0, 1, 0x20, 256, .ro, 0, 0x1F, false, false⟩,
    ⟨R.fwdVectors 0, 6, 0x20, 256, .ro, 0, 0xFFFFFFFF, false, false⟩,
    -- stream (Table 6.15)
    ⟨R.fabricMode, 1, 0x1000000, 1, .ro, 0, 1, false, false⟩,
    ⟨R.fabricStatus, 1, 0x1000000, 1, .w1c, 0, 1, false, false⟩,
    ⟨R.sramCeCount, 1, 0x1000000, 1, .ro, 0, 0xFFFFFFFF, false, false⟩,
    ⟨R.streamCtrl 0, 1, 0x40, 256, .rw, 0x41, 0xF1, true, false⟩,
    ⟨R.streamStatus 0, 1, 0x40, 256, .w1c, 0, 0x3F, false, false⟩,
    ⟨R.queueOwnLo 0, 3, 0x40, 256, .ro, 0, 0xFFFFFFFF, false, false⟩,
    ⟨R.opsPeak 0, 1, 0x40, 256, .rc, 0, 0x7F, false, false⟩,
    ⟨R.coreStall 0, 10, 0x40, 256, .ro, 0, 0xFFFFFFFF, false, false⟩,
    -- bucket (Table 10.10)
    ⟨R.bktCtrl, 1, 0x1000000, 1, .rw, 0x10, 0x7F, true, false⟩,
    ⟨R.bktStatus, 1, 0x1000000, 1, .w1c, 0, 0xF, false, false⟩,
    ⟨R.bktErrInfo, 14, 0x1000000, 1, .ro, 0, 0xFFFFFFFF, false, false⟩,
    ⟨R.ringCfg 0, 1, 0x20, 16, .rw, 0, 0x8FFF0FFF, true, false⟩,
    ⟨R.ringNext 0, 2, 0x20, 16, .rw, 0xFFFF0000, 0xFFFFFFFF, true, false⟩,
    ⟨R.ringLinksLo 0, 2, 0x20, 16, .rw, 0, 0xFFFFFFFF, true, false⟩,
    -- link (Table 11.11)
    ⟨R.devId, 1, 0x1000000, 1, .rw, 0xFFFF0000, 0xFFFFFFFF, false, false⟩,
    ⟨R.routeIndex, 1, 0x1000000, 1, .rw, 0, 0xFFFF, false, true⟩,
    ⟨R.routeData, 1, 0x1000000, 1, .rw, 0, 0xFFFFFFFF, false, true⟩,
    ⟨R.routeDataC, 1, 0x1000000, 1, .rw, 0xFFFFFFFF, 0xFFFFFFFF, true, false⟩,
    ⟨R.linkThresh, 1, 0x1000000, 1, .rw, 0x280100, 0xFFFFFF, false, false⟩,
    ⟨R.lossWait, 1, 0x1000000, 1, .rw, 0x64, 0xFFFFFFFF, false, false⟩,
    ⟨R.routeErrors, 1, 0x1000000, 1, .ro, 0, 0xFFFFFFFF, false, false⟩,
    ⟨R.linkCtrl 0, 1, 0x40, 64, .rw, 0, 3, true, false⟩,
    ⟨R.linkState 0, 1, 0x40, 64, .ro, 0, 0xF, false, false⟩,
    ⟨R.linkStatus 0, 1, 0x40, 64, .w1c, 0, 0x1F, false, false⟩,
    ⟨R.laneMap 0, 1, 0x40, 64, .rw, 0x4688, 0x7FFF, false, false⟩,
    ⟨R.partner 0, 1, 0x40, 64, .ro, 0xFFFFFF, 0xFFFFFF, false, false⟩,
    ⟨R.rttAck 0, 8, 0x40, 64, .ro, 0, 0xFFFFFFFF, false, false⟩,
    ⟨R.laneSel 0, 1, 0x40, 64, .rw, 0, 0xF, false, true⟩,
    ⟨R.laneSymErr 0, 2, 0x40, 64, .ro, 0, 0xFFFFFFFF, false, false⟩,
    -- memory (Table 12.7)
    ⟨R.memCtrl, 1, 0x1000000, 1, .rw, 0x180401, 0xFFFFFF, false, false⟩,
    ⟨R.memStatus, 1, 0x1000000, 1, .w1c, 0, 0xF, false, false⟩,
    ⟨R.hbmCapacity, 5, 0x1000000, 1, .ro, 0, 0xFFFFFFFF, false, false⟩,
    ⟨R.hbmState 0, 1, 0x40, 8, .ro, 0, 0x1FF, false, false⟩,
    ⟨R.pcMap 0, 1, 0x40, 8, .ro, 0x3F3F, 0x3F3F, false, false⟩,
    ⟨R.copyPtr 0, 3, 0x40, 8, .ro, 0, 0xFFFFFFFF, false, false⟩,
    ⟨R.pcSel 0, 1, 0x40, 8, .rw, 0, 0x3F, false, true⟩,
    ⟨R.pcCe 0, 2, 0x40, 8, .ro, 0, 0xFFFF, false, false⟩,
    ⟨R.ddrState 0, 5, 0x40, 8, .ro, 0, 0xFFFFFFFF, false, false⟩ ]

/-- Table 17.3: every register of the device. -/
def regTable : List RegRow := regRowsControl ++ regRowsSequencer ++ regRowsData

/-- Whether key `k` lies in the run of registers `d`. -/
def RegRow.has (d : RegRow) (k : Nat) : Bool :=
  decide (d.base ≤ k) && decide (k % 4 = 0) && decide ((k - d.base) / d.stride < d.count)
    && decide ((k - d.base) % d.stride / 4 < d.run)

/-- The row of Table 17.3 that lists key `k`; none at an unlisted offset (R587). -/
def regRow (k : Nat) : Option RegRow := regTable.find? (·.has k)

/-- The key of unit 0 of the register at key `k`: which register of Table 17.3 it is. -/
def RegRow.id (d : RegRow) (k : Nat) : Nat := d.base + (k - d.base) % d.stride

/-- The unit number of key `k` in its group. -/
def RegRow.unit (d : RegRow) (k : Nat) : Nat := (k - d.base) / d.stride

/-- The reset value of key `k` (Table 17.3); PORT_SLOT resets to n mod 16, and an unlisted offset reads 0 (R587). [DESIGN CHOICE, log entry 7] -/
def regReset (k : Nat) : Word :=
  match regRow k with
  | none => 0
  | some d => if d.base = R.portSlot 0 then word (d.unit k % 16) else word d.reset

/-- The blocks of Table 17.1; every other block number is reserved (R586). -/
def blockListed (b : Nat) : Bool :=
  [0x00, 0x01, 0x02, 0x03, 0x04, 0x05, 0x08, 0x09, 0x0A, 0x0B, 0x0C, 0x10, 0x11, 0x12, 0x13, 0x18, 0x20].contains b

/-- The blocks that are unpowered in Sleep (Table 17.1). -/
def blockOffInSleep (b : Nat) : Bool := [0x10, 0x11, 0x12, 0x13, 0x18, 0x20].contains b

/-- A field of a register: where it lies and which values are legal (R18). -/
structure RegField where
  lo : Nat
  len : Nat
  ok : Nat → Bool

/-- A field of which every value is legal. -/
def RegField.any (lo len : Nat) : RegField := ⟨lo, len, fun _ => true⟩

/-- A field legal from `a` to `b`. -/
def RegField.range (lo len a b : Nat) : RegField := ⟨lo, len, fun v => decide (a ≤ v ∧ v ≤ b)⟩

/-- A field legal at multiples of `m`. -/
def RegField.mult (lo len m : Nat) : RegField := ⟨lo, len, fun v => v % m == 0⟩

/-- R435: a legal LANE_MAP names a physical lane 0-4 in each LOGn, 0-4 or none (7) in SPARE, and no lane twice. -/
def laneMapOk (v : Nat) : Bool :=
  let logs := [nbits v 0 3, nbits v 3 3, nbits v 6 3, nbits v 9 3]
  let spare := nbits v 12 3
  logs.all (· ≤ 4) && (spare ≤ 4 || spare == 7)
    && (logs ++ [spare]).Pairwise (· ≠ ·)

/-- R399: a ring entry's configuration: SIZE 1 is reserved when VALID, and POS lies below the ring size when VALID. -/
def ringCfgOk (v : Nat) : Bool :=
  let size := nbits v 0 12
  !(v.testBit 31) || (size != 1 && decide (nbits v 16 12 < (if size = 0 then 4096 else size)))

/-- The fields of the register `id` with their legal values; `cur` is the present value, for the ranges that depend on another
field (Table 14.10: RESUME_C from 60 to THROTTLE_C - 5, judged against the THROTTLE_C the same write leaves). [DEDUCED, log entry 28; DEDUCED, log entry 70] -/
def regFields (id : Nat) (cur new : Word) : List RegField :=
  if id = R.tidePeriod then [.range 0 32 4096 268435456]
  else if id = R.tideSlack then [.range 0 32 30 500]
  else if id = R.holdWindow then [.range 0 32 0 16777215]
  else if id = R.holdLimit then [.range 0 32 4096 0xFFFFFFFF]
  else if id = R.markInterval then [.range 0 32 1024 65536]
  else if id = R.profTarget then [.range 0 2 0 2]
  else if id = R.thermCtrl then
    let t := bits new 0 8
    let t' := if 70 ≤ t ∧ t ≤ 100 then t else bits cur 0 8
    [.range 0 8 70 100, .range 8 8 60 (t' - 5), .range 16 2 0 2]
  else if id = R.pwrCtrl then [.range 0 8 1 100, .range 8 8 50 95]
  else if id = R.numCtrl then [.range 0 5 10 20]
  else if id = R.scaleBaseLo then [.mult 0 32 128]
  else if id = R.scaleCount ∨ id = R.layerCount then [.range 0 32 0 1024]
  else if id = R.alarmIndex then [.range 0 16 0 1023, .range 16 8 0 3]
  else if id = R.shelfCtrl then [.range 0 6 0 32]
  else if id = R.shelfBodyBaseLo ∨ id = R.shelfSpillBaseLo then [.mult 0 32 0x100000]
  else if id = R.shelfLimit then [.range 0 32 1 504]
  else if id = R.shelfSpillSize then [.range 0 32 0 2048]
  else if id = R.shelfWaitLimit then [.range 0 32 16 28]
  else if id = R.layerBaseLo then [.mult 0 32 64]
  else if id = R.updBaseLo then [.mult 0 32 32]
  else if id = R.updCount then [.range 0 32 0 4096]
  else if id = R.hpBaseLo then [.mult 0 32 64]
  else if id = R.updDefaults then [.range 0 2 1 2, .range 2 2 1 2]
  else if id = R.snapCtrl then [.range 0 16 1 0xFFFF, .range 16 7 1 100]
  else if id = R.snapTableLo then [.mult 0 32 32]
  else if id = R.snapCount then [.range 0 32 0 4096]
  else if id = R.arrayCtrl 0 then [.any 0 1, .range 1 2 0 2, .any 4 3]
  else if id = R.reelStallThresh then [⟨0, 32, fun v => v == 0 || (64 ≤ v && v ≤ 16777215)⟩]
  else if id = R.streamCtrl 0 then [.any 0 1, .range 4 4 1 15]
  else if id = R.bktCtrl then [.range 0 7 4 64]
  else if id = R.ringCfg 0 then [⟨0, 32, ringCfgOk⟩]
  else if id = R.linkThresh then [.range 0 16 1 0xFFFF, .any 16 8]
  else if id = R.lossWait then [.range 0 32 10 10000]
  else if id = R.laneMap 0 then [⟨0, 15, laneMapOk⟩]
  else if id = R.laneSel 0 then [.range 0 3 0 4, .any 3 1]
  else if id = R.memCtrl then [.range 0 2 0 2, .range 2 14 1 0x3FFF, .range 16 8 0 168]
  else if id = R.mbxIrqEn then [.any 0 3]
  else if id = R.frameIndex then [.any 0 10, .any 16 5]
  else if id = R.recordIndex then [.any 0 12]
  else if id = R.routeIndex then [.any 0 16]
  else if id = R.pcSel 0 then [.any 0 6]
  else if id = R.linkCtrl 0 then [.any 0 2]
  else if id = R.shelfTopBase then [.any 0 5]
  else if id = R.scaleBaseHi ∨ id = R.layerBaseHi ∨ id = R.shelfBodyBaseHi ∨ id = R.shelfSpillBaseHi ∨ id = R.updBaseHi
      ∨ id = R.hpBaseHi ∨ id = R.snapTableHi then [.any 0 16]
  else [.any 0 32]

/-- R16 and R18: what a write of `new` leaves in the register `id` whose fields last held `cur`: each field takes a legal new value
and keeps its previous value otherwise; reserved bits stay 0. None when no field takes its new value: the write has no effect. -/
def regMerge (id : Nat) (cur new : Word) : Option Word :=
  let fs := regFields id cur new
  if fs.any fun f => f.ok (bits new f.lo f.len) then
    some (fs.foldl (fun v f => if f.ok (bits new f.lo f.len) then setBits v f.lo f.len (bits new f.lo f.len) else v) cur)
  else none

end Sys2Proof.Machine
end

