-- ==== Sys2Proof/Machine/Sparse.lean ====
section
/-!
DEFINITION. Sparse maps: an association list from numbers in ONE canonical form. Keys rise strictly and no entry holds the value
that an unlisted key reads as, so that equal maps are equal lists. Memory, registers and every per-unit table of State are
held so.
-/
namespace Sys2Proof.Machine

/-- The value at key `k`; `d` is what an unlisted key reads as. -/
def Sparse.get {α : Type} (d : α) : List (Nat × α) → Nat → α
  | [], _ => d
  | (k, v) :: m, i => if i = k then v else Sparse.get d m i

/-- `m` without key `i`. -/
def Sparse.erase {α : Type} : List (Nat × α) → Nat → List (Nat × α)
  | [], _ => []
  | (k, v) :: m, i => if i = k then m else (k, v) :: Sparse.erase m i

/-- `m` with key `i` listed at value `v`, keys kept rising. -/
def Sparse.insert {α : Type} : List (Nat × α) → Nat → α → List (Nat × α)
  | [], i, v => [(i, v)]
  | (k, w) :: m, i, v =>
    if i < k then (i, v) :: (k, w) :: m
    else if i = k then (i, v) :: m
    else (k, w) :: Sparse.insert m i v

/-- `m` with key `i` reading as `v`; `d` is what `i` reads as when it is unlisted, and writing it removes the entry. -/
def Sparse.put {α : Type} [DecidableEq α] (d : α) (m : List (Nat × α)) (i : Nat) (v : α) : List (Nat × α) :=
  if v = d then Sparse.erase m i else Sparse.insert m i v

/-- `m` without the keys of which `p` holds. -/
def Sparse.dropKeys {α : Type} (p : Nat → Bool) (m : List (Nat × α)) : List (Nat × α) := m.filter fun e => !p e.1

/-- Keys above `i` and strictly rising. -/
def Sparse.rising {α : Type} : Nat → List (Nat × α) → Bool
  | _, [] => true
  | i, (k, _) :: m => decide (i < k) && Sparse.rising k m

/-- The canonical form: strictly rising keys, and no entry equal to what an unlisted key reads as. -/
def Sparse.wf {α : Type} [DecidableEq α] (d : Nat → α) (m : List (Nat × α)) : Bool :=
  (match m with
   | [] => true
   | (k, _) :: t => Sparse.rising k t)
  && m.all fun e => decide (e.2 ≠ d e.1)

end Sys2Proof.Machine
end

