-- ==== Sys2Proof/Machine/State.lean ====
section
/-!
DEFINITION. The state of the KZ7640 as a block: every register (one register file keyed by Table 17.3), memory, and the state that
has no register, in one structure for each unit; the queue of waiting commands; and the state right after power-on.
-/
namespace Sys2Proof.Machine

/-! ### What the part and the board fix (no command changes them) -/

/-- Ordering code (R594), serial, ROM and the pins the board ties (R538, R555, R580). -/
structure Part where
  /-- -280 speed bin (Table 0.1). -/
  fast : Bool := false
  /-- 12-high stacks of 48 GiB (Table 18.1). -/
  high12 : Bool := false
  serial : List Byte := List.replicate 16 0
  romVersion : Word := 0
  secVersionMin : Half := 0
  romDigest : List Byte := List.replicate 64 0
  /-- The three certificates in DER (R580): device CA, identity, attestation. -/
  certs : List (List Byte) := [[], [], []]
  /-- VDD_CORE set points in mV for Neap, Mean and Spring, fixed at manufacture (R597). -/
  coreMv : List Nat := [640, 752, 860]
  /-- The private identity and attestation keys, in the key store (R577, Table 16.8). -/
  identityKey : List Byte := List.replicate 66 0
  attestationKey : List Byte := List.replicate 66 0
  /-- Whether the stepping's Enmora cores are power-gated while idle (Table 3.3). -/
  enmoraGated : Bool := false
  deriving DecidableEq, Repr

/-! ### The always-on domain (R551, R552) -/

/-- A spare substitution of the spare map: which class of Table 13.1, what failed, what replaced it. -/
structure SpareUse where
  cls : Nat
  failed : Nat
  spare : Nat
  deriving DecidableEq, Repr

/-- State of the always-on domain that a pin reset keeps and power-on clears (Table 15.7). -/
structure Kept where
  /-- Enmora backup registers, 32 of 64 bits. -/
  backup : List (Nat × Dword) := []
  /-- Enmora retained SRAM, 16 KiB: the log-format records written to it, newest last (R117, R513, R576), and its raw bytes. -/
  records : List (List Byte) := []
  retained : List Host.Cell := []
  /-- Failed core slots by physical number (R23). -/
  failedSlots : List Nat := []
  /-- Bays whose spare slot 16 serves the position given (R23). -/
  spareSlotOf : List (Nat × Nat) := []
  /-- Spare slices in use: half to the logical slice it serves (R24, R464). -/
  spareSlice : List (Nat × Nat) := []
  /-- Generators that have failed, as region times 2 plus 0 for the running and 1 for the standby generator (R537). -/
  failedGens : List Nat := []
  /-- Spares in use, or events absorbed, by row of Table 13.1 (R463, DEV_SPARES). -/
  spares : List Nat := List.replicate 10 0
  /-- Enmora cores recorded as failed (R548). -/
  failedEnmora : List Nat := []
  /-- Regions of the retained PLL_FAULT records (R529), 40 for the beat PLL, and of the domain failures (R537). -/
  pllFaults : List Nat := []
  domainFails : List Nat := []
  deriving DecidableEq, Repr

/-- Why the present reset was honoured, held while it is asserted, and the reset pins (R527 to R534, R605, R606). -/
structure ResetLogic where
  /-- Reset is asserted to every domain outside the always-on domain. -/
  asserted : Bool := true
  /-- Power-on detection holds reset: VDD_AON is below its threshold, or has been above it for less than 1 ms. -/
  powerOn : Bool := true
  /-- The filtered RESET_N is low. -/
  pinLow : Bool := false
  /-- The receiver of the boot port has locked on the recovered reference (R539). -/
  refLocked : Bool := false
  /-- RESET_REQ_N is asserted: a PLL_FAULT record waits for the next reset cause (R529). -/
  pllFault : Bool := false
  /-- THERMTRIP_N is asserted: a thermal trip precedes the next reset (R513, R530). -/
  tripped : Bool := false
  deriving DecidableEq, Repr

/-! ### Enmora and the mailboxes (chapter 3) -/

/-- A response that waits for its E2H mailbox (R105), or an event for E2H 15 (R108). -/
structure Msg where
  /-- The H2E mailbox of the command; E2H mailbox of the response. -/
  mb : Nat
  opcode : Half
  tag : Half
  status : Byte
  pay : List Byte
  deriving DecidableEq, Repr

/-- An event that waits for E2H 15 (R107); `seq` is the sequence number of its log entry. -/
structure Evt where
  code : Half
  seq : Word
  more : List Byte
  deriving DecidableEq, Repr

/-- A REG_POLL in progress (R110). -/
structure Poll where
  mb : Nat
  tag : Half
  key : Nat
  mask : Word
  value : Word
  deriving DecidableEq, Repr

/-- How far Enmora is with a command that it has taken (R89): not begun; begun, with its answer to come; answered, its response not posted. -/
inductive Progress where
  | waiting | begun | answered
  deriving DecidableEq, Repr

/-- An entry of the role journal (R89): the H2E mailbox, and the message's OPCODE, TAG and payload of LENGTH bytes. -/
structure Taken where
  mb : Nat
  opcode : Half
  tag : Half
  pay : List Byte
  phase : Progress := .waiting
  deriving DecidableEq, Repr

structure Enmora where
  /-- The firmware runs (from the ENMORA stage on). -/
  running : Bool := false
  /-- The Enmora core that runs the Command, Tide and Health roles (R86). -/
  roleCore : List Nat := [0, 1, 2]
  /-- Cores held in reset as failed (R87). -/
  failed : List Nat := []
  /-- H2E doorbells not yet returned by H2E_NEXT, oldest first (R104). -/
  order : List Nat := []
  /-- Commands taken whose response is not yet posted, in the order taken (the journal of R89, R104). -/
  taken : List Taken := []
  /-- Lysholt session that posted each H2E mailbox's current message (R98). -/
  poster : List (Nat × Nat) := []
  responses : List Msg := []
  events : List Evt := []
  /-- EVT_LOST of DEV_STATUS (R107). -/
  evtLost : Word := 0
  /-- TEL_EVENT_MASK, bits 9:0 (R121). -/
  eventMask : BitVec 10 := 0
  polls : List Poll := []
  /-- Interrupt to the Command role pending (R99). -/
  irq : Bool := false
  /-- The cores are power-gated while idle (Table 3.3). -/
  gated : Bool := false
  deriving DecidableEq, Repr

/-! ### The error and telemetry log (R32, R117) -/

/-- A log entry without its SEQ, which is its place in the ring (Table 3.14). -/
structure LogEntry where
  beat : Dword
  tide : Dword
  source : Half
  code : Half
  core : Half
  tag : Half
  detail : List Byte
  deriving DecidableEq, Repr

structure Log where
  /-- Entries held, newest first; at most 4,096. The newest has sequence number `next` - 1. -/
  entries : List LogEntry := []
  next : Word := 0
  /-- Read pointer (R121). -/
  read : Word := 0xFFFFFFFF
  /-- Lost-entry counter (R33). -/
  lost : Word := 0
  /-- Telemetry area: base, size in MiB, and where the next record begins; none after a TEL_AREA_SET (R123). -/
  areaBase : Nat := 0
  areaMiB : Nat := 0
  areaNext : Option Nat := none
  deriving DecidableEq, Repr

/-! ### The tide sequencer (chapter 2) -/

/-- A change that waits for step 3 of a boundary (R30, R31, R41), in order of acceptance. -/
inductive Shadow where
  | reg (key : Nat) (value : Word)
  | route (dev : Nat) (entry : Dword)
  deriving DecidableEq, Repr

/-- States of an image handle (Table 2.12). -/
inductive ImgState where
  | free | loaded | admitted | running | finished
  deriving DecidableEq, Repr

/-- A cost entry with its directory entry (Tables 2.4 and R71); `tide` counts from k0. -/
structure Cost where
  tide : Nat
  engine : Nat
  cycles : Nat
  fixedBeats : Nat
  span : Nat
  mb : Nat
  /-- Offset and count of each list with a non-zero count, with its number 0-7. -/
  lists : List (Nat × Nat × Nat)
  deriving DecidableEq, Repr

structure Image where
  st : ImgState := .free
  addr : Nat := 0
  len : Nat := 0
  k0 : Nat := 0
  span : Nat := 0
  period : Nat := 0
  minSlack : Nat := 0
  mask : Nat := 0
  replayable : Bool := false
  crossStrait : Bool := false
  costs : List Cost := []
  /-- Pending writes that its admission counted: key and value (R50). -/
  counted : List (Nat × Word) := []
  /-- It is bound to a RESID record whose FMT is BF16 (R292). -/
  resid : Bool := false
  /-- Boundary from which it has been withdrawn (R50, R67, R472). -/
  withdrawn : Option Nat := none
  deriving DecidableEq, Repr

/-- A remote holder of a boundary (R63): its device, the boundary its HOLD named, the boundary to which this device applies the hold (R64), and
its release beat once released. -/
structure Holder where
  dev : Nat
  named : Nat
  boundary : Nat
  release : Option Int
  deriving DecidableEq, Repr

/-- An engine's report for the closing tide (R31, R53): its core, the group beat, its working and stall cycles, the cause it would give a hold
(Table 2.2), the MB_ID of its cost entry, and the boundary that closes the entry. -/
structure Report where
  core : Nat
  close : Nat
  beat : Int
  working : Word
  stall : Word
  cause : Nat
  mb : Nat
  deriving DecidableEq, Repr

/-- A LOCAL_MARK recorded in the tide's telemetry record (R122). -/
structure Mark where
  beat : Dword
  id : Nat
  core : Nat
  deriving DecidableEq, Repr

structure Tide where
  /-- RUNNING: boundaries fall. -/
  running : Bool := false
  /-- TIDE_COUNT (R39). -/
  count : Dword := 0
  /-- The boundary that is next to open. -/
  next : Nat := 0
  /-- Group beat named by an accepted TIDE_RUN whose boundary has not fallen. -/
  runAt : Option Int := none
  /-- Group beat at which the tide in progress opened. -/
  openBeat : Int := 0
  /-- GROUP_OFFSET (R38). -/
  offset : Dword := 0
  /-- Boundaries that TIDE_STOPs name (R42). -/
  stops : List Nat := []
  hostHolds : List Nat := []
  /-- Boundaries held by a TIDE_HOLD, with the group beat at which each was released. -/
  hostReleased : List (Nat × Int) := []
  /-- Boundaries of which this device is a holder: HOLD sent, RELEASE not yet. -/
  selfHolds : List Nat := []
  /-- Release beats this device announced: boundary and beat (R63). -/
  selfReleases : List (Nat × Int) := []
  holders : List Holder := []
  /-- The nominal boundary has fallen (R51). -/
  fallen : Bool := false
  /-- Causes of the hold met outside the engines: bit v for cause v (R52, R53). -/
  causes : Nat := 0
  /-- Engines that have reported for the closing tide, oldest first (R51). -/
  reports : List Report := []
  /-- R54: the group beat since which step 1 has not been satisfied, and the beats counted before that. -/
  hangFrom : Option Int := none
  hangCount : Nat := 0
  /-- Steps 1 to 3 of the next boundary have run, and its step 4 waits: for the beat at which 512 beats end (R507), or for a freeze (R481). -/
  past3 : Bool := false
  settleAt : Option Int := none
  freezing : Bool := false
  /-- The nominal beat of the boundary that a freeze holds (R481). -/
  heldFrom : Option Int := none
  /-- Step 4 releases nothing and stops the sequencer (R42). -/
  stopping : Bool := false
  /-- The tide in progress is a replay (R57). -/
  replayed : Bool := false
  /-- The latest tide for which a forced profile change or Strait-split mode was in effect, or in which the 512 beats of a frequency step fell (R53). -/
  clockTide : Option Nat := none
  /-- Issue stopped on every core (R60, R472, R529, R576). -/
  issueStop : Bool := false
  /-- Cores on which a fault has been found that CORE_FAULT has not handled: a complement pair of a running descriptor failed (R209, R252, R397). -/
  faults : List Nat := []
  /-- Issue stops at the next boundary (R60). -/
  stopNext : Bool := false
  marks : List Mark := []
  marksLost : Bool := false
  residBf16 : Bool := false
  /-- The tide's closing boundary is a step advance; whether the advance is to be quiescent (R345). -/
  stepMark : Bool := false
  quiescent : Bool := false
  deriving DecidableEq, Repr

structure Group where
  member : Bool := false
  size : Nat := 0
  master : Nat := 0
  parent : Nat := 0
  pathDelay : Nat := 0
  children : List Nat := []
  /-- No mark has arrived since the member joined (R84). -/
  firstMark : Bool := false
  /-- An alignment loss has been raised and not yet left behind (R60). -/
  lossRaised : Bool := false
  /-- Boundary at which it leaves; the inner none stands for a stopped apply (R41, R84). -/
  leaveAt : Option (Option Nat) := none
  /-- Group beat of the last mark that the master emitted, or of its joining (R58). -/
  lastMark : Int := 0
  deriving DecidableEq, Repr

/-- Job state (JOB_STATUS, R82). -/
structure Job where
  exists_ : Bool := false
  id : Word := 0
  /-- The 48-bit job seed. -/
  seed : BitVec 48 := 0
  perStep : Dword := 0
  epoch : Word := 0
  shard : Word := 0
  sample : Dword := 0
  step : Dword := 0
  /-- Stopped for restart (R472), with the cause code of Table 13.3. -/
  restart : Option Nat := none
  /-- The device counts as lost (Table 13.3). -/
  lost : Bool := false
  /-- On-chip words that have failed and have not been found; a restart writes them anew. -/
  soft : List Spoil := []
  /-- Beat and core of the error that an INFO register keeps, by register (R326). -/
  firstErr : List (Nat × Int × Nat) := []
  deriving DecidableEq, Repr

/-! ### Clocks, profiles and power (chapter 14) -/

/-- A commanded profile change that waits (R65): its boundary, or none when it waits for a stopped apply (R41). -/
structure ProfCmd where
  boundary : Option Nat
  profile : Nat
  deriving DecidableEq, Repr

/-- A forced profile change or a ceiling rise (R506, R509 to R511): its boundary (none: a stopped apply), by how many profiles it moves
each ceiling, whether it enters Strait-split mode, and its cause (Table 14.7). -/
structure ProfForced where
  boundary : Option Nat
  dW : Int
  dE : Int
  split : Bool
  cause : Nat
  deriving DecidableEq, Repr

/-- A history entry (Table 14.6). -/
structure ProfHist where
  tide : Dword
  old : Nat
  new : Nat
  cause : Nat
  deriving DecidableEq, Repr

/-- Swell state of an array-clock region (R500, R502): a warning carried forward, and the swells in a row at every allowed cycle. -/
structure RegionDyn where
  carried : Bool := false
  run : Nat := 0
  deriving DecidableEq, Repr

structure Pwr where
  cmds : List ProfCmd := []
  forced : List ProfForced := []
  /-- Beat from which a half whose ceiling was lowered is free again, none when it is free (R509): West, East. -/
  busy : List (Option Nat) := [none, none]
  /-- Beat since which the half's TJ has been at or below RESUME_C, and since which package power has been low enough (R511). -/
  cool : List (Option Nat) := [none, none]
  calm : List (Option Nat) := [none, none]
  /-- Beat of the half's last rise decision, and of the last MARGIN_LOW (R511). -/
  lastRise : List (Option Nat) := [none, none]
  lastMargin : Option Nat := none
  /-- Newest first, at most 16. -/
  history : List ProfHist := []
  /-- Package power samples in tenths of a mW, one each ms, newest first, at most 100 (R600). -/
  samples : List Nat := []
  /-- The profile whose VDD_CORE set point was last written (R601). -/
  setPoint : Nat := 1
  regions : List (Nat × RegionDyn) := []
  /-- Slip of each crossing in quarter cycles, keyed by 64 times the lower region plus the higher; positive when the lower is ahead. -/
  slips : List (Nat × Int) := []
  /-- XING_RECENTRES (R498). -/
  recentres : Word := 0
  /-- The generators settle: step 4 of the boundary waits the 512 beats of R507. -/
  settling : Bool := false
  /-- Of a half whose frequency has changed, the group beat at which its generators loaded it, the latest change (R507). -/
  stepped : List (Nat × Int) := []
  sleep : Bool := false
  /-- Standby generators brought into use in this boot and not yet reported: the regions (R548). -/
  sparedAtBoot : List Nat := []
  /-- Entry to Sleep is in progress (R518). -/
  entering : Bool := false
  /-- DEV_SLEEP accepted: its boundary (none: a stopped apply) and SLICE_RETAIN. -/
  sleepAt : Option (Option Nat × Bool) := none
  /-- Shared slices are in retention. -/
  retain : Bool := false
  /-- DEV_WAKE in progress: the mailbox and TAG to answer. -/
  waking : Option (Nat × Half) := none
  deriving DecidableEq, Repr

/-! ### Lysholt ports and the Lighthouse (chapter 16) -/

/-- A frame the device has sent and that is not yet acknowledged, or that waits for room among the 64 (R563). -/
structure TxFrame where
  seq : Nat
  type : Nat
  ftag : Half
  pay : List Byte
  sends : Nat
  deriving DecidableEq, Repr

/-- What a session derives (R567): the AES-256 key and the 4-byte salt of each direction, host to device first. -/
structure SecKeys where
  rxKey : List Byte
  txKey : List Byte
  rxSalt : List Byte
  txSalt : List Byte
  deriving DecidableEq, Repr

/-- A session (R565 to R570). -/
structure Session where
  /-- BOOT session; otherwise RUN. -/
  boot : Bool := false
  /-- Open: a BOOT session from HELLO_REPLY, a RUN session from OPEN. -/
  isOpen : Bool := false
  expert : Bool := false
  /-- Next SEQ expected and next SEQ to send. -/
  rx : Nat := 1
  tx : Nat := 1
  /-- ACK counters: last accepted and last sent. -/
  ackRx : Nat := 0
  ackTx : Nat := 0
  unacked : List TxFrame := []
  waiting : List TxFrame := []
  /-- Consecutive frames whose tag failed. -/
  tagRun : Nat := 0
  /-- Failed SEC_EXPERT commands. -/
  expertFails : Nat := 0
  /-- Transcript hash TH (R566). -/
  th : List Byte := []
  /-- Attestation report held (R579). -/
  report : Option (List Byte) := none
  /-- KEYS received in this boot session (R569). -/
  keys : Bool := false
  /-- Keys and salts of its frame protection, from HELLO_REPLY on (R567). -/
  sec : Option SecKeys := none
  deriving DecidableEq, Repr

/-- A bulk window (R572): the session it belongs to, its base, its length, and whether reads and writes are allowed. -/
structure Window where
  session : Nat
  base : Nat
  len : Nat
  rd : Bool
  wr : Bool
  deriving DecidableEq, Repr

/-- What the device has put out (the model's own record): a frame of a session, with the GCM nonce that protects it (R567; none for HELLO_REPLY),
or a packet on a link. -/
inductive Out where
  | frame (session type : Nat) (seq : Nat) (nonce : List Byte) (ftag : Half) (pay : List Byte)
  /-- A flit on a link: its body in bits 511:0, its CRC-32 above (R409); whether it is sent again (R415). -/
  | flit (link : Nat) (f : BitVec 544) (resent : Bool)
  /-- PARAM: this device's id and link number go to the partner (Table 11.2). -/
  | param (link : Nat) (dev : Half)
  /-- What a snapshot's transfer sends (R482): a Mirror entry, or the job state block under number 65,536, for a mirror slot of the buddy; and the
delta of a parity block for a holder of its stripe's parity, with its round, its stripe and the sender's position (R478). Bytes by offset. -/
  | mirror (dst : Half) (slot entry : Nat) (cells : List Host.Cell)
  | delta (dst : Half) (round stripe pos : Nat) (cells : List Host.Cell)
  /-- A message over the mesh on VC0 from one block of the device to another: a SIGNAL increment (R74). -/
  | signal (target evt : Nat) (count : Word)
  deriving DecidableEq, Repr

structure Lys where
  /-- Sessions 0-7; 0-3 on port A and 4-7 on port B (R565). -/
  sessions : List (Option Session) := List.replicate 8 none
  windows : List (Option Window) := List.replicate 4 none
  /-- The Lighthouse is in its error state (R576). -/
  error : Bool := false
  fwDigest : List Byte := List.replicate 64 0
  operatorDigest : List Byte := List.replicate 64 0
  tideDigest : List Byte := List.replicate 64 0
  tideMeasures : Dword := 0
  /-- Measurement log, newest first: k0 and h; at most 1,024 (R578). -/
  measures : List (Dword × List Byte) := []
  qb : List Byte := []
  qe : List Byte := []
  /-- An expert session has existed since reset (Table 16.9). -/
  expertSeen : Bool := false
  secVersion : Half := 0
  /-- State and entropy input of CTR_DRBG, empty while zeroised, and the requests since it was seeded (R574, R577). -/
  drbg : List Byte := []
  entropy : List Byte := []
  drbgRequests : Nat := 0
  /-- Boot image: bytes written to Enmora private SRAM and which offsets are written, in 64-byte blocks (R543, R569). -/
  image : List Host.Cell := []
  imageBlocks : List (Nat × Bool) := []
  /-- The boot session concerned: the latest to open or to send an IMAGE frame (R547). -/
  imageBy : Option Nat := none
  /-- Newest first. -/
  sent : List Out := []
  deriving DecidableEq, Repr

/-- A bay order that waits for its boundary (R116, R591): bay, TAG, OPCODE, boundary, argument. -/
structure BayOrder where
  bay : Nat
  tag : Half
  opcode : Half
  boundary : Nat
  arg : List Byte
  deriving DecidableEq, Repr

structure Bay where
  scheduled : List BayOrder := []
  /-- E2B messages posted and not yet reported as unanswered. -/
  waiting : List Nat := []
  deriving DecidableEq, Repr

/-! ### Links (chapter 11) -/

/-- A lane swap in progress (R419): whether this end receives, the logical lane, the failed and the spare physical lane, and whether
SWAP_MARK has come. -/
structure Swap where
  receive : Bool
  lane : Nat
  failed : Nat
  spare : Nat
  marked : Bool := false
  deriving DecidableEq, Repr

/-- A flit in the replay buffer (R414): its sequence number, its place in its packet, the sequence number of that packet's header, the packet. -/
structure TxFlit where
  seq : Nat
  num : Nat
  head : Nat
  pkt : Pkt
  deriving DecidableEq, Repr

/-- What a link that went DOWN holds until its partner's LOSS_REPORT (R428): the packets, oldest first, with the sequence number of their last
flit, none for a packet that was never sent whole; and the partner's device id and link number as they stood. -/
structure LinkLoss where
  held : List (Option Nat × Pkt)
  dev : Half
  link : Nat
  deriving DecidableEq, Repr

/-- What one link holds beside its registers. -/
structure LinkSt where
  /-- Next sequence number to send, and next expected (R413). -/
  txSeq : Nat := 0
  rxSeq : Nat := 0
  /-- Replay buffer: the flits of packets not wholly acknowledged, oldest first (R414). -/
  replay : List TxFlit := []
  /-- Packets that wait for replay room, credit, the end of a SWAP, or a change of IN_SERVICE, and of each channel how many flits of its first have
  been sent (R410). -/
  queue : List Pkt := []
  sent : List Nat := [0, 0, 0, 0]
  /-- Position in the pattern of Table 6.5. -/
  slot : Nat := 0
  /-- Flits sent to, and credits returned by, the partner, modulo 4,096, by buffer class 2 × VC + class (R417, Table 11.6). -/
  sentCr : List Nat := List.replicate 8 0
  retCr : List Nat := List.replicate 8 0
  /-- Buffer entries this receiver has freed, modulo 4,096. -/
  freed : List Nat := List.replicate 8 0
  /-- Sequenced flits since the last ACK this receiver sent (R414). -/
  unacked : Nat := 0
  /-- Of each channel, the flits received of the packet under way (R410); and the sequence number of the last flit of the last whole packet
  (LAST_SEQ, Table 11.16). -/
  part : List Nat := [0, 0, 0, 0]
  lastWhole : Nat := 65535
  /-- The receiver discards sequenced flits until resent ones arrive, and NACKs sent for the present sequence (R415). -/
  discarding : Bool := false
  nacks : Nat := 0
  /-- A NACK has gone out at the end of a swap, and no flit has come since (R415, R419). -/
  await : Bool := false
  /-- Physical lanes of receive logical lanes 0-3, and the receive spare when one is left (R435). -/
  rxMap : List Nat := [0, 1, 2, 3]
  rxSpare : Option Nat := some 4
  /-- The receive spare is marked unusable (R418). -/
  rxBad : Bool := false
  swap : Option Swap := none
  /-- Returns to DETECT within the present LINK_TRAIN (R406). -/
  returns : Nat := 0
  /-- The times that the link went DOWN and neither a LOSS_REPORT nor the end of LOSS_WAIT has settled, oldest first. -/
  losses : List LinkLoss := []
  /-- BAD_PACKETS, held by the firmware (R432). -/
  badPackets : Word := 0
  deriving DecidableEq, Repr

/-- A JOB_MEASURE in progress (R82): its mailbox and TAG, and the round trips measured so far, in beats. -/
structure Measure where
  mb : Nat
  tag : Half
  trips : List Nat
  deriving DecidableEq, Repr

structure LinkBlk where
  links : List LinkSt := List.replicate 64 {}
  /-- New packets that wait for the resend of packets to their destination (R428). -/
  waitQ : List Pkt := []
  /-- TIDE, BARRIER and LOSS_REPORT packets that wait for a path in service (R424). -/
  noPath : List Pkt := []
  /-- Failed entries reported since they were last stored: the device id of a routing entry, 65,536 for DEV_ID. -/
  reported : List Nat := []
  measures : List Measure := []
  deriving DecidableEq, Repr

/-! ### Descriptor lists, streams and the Reel (chapters 2, 5, 6) -/

/-- A released descriptor list (R31, R71): its image, engine, number, opening tide, closing boundary and MB_ID, its descriptors, how many have
issued, which of those have not completed (by SEQ), and of these the ones whose work has drained (R73). -/
structure DList where
  handle : Nat
  core : Nat
  num : Nat
  tide : Nat
  close : Nat
  mb : Nat
  descs : List (BitVec 512)
  issued : Nat := 0
  busy : List Nat := []
  drained : List Nat := []
  /-- The gated operations among them that completed as no-ops of a skipped step (R348). -/
  skipped : List Nat := []
  deriving DecidableEq, Repr

/-- A descriptor in a list. -/
structure DescRef where
  core : Nat
  list : Nat
  idx : Nat
  deriving DecidableEq, Repr

/-- A memory operation of a core's stream engine in flight (R231). `dst` is where the data of a read goes; `dev` is the device of a remote
target; `gone`: it was cancelled, and its data is discarded (R247). -/
structure MemOp where
  id : Nat
  own : DescRef
  write : Bool
  addr : Nat
  len : Nat
  dst : Nat := 0
  dev : Option Half := none
  data : List Byte := []
  prov : Bool := false
  gone : Bool := false
  /-- The core whose engine issued it, when that is not the descriptor's own (R232). -/
  eng : Option Nat := none
  deriving DecidableEq, Repr

/-- An SD that has been armed into a queue entry, or that runs ahead of its issue (R235, R243). -/
structure SdRun where
  own : DescRef
  desc : BitVec 512
  /-- Queue entry; none while it runs ahead. -/
  entry : Option Nat
  /-- The next operation to read: its row and its byte offset in the row. -/
  row : Nat := 0
  off : Nat := 0
  /-- Data read and not yet written: destination and bytes (R241). -/
  staged : List (Nat × List Byte) := []
  /-- Failing addresses of its operations (R238, R249). -/
  errs : List Nat := []
  /-- STREAM_ERR has been raised for it. -/
  failed : Bool := false
  /-- Its FREE_SEQ named a gated operation of a skipped step: it writes nothing (R348). -/
  skip : Bool := false
  /-- Its number among the run-aheads started (R247). -/
  born : Nat := 0
  deriving DecidableEq, Repr

/-- A vector on the Reel (R180). -/
structure RVec where
  data : List Byte
  scales : List Byte
  prov : Bool
  deriving DecidableEq, Repr

/-- What travels on a hop: a vector or a token. -/
inductive RItem where
  | vec (v : RVec)
  | commit
  | void
  deriving DecidableEq, Repr

/-- A stream at a port (R184, R187 to R189): what is on its way on the incoming hop (oldest first), its landing buffer, its skid buffer entries with
the RLD each is matched to, slots of the outgoing hop in use, and those whose credit is returning; and, by RLD in the order of the core's RLDs
of the stream, the vectors forwarded (at the head: injected) and the vectors taken by the consumer. `prov` is the RLD of which provisional vectors
have been forwarded, `ahead` the number of them sent on, which FWD_VECTORS counts once they are committed (R202); `turn` counts the operations of a
quadrille head's stream, which its four engines take in turn (R232). -/
structure RPort where
  hop : List RItem := []
  landing : List RVec := []
  skid : List (Nat × RVec) := []
  spent : Nat := 0
  returning : Nat := 0
  fwd : List (Nat × Nat) := []
  taken : List (Nat × Nat) := []
  prov : Option Nat := none
  ahead : Nat := 0
  turn : Nat := 0
  deriving DecidableEq, Repr

/-- A pass that a head injects (R185, R199): its RLD, whether it runs ahead, the read position in bytes, its reads in order (operation, length,
data once read), bytes read and not yet formed into vectors, vectors formed and not yet injected, vectors formed and injected, the errors that its
reads have found (R249), and its number among the run-aheads started (R247). -/
structure HeadRun where
  own : DescRef
  desc : BitVec 512
  prov : Bool
  pos : Nat := 0
  reads : List (Nat × Nat × Option (List Byte)) := []
  buf : List Byte := []
  ready : List (List Byte) := []
  formed : Nat := 0
  sent : Nat := 0
  errs : List Nat := []
  born : Nat := 0
  deriving DecidableEq, Repr

/-- An increment of a SIGNAL on its way over the mesh (R74): the TMK, the target core, the counter and COUNT. -/
structure Signal where
  own : DescRef
  target : Nat
  evt : Nat
  count : Nat
  deriving DecidableEq, Repr

structure StreamBlk where
  /-- Armed SDs and run-aheads, in order of their start. -/
  sds : List SdRun := []
  ops : List MemOp := []
  nextOp : Nat := 0
  /-- Run-aheads started so far (R247: the most recently started is reclaimed first). -/
  nextRa : Nat := 0
  /-- Next entry of each queue (core times 4 plus queue), and the queue that a core's engine serves next. -/
  tail : List (Nat × Nat) := []
  serve : List (Nat × Nat) := []
  /-- Queue entries whose last arm was rejected and is to be repeated: the list concerned (R236). -/
  retry : List (Nat × Nat) := []
  /-- List from which each core issued last (R242). -/
  lastList : List (Nat × Nat) := []
  heads : List HeadRun := []
  /-- Increments not yet applied, oldest first. -/
  signals : List Signal := []
  /-- Streams at the ports: core times 2 plus stream. -/
  ports : List (Nat × RPort) := []
  deriving DecidableEq, Repr

/-! ### Arrays, vector engines and numerics (chapters 4 and 7) -/

/-- A stationary tile in an array (R125, R128): its format and shape, the resolved SCALE, the element codes by row (64 rows of K_t, or 128 of
2 × K_t in a quadrille), the block scales by row (MX), and the column sums of each 64 rows (FP32; two's complement for INT8). -/
structure Tile where
  fmt : Nat
  rows : Nat
  cols : Nat
  quad : Bool
  scale : Word
  elems : List (List Nat)
  scales : List (List Nat)
  check : List (List Word)
  /-- The SLD that loaded it. -/
  desc : BitVec 512 := 0
  deriving DecidableEq, Repr

/-- An APD that has issued (R140): its descriptor, the resolved W_SCALE, its fused VOD and push, and the vectors taken in. `bad` is what a
faulty array does to it: vector, logical row (64 is the check row; 65 more for rows 64-127 of a quadrille), and the bits that come out inverted.
Once flagged (R148): v0, and the first-run outputs of v0 (two lists in a quadrille). `cold`: its first vector finds the array idle (R133). `failed`:
it has failed in a retry (R149). -/
structure PassRun where
  own : DescRef
  desc : BitVec 512
  wscale : Word
  vod : Option DescRef
  push : Option DescRef
  taken : Nat := 0
  bad : List (Nat × Nat × Word) := []
  flag : Option Nat := none
  first : List (List Word) := []
  cold : Bool := false
  failed : Bool := false
  /-- Position of its first vector in the RLD that supplies it. -/
  base : Nat := 0
  deriving DecidableEq, Repr

/-- A core's array and vector engine. -/
structure ArrCore where
  tile : Option Tile := none
  /-- A pass of at least 64 cycles has run since the last load (R130). -/
  ran : Bool := false
  /-- Passes issued and not completed, oldest first. -/
  passes : List PassRun := []
  /-- Accumulator file by 64 × entry + lane, and the term counts of its entries (R139, R272). -/
  acc : List (Nat × Word) := []
  terms : List (Nat × Nat) := []
  /-- Amax accumulators, and the scale record each is bound to (R285, R286). -/
  amax : List (Nat × Word) := []
  bind : List (Nat × Nat) := []
  /-- Random streams: micro-batch, layer, and draw index by kind (R488). -/
  mb : Nat := 0
  layer : Nat := 0
  draws : List (Nat × Nat) := []
  /-- Cycles of R151 since the engine last reported (R242). -/
  retried : Nat := 0
  /-- Scale copies kept through a multi-tide span (R284). -/
  scales : Option (List (Nat × Word)) := none
  /-- Channel counter by record, CHMAX, CHS, and the vectors QUANT has converted since the last CH_SCALES (R356, R357). -/
  chCount : List (Nat × Nat) := []
  chMax : List (Nat × Word) := []
  chs : List (Nat × Word) := []
  quants : Nat := 0
  deriving DecidableEq, Repr

structure NumBlk where
  /-- The cores' copies of the SCALE of every record (R284). -/
  copies : List (Nat × Word) := []
  /-- OVERFLOW, VANISH and NONFIN counted on each core and not yet in a telemetry record (R299, R300): by 64 × core + 3 × FMT + kind, and by
  4,096 × core + 3 × record + kind. -/
  fmt : List (Nat × Word) := []
  recs : List (Nat × Word) := []
  /-- AMAX folded in the tide, by record. -/
  amax : List (Nat × Word) := []
  /-- SSQ_W, SSQ_DW, W_OVERFLOW and W_VANISH of the step, by 4 × layer + kind (R301, R357). -/
  layers : List (Nat × Word) := []
  /-- Enmora's copy of the layer table: TRAIN_MODE + 4 × RANK by layer (R329). -/
  modes : List (Nat × Nat) := []
  deriving DecidableEq, Repr

/-! ### The Shelf (chapter 8) -/

/-- A frame record that is EMPTY (Table 8.12). [DEDUCED, log entry 29] -/
def frameEmpty : BitVec 256 := 0xFFFF <<< 168

/-- A chunk of a Shelf's stack space: where it is held (0 a top chunk, 1 the body pool, 2 the spill pool, with its number there); whether a move
of it goes on (R313); and whether it is free and returns to its pool at the closing boundary (R320). -/
structure Chunk where
  shelf : Nat
  idx : Nat
  pool : Nat
  num : Nat
  moving : Bool := false
  freed : Bool := false
  /-- The core whose SHF moved or freed it, and what that core's engine has still to issue of the move: a write or a read, and its address. -/
  core : Nat := 0
  pieces : List (Bool × Nat) := []
  deriving DecidableEq, Repr

/-- An SHF in progress: its descriptor, whether it waits for its turn (a pop under R319), whether its data has begun to move, and the operations still
to issue, as offset in stack space and length (R322). `staged`: the vectors read and not yet written (R241); `held`: a pop's data still to be written to
local store; `bytes`: the stored bytes that it moves. -/
structure ShfRun where
  own : DescRef
  desc : BitVec 512
  waits : Bool
  started : Bool := false
  pieces : List (Nat × Nat) := []
  staged : List (List Byte × List Byte) := []
  held : Bool := false
  bytes : Nat := 0
  deriving DecidableEq, Repr

structure ShelfBlk where
  /-- Frame records by 1,024 × Shelf + depth. -/
  frames : List (Nat × BitVec 256) := []
  /-- PARTIES of the pushes and of the releasing pops of a frame, by the same key: the record itself does not show them (R318, R320). -/
  writers : List (Nat × Nat) := []
  readers : List (Nat × Nat) := []
  chunks : List Chunk := []
  runs : List ShfRun := []
  /-- Group beat of the last step advance (R327). -/
  advance : Int := 0
  deriving DecidableEq, Repr

/-! ### The update engine (chapter 9) -/

/-- A record's resolved static fields (bits 107:0 of Table 9.1) and its dynamic fields (R338). -/
structure UpdRec where
  stat : BitVec 128 := 0
  pins : Dword := 0
  version : Word := 0
  ref0 : Nat := 0
  ref1 : Nat := 0
  updating : Bool := false
  committed : Bool := false
  deriving DecidableEq, Repr

structure UpdBlk where
  recs : List (Nat × UpdRec) := []
  /-- Latched hyperparameter sets (R340). -/
  hp : List (List Byte) := List.replicate 16 (List.replicate 64 0)
  deriving DecidableEq, Repr

/-! ### Buckets and barriers (chapter 10) -/

/-- A bucket slot from its OPEN on (R372, R374, R375): memory, topology, rings and reducer cores; ready ranges (offset and length); whether LAST
has issued, with the core and TAG of the latest CONTRIB; E_ready once launched; and the reducers that have completed, with their final F and the
TAG of their REDUCE. -/
structure Slot where
  base : Nat := 0
  size : Nat := 0
  topo : Nat := 0
  ringA : Nat := 0
  ringB : Nat := 0
  rbase : Nat := 0
  rlog : Nat := 0
  ranges : List (Nat × Nat) := []
  last : Bool := false
  core : Nat := 0
  tag : Half := 0
  eReady : Nat := 0
  fin : List (Nat × Bool) := []
  tags : List (Nat × Half) := []
  deriving DecidableEq, Repr

/-- A piece that waits to be sent: whether on RING_B, PHASE, offset in the bucket, length, its number in its step, its data when it does not
come from bucket memory, and the ring on which a receive slot is credited once it has left. -/
structure OutPiece where
  ringB : Bool
  phase : Nat
  off : Nat
  len : Nat
  num : Nat
  data : Option (List Byte)
  credit : Option Bool
  deriving DecidableEq, Repr

/-- A reducer at work (R380 to R388): the REDUCE, its areas, F, how many pieces it has handled, those received and not handled, and those that
wait to be sent; under TORUS2 also the bytes of the chunk that ring B completes, as they are written, and how many of its pieces have gone to ring
A's all-gather (R382). -/
structure Reducer where
  own : DescRef
  slot : Nat
  idx : Nat
  rx : Nat
  work : Nat
  f : Bool
  pos : Nat := 0
  got : List Pkt := []
  out : List OutPiece := []
  chunk : List (Nat × List Byte) := []
  gone : Nat := 0
  deriving DecidableEq, Repr

/-- A pending barrier instance (R392 to R394): the group beat of local arrival, the children whose ARRIVE has come, and whether this member
has sent its own. -/
structure Barrier where
  id : Nat
  tide : Nat
  arrived : Option Int := none
  from_ : List Half := []
  sent : Bool := false
  deriving DecidableEq, Repr

structure BktBlk where
  slots : List (Nat × Slot) := []
  reds : List Reducer := []
  /-- Credits held for receive slots of the next members, by step, slot, reducer and ring. -/
  credits : List (Nat × Nat) := []
  /-- A DECIDE has issued in the step (R391). -/
  decided : Bool := false
  bars : List Barrier := []
  /-- Instances released in the tide in progress (R469). -/
  released : List (Nat × Nat) := []
  deriving DecidableEq, Repr

/-! ### Tide replay (R469) -/

/-- What a replay returns to its value at the tide's opening boundary: the Shelf, update records, bucket slots with their state and flag
registers, and the channel state and random-stream positions of each core. -/
structure Opening where
  shelf : ShelfBlk := {}
  recs : List (Nat × UpdRec) := []
  slots : List (Nat × Slot) := []
  /-- BKT_STATE0-3, BKT_FLAGS_LO and BKT_FLAGS_HI, and the chunk counts of the Shelf. -/
  regs : List (Nat × Word) := []
  /-- A DECIDE had issued in the step. -/
  decided : Bool := false
  /-- Arrays and vector engines: channel state and random-stream positions are taken from here. -/
  cores : List (Nat × ArrCore) := []
  deriving DecidableEq, Repr

/-! ### Memory controllers (chapter 12) -/

structure MemCtl where
  /-- Correctable and uncorrectable errors in the current window, by stack times 64 plus physical pseudo-channel (R445). -/
  pcCe : List (Nat × Nat) := []
  pcUe : List (Nat × Nat) := []
  /-- Pseudo-channels whose threshold failure in the current window has been dealt with. -/
  pcFailed : List Nat := []
  /-- Copies that wait for their boundary: stack, physical pseudo-channel, and the step whose tideline it waits for, if one (R446). -/
  pcPend : List (Nat × Nat × Option Nat) := []
  /-- Corrected errors of each logical slice in the current window, and slices whose failure has been dealt with (R464, R465). -/
  sliceCe : List (Nat × Nat) := []
  sliceFailed : List Nat := []
  /-- Slices whose copy waits for the next boundary, and slices being copied with the 64-byte lines copied (R464). -/
  slicePend : List Nat := []
  sliceCopy : List (Nat × Nat) := []
  /-- 32-byte units whose check word always reads as uncorrectable (R447), and those that have come not to fit theirs, each with the error that a read
  finds: 0 correctable, 1 not, 2 one of the address bits (R441, R454). Every other unit fits its check word. -/
  poison : List Nat := []
  struck : List (Nat × Fin 3) := []
  /-- Bursts that patrol scrub has read in its present pass, by channel (R455). -/
  scrubPos : List (Nat × Nat) := []
  deriving DecidableEq, Repr

/-! ### Snapshots and restore (chapter 13) -/

/-- An entry of the snapshot table (Table 13.5): METHOD 0 AUTO, 1 MIRROR, 2 PARITY. -/
structure SnapEnt where
  base : Nat
  lenMb : Nat
  parOff : Nat
  id : Nat
  method : Nat
  deriving DecidableEq, Repr

/-- What a freeze copied of one entry (R481): the method taken (1 Mirror, 2 Parity), the blocks copied, and their bytes by offset in the
entry. -/
structure SnapCopy where
  ent : SnapEnt
  method : Nat
  blocks : List Nat
  cells : List Host.Cell
  deriving DecidableEq, Repr

/-- The job state block (R475): SNAP_SEQ, STEP_NUMBER, data cursor, job seed, the scale table's bytes, the VERSION of every record, and a
SHA-512. -/
structure JobBlock where
  seq : Word
  step : Dword
  epoch : Word
  shard : Word
  sample : Dword
  seed : BitVec 48
  scales : List Byte
  versions : List Nat
  /-- The counters of the random streams that the snapshot stores, by stream id: bits 63:0 of each (R488, R489). -/
  streams : List (Nat × Nat)
  /-- SHA-512 over what the rule lists before it. -/
  digest : List Byte
  deriving DecidableEq, Repr

/-- A snapshot held on this device: its job state block and what its freeze copied. -/
structure SnapSet where
  block : JobBlock
  copies : List SnapCopy
  deriving DecidableEq, Repr

/-- States of a snapshot (SNAP_STATUS). -/
inductive SnapState where
  | idle | freeze | transfer
  deriving DecidableEq, Repr

/-- States of a restore (RESTORE_STATUS). -/
inductive RestoreState where
  | none | prepared | running | done
  deriving DecidableEq, Repr

structure Snap where
  configured : Bool := false
  buddy : Half := 0
  parPos : Nat := 0xFF
  members : List Half := []
  area : Nat := 0
  areaGiB : Nat := 0
  entries : List SnapEnt := []
  /-- Method each entry took at the previous snapshot (R479). -/
  lastMethod : List (Nat × Nat) := []
  /-- Entries whose last committed copy stands in the base copy (R478, R490). -/
  based : List Nat := []
  /-- A freeze has ended, so SNAP_COST_US holds the cost of the last snapshot (R484). -/
  costed : Bool := false
  /-- Steps s + 1 of the requests held (R480). -/
  requests : List Nat := []
  state : SnapState := .idle
  /-- A tideline has been deferred until the snapshot in transfer commits (R480). -/
  deferred : Bool := false
  /-- Beat of the start of the last freeze, and the job step of the last snapshot. -/
  freezeBeat : Nat := 0
  step : Dword := 0
  /-- The snapshot between freeze and commit, and the last committed one, in local staging (R481, R486). -/
  staged : Option SnapSet := none
  committed : Option SnapSet := none
  /-- Base copy of this member's parity space: blocks held, and bytes by offset (R478). -/
  base : List Host.Cell := []
  /-- The latest freeze was aborted: copies on this device may no longer be those of the last committed snapshot. -/
  unsound : Bool := false
  /-- The mirror slot that is active on the buddy (R482). -/
  slot : Nat := 0
  /-- Members whose SNAP_DONE the master holds (R482). -/
  doneFrom : List Half := []
  /-- Entries whose last copy was spoiled (R473, R477). -/
  spoiled : List Nat := []
  /-- Beats of the latest EVT_SPARE events, MEM_PC_THRESH entries and slice threshold failures, newest first (R484). -/
  trouble : List Nat := []
  /-- An automatic request is due at the next step advance (R484). -/
  due : Bool := false
  restore : RestoreState := .none
  /-- RESTORE_PREPARE's SNAP_SEQ, map address, map entries and lost devices; RESTORE_RUN's boundary; bytes restored. -/
  restoreSeq : Word := 0
  mapAddr : Nat := 0
  mapCount : Nat := 0
  lost : List Half := []
  restoreAt : Option Nat := Option.none
  restored : Nat := 0
  /-- The job state block as restored (R491). -/
  block : Option JobBlock := Option.none
  deriving DecidableEq, Repr

/-- Why the machine stops with a fault. -/
inductive Fault where
  /-- Raised by no command: every condition the spec calls an error is reported by the device itself, which goes on (safe). -/
  | none
  deriving DecidableEq, Repr

/-- Why a command has no meaning. -/
inductive Refusal where
  /-- Raised by the dispatch for a command whose meaning is not written; the string is its mnemonic (safe). -/
  | notModelled (mnemonic : String)
  deriving DecidableEq, Repr

structure State where
  /-- Commands that wait, first in, first out. -/
  pending : List Instr := []
  part : Part := {}
  kept : Kept := {}
  rst : ResetLogic := {}
  /-- BEAT_COUNT (R37), and whether the tide sequencer's domain is out of reset. -/
  beat : Dword := 0
  beatOn : Bool := false
  /-- Every register of Table 17.3, by key. -/
  regs : List (Nat × Word) := []
  /-- Per-requester copies (R589): requester times 2^32 plus the register's key. -/
  reqRegs : List (Nat × Word) := []
  /-- Changes pending for a boundary, in order of acceptance. -/
  shadow : List Shadow := []
  /-- Routing table (R423): device id to entry. -/
  routes : List (Nat × Dword) := []
  /-- Alarm thresholds (R304): type times 1,024 plus target to HI and LO. -/
  alarmHi : List (Nat × Word) := []
  alarmLo : List (Nat × Word) := []
  /-- Registers whose expert override stands (R112). -/
  overrides : List Nat := []
  /-- Every byte of the device address map, by device address. -/
  mem : List Host.Cell := []
  /-- Dirty map: 1 MiB blocks written since their last snapshot (R476). -/
  dirty : List (Nat × Bool) := []
  enm : Enmora := {}
  log : Log := {}
  tide : Tide := {}
  images : List Image := List.replicate 16 {}
  group : Group := {}
  job : Job := {}
  pwr : Pwr := {}
  link : LinkBlk := {}
  /-- Released descriptor lists. -/
  lists : List DList := []
  /-- Core event counters (R75): core times 16 plus the counter. -/
  evts : List (Nat × Word) := []
  str : StreamBlk := {}
  /-- Arrays and vector engines, by logical core. -/
  cores : List (Nat × ArrCore) := []
  nums : NumBlk := {}
  shelf : ShelfBlk := {}
  upd : UpdBlk := {}
  bkt : BktBlk := {}
  opening : Opening := {}
  memc : MemCtl := {}
  snap : Snap := {}
  lys : Lys := {}
  bay : Bay := {}
  /-- Count of free values drawn (the model's own). -/
  free : Nat := 0
  deriving DecidableEq, Repr

/-- The device right after power-on is detected: reset asserted, no clock running, every register at its reset value. -/
def State.reset : State := {}

end Sys2Proof.Machine
end

