-- ==== Sys2Proof/Machine/Ops.lean ====
section
/-!
DEFINITION. The named operations over registers, memory, the log, events and the mailboxes that the meanings share.
-/
namespace Sys2Proof.Machine

abbrev Outcome := Host.Outcome State Fault Refusal

/-! ### Beats (R37, R38) -/

/-- With no command waiting, one beat passes: BEAT_COUNT increments once the tide sequencer's domain is out of reset (R37). [DESIGN CHOICE, log entry 3] -/
def State.idle (s : State) : State := if s.beatOn then { s with beat := s.beat + 1 } else s

/-- R38: the group beat, BEAT_COUNT plus the signed GROUP_OFFSET. -/
def State.groupBeat (s : State) : Int := s.beat.toNat + s.tide.offset.toInt

/-- The first boundary whose step 3 has not begun: a change accepted now takes effect there (R31, R41). After steps 1 to 3 of a boundary at which
the sequencer stops, the boundary that TIDE_RUN opens is the same one (R40). -/
def State.nextStep3 (s : State) : Nat := if s.tide.past3 && !s.tide.stopping then s.tide.next + 1 else s.tide.next

/-- A restart of the job fills the state anew, but not DEV_ID and the routing table (R422, R423). -/
def spoilStays : Spoil → Bool
  | .devId => true
  | .route _ => true
  | _ => false

/-- The on-chip word has failed and has not been found. [DESIGN CHOICE, log entry 117] -/
def State.spoilt (s : State) (x : Spoil) : Bool := s.job.soft.contains x

/-! ### Registers -/

/-- The stored value of register `k`. -/
def State.reg (s : State) (k : Nat) : Word := Sparse.get (regReset k) s.regs k

/-- The stored value of register `k` as a number. -/
def State.regN (s : State) (k : Nat) : Nat := (s.reg k).toNat

/-- Register `k` takes the value `v`. -/
def State.setReg (s : State) (k : Nat) (v : Word) : State := { s with regs := Sparse.put (regReset k) s.regs k v }

/-- Status bits `m` of register `k` set (R14: the set wins). -/
def State.orReg (s : State) (k m : Nat) : State := s.setReg k (s.reg k ||| word m)

/-- Bits `m` of register `k` clear. -/
def State.andNotReg (s : State) (k m : Nat) : State := s.setReg k (s.reg k &&& ~~~(word m))

/-- A 32-bit saturating counter register counts `n` more. -/
def State.count (s : State) (k : Nat) (n : Nat := 1) : State := s.setReg k (satAdd (s.reg k) n)

/-- A core's array and vector engine. -/
def State.arr (s : State) (core : Nat) : ArrCore := Sparse.get {} s.cores core

/-- A field of register `k` takes the value `v`. -/
def State.setField (s : State) (k lo len v : Nat) : State := s.setReg k (setBits (s.reg k) lo len v)

/-- A field of register `k`. -/
def State.field (s : State) (k lo len : Nat) : Nat := bits (s.reg k) lo len

/-- A 64-bit value held in two registers, low word first. -/
def State.reg64 (s : State) (lo hi : Nat) : Nat := s.regN lo + 2 ^ 32 * s.regN hi

/-- Enmora as a requester; sessions are 0 to 7 (R589). -/
def enmoraReq : Nat := 8

/-- The key of requester `q`'s own copy of register `k` (R589). -/
def ownKey (q k : Nat) : Nat := q * 2 ^ 32 + k

/-- Requester `q`'s own copy of register `k`; it resets to the register's reset value (R589). -/
def State.own (s : State) (q k : Nat) : Word := Sparse.get (regReset k) s.reqRegs (ownKey q k)

def State.setOwn (s : State) (q k : Nat) (v : Word) : State :=
  { s with reqRegs := Sparse.put (regReset k) s.reqRegs (ownKey q k) v }

/-- R589: when a session closes, its copies return to their reset values. -/
def State.dropOwn (s : State) (q : Nat) : State :=
  { s with reqRegs := Sparse.dropKeys (fun k => decide (k / 2 ^ 32 = q)) s.reqRegs }

/-! ### Shadowed writes and overrides -/

/-- The value pending for register `k` (R30). -/
def State.pendingReg (s : State) (k : Nat) : Option Word :=
  s.shadow.reverse.findSome? fun
    | .reg k' v => if k' = k then some v else none
    | .route _ _ => none

/-- The value that register `k` was last given: pending, or else in effect. -/
def State.latest (s : State) (k : Nat) : Word := (s.pendingReg k).getD (s.reg k)

def Shadow.isReg (k : Nat) : Shadow → Bool
  | .reg k' _ => k' == k
  | .route _ _ => false

def Shadow.isRoute (d : Nat) : Shadow → Bool
  | .reg _ _ => false
  | .route d' _ => d' == d

/-- R30: a shadowed write is held as pending; a second write to the register replaces the first. -/
def State.queueReg (s : State) (k : Nat) (v : Word) : State :=
  { s with shadow := s.shadow.filter (!·.isReg k) ++ [.reg k v] }

def State.queueRoute (s : State) (d : Nat) (v : Dword) : State :=
  { s with shadow := s.shadow.filter (!·.isRoute d) ++ [.route d v] }

/-- A field of a shadowed register takes a new value at the next boundary; its other fields keep the values last given. -/
def State.queueField (s : State) (k lo len v : Nat) : State := s.queueReg k (setBits (s.latest k) lo len v)

/-- R461: SCRUB_HOURS of MEM_CTRL is overridden under a name of its own. -/
def scrubName : Nat := R.memCtrl + 1

/-- R112: an expert write overrides the basic setting of what it writes. -/
def State.override (s : State) (k : Nat) : State :=
  if s.overrides.contains k then s else { s with overrides := s.overrides ++ [k] }

/-- R112: a basic command that sets the same register ends the override. -/
def State.basic (s : State) (k : Nat) : State := { s with overrides := s.overrides.filter (· != k) }

/-- R173: the override names of ARRAY_CTRL's CHECK_EN and RAMP_LEN, from the register's key. -/
def checkEnName (k : Nat) : Nat := k
def rampLenName (k : Nat) : Nat := k + 1

/-- Override names of an alarm threshold and of a routing entry, which have no key of their own. -/
def alarmName (type target : Nat) : Nat := 2 ^ 40 + type * 1024 + target
def routeName (dev : Nat) : Nat := 2 ^ 41 + dev

/-- What an unloaded routing entry holds (Table 11.9): no valid path, and its complement. -/
def routeDefault : Dword := 0xFFFFFFFF00000000

def State.route (s : State) (dev : Nat) : Dword := Sparse.get routeDefault s.routes dev

def State.setRoute (s : State) (dev : Nat) (v : Dword) : State := { s with routes := Sparse.put routeDefault s.routes dev v }

/-! ### Links -/

/-! States (Table 11.2). -/
namespace L
abbrev disabled : Nat := 0
abbrev detect : Nat := 1
abbrev equalise : Nat := 2
abbrev fecLock : Nat := 3
abbrev deskew : Nat := 4
abbrev paramSt : Nat := 5
abbrev active : Nat := 6
abbrev swap : Nat := 7
abbrev down : Nat := 8
end L

/-- LINK_STATE (Table 11.2). -/
def State.lstate (s : State) (l : Nat) : Nat := s.field (R.linkState l) 0 4

def State.setLstate (s : State) (l st : Nat) : State := s.setField (R.linkState l) 0 4 st

/-- R407: IN_SERVICE is set, and the state is ACTIVE or SWAP. -/
def State.inService (s : State) (l : Nat) : Bool := bit (s.reg (R.linkCtrl l)) 0 && (s.lstate l == L.active || s.lstate l == L.swap)

/-- A routing entry, or DEV_ID under number 65,536, is stored afresh: it is no longer spoilt, and a failure of it is a new one (R422, R435). -/
def State.storedAt (s : State) (what : Nat) (x : Spoil) : State :=
  { s with link := { s.link with reported := s.link.reported.filter (· != what) }, job := { s.job with soft := s.job.soft.filter (· != x) } }

/-! ### Memory -/

/-- What a byte that nothing has written reads as: the spec states no contents of memory after power-on. [DESIGN CHOICE, log entry 6; DESIGN CHOICE, log entry 9] -/
def memDefault : Byte := 0

/-- The byte at device address `a`. -/
def State.byte (s : State) (a : Nat) : Byte := Sparse.get memDefault s.mem a

/-- `m` with the byte at `a` written. -/
def Memory.put (m : List Host.Cell) (a : Nat) (b : Byte) : List Host.Cell := Sparse.put memDefault m a b

/-- `m` with bytes written from `a` up. -/
def Memory.write : List Host.Cell → Nat → List Byte → List Host.Cell
  | m, _, [] => m
  | m, a, b :: bs => Memory.write (Memory.put m a b) (a + 1) bs

/-- The canonical form of memory. -/
def Memory.wf (m : List Host.Cell) : Bool := Sparse.wf (fun _ => memDefault) m

/-- `n` bytes from device address `a`. [DESIGN CHOICE, log entry 6] -/
def State.bytes (s : State) (a n : Nat) : List Byte := (List.range n).map fun i => s.byte (a + i)

/-- The little-endian number of `n` bytes at `a` (R9). -/
def State.num (s : State) (a n : Nat) : Nat := leNat (s.bytes a n)

/-- Bytes stored from device address `a` up, with no other effect. -/
def State.poke (s : State) (a : Nat) (bs : List Byte) : State := { s with mem := Memory.write s.mem a bs }

end Sys2Proof.Machine
end

