-- ==== Sys2Proof/Machine/LogOps.lean ====
section
/-!
DEFINITION. The error and telemetry log and the events it raises (R32, R33, R107, R108, R117 to R119, R121).
-/
namespace Sys2Proof.Machine

/-- SOURCE of a unit of a register block (R118). -/
def srcOf (block unit : Nat) : Half := BitVec.ofNat 16 (block * 256 + unit)

/-- SOURCE of Enmora firmware (R118). -/
def srcFirmware : Half := 0xFF00

/-- CORE and TAG of an entry that concerns none (Table 3.14). -/
def noHalf : Half := 0xFFFF

/-- R121: sequence number `a` lies after `b`. -/
def seqAfter (a b : Word) : Bool := let d := (a - b).toNat; decide (1 ≤ d ∧ d < 2 ^ 31)

/-- R121: sequence number `a` lies at or after `b`. -/
def seqAtOrAfter (a b : Word) : Bool := decide ((a - b).toNat < 2 ^ 31)

/-- R32: `e` placed among entries listed newest first: before every older one, and before those of its beat with a higher source. [DEDUCED, log entry 17] -/
def Log.place (e : LogEntry) : List LogEntry → List LogEntry
  | [] => [e]
  | x :: xs => if x.beat = e.beat ∧ e.source.toNat < x.source.toNat then x :: Log.place e xs else e :: x :: xs

/-- How many entries `e` has been placed before (they follow it in the log). -/
def Log.newer (e : LogEntry) : List LogEntry → Nat
  | [] => 0
  | x :: xs => if x.beat = e.beat ∧ e.source.toNat < x.source.toNat then 1 + Log.newer e xs else 0

/-- Sequence number of the `i`th newest entry. -/
def Log.seqOf (l : Log) (i : Nat) : Word := l.next - 1 - word i

/-- The entries held with their sequence numbers, oldest first. -/
def Log.numbered (l : Log) : List (Word × LogEntry) :=
  (l.entries.zipIdx.map fun (e, i) => (l.seqOf i, e)).reverse

/-- R121: entries held whose sequence number lies after the read pointer. -/
def Log.unread (l : Log) : Nat := (l.numbered.filter fun e => seqAfter e.1 l.read).length

/-- R33: one more entry; in a full ring it overwrites the oldest, and the lost-entry counter increments when that was unread. [DEDUCED, log entry 17] -/
def Log.add (l : Log) (e : LogEntry) : Log :=
  let full := l.entries.length ≥ 4096
  let l' := { l with entries := (Log.place e l.entries).take 4096, next := l.next + 1 }
  if full ∧ seqAfter (l.next - word l.entries.length) l.read then { l' with lost := satAdd l'.lost 1 } else l'

/-- Table 3.9 and R119: the event that an entry of this code raises. -/
def evtOfCode (code : Nat) : Option Nat :=
  match code with
  | 0x21 => some 0xE001
  | 0x20 => some 0xE002
  | 0x1B => some 0xE003
  | 0x1C => some 0xE004
  | 0x05 => some 0xE005
  | 0x06 => some 0xE006
  | 0x25 => some 0xE007
  | 0x26 => some 0xE008
  | 0x2A => some 0xE009
  | 0x1D => some 0xE00A
  | _ => none

/-- R121: whether TEL_EVENT_MASK suppresses an event; RESTART_NEEDED, TIDE_HANG and ALIGN_LOST are always posted. -/
def Enmora.suppressed (m : Enmora) (evt : Nat) : Bool :=
  bit m.eventMask (evt - 0xE001) && !([0xE004, 0xE005, 0xE006].contains evt)

/-- R107: an event waits for E2H 15; the 65th discards the oldest and counts in EVT_LOST. -/
def Enmora.raise (m : Enmora) (e : Evt) : Enmora :=
  if m.events.length < 64 then { m with events := m.events ++ [e] }
  else { m with events := m.events.drop 1 ++ [e], evtLost := satAdd m.evtLost 1 }

/-- An event that waits keeps naming its entry when a later entry is placed before that entry. -/
def Evt.shift (at_ : Word) (n : Nat) (e : Evt) : Evt := if (e.seq - at_).toNat < n then { e with seq := e.seq + 1 } else e

/-- An entry written to the log, and its event raised. -/
def State.logRaw (s : State) (e : LogEntry) (more : List Byte) : State :=
  let n := Log.newer e s.log.entries
  let at_ : Word := s.log.next - word n
  let enm := { s.enm with events := s.enm.events.map (Evt.shift at_ n) }
  let enm := match evtOfCode e.code.toNat with
    | some evt => if enm.suppressed evt then enm else enm.raise ⟨BitVec.ofNat 16 evt, at_, more⟩
    | none => enm
  { s with log := s.log.add e, enm := enm }

/-- Entry fields at this moment (Table 3.14); TIDE is TIDE_COUNT. -/
def State.entry (s : State) (source : Half) (code : Nat) (core tag : Half) (detail : List Byte) : LogEntry :=
  ⟨s.beat, s.tide.count, source, BitVec.ofNat 16 code, core, tag, padBytes 32 detail⟩

/-- R121: the unread entries, `before` until now, have risen to 3,072: a LOG_HIGH entry is written. -/
def State.logHigh (s : State) (before : Nat) : State :=
  if before < 3072 ∧ 3072 ≤ s.log.unread then s.logRaw (s.entry srcFirmware 0x2A noHalf noHalf (leBytes 4 s.log.unread)) [] else s

/-- A log entry with its event; R121: when the unread entries rise to 3,072, a LOG_HIGH entry follows. -/
def State.logFull (s : State) (source : Half) (code : Nat) (core tag : Half) (detail more : List Byte) : State :=
  (s.logRaw (s.entry source code core tag detail) more).logHigh s.log.unread

/-- The 64 bytes of an entry as it is read (Table 3.14). -/
def LogEntry.bytes (e : LogEntry) (seq : Word) : List Byte :=
  leBytes 4 seq.toNat ++ leBytes 8 e.beat.toNat ++ leBytes 8 e.tide.toNat ++ leBytes 2 e.source.toNat ++ leBytes 2 e.code.toNat
    ++ leBytes 2 e.core.toNat ++ leBytes 2 e.tag.toNat ++ leBytes 4 0 ++ padBytes 32 e.detail

/-- A log entry that names no core and no descriptor. -/
def State.log_ (s : State) (source : Half) (code : Nat) (detail : List Byte) : State :=
  s.logFull source code noHalf noHalf detail []

/-- A log entry that names a logical core. -/
def State.logCore (s : State) (source : Half) (code core : Nat) (detail : List Byte) : State :=
  s.logFull source code (BitVec.ofNat 16 core) noHalf detail []

/-- An entry written to the log and, with the sequence number it takes there, to retained memory (R117, R513, R576). -/
def State.logKept (s : State) (source : Half) (code : Nat) (detail : List Byte) : State :=
  let e := s.entry source code noHalf noHalf detail
  let rec_ := e.bytes (s.log.next - word (Log.newer e s.log.entries))
  { s with kept := { s.kept with records := s.kept.records ++ [rec_] } }.log_ source code detail

/-- R484: an event that shortens the snapshot interval: only the latest four count. -/
def State.trouble (s : State) : State := { s with snap := { s.snap with trouble := (s.beat.toNat :: s.snap.trouble).take 4 } }

end Sys2Proof.Machine
end

