-- ==== Sys2Proof/Machine/Frames.lean ====
section
/-!
DEFINITION. Frames that the device sends on its Lysholt sessions (R560 to R563), and closing a session (R568).
-/
namespace Sys2Proof.Machine

/-- Session `n`, when it exists. -/
def State.session (s : State) (n : Nat) : Option Session := (s.lys.sessions[n]?).join

def State.setSession (s : State) (n : Nat) (x : Option Session) : State :=
  { s with lys := { s.lys with sessions := s.lys.sessions.set n x } }

/-- R567: the GCM nonce of a frame that the device sends: the salt of its direction, then the frame's SEQ. -/
def Session.nonce (x : Session) (seq : Nat) : List Byte :=
  match x.sec with
  | some k => k.txSalt ++ leBytes 8 seq
  | none => []

/-- The session is open (R566). -/
def State.sessionOpen (s : State) (n : Nat) : Bool := (s.session n).any (·.isOpen)

/-- The session is an open RUN session. -/
def State.runOpen (s : State) (n : Nat) : Bool := (s.session n).any fun x => x.isOpen && !x.boot

/-- The port of a session: 0 for A, 1 for B (R565). -/
def portOf (session : Nat) : Nat := session / 4

/-- What the device puts out is recorded. [DESIGN CHOICE, log entry 18] -/
def State.emit (s : State) (o : Out) : State := { s with lys := { s.lys with sent := o :: s.lys.sent } }

/-- A sequenced frame is sent on session `n` (R563): it takes the next SEQ and is held until it is acknowledged; with 64 unacknowledged
frames it waits. A session that does not exist sends nothing. -/
def State.sendFrame (s : State) (n type : Nat) (ftag : Half) (pay : List Byte) : State :=
  match s.session n with
  | none => s
  | some x =>
    if x.unacked.length < 64 then
      let s := s.setSession n (some { x with tx := x.tx + 1, unacked := x.unacked ++ [⟨x.tx, type, ftag, pay, 1⟩] })
      (s.count (R.framesTx (portOf n))).emit (.frame n type x.tx (x.nonce x.tx) ftag pay)
    else s.setSession n (some { x with tx := x.tx + 1, waiting := x.waiting ++ [⟨x.tx, type, ftag, pay, 0⟩] })

/-- An ACK frame: its own counter with bit 63 set, carrying the next SEQ expected (R563, Table 16.4); it is never resent. -/
def State.sendAck (s : State) (n : Nat) : State :=
  match s.session n with
  | none => s
  | some x =>
    let s := s.setSession n (some { x with ackTx := x.ackTx + 1 })
    (s.count (R.framesTx (portOf n))).emit (.frame n 0x05 (2 ^ 63 + x.ackTx + 1) (x.nonce (2 ^ 63 + x.ackTx + 1)) 0 (leBytes 8 x.rx))

/-- A COMPLETE frame with a status of Table 16.5 and read data. -/
def State.complete (s : State) (n : Nat) (ftag : Half) (status : Nat) (data : List Byte := []) : State :=
  s.sendFrame n 0x14 ftag (leBytes 1 status ++ data)

/-- Close reasons for which CLOSE is sent (Table 16.6). -/
def closeSent (reason : Nat) : Bool := [1, 2, 3, 4, 5, 7].contains reason

/-- PORT_STATE's count of open sessions (Table 16.12). -/
def State.portSessions (s : State) (p : Nat) : Nat :=
  ([4 * p, 4 * p + 1, 4 * p + 2, 4 * p + 3].filter fun n => s.sessionOpen n).length

/-- PORT_STATE bits 6:4 follow the open sessions. -/
def State.syncPort (s : State) (p : Nat) : State := s.setField (R.portState p) 4 3 (s.portSessions p)

/-- A failure under R545: IMG_FAIL takes the code, IMAGES_REFUSED counts, and the ROM enters RECOVERY, where it waits for
a further image from its first byte (R547). -/
def State.imageFail (s : State) (code : Nat) : State :=
  let s := s.setField R.bootState 8 4 code
  let s := s.setField R.bootState 12 8 (min 255 (s.field R.bootState 12 8 + 1))
  { s with lys := { s.lys with image := [], imageBlocks := [] } }.setField R.bootState 0 4 6

/-- The region of a port (Table 14.1). -/
def portRegion (p : Nat) : Nat := 38 + p

/-- The straps as sampled (Table 15.9). -/
def State.bootsel (s : State) : Nat := s.field R.straps 0 2
def State.clkmode (s : State) : Nat := s.field R.straps 2 2

/-- Port `p` is a port of R542 (BOOTSEL 0b10 acts as 0b00 under CLKMODE 0b10, R539). -/
def State.bootPort (s : State) (p : Nat) : Bool :=
  s.bootsel == p || (s.bootsel == 2 && (p == 0 || s.clkmode != 2))

/-- R558: a released port that is DARK begins to train. -/
def State.trainPort (s : State) (p : Nat) : State :=
  if s.field (R.regionState (portRegion p)) 0 2 = 0 ∧ s.field (R.portState p) 0 2 = 0 then s.setField (R.portState p) 0 2 1 else s

/-- A boot session is open on the other port, which leaves port `p` idle (R542). -/
def State.otherBoots (s : State) (p : Nat) : Bool := s.lys.sessions.zipIdx.any fun x => decide (x.2 / 4 ≠ p) && x.1.any (·.boot)

/-- R542: the ROM trains the ports that BOOTSEL names; once Enmora runs, both are trained. -/
def State.trainPorts (s : State) : State :=
  let st := s.field R.bootState 0 4
  if st = 3 ∨ st = 6 then [0, 1].foldl (fun s p => if s.bootPort p && !s.otherBoots p then s.trainPort p else s) s
  else if s.enm.running then [0, 1].foldl State.trainPort s
  else s

/-- R547: in RECOVERY a boot session that closes leaves the ports of R542 to the next. -/
def State.retrainBoot (s : State) : State := if s.field R.bootState 0 4 = 6 then s.trainPorts else s

/-- R568: a session closes: CLOSE is sent when the cause allows; its keys, windows, privilege, unacknowledged frames and requester
copies (R589) go, and the mailboxes it posted have no poster (R98); SESSION_CLOSED sets for a reason other than HOST or BOOT_DONE (R584). [DESIGN CHOICE, log entry 110] -/
def State.closeSession (s : State) (n reason : Nat) : State :=
  match s.session n with
  | none => s
  | some x =>
    let s := if closeSent reason then
        (s.count (R.framesTx (portOf n))).emit (.frame n 0x06 x.tx (x.nonce x.tx) 0 (leBytes 1 reason)) else s
    let s := s.setSession n none
    let s := { s with lys := { s.lys with windows := s.lys.windows.map (Option.filter fun (w : Window) => w.session != n) } }
    let s := s.dropOwn n
    let s := { s with enm := { s.enm with poster := s.enm.poster.filter fun (e : Nat × Nat) => e.2 != n } }
    let s := if reason ≠ 0 ∧ reason ≠ 1 then s.orReg (R.portStatus (portOf n)) 4 else s
    -- a boot session that closes during a fetch ends it with a failure (R543, R547)
    let s := if x.boot ∧ (s.field R.bootState 0 4 = 4 ∨ (s.field R.bootState 0 4 = 6 ∧ s.lys.imageBlocks ≠ [] ∧ s.lys.imageBy = some n)) then s.imageFail 1 else s
    (if x.boot then s.retrainBoot else s).syncPort (portOf n)

/-- R568: a session closes when either direction's SEQ reaches 2^48. -/
def State.seqLimit (s : State) (n : Nat) : State :=
  match s.session n with
  | some x => if 2 ^ 48 < x.rx ∨ 2 ^ 48 < x.tx then s.closeSession n 5 else s
  | none => s

/-- Every session of a list closes. -/
def State.closeSessions (s : State) (ns : List Nat) (reason : Nat) : State := ns.foldl (fun s n => s.closeSession n reason) s

/-- R98: a NOTIFY that E2H mailbox `mb` holds a message: to the session that posted the command, or to every open session for E2H 15. -/
def State.notify (s : State) (mb : Nat) (owner : Option Nat) : State :=
  if mb = 15 then (List.range 8).foldl (fun s n => if s.runOpen n then (s.sendFrame n 0x13 0 (leBytes 1 mb)).seqLimit n else s) s
  else match owner with
    | some n => if s.runOpen n then (s.sendFrame n 0x13 0 (leBytes 1 mb)).seqLimit n else s
    | none => s

end Sys2Proof.Machine
end

