-- ==== Sys2Proof/Machine/Mailbox.lean ====
section
/-!
DEFINITION. Mailboxes and the serving of commands (R85 to R106): slots, doorbells, releases, the message header, and the checks of
Table 3.6 in their order.
-/
namespace Sys2Proof

/-- `n` payload bytes of a mailbox command from byte `i`, as a number (R9). -/
def Req.at (r : Req) (i n : Nat) : Nat := Machine.bytesAt r.pay i n

end Sys2Proof

namespace Sys2Proof.Machine

/-! ### Slots -/

/-- The 256 bytes of the slot whose first word is register `k`. -/
def State.slot (s : State) (k : Nat) : List Byte := (List.range 64).flatMap fun i => leBytes 4 (s.regN (k + 4 * i))

/-- A whole slot written. -/
def State.setSlot (s : State) (k : Nat) (bs : List Byte) : State :=
  (List.range 64).foldl (fun s i => s.setReg (k + 4 * i) (word (bytesAt bs (4 * i) 4))) s

/-- Bit `n` of a mailbox register. -/
def State.mbit (s : State) (k n : Nat) : Bool := bit (s.reg k) n

/-- The header of Table 3.5. -/
def msgHeader (opcode tag length status flags : Nat) : List Byte :=
  leBytes 2 opcode ++ leBytes 2 (0xFFFF - opcode) ++ leBytes 2 tag ++ leBytes 2 (0xFFFF - tag) ++ leBytes 1 length
    ++ leBytes 1 (0xFF - length) ++ leBytes 1 status ++ leBytes 1 (0xFF - status) ++ leBytes 1 flags ++ leBytes 1 (0xFF - flags) ++ [0, 0]

/-- A whole message: header and payload, filled with zeros to 256 bytes (R91). -/
def msgBytes (opcode tag status flags : Nat) (pay : List Byte) : List Byte :=
  padBytes 256 (msgHeader opcode tag pay.length status flags ++ pay)

/-- R102: every complement pair of the header is valid and no reserved bit is set. RESP, EVENT and STATUS of a command are not judged.
[DESIGN CHOICE, log entry 121] -/
def headerOk (m : List Byte) : Bool :=
  pairOk 16 (bytesAt m 0 2) (bytesAt m 2 2) && pairOk 16 (bytesAt m 4 2) (bytesAt m 6 2) && pairOk 8 (bytesAt m 8 1) (bytesAt m 9 1)
    && pairOk 8 (bytesAt m 10 1) (bytesAt m 11 1) && pairOk 8 (bytesAt m 12 1) (bytesAt m 13 1) && bytesAt m 14 2 == 0
    && bytesAt m 12 1 / 4 == 0

/-- The TAG a response to a failed header carries: the command's if its pair is valid, or 0xFFFF (R102). -/
def headerTag (m : List Byte) : Half :=
  if pairOk 16 (bytesAt m 4 2) (bytesAt m 6 2) then BitVec.ofNat 16 (bytesAt m 4 2) else 0xFFFF

/-- R102: the MBX_HDR_FAULT entry of mailbox `n` of a set (0 H2E, 1 E2H, 2 E2B). -/
def State.headerFault (s : State) (set n : Nat) (tag : Half) : State :=
  s.logFull (srcOf 0x04 0) 0x28 noHalf tag (leBytes 1 set ++ leBytes 1 n) []

/-! ### Status values (Table 3.6) -/
namespace St
abbrev ok : Nat := 0
abbrev header : Nat := 1
abbrev length : Nat := 2
abbrev opcode : Nat := 3
abbrev privilege : Nat := 4
abbrev param : Nat := 5
abbrev state : Nat := 6
abbrev denied : Nat := 7
abbrev refused : Nat := 8
abbrev internal : Nat := 9
end St

structure Reply where
  status : Nat
  pay : List Byte
  deriving DecidableEq, Repr

/-- OK with a result (Table 3.6). -/
def Reply.ok (pay : List Byte := []) : Reply := ⟨St.ok, pay⟩

/-- The REFUSED payload of Table 3.7. -/
def refusedPay (code engine tide offset : Nat) : List Byte :=
  leBytes 1 code ++ [0] ++ leBytes 2 engine ++ leBytes 8 tide ++ leBytes 4 offset

abbrev noEngine : Nat := 0xFFFF
abbrev noTide : Nat := 0xFFFFFFFFFFFFFFFF
abbrev noOffset : Nat := 0xFFFFFFFF

/-- REFUSED with the payload of Table 3.7. -/
def Reply.refused (code : Nat) (engine : Nat := noEngine) (tide : Nat := noTide) (offset : Nat := noOffset) : Reply :=
  ⟨St.refused, refusedPay code engine tide offset⟩

/-- A status alone. -/
def Reply.err (status : Nat) : Reply := ⟨status, []⟩

/-! ### Who serves -/

/-- BOOT_STAGE (Table 15.4). -/
def State.bootStage (s : State) : Nat := s.field R.bootState 0 4

/-- STOP_STAGE (Table 15.9). -/
def State.stopStage (s : State) : Nat := s.field R.bootState 4 4

/-- BOOT_FAILED: boot stopped at ENMORA or MEMORY (R550). -/
def State.bootFailed (s : State) : Bool := s.bootStage == 0xF && (s.stopStage == 7 || s.stopStage == 8)

/-- Enmora cores that run. -/
def State.enmoraCores (s : State) : Nat := 4 - s.enm.failed.length

/-- R90: two Enmora cores have failed. -/
def State.degraded (s : State) : Bool := decide (2 ≤ s.enm.failed.length)

/-- The Command role runs and takes commands: the firmware runs, boot has reached READY or stopped under R550, and a
core is left to serve it (R90). -/
def State.commandRuns (s : State) : Bool :=
  s.enm.running && (s.bootStage == 9 || s.bootFailed) && decide (s.enm.failed.length < 4)

/-- R90 and R550: with one running core, or after a failed boot, only DEV_*, TEL_* and SEC_* commands are served. -/
def State.servesFamily (s : State) (op : Nat) : Bool :=
  !(s.bootFailed || s.enmoraCores == 1) || [0x01, 0x09, 0x0A].contains (op / 256)

/-- The session that posted the message of H2E mailbox `mb` (R98). -/
def State.posterOf (s : State) (mb : Nat) : Option Nat := (s.enm.poster.find? (·.1 == mb)).map (·.2)

/-- The requester of a mailbox command (R589): the session that posted it; Enmora itself when no session did. -/
def State.requester (s : State) (mb : Nat) : Nat := (s.posterOf mb).getD enmoraReq

/-- The posting session has expert privilege (R112). -/
def State.expertReq (s : State) (mb : Nat) : Bool := ((s.posterOf mb).bind s.session).any (·.expert)

/-- A command: its opcode, the checks of Table 3.6 from LENGTH on, and what it does; no reply means that the reply comes later. -/
structure Cmd where
  op : Nat
  /-- The LENGTH the opcode requires, judged on the payload. -/
  len : List Byte → Bool
  expert : Bool := false
  param : State → Req → Bool := fun _ _ => true
  state : State → Req → Bool := fun _ _ => true
  denied : State → Req → Bool := fun _ _ => false
  /-- The command is served although the device is in Sleep (R518). -/
  inSleep : Bool := false
  /-- The command is answered after a thermal trip (R513). -/
  inTrip : Bool := false
  act : State → Req → State × Option Reply

/-- LENGTH is exactly `n`. -/
def lenIs (n : Nat) (p : List Byte) : Bool := p.length == n

/-- The device is in Sleep (R516). -/
def State.asleep (s : State) : Bool := s.pwr.sleep

/-- The first check of Table 3.6 that fails, as its STATUS (R102). [DEDUCED, log entry 20] -/
def Cmd.check (c : Cmd) (s : State) (r : Req) : Option Nat :=
  if r.pay.length > 240 || !c.len r.pay then some St.length
  else if c.expert && !s.expertReq r.mb then some St.privilege
  else if !c.param s r then some St.param
  else if !s.servesFamily c.op || (s.asleep && !c.inSleep) || !c.state s r then some St.state
  else if c.denied s r then some St.denied
  else none

/-- The journal entry of mailbox `mb` moves to a phase (R89). -/
def Taken.mark (l : List Taken) (mb : Nat) (p : Progress) : List Taken := l.map fun t => if t.mb = mb then { t with phase := p } else t

/-- A response waits to be posted on the command's E2H mailbox (R104, R105). -/
def State.respond (s : State) (mb op : Nat) (tag : Half) (p : Reply) : State :=
  { s with enm := { s.enm with responses := s.enm.responses ++ [⟨mb, BitVec.ofNat 16 op, tag, BitVec.ofNat 8 p.status, p.pay⟩],
                               taken := Taken.mark s.enm.taken mb .answered } }

/-- What serving leaves: the command's effect and its response. -/
def Cmd.serveState (c : Cmd) (r : Req) (s : State) : State :=
  match c.check s r with
  | some st => s.respond r.mb c.op r.tag (.err st)
  | none =>
    let x := c.act s r
    match x.2 with
    | some rep => x.1.respond r.mb c.op r.tag rep
    | none => { x.1 with enm := { x.1.enm with taken := Taken.mark x.1.enm.taken r.mb .begun } }

/-! ### Taking commands (R102, R104, R106) -/

/-- R106: the commands that execute one at a time, in the order taken. -/
def serialised (op : Nat) : Bool :=
  (op / 256 == 0x02 && !([0x0207, 0x0208, 0x020A].contains op)) || op / 256 == 0x03 || op / 256 == 0x06 || op == 0x0704 || op / 256 == 0x08

/-- The journal entry of this command, taken and not begun. -/
def Taken.isFor (t : Taken) (op : Nat) (r : Req) : Bool :=
  t.mb == r.mb.val && t.phase == .waiting && t.opcode.toNat == op && t.tag == r.tag && t.pay == r.pay

/-- A serialised command that is not yet answered (R106). -/
def Taken.holds (t : Taken) : Bool := serialised t.opcode.toNat && t.phase != .answered

/-- R104, R106: the command has been taken and not begun; a serialised one begins once every serialised command taken before it is answered. -/
def mayBegin (op : Nat) (r : Req) (l : List Taken) : Bool :=
  l.any (·.isFor op r) && !(serialised op && (l.takeWhile fun t => !t.isFor op r).any Taken.holds)

/-- Enmora begins the command: the Command role runs and has taken it (R104, R106), and no thermal trip silences it (R513). -/
def Cmd.taken (c : Cmd) (r : Req) (s : State) : Bool := s.commandRuns && (!s.rst.tripped || c.inTrip) && mayBegin c.op r s.enm.taken

/-- Enmora serves a command that it has taken; until then the command waits (R97, R104, R106, R513, R549). [DESIGN CHOICE, log entry 1] -/
def Cmd.serve (c : Cmd) (r : Req) (s : State) : Outcome :=
  if c.taken r s then .next (c.serveState r s) else .next s

/-- The opcodes of Table 3.11. -/
def opcodeListed (op : Nat) : Bool :=
  let low := op % 256
  decide (1 ≤ low) && match op / 256 with
    | 0x01 => decide (low ≤ 0x09) | 0x02 => decide (low ≤ 0x0A) | 0x03 => decide (low ≤ 0x05) | 0x04 => decide (low ≤ 0x08)
    | 0x05 => decide (low ≤ 0x07) | 0x06 => decide (low ≤ 0x0A) | 0x07 => decide (low ≤ 0x05) | 0x08 => decide (low ≤ 0x04)
    | 0x09 => decide (low ≤ 0x06) | 0x0A => decide (low ≤ 0x06) | 0x0B => decide (low ≤ 0x04) | _ => false

/-- The payload of a message: its first LENGTH bytes (R101). -/
def msgPayload (m : List Byte) : List Byte := padBytes (bytesAt m 8 1) ((m.drop 16).take 240)

/-- R89, R102, R104: Enmora takes the message of H2E mailbox `mb` into the journal. A message whose header fails is answered ERR_HEADER and
logged; an opcode that is not listed is answered ERR_OPCODE, whatever its LENGTH; any other message is a command that may begin. [DEDUCED, log entry 20;
DEDUCED, log entry 22] -/
def State.take (s : State) (mb : Nat) : State :=
  let m := s.slot (R.h2eSlot mb)
  let s := { s with enm := { s.enm with taken := s.enm.taken ++ [⟨mb, BitVec.ofNat 16 (bytesAt m 0 2), headerTag m, msgPayload m, .waiting⟩] } }
  if !headerOk m then (s.headerFault 0 mb (headerTag m)).respond mb (bytesAt m 0 2) (headerTag m) (.err St.header)
  else if !opcodeListed (bytesAt m 0 2) then s.respond mb (bytesAt m 0 2) (headerTag m) (.err St.opcode)
  else s

/-- H2E mailbox `mb` holds a message that Enmora has not taken. -/
def State.untaken (s : State) (mb : Nat) : Bool := s.mbit R.h2eFull mb && !(s.enm.taken.any (·.mb == mb))

def State.takeIf (s : State) (mb : Nat) : State := if s.untaken mb then s.take mb else s

/-- R104, R590: a read of H2E_NEXT by the Command role returns, and clears, the oldest doorbell not yet returned; Enmora takes that mailbox's
message, and before it that of H2E 15 when one waits there. [DEDUCED, log entry 109] -/
def State.takeNext (s : State) : State :=
  match s.enm.order with
  | mb :: rest => ({ s with enm := { s.enm with order := rest } }.takeIf 15).takeIf mb
  | [] => s

end Sys2Proof.Machine
end

