-- ==== Sys2Proof/Machine/Profile.lean ====
section
/-!
DEFINITION. Profiles, costs and boundaries named by count: what R44, R46 to R49, R65, R66, R503 to R508 compute, used by admission,
by the PROF_* commands and by step 3 of a boundary.
-/
namespace Sys2Proof.Machine

/-- REGION_STATE bits 1:0 of a region (Table 14.8). -/
def State.regionMode (s : State) (r : Nat) : Nat := s.field (R.regionState r) 0 2

/-- Profile encodings (Table 14.2). -/
abbrev neap : Nat := 0
abbrev mean : Nat := 1
abbrev spring : Nat := 2

/-- m of R46: tenths of the array clock in 0.1 GHz over 2.5 GHz's 25. -/
def profM (fast : Bool) (p : Nat) : Nat := if p = spring ∧ fast then 28 else if p = neap then 16 else 25

/-- Package power limit in W (Table 14.2). -/
def profLimit (fast : Bool) (p : Nat) : Nat := if p = spring ∧ fast then 1800 else if p = neap then 950 else 1450

/-- R46: the cost in beats at `m`. -/
def costBeats (cycles fixed m : Nat) : Nat := cdiv (cycles * 25) m + fixed

/-- R44: the slack in beats of period `p` at `t` tenths of a percent. -/
def slackBeats (p t : Nat) : Nat := cdiv (p * t) 1000

/-- The profile values that decide the effective profiles (R504). -/
structure ProfView where
  cmd : Nat
  capW : Nat
  capE : Nat
  split : Bool
  deriving DecidableEq, Repr

def ProfView.effW (v : ProfView) : Nat := if v.split then min v.cmd v.capW else min v.cmd (min v.capW v.capE)
def ProfView.effE (v : ProfView) : Nat := if v.split then min v.cmd v.capE else min v.cmd (min v.capW v.capE)

/-- R515: Strait-split mode ends once the two effective profiles are equal. -/
def ProfView.settle (v : ProfView) : ProfView := if v.split ∧ v.effW = v.effE then { v with split := false } else v

/-- West in bits 1:0 and East in bits 3:2 (Table 14.6). -/
def ProfView.pack (v : ProfView) : Nat := v.effW + 4 * v.effE

/-- The profile values in effect, as PROF_STATE holds them (Table 14.9). -/
def State.profView (s : State) : ProfView :=
  ⟨s.field R.profState 10 2, s.field R.profState 6 2, s.field R.profState 8 2, bit (s.reg R.profState) 12⟩

/-- A ceiling moved by `d` profiles, between Neap and Spring (R510, R511). -/
def moveCap (c : Nat) (d : Int) : Nat := min 2 ((c : Int) + d).toNat

/-- A forced change or a rise applied to the values. -/
def ProfView.force (v : ProfView) (f : ProfForced) : ProfView :=
  { v with capW := moveCap v.capW f.dW, capE := moveCap v.capE f.dE, split := v.split || f.split }

/-- The changes named for one boundary: the commanded profile, and the forced changes in order of decision (R508, R515). -/
def ProfView.advance (v : ProfView) (cmd : Option Nat) (fs : List ProfForced) : ProfView :=
  (fs.foldl ProfView.force { v with cmd := cmd.getD v.cmd }).settle

/-- The boundary of a change. While the sequencer is stopped every change takes effect by a stopped apply, whatever boundary it names, and so before
the next tide opens (R41). -/
def State.changeAt (s : State) (b : Option Nat) : Nat := if s.tide.running then b.getD s.nextStep3 else s.nextStep3

/-- Commanded profile named for boundary `b`; the latest accepted. -/
def State.cmdFor (s : State) (b : Nat) : Option Nat :=
  ((s.pwr.cmds.reverse.find? fun c => s.changeAt c.boundary == b)).map (·.profile)

/-- Forced changes named for boundary `b`. -/
def State.forcedFor (s : State) (b : Nat) : List ProfForced := s.pwr.forced.filter fun f => s.changeAt f.boundary == b

/-- The boundaries for which changes are named, in order. -/
def State.changeKeys (s : State) : List Nat :=
  sortDedup (s.pwr.cmds.map (fun c => s.changeAt c.boundary) ++ s.pwr.forced.map (fun f => s.changeAt f.boundary))

/-- R49: the profile values in effect in tide `t`, every accepted change counted. -/
def State.profAt (s : State) (t : Nat) : ProfView :=
  (s.changeKeys.filter (· ≤ t)).foldl (fun v b => v.advance (s.cmdFor b) (s.forcedFor b)) s.profView

/-- The effective profile of the half that holds engine `e` (Table 1.2: bays 0-7 lie West). -/
def ProfView.ofEngine (v : ProfView) (e : Nat) : Nat := if e / 128 = 0 then v.effW else v.effE

/-- The lowest m of R46 over the tides an entry spans (R46, R49). -/
def State.lowestM (s : State) (view : Nat → ProfView) (engine t span : Nat) : Nat :=
  (List.range span).foldl (fun m i => min m (profM s.part.fast ((view (t + i)).ofEngine engine))) 28

/-- The member will have left its group, and HOLD_WINDOW will be 0, in tide `t` (R84). -/
def State.leavesBy (s : State) (t : Nat) : Bool := s.group.leaveAt.any fun b => decide (s.changeAt b ≤ t)

/-- The value of register `k` that tide `t` runs under, as far as it is known: pending writes apply at the next boundary, and a JOB_GROUP_LEAVE at the one
it names (R50). -/
def State.regAt (s : State) (k t : Nat) : Nat :=
  if k = R.holdWindow ∧ s.leavesBy t then 0
  else if s.tide.running ∧ t < s.nextStep3 then s.regN k else ((s.pendingReg k).getD (s.reg k)).toNat

/-- R47: the budget in beats of an entry that spans `span` tides. -/
def budget (p slack w span : Nat) : Int := (span * (p - slack) : Nat) - (w : Int)

/-- R46, R47: the entry of engine `e` from tide `t` fits under the profiles of `view`. -/
def State.fits (s : State) (view : Nat → ProfView) (minSlack : Nat) (c : Cost) (t : Nat) : Bool :=
  let p := s.regAt R.tidePeriod t
  let slack := slackBeats p (max (s.regAt R.tideSlack t) minSlack)
  decide ((costBeats c.cycles c.fixedBeats (s.lowestM view c.engine t c.span) : Int) ≤ budget p slack (s.regAt R.holdWindow t) c.span)

/-- R44, R48: P > S + W in tide `t`. -/
def State.periodLong (s : State) (minSlack t : Nat) : Bool :=
  let p := s.regAt R.tidePeriod t
  decide (slackBeats p (max (s.regAt R.tideSlack t) minSlack) + s.regAt R.holdWindow t < p)

/-- R46 to R48: the entry of engine `e` from tide `t` passes under the profiles of `view`, in every tide that it covers. -/
def State.passes (s : State) (view : Nat → ProfView) (minSlack : Nat) (c : Cost) (t : Nat) : Bool :=
  s.fits view minSlack c t && (List.range c.span).all fun i => s.periodLong minSlack (t + i)

/-- The image has a place in the schedule: admitted or running. -/
def Image.active (i : Image) : Bool := i.st == .admitted || i.st == .running

/-- Entry `c` of image `i` runs: it opens before the image is withdrawn. -/
def Image.runs (i : Image) (c : Cost) : Bool := i.active && (i.withdrawn.all fun w => decide (i.k0 + c.tide < w))

/-- The image's work reaches tide `t` or a later one. -/
def Image.reaches (i : Image) (t : Nat) : Bool := i.costs.any fun c => i.runs c && decide (t < i.k0 + c.tide + c.span)

/-- The first admitted entry at or after boundary `b` that would fail R46 to R48 under `view`: its engine and tide (R66). -/
def State.failsUnder (s : State) (view : Nat → ProfView) (b : Nat) : Option (Nat × Nat) :=
  s.images.findSome? fun i =>
    (i.costs.find? fun c => i.runs c && decide (b < i.k0 + c.tide + c.span) && !s.passes view i.minSlack c (i.k0 + c.tide)).map
      fun c => (c.engine, i.k0 + c.tide)

/-- R65: a command received in tide n may name boundary n + 2 or later; the rule does not apply while the sequencer is stopped (R41). -/
def State.late (s : State) (b : Nat) : Bool := s.tide.running && decide (b < s.tide.count.toNat + 2)

/-- PENDING of PROF_STATE: a change is named for a boundary not yet reached (Table 14.9). -/
def State.syncProf (s : State) : State := s.setField R.profState 13 1 (b2n (!s.pwr.cmds.isEmpty || !s.pwr.forced.isEmpty))

/-- R65: a later command for the same boundary replaces an earlier one. -/
def ProfCmd.replace (cs : List ProfCmd) (b : Option Nat) (p : Nat) : List ProfCmd :=
  cs.filter (fun (c : ProfCmd) => c.boundary != b) ++ [⟨b, p⟩]

/-- The judgement of a commanded change (R65, R66, R521): the refusal code with engine and tide, or none. [DEDUCED, log entry 26] -/
def State.judgeProf (s : State) (p b : Nat) : Option (Nat × Nat × Nat) :=
  if s.late b then some (0x21, noEngine, b)
  else
    let at_ := if s.tide.running then b else s.nextStep3
    let s' := { s with pwr := { s.pwr with cmds := ProfCmd.replace s.pwr.cmds (some at_) p } }
    match s.failsUnder s'.profAt at_ with
    | some (e, t) => some (0x20, e, t)
    | none => none

/-- The higher effective profile of the two halves (R505). -/
def ProfView.higher (v : ProfView) : Nat := max v.effW v.effE

/-- A commanded change accepted: it replaces a pending one for the same boundary (R65); while the sequencer is stopped it waits for a
stopped apply (R41). For a rise of the higher effective profile the VDD_CORE set point rises at once (R601). [DEDUCED, log entry 58] -/
def State.acceptProf (s : State) (p b : Nat) : State :=
  let key : Option Nat := if s.tide.running then some b else none
  let s' := { s with pwr := { s.pwr with cmds := ProfCmd.replace s.pwr.cmds key p } }
  let h := (s'.profAt (key.getD s.nextStep3)).higher
  (if s.pwr.setPoint < h then { s' with pwr := { s'.pwr with setPoint := h } } else s').syncProf

end Sys2Proof.Machine
end

