-- ==== Sys2Proof/Machine/MemMap.lean ====
section
/-!
DEFINITION. The device address map (R436, R437, Table 12.1): which ranges are backed, and the legality of a range a command or a
descriptor names.
-/
namespace Sys2Proof.Machine

/-- Where an address range may lie. -/
inductive Tier where
  | hbm | ddr | slice | localStore
  deriving DecidableEq, Repr

abbrev ddrBase : Nat := 0x020000000000
abbrev sliceBase : Nat := 0x080000000000
abbrev localBase : Nat := 0x081000000000

/-- Bytes of HBM that are backed: 504 GiB with 16-high stacks, 378 GiB with 12-high stacks (Table 12.1). -/
def State.hbmSize (s : State) : Nat := if s.part.high12 then 378 * 2 ^ 30 else 504 * 2 ^ 30

/-- Bytes of DDR5 fitted: DDR_CAPACITY in MiB (Table 12.7). -/
def State.ddrSize (s : State) : Nat := s.regN R.ddrCapacity * 2 ^ 20

/-- The tier that backs address `a`, if any. Local-store windows are 1 MiB per logical core, the lower 512 KiB backed (R214). -/
def State.tierOf (s : State) (a : Nat) : Option Tier :=
  if a < s.hbmSize then some .hbm
  else if ddrBase ≤ a ∧ a < ddrBase + s.ddrSize then some .ddr
  else if sliceBase ≤ a ∧ a < sliceBase + 2 ^ 28 then some .slice
  else if localBase ≤ a ∧ a < localBase + 2 ^ 28 ∧ a % 2 ^ 20 < 2 ^ 19 then some .localStore
  else none

/-- R437: the range of `n` bytes from `a` lies wholly in one backed range of the tiers allowed; an empty range is judged by its first
address alone. -/
def State.rangeOk (s : State) (allowed : List Tier) (a n : Nat) : Bool :=
  match s.tierOf a with
  | none => false
  | some t =>
    allowed.contains t &&
      (n == 0 || match t with
        | .hbm => decide (a + n ≤ s.hbmSize)
        | .ddr => decide (a + n ≤ ddrBase + s.ddrSize)
        | .slice => decide (a + n ≤ sliceBase + 2 ^ 28)
        | .localStore => decide (a % 2 ^ 20 + n ≤ 2 ^ 19))

/-- Every backed range. -/
def allTiers : List Tier := [.hbm, .ddr, .slice, .localStore]

/-- Address of byte `o` of logical core `c`'s local store (Table 12.1). -/
def lsAddr (c o : Nat) : Nat := localBase + c * 2 ^ 20 + o

/-- R476: a write to a 1 MiB block of the backed HBM and DDR5 ranges sets its bit in the dirty map. [DEDUCED, log entry 107] -/
def State.markDirty (s : State) (a n : Nat) : State :=
  if n = 0 then s
  else match s.tierOf a with
    | some .hbm | some .ddr =>
      let b := a / 2 ^ 20
      { s with dirty := (List.range ((a + n - 1) / 2 ^ 20 - b + 1)).foldl (fun m i => Sparse.put false m (b + i) true) s.dirty }
    | _ => s

/-- A write of `n` bytes from `a` gives the 32-byte units that it fills new check words (R441, R447). [DESIGN CHOICE, log entry 101] -/
def State.freshCheck (s : State) (a n : Nat) : State :=
  if n = 0 then s
  else
    let stays := fun u : Nat => decide (32 * u < a ∨ a + n < 32 * u + 32)
    { s with memc := { s.memc with poison := s.memc.poison.filter stays, struck := s.memc.struck.filter fun x => stays x.1 } }

/-- Bytes stored in memory from address `a` up: the bytes, their check words, and the dirty map (R476). [DEDUCED, log entry 107] -/
def State.store (s : State) (a : Nat) (bs : List Byte) : State := ((s.poke a bs).freshCheck a bs.length).markDirty a bs.length

/-- The half that holds logical slice `n` (R24) or logical core `n` (R21, R22): 0 West, 1 East. -/
def halfOfSlice (n : Nat) : Nat := n / 64
def halfOfCore (n : Nat) : Nat := n / 128

end Sys2Proof.Machine
end

