-- ==== Sys2Proof/Machine/Flits.lean ====
section
/-!
DEFINITION. Flits as they cross a link (R409 to R413, Tables 10.5, 11.3, 11.4, 11.6 and 11.16). A flit is a BitVec 544: its body in bits 511:0, byte 0
lowest, and its CRC-32 in bits 543:512.
-/
namespace Sys2Proof.Machine

/-- Table 11.3: the seed of a class: VC0 to VC3, and 4 for LINK. -/
def classSeed (c : Nat) : Nat := [0x11111111, 0x22222222, 0x44444444, 0x88888888, 0xFFFFFFFF].getD c 0xFFFFFFFF

/-- One bit of a CRC-32 with polynomial 0x04C1_1DB7, least significant bit first. -/
def crcBit (c : Nat) (b : Bool) : Nat := if (c.testBit 0) != b then (c >>> 1) ^^^ 0xEDB88320 else c >>> 1

/-- R409: the CRC-32 of a flit's body in class `c`: each byte's least significant bit first, as IEEE 802.3 sends it, and nothing inverted at the
end. [DESIGN CHOICE, log entry 118] -/
def flitCrc (c : Nat) (body : BitVec 512) : Nat := (List.range 512).foldl (fun r i => crcBit r (body.getLsbD i)) (classSeed c)

/-- The flit of a class with a body. -/
def wireFlit (c : Nat) (body : BitVec 512) : BitVec 544 := BitVec.ofNat 32 (flitCrc c body) ++ body

/-- R409: the class whose seed yields the flit's CRC; none is a CRC error. -/
def flitClass (f : BitVec 544) : Option Nat := (List.range 5).find? fun c => flitCrc c (f.extractLsb' 0 512) == bits f 512 32

/-- Table 11.6: the body of a LINK flit. -/
def linkBody (op seq lane : Nat) (credits : List Nat) : BitVec 512 :=
  let cr := credits.zipIdx.foldl (fun n e => n + e.1 % 4096 * 2 ^ (12 * e.2)) 0
  BitVec.ofNat 512 (op % 256 + seq % 65536 * 2 ^ 16 + lane % 65536 * 2 ^ 32 + cr % 2 ^ 96 * 2 ^ 64)

/-- Fields from bit `at_` upwards, each a width and a value. -/
def packBits : List (Nat × Nat) → Nat → Nat
  | [], _ => 0
  | (w, v) :: fs, at_ => v % 2 ^ w * 2 ^ at_ + packBits fs (at_ + w)

end Sys2Proof.Machine

namespace Sys2Proof

open Machine in
/-- Bits 511:72 of a header flit: Table 11.16 for TIDE, BARRIER and LOSS_REPORT, Table 10.5 for PIECE; the spec lays out no other kind.
[DESIGN CHOICE, log entry 118] -/
def Pkt.upper (p : Pkt) : Nat :=
  if p.kind = 7 ∨ p.kind = 8 ∨ p.kind = 9 then
    packBits [(8, p.ttype.toNat), (1, b2n p.stale), (15, 0), (64, p.beat.toNat), (64, p.tide.toNat), (16, p.barrier.toNat), (64, p.step.toNat),
      (32, p.snapSeq.toNat), (6, p.link), (16, p.lastSeq.toNat)] 0
  else if p.kind = 5 then
    packBits [(27, p.extent.toNat), (1, b2n p.nonfinC), (1, b2n p.nonfin), (6, p.bucketC.toNat), (6, p.bucket.toNat), (2, p.phase), (6, p.reducer),
      (13, p.len), (26, p.offset.toNat), (16, p.src.toNat), (16, p.dst.toNat), (32, p.pstep.toNat), (32, p.pstepC.toNat)] 0
  else (Config.opHeader p).toNat

open Machine in
/-- The header flit: the link header of Table 11.4 in bits 71:0, reserved bits 0, and the fields of the kind above it (R410, R412). -/
def Pkt.header (p : Pkt) : BitVec 512 :=
  BitVec.ofNat 512 (packBits [(16, p.dst.toNat), (16, p.src.toNat), (4, p.kind), (4, 0), (7, p.flits), (1, b2n p.dl), (24, 0), (440, p.upper)] 0)

open Machine in
/-- Flit `i` of a packet: its header, or its data flit `i` - 1 (R410). -/
def Pkt.flit (p : Pkt) (i : Nat) : BitVec 544 :=
  wireFlit p.vc (if i = 0 then p.header else BitVec.ofNat 512 (leNat (padBytes 64 (p.data.drop (64 * (i - 1))))))

end Sys2Proof
end

