-- ==== Sys2Proof/Machine/LinkQueue.lean ====
section
/-!
DEFINITION. Packets, the queue of a link and what it sends (R407 to R414, R417), paths and routes (R422 to R424, R428), and the mark tree
(R618).
-/
namespace Sys2Proof.Machine

/-! Packet kinds (Table 11.5). -/
namespace K
abbrev readReq : Fin 16 := 1
abbrev readData : Fin 16 := 2
abbrev write : Fin 16 := 3
abbrev writeAck : Fin 16 := 4
abbrev piece : Fin 16 := 5
abbrev pieceCredit : Fin 16 := 6
abbrev tide : Fin 16 := 7
abbrev barrier : Fin 16 := 8
abbrev lossReport : Fin 16 := 9
abbrev unreach : Fin 16 := 10
end K

/-! TTYPE of a TIDE packet (Table 11.16). -/
namespace T
abbrev mark : Byte := 1
abbrev hold : Byte := 2
abbrev release : Byte := 3
abbrev snapReq : Byte := 4
abbrev snapDone : Byte := 5
abbrev snapCommit : Byte := 6
abbrev snapAbort : Byte := 7
abbrev snapFail : Byte := 8
end T

end Sys2Proof.Machine

namespace Sys2Proof

/-- Flits of a packet. -/
def Pkt.size (p : Pkt) : Nat := 1 + p.flits

/-- R412: a tide mark. -/
def Pkt.isMark (p : Pkt) : Bool := p.kind == Machine.K.tide && p.ttype == Machine.T.mark

/-- R421: a mark becomes stale; any other packet stays as it is. -/
def Pkt.age (p : Pkt) : Pkt := if p.isMark then { p with stale := true } else p

/-- R411, R412: a reserved KIND or TTYPE, or a FLITS value that breaks Table 11.5. -/
def Pkt.bad (p : Pkt) : Bool :=
  if p.kind = Machine.K.readReq ∨ p.kind = Machine.K.writeAck ∨ p.kind = Machine.K.pieceCredit ∨ p.kind = Machine.K.unreach then p.flits != 0
  else if p.kind = Machine.K.readData ∨ p.kind = Machine.K.write then !(decide (1 ≤ p.flits ∧ p.flits ≤ 64))
  else if p.kind = Machine.K.piece then !(decide (4 ≤ p.flits ∧ p.flits ≤ 64))
  else if p.kind = Machine.K.tide then p.flits != 0 || !(decide (1 ≤ p.ttype.toNat ∧ p.ttype.toNat ≤ 8))
  else if p.kind = Machine.K.barrier then p.flits != 0 || !(decide (1 ≤ p.ttype.toNat ∧ p.ttype.toNat ≤ 2))
  else if p.kind = Machine.K.lossReport then p.flits != 0 || p.ttype != 1
  else true

/-- R424: the kinds that wait for a path. -/
def Pkt.waits (p : Pkt) : Bool := p.kind == Machine.K.tide || p.kind == Machine.K.barrier || p.kind == Machine.K.lossReport

/-- The buffer class of a packet: 2 × VC + class (Table 11.7). -/
def Pkt.cls (p : Pkt) : Nat := 2 * p.vc + Machine.b2n p.dl

/-- R424: which of `n` paths a packet takes: memory operations and their responses by the target address; a piece by its number (R378); the first
for the others. -/
def Pkt.pick (p : Pkt) (n : Nat) : Nat :=
  if p.kind = Machine.K.readReq ∨ p.kind = Machine.K.readData ∨ p.kind = Machine.K.write ∨ p.kind = Machine.K.writeAck then (p.dst.toNat % 256 ^^^ Machine.bits p.addr 12 8) % n
  else if p.kind = Machine.K.piece then p.here.turn % n
  else 0

end Sys2Proof

namespace Sys2Proof.Machine

/-! ### A link and its packets -/

def State.linkSt (s : State) (l : Nat) : LinkSt := s.link.links.getD l {}

def State.setLink (s : State) (l : Nat) (x : LinkSt) : State := { s with link := { s.link with links := s.link.links.set l x } }

/-- Receive buffers of a class (Table 11.7). [DESIGN CHOICE, log entry 71] -/
def bufFlits (c : Nat) : Nat := [32, 32, 320, 320, 288, 288, 128, 128].getD c 0

/-- R417: flits that the transmitter may still send to a class. -/
def LinkSt.credit (x : LinkSt) (c : Nat) : Nat := bufFlits c - (x.sentCr.getD c 0 + 4096 - x.retCr.getD c 0) % 4096

/-! ### Sending -/

/-- Table 6.5: the channel of a slot of the weighted pattern. [DESIGN CHOICE, log entry 71] -/
def slotVc (i : Nat) : Nat := [1, 2, 1, 3, 1, 2, 1].getD (i % 7) 1

/-- The first packet of channel `v` in the queue, when its next flit can go (R410): there is room in the replay buffer (R414) and credit (R417); `fresh`:
the link takes up new packets. -/
def LinkSt.headOf (x : LinkSt) (fresh : Bool) (v : Nat) : Option Pkt :=
  (x.queue.find? fun p => p.vc.val == v).bind fun p =>
    if decide (x.replay.length < 256) && decide (0 < x.credit p.cls) && (fresh || decide (0 < x.sent.getD v 0)) then some p else none

/-- R409, Table 6.5: VC0 first; then the channel of the present slot, or else of the next slot whose channel has a flit to send. The
position advances by one for a slot that VC0 does not take. -/
def LinkSt.choose (x : LinkSt) (fresh : Bool) : Option (Pkt × Nat) :=
  match x.headOf fresh 0 with
  | some p => some (p, x.slot)
  | none => ((List.range 7).findSome? fun i => x.headOf fresh (slotVc (x.slot + i))).map fun p => (p, (x.slot + 1) % 7)

/-- Adds to a count of Table 11.6, modulo 4,096. -/
def addCredit (l : List Nat) (c n : Nat) : List Nat := l.modify c fun v => (v + n) % 4096

/-- R407: a change of IN_SERVICE waits for its boundary while sent packets are unacknowledged: new packets are held back. -/
def State.draining (s : State) (l : Nat) : Bool :=
  match s.pendingReg (R.linkCtrl l) with
  | some v => bit v 0 != bit (s.reg (R.linkCtrl l)) 0 && !(s.linkSt l).replay.isEmpty
  | none => false

/-- A LINK flit is sent; it carries the credits (R413, Table 11.6). -/
def State.sendFlit (s : State) (l op seq lane : Nat) : State := s.emit (.flit l (wireFlit 4 (linkBody op seq lane (s.linkSt l).freed)) false)

/-- Entries of class `c` of link `l`'s receive buffers are free again (R417). -/
def State.freeEntries (s : State) (l c n : Nat) : State :=
  let x := s.linkSt l
  s.setLink l { x with freed := addCredit x.freed c n }

/-- A packet has left, or has been given up: the entries that it filled on the link it came by are free, and an IDLE flit returns the credits.
[DESIGN CHOICE, log entry 71] -/
def State.leaves (s : State) (p : Pkt) : State :=
  match p.here.via with
  | none => s
  | some (l, c) =>
    let s := s.freeEntries l c p.size
    if s.lstate l = L.active then s.sendFlit l 0 0 0 else s

/-- The next flit of `p`, the first packet of its channel, takes the next sequence number and goes into the replay buffer (R413, R414). -/
def LinkSt.sendNext (x : LinkSt) (p : Pkt) (slot : Nat) : LinkSt :=
  let i := x.sent.getD p.vc 0
  let last := i == p.flits
  let head := if i = 0 then x.txSeq else ((x.replay.reverse.find? fun e => e.pkt.vc == p.vc).map (·.head)).getD x.txSeq
  { x with queue := if last then x.queue.erase p else x.queue, sent := x.sent.set p.vc (if last then 0 else i + 1), slot
           replay := x.replay ++ [⟨x.txSeq, i, head, p⟩], txSeq := (x.txSeq + 1) % 65536, sentCr := addCredit x.sentCr p.cls 1 }

/-- The link sends what it can of its queue, at most `n` flits; only a link in service takes up new packets (R407). -/
def State.pumpN (s : State) (l : Nat) : Nat → State
  | 0 => s
  | n + 1 =>
    if s.lstate l ≠ L.active then s
    else
      let x := s.linkSt l
      match x.choose (s.inService l && !s.draining l) with
      | none => s
      | some (p, slot) =>
        let i := x.sent.getD p.vc 0
        let s := (s.setLink l (x.sendNext p slot)).emit (.flit l (p.flit i) false)
        (if i = p.flits then s.leaves p else s).pumpN l n

/-- [DESIGN CHOICE, log entry 71] -/
def State.pump (s : State) (l : Nat) : State := s.pumpN l ((s.linkSt l).queue.foldl (fun n p => n + p.size) 0)

/-- A packet given to link `l`; a mark that meets a SWAP pause goes stale (R421). -/
def State.enqueue (s : State) (l : Nat) (p : Pkt) : State :=
  let p := if s.lstate l = L.swap then p.age else p
  let x := s.linkSt l
  (s.setLink l { x with queue := x.queue ++ [p] }).pump l

/-! ### Device id and routing -/

/-- R422: this device's id; none while DEV_ID fails its complement check or its ECC. -/
def State.devId (s : State) : Option Half :=
  let v := s.reg R.devId
  if fieldPairOk v 16 0 16 && !s.spoilt .devId then some (BitVec.ofNat 16 (bits v 0 16)) else none

/-- The routing entry of device `d` holds good: its pair and its ECC (R423, R435). -/
def State.routeOk (s : State) (d : Nat) : Bool := let e := s.route d; pairOk 32 (bits e 0 32) (bits e 32 32) && !s.spoilt (.route d)

/-- R424: the valid paths of device `d`'s entry whose links are in service, ascending: link and DL. -/
def State.paths (s : State) (d : Nat) : List (Nat × Bool) :=
  if s.routeOk d then
    (List.range 4).filterMap fun i =>
      let b := bits (s.route d) (8 * i) 8
      if b.testBit 7 ∧ s.inService (b % 64) then some (b % 64, b.testBit 6) else none
  else []

/-- NEXT_LINKS of a ring entry, those in service, ascending (R378). -/
def State.ringLinks (s : State) (n : Nat) : List Nat :=
  (setBitsOf 64 (s.reg64 (R.ringLinksLo n) (R.ringLinksHi n))).filter s.inService

/-- The link that a piece of this device takes among its ring's (R378, R424). -/
def State.ringLink (s : State) (p : Pkt) : Option Nat :=
  p.here.ring.bind fun n => let ls := s.ringLinks n; ls[p.here.turn % ls.length]?

/-- R428: a destination of packets that a lost link holds. -/
def State.blocked (s : State) (d : Half) : Bool := s.link.links.any fun x => x.losses.any fun y => y.held.any fun e => e.2.dst == d

/-- Where a packet goes: onto a link, into the queue behind a resend (R428), among the packets that wait for a path (R424), or nowhere. -/
inductive Route where
  | link (l : Nat) (dl : Bool)
  | behind
  | park
  | none_
  deriving DecidableEq, Repr

def State.routeOf (s : State) (p : Pkt) (resend : Bool) : Route :=
  if !resend && s.blocked p.dst then .behind
  else if p.waits && s.link.noPath.any (·.dst == p.dst) then .park
  else match s.ringLink p with
    | some l => .link l false
    | none =>
      let ps := s.paths p.dst.toNat
      match ps[p.pick ps.length]? with
      | some (l, dl) => .link l dl
      | none => if p.waits then .park else .none_

/-! ### The mark tree (R58, R618) -/

/-- This device is the master of its tide group. -/
def State.isMaster (s : State) : Bool := s.group.member && s.devId == some (BitVec.ofNat 16 s.group.master)

/-- The tree neighbours: the parent, but for the master, and the children (R618). -/
def State.neighbours (s : State) : List Half :=
  if s.group.member then
    (if s.isMaster then [] else [BitVec.ofNat 16 s.group.parent]) ++ s.group.children.map (BitVec.ofNat 16 ·)
  else []

/-- A TIDE packet. -/
def tidePkt (tt : Byte) : Pkt := { kind := K.tide, dst := 0, ttype := tt }

/-- A read of a routing entry, or of DEV_ID under number 65,536, has failed (R435). -/
def State.routeUe (s : State) (what : Nat) : State :=
  ({ s with link := { s.link with reported := what :: s.link.reported.filter (· != what) } } : State).count R.routeErrors

/-- A TIDE packet of this member's own goes towards its destination; with no path it waits; an id or an entry that fails its check is
counted (R422, R424, R435). -/
def State.sendTide (s : State) (p : Pkt) : State :=
  match s.devId with
  | none => s.routeUe 65536
  | some me =>
    let p := { p with src := me }
    let s := if s.routeOk p.dst.toNat then s else s.routeUe p.dst.toNat
    match s.routeOf p false with
    | .link l dl => s.enqueue l { p with dl := p.dl || dl }
    | .behind => { s with link := { s.link with waitQ := s.link.waitQ ++ [p] } }
    | _ => { s with link := { s.link with noPath := s.link.noPath ++ [p.age] } }

end Sys2Proof.Machine
end

