-- ==== Sys2Proof/Machine/Reports.lean ====
section
/-!
DEFINITION. Engines that report for the closing tide (R31, R51, R53, R54, R70), and the RELEASE of a hold of this member (R63).
-/
namespace Sys2Proof.Machine

/-- A cost entry without cycles, beats and lists is no work. -/
def Cost.isWork (c : Cost) : Bool := c.cycles != 0 || c.fixedBeats != 0 || !c.lists.isEmpty

/-- Group beat of the nominal boundary that is next to open (R51). -/
def State.nominal (s : State) : Int := s.tide.openBeat + s.regN R.tidePeriod

/-- A free 64-bit value is drawn. [DESIGN CHOICE, log entry 5] -/
def State.draw (s : State) : Dword × State := (Config.freeDword s.free, { s with free := s.free + 1 })

/-- Cost entries whose last tide boundary `b` closes, each with the tide that it opened in: the boundaries inside a multi-tide span do not wait for their engine (R70). -/
def State.closing (s : State) (b : Nat) : List Cost :=
  s.images.flatMap fun i => (i.costs.filter fun c => i.runs c && c.isWork && i.k0 + c.tide + c.span == b && decide (i.k0 + c.tide < b)).map
    fun c => { c with tide := i.k0 + c.tide }

/-- The reports made for the tide that the next boundary closes, oldest first. [DEDUCED, log entry 79] -/
def State.reported (s : State) : List Report := s.tide.reports.filter (·.close == s.tide.next)

/-- The engine that reported last; of several that reported last at one beat, the lowest-numbered. [DEDUCED, log entry 53] -/
def State.lastReport (s : State) : Option Report :=
  s.reported.foldl (fun (m : Option Report) r => match m with
    | some x => if x.beat < r.beat ∨ (x.beat = r.beat ∧ r.core < x.core) then some r else m
    | none => some r) none

/-- The engine has reported for the closing tide. -/
def State.hasReported (s : State) (core : Nat) : Bool := s.reported.any (·.core == core)

/-- The entry of an engine that is open and not yet reported; an engine inside a multi-tide span may complete before the tide that closes it. -/
def State.openEntry (s : State) (core : Nat) : Option Cost :=
  if s.tide.running && !s.tide.past3 then
    (s.images.flatMap fun i => (i.costs.filter fun c => c.engine == core && i.runs c && c.isWork && decide (i.k0 + c.tide < s.tide.next)
      && decide (s.tide.next ≤ i.k0 + c.tide + c.span)).map fun c => ({ c with tide := i.k0 + c.tide } : Cost)).find? fun c =>
        s.tide.reports.all fun r => r.core != core || r.close != c.tide + c.span
  else none

/-- Engines still to report for the boundary that is next to open, ascending. -/
def State.unreported (s : State) : List Nat :=
  if s.tide.running && !s.tide.past3 then sortDedup (((s.closing s.tide.next).map (·.engine)).filter fun e => !s.hasReported e) else []

/-- Step 1 of R31 is satisfied. -/
def State.step1 (s : State) : Bool := s.unreported.isEmpty

/-- R63: the holder's own step 1 is satisfied, and no TIDE_HOLD of its own stands: it releases the boundary at the later of the nominal boundary and the
current group beat plus W. While the sequencer is stopped the nominal beat is the one that TIDE_RUN names (R40), if any. [DEDUCED, log entry 52] The state after, and the RELEASE that it sends. -/
def State.ownRelease (s : State) : Option (State × Pkt) :=
  let k := s.tide.next
  if !s.tide.past3 && s.step1 && s.tide.selfHolds.contains k && !s.tide.hostHolds.contains k then
    let n := if s.tide.running then s.nominal else s.tide.runAt.getD s.groupBeat
    let g := max n (s.groupBeat + s.regN R.holdWindow)
    some ({ s with tide := { s.tide with selfHolds := s.tide.selfHolds.filter (· != k), selfReleases := s.tide.selfReleases ++ [(k, g)] } },
      { tidePkt T.release with tide := BitVec.ofInt 64 ((k : Int) - 1), beat := BitVec.ofInt 64 g })
  else none

/-- The cause that the report of the engine of entry `c`, whose `tide` is the tide that it opened in, would give a hold (R53): CLOCK when a tide of the entry
ran under a forced change or held a frequency step. [DEDUCED, log entry 53] -/
def State.causeOf (s : State) (c : Cost) (working stall : Word) : Nat :=
  if s.tide.replayed then 4
  else if c.cycles < working.toNat then 1
  else if stall ≠ 0 then 3
  else if s.tide.clockTide.any fun t => decide (c.tide ≤ t) then 6
  else 2

/-- The report of the engine of cost entry `c` (R31), which boundary `close` closes. `stall` are its stall cycles but those of R151, which the model holds
(R242). R54: the count of the hold rests once step 1 is satisfied. [DEDUCED, log entry 53] -/
def State.addReport (s : State) (c : Cost) (close : Nat) (working stall : Word) : State :=
  let all := satAdd stall (s.arr c.engine).retried
  let r : Report := { core := c.engine, close, beat := s.groupBeat, working, stall := all, cause := s.causeOf c working all, mb := c.mb }
  let s := s.count (R.coreStall c.engine) stall.toNat
  let s := { s with tide := { s.tide with reports := s.tide.reports ++ [r] }
                    cores := Sparse.put {} s.cores c.engine { s.arr c.engine with retried := 0 } }
  match s.tide.hangFrom, s.step1 with
  | some g, true => { s with tide := { s.tide with hangFrom := none, hangCount := s.tide.hangCount + (s.groupBeat - g).toNat } }
  | _, _ => s

/-- Work that is cut off: its engine counts as having reported now; its cycles, which the spec does not give, are free values. -/
def State.cutReport (s : State) (c : Cost) : State :=
  let w := s.draw
  let t := w.2.draw
  t.2.addReport c s.tide.next (w.1.setWidth 32) (t.1.setWidth 32)

/-- Every engine still to report for the closing tide is cut off, which satisfies step 1 and releases a hold of this member (R51, R63, R472). [DEDUCED, log entry 53] -/
def State.cutReports (s : State) : State :=
  let s := ((s.closing s.tide.next).filter fun c => s.unreported.contains c.engine).foldl State.cutReport s
  match s.ownRelease with
  | some (s, p) => s.neighbours.foldl (fun s d => s.sendTide { p with dst := d }) s
  | none => s

end Sys2Proof.Machine
end

