-- ==== Sys2Proof/Machine/Num.lean ====
section
/-!
DEFINITION. Numbers: the element formats of Tables 7.1 and 7.2, exact values, and rounding (R258 to R261, R265, R266, R268, R277 to R279). An
operation computes its exact result and rounds it once.
-/
namespace Sys2Proof.Machine

/-- A value: a NaN, an infinity, or (-1)^neg × m × 2^e. -/
inductive Val where
  | nan
  | inf (neg : Bool)
  | fin (neg : Bool) (m : Nat) (e : Int)
  deriving DecidableEq, Repr

/-- A floating-point format (Table 7.1): exponent and mantissa bits, bias, and its largest finite value as its code. -/
structure FloatFmt where
  e : Nat
  m : Nat
  bias : Int
  /-- It has infinities (IEEE layout); E4M3 has one NaN and no infinity; the MX element formats have neither. -/
  hasInf : Bool
  hasNan : Bool
  /-- Code of the largest finite value, and of the canonical NaN. -/
  maxCode : Nat
  nanCode : Nat
  deriving DecidableEq, Repr

abbrev fp32 : FloatFmt := ⟨8, 23, 127, true, true, 0x7F7FFFFF, 0x7FC00000⟩
abbrev bf16 : FloatFmt := ⟨8, 7, 127, true, true, 0x7F7F, 0x7FC0⟩
abbrev fp16 : FloatFmt := ⟨5, 10, 15, true, true, 0x7BFF, 0x7E00⟩
abbrev e4m3 : FloatFmt := ⟨4, 3, 7, false, true, 0x7E, 0x7F⟩
abbrev e5m2 : FloatFmt := ⟨5, 2, 15, true, true, 0x7B, 0x7E⟩
abbrev e3m2 : FloatFmt := ⟨3, 2, 3, false, false, 0x1F, 0⟩
abbrev e2m3 : FloatFmt := ⟨2, 3, 1, false, false, 0x1F, 0⟩
abbrev e2m1 : FloatFmt := ⟨2, 1, 1, false, false, 0x7, 0⟩

/-! FMT codes (Table 4.1). -/
namespace Fm
abbrev e4m3 : Nat := 0
abbrev e5m2 : Nat := 1
abbrev mx8e4 : Nat := 2
abbrev mx8e5 : Nat := 3
abbrev mx6e3 : Nat := 4
abbrev mx6e2 : Nat := 5
abbrev mx4 : Nat := 6
abbrev bf16 : Nat := 7
abbrev fp16 : Nat := 8
abbrev int8 : Nat := 9
abbrev fp32 : Nat := 10
end Fm

/-- The floating-point layout of a FMT code; INT8 has none of its own. -/
def floatFmt (f : Nat) : FloatFmt :=
  match f with
  | 0 => e4m3
  | 1 => e5m2
  | 2 => e4m3
  | 3 => e5m2
  | 4 => e3m2
  | 5 => e2m3
  | 6 => e2m1
  | 7 => bf16
  | 8 => fp16
  | _ => fp32

/-- MX formats (R259). -/
def isMx (f : Nat) : Bool := decide (2 ≤ f ∧ f ≤ 6)

/-- Bits of an element (Tables 7.1, 7.2). -/
def elemBits (f : Nat) : Nat :=
  match f with
  | 4 => 6
  | 5 => 6
  | 6 => 4
  | 7 => 16
  | 8 => 16
  | 10 => 32
  | _ => 8

/-! ### Formats (Table 4.1) -/

/-- Tile depth K_t. -/
def tileDepth (f : Nat) : Nat := if f = Fm.mx4 then 128 else 64

/-- Cycles per vector c_v. -/
def vecCycles (f : Nat) : Nat := if f = Fm.bf16 ∨ f = Fm.fp16 then 2 else 1

/-- Elements, data bytes and scale bytes of a vector, single or of a quadrille. -/
def vecElems (f : Nat) (quad : Bool) : Nat := if quad then 2 * tileDepth f else tileDepth f
def vecSize (f : Nat) (quad : Bool) : Nat := vecElems f quad * elemBits f / 8
def vecScales (f : Nat) (quad : Bool) : Nat := if isMx f then vecElems f quad / 32 else 0

/-- The classes of R127. -/
def fmtClass (f : Nat) : Nat := if f ≤ 5 then 0 else if f = 6 then 1 else if f ≤ 8 then 2 else 3

/-! ### Values of codes (R258 to R260) -/

/-- The value that a code spells. -/
def FloatFmt.val (f : FloatFmt) (c : Nat) : Val :=
  let neg := c.testBit (f.e + f.m)
  let E := nbits c f.m f.e
  let M := nbits c 0 f.m
  let top := E == 2 ^ f.e - 1
  if f.hasInf && top then (if M = 0 then .inf neg else .nan)
  else if f.hasNan && !f.hasInf && top && M == 2 ^ f.m - 1 then .nan
  else if E = 0 then .fin neg M (1 - f.bias - f.m)
  else .fin neg (2 ^ f.m + M) (E - f.bias - f.m)

/-- The value of an integer. -/
def intVal (i : Int) : Val := .fin (decide (i < 0)) i.natAbs 0

/-- The value of an element of FMT `f`. -/
def elemVal (f c : Nat) : Val := if f = Fm.int8 then intVal (sext 8 c) else (floatFmt f).val c

/-- The value of an FP32 word. -/
def wval (w : Word) : Val := fp32.val w.toNat

/-- The value of an E8M0 scale (Table 7.2). -/
def scaleVal (c : Nat) : Val := if c = 255 then .nan else .fin false 1 (c - 127)

/-! ### Rounding (R265, R266, R268) -/

/-- Nearest with ties to even, or stochastic with 16 random bits. -/
inductive Rnd where
  | even
  | stoch (r : Nat)
  deriving DecidableEq, Repr

/-- `m` with its low `d` bits rounded off. -/
def roundOff (rm : Rnd) (m d : Nat) : Nat :=
  let lo := m >>> d
  let rem := m % 2 ^ d
  match rm with
  | .even => if 2 ^ d < 2 * rem ∨ (2 * rem = 2 ^ d ∧ lo % 2 = 1) then lo + 1 else lo
  | .stoch r => if 2 ^ 16 ≤ rem * 2 ^ 16 / 2 ^ d + r then lo + 1 else lo

/-- How a conversion counts (R299). -/
inductive Loss where
  | none | overflow | vanish | nonfin
  deriving DecidableEq, Repr

/-- A sign above the code of a magnitude. -/
def FloatFmt.signed (f : FloatFmt) (neg : Bool) (c : Nat) : Nat := c + b2n neg * 2 ^ (f.e + f.m)

/-- The magnitude m × 2^e rounded to the format's grid, as m' × 2^q: q is the place of its last mantissa bit. -/
def FloatFmt.grid (f : FloatFmt) (rm : Rnd) (m : Nat) (e : Int) : Nat × Int :=
  let q : Int := max (e + m.log2) (1 - f.bias) - f.m
  let r := if q ≤ e then m <<< (e - q).toNat else roundOff rm m (q - e).toNat
  if r = 2 ^ (f.m + 1) then (2 ^ f.m, q + 1) else (r, q)

/-- Code of a finite magnitude on the grid; above the largest finite value it is an infinity (or, where `sat`, the largest finite value). -/
def FloatFmt.gridCode (f : FloatFmt) (sat : Bool) (r : Nat) (q : Int) : Nat × Bool :=
  let c := if r < 2 ^ f.m then r else ((q + f.m + f.bias).toNat) * 2 ^ f.m + (r - 2 ^ f.m)
  if c ≤ f.maxCode then (c, false) else if sat then (f.maxCode, true) else ((2 ^ f.e - 1) * 2 ^ f.m, true)

/-- Table 7.3: formats that saturate. -/
def FloatFmt.saturates (f : FloatFmt) : Bool := decide (f.e + f.m < 10)

/-- The code of a value in format `f` (R265, R266, R268), and how it counts. -/
def FloatFmt.round (f : FloatFmt) (rm : Rnd) (v : Val) : Nat × Loss :=
  match v with
  | .nan => (f.nanCode, .nonfin)
  | .inf neg => (if f.hasInf then f.signed neg ((2 ^ f.e - 1) * 2 ^ f.m) else f.nanCode, .nonfin)
  | .fin neg m e =>
    if m = 0 then (f.signed neg 0, .none)
    else
      let g := f.grid rm m e
      let c := f.gridCode f.saturates g.1 g.2
      (f.signed neg c.1, if c.2 then .overflow else if c.1 = 0 then .vanish else .none)

/-- An FP32 result (R277: one rounding). -/
def w32 (rm : Rnd) (v : Val) : Word := word (fp32.round rm v).1

/-- INT8 (Table 7.3): NaN gives 0, the largest magnitude is 127. -/
def roundInt8 (rm : Rnd) (v : Val) : Nat × Loss :=
  match v with
  | .nan => (0, .nonfin)
  | .inf neg => (if neg then 0x81 else 0x7F, .nonfin)
  | .fin neg m e =>
    let r := if 0 ≤ e then m <<< e.toNat else roundOff rm m (-e).toNat
    let k := min r 127
    (if neg then (256 - k) % 256 else k, if 127 < r then .overflow else if r = 0 ∧ m ≠ 0 then .vanish else .none)

/-! ### Exact arithmetic -/

/-- m × 2^e as an integer count of 2^q, for q ≤ e. -/
def scaled (neg : Bool) (m : Nat) (e q : Int) : Int := let x : Int := (m <<< (e - q).toNat : Nat); if neg then -x else x

def Val.neg : Val → Val
  | .nan => .nan
  | .inf n => .inf (!n)
  | .fin n m e => .fin (!n) m e

def Val.abs : Val → Val
  | .nan => .nan
  | .inf _ => .inf false
  | .fin _ m e => .fin false m e

/-- The exact sum (IEEE 754 default handling, R279): an exact zero of unlike signs is positive. -/
def Val.add (a b : Val) : Val :=
  match a, b with
  | .nan, _ => .nan
  | _, .nan => .nan
  | .inf x, .inf y => if x = y then .inf x else .nan
  | .inf x, _ => .inf x
  | _, .inf y => .inf y
  | .fin x m e, .fin y n d =>
    let q := min e d
    let t := scaled x m e q + scaled y n d q
    if t = 0 then .fin (x && y) 0 q else .fin (decide (t < 0)) t.natAbs q

def Val.mul (a b : Val) : Val :=
  match a, b with
  | .nan, _ => .nan
  | _, .nan => .nan
  | .inf x, .inf y => .inf (x != y)
  | .inf x, .fin y n _ => if n = 0 then .nan else .inf (x != y)
  | .fin x m _, .inf y => if m = 0 then .nan else .inf (x != y)
  | .fin x m e, .fin y n d => .fin (x != y) (m * n) (e + d)

/-- The quotient to 64 bits and a sticky bit, which rounds as the exact quotient does. -/
def Val.div (a b : Val) : Val :=
  match a, b with
  | .nan, _ => .nan
  | _, .nan => .nan
  | .inf _, .inf _ => .nan
  | .inf x, .fin y _ _ => .inf (x != y)
  | .fin x _ _, .inf y => .fin (x != y) 0 0
  | .fin x m e, .fin y n d =>
    if n = 0 then (if m = 0 then .nan else .inf (x != y))
    else
      let k := 64 + n.log2
      let t := m <<< k
      .fin (x != y) (2 * (t / n) + b2n (t % n != 0)) (e - d - k - 1)

/-- Bit `i` and those below it of the integer square root of `n` whose higher bits are `r`. -/
def sqrtBits (n : Nat) : Nat → Nat → Nat
  | 0, r => r
  | i + 1, r => let t := r + 2 ^ i; sqrtBits n i (if t * t ≤ n then t else r)

/-- The square root to 65 bits and a sticky bit. -/
def Val.sqrt : Val → Val
  | .nan => .nan
  | .inf neg => if neg then .nan else .inf false
  | .fin neg m e =>
    if m = 0 then .fin neg 0 e
    else if neg then .nan
    else
      let k := 130 + (if (e % 2 == 0) then 0 else 1)
      let n := m <<< k
      let r := sqrtBits n (n.log2 / 2 + 1) 0
      .fin false (2 * r + b2n (r * r != n)) ((e - k) / 2 - 1)

/-- a < b for values that are no NaN. -/
def Val.lt (a b : Val) : Bool :=
  match a, b with
  | .nan, _ => false
  | _, .nan => false
  | .inf x, .inf y => x && !y
  | .inf x, .fin _ _ _ => x
  | .fin _ _ _, .inf y => !y
  | .fin x m e, .fin y n d => decide (scaled x m e (min e d) < scaled y n d (min e d))

def Val.isNan (v : Val) : Bool := v == .nan

def Val.isZero : Val → Bool
  | .fin _ m _ => m == 0
  | _ => false

def Val.finite : Val → Bool
  | .fin _ _ _ => true
  | _ => false

/-! ### FP32 words -/

def fadd (rm : Rnd) (a b : Word) : Word := w32 rm ((wval a).add (wval b))
def fmul (a b : Word) : Word := w32 .even ((wval a).mul (wval b))
def fsub (a b : Word) : Word := w32 .even ((wval a).add (wval b).neg)
def fmaAdd (a b c : Word) : Word := w32 .even (((wval a).mul (wval b)).add (wval c))
def fdiv (a b : Word) : Word := w32 .even ((wval a).div (wval b))
def fsqrt (a : Word) : Word := w32 .even (wval a).sqrt

/-- |a| of an FP32 word; a NaN gives the canonical NaN (R261). -/
def fabs (a : Word) : Word := w32 .even (wval a).abs

/-- a > b on FP32 words. -/
def fgt (a b : Word) : Bool := (wval b).lt (wval a)

abbrev f32one : Word := 0x3F800000
abbrev f32nan : Word := 0x7FC00000
abbrev f32inf : Word := 0x7F800000

/-- Two words neither finite nor infinite count as NaN; the larger of two values. Of two equal values (zeros of unlike sign) the first is
taken unless `second` says otherwise, which the spec leaves open. -/
def fmaxOf (second : Bool) (a b : Word) : Word :=
  if (wval a).isNan || (wval b).isNan then f32nan
  else if fgt b a then b else if fgt a b then a else if second then b else a

def fminOf (second : Bool) (a b : Word) : Word :=
  if (wval a).isNan || (wval b).isNan then f32nan
  else if fgt a b then b else if fgt b a then a else if second then b else a

/-- The sum of words in order, from the first (R125, R146). -/
def fsumFrom (a : Word) (ws : List Word) : Word := ws.foldl (fadd .even) a

def fsum : List Word → Word
  | [] => 0
  | w :: ws => fsumFrom w ws

/-- One level of the pairwise tree of R278. -/
def pairUp : List Word → List Word
  | a :: b :: r => fadd .even a b :: pairUp r
  | l => l

/-- R278: six levels over 64 lanes. -/
def treeSum (l : List Word) : Word := (pairUp (pairUp (pairUp (pairUp (pairUp (pairUp l)))))).headD 0

/-- The exponent of the smallest power of two at or above a positive value m × 2^e. -/
def ceilLog2 (m : Nat) (e : Int) : Int := e + m.log2 + (if m = 2 ^ m.log2 then 0 else 1)

/-- 2^i as an FP32 word, clamped to exponents from `lo` to `hi`. -/
def pow2Word (lo hi i : Int) : Word := w32 .even (.fin false 1 (max lo (min hi i)))

/-- 2^ceil(log2 (h × m / F)) with m a positive finite FP32 word, h a power of two and F the largest finite value of FMT `f` (R290, R291), as an
exponent. -/
def scaleExp (h : Int) (f : Nat) (m : Word) : Int :=
  let F : Val := if f = Fm.int8 then intVal 127 else (floatFmt f).val (floatFmt f).maxCode
  match wval m, F with
  | .fin _ a e, .fin _ b d =>
    -- smallest i with a × 2^(e + h) ≤ b × 2^(d + i)
    let base := e + h - d + a.log2 - b.log2 - 1
    let ok : Int → Bool := fun i => !(Val.lt (.fin false b (d + i)) (.fin false a (e + h)))
    if ok base then base else if ok (base + 1) then base + 1 else base + 2
  | _, _ => 0

end Sys2Proof.Machine
end

