-- ==== Sys2Proof/Machine/Shown.lean ====
section
/-!
DEFINITION. Values that registers show and that State holds elsewhere: operations in flight (Table 6.15), frame records (R333), update records (R367),
dirty blocks (R476) and the snapshot interval (R484).
-/
namespace Sys2Proof.Machine

/-! ### Stream engines -/

/-- Operations a core's engine has in flight (R231). -/
def State.opsOf (s : State) (core : Nat) : List MemOp := s.str.ops.filter fun o => o.eng.getD o.own.core == core

/-- OPS_IN_FLIGHT (Table 6.15). -/
def State.opsInFlight (s : State) (core : Nat) : Word :=
  word ((s.opsOf core).length + 256 * ((s.opsOf core).filter (·.prov)).length)

/-! ### The Shelf -/

/-- Key of a frame record. -/
def frameKey (shelf depth : Nat) : Nat := 1024 * shelf + depth

def State.frame (s : State) (shelf depth : Nat) : BitVec 256 := Sparse.get frameEmpty s.shelf.frames (frameKey shelf depth)

/-- FRAME_DATA`i` of the frame that FRAME_INDEX names. -/
def State.frameWord (s : State) (index : Word) (i : Nat) : Word := word (bits (s.frame (bits index 16 5) (bits index 0 10)) (32 * i) 32)

/-! ### Update records -/

def State.updRec (s : State) (u : Nat) : UpdRec := Sparse.get {} s.upd.recs u

/-- REC_STATE`i` of the record that RECORD_INDEX names (Table 9.7). -/
def State.recWord (s : State) (index : Word) (i : Nat) : Word :=
  let r := s.updRec (bits index 0 12)
  match i with
  | 0 => word (bits r.pins 0 32)
  | 1 => word (bits r.pins 32 32)
  | 2 => r.version
  | _ => word (r.ref0 + 256 * r.ref1 + 65536 * b2n r.updating + 131072 * b2n r.committed)

/-! ### Snapshots -/

abbrev mib : Nat := 2 ^ 20

/-- DIRTY_BLOCKS: the set bits that lie in entries. -/
def State.dirtyBlocks (s : State) : Nat :=
  (s.dirty.filter fun b => s.snap.entries.any fun e => decide (e.base / mib ≤ b.1 ∧ b.1 < e.base / mib + e.lenMb)).length

/-- Events of the last 24 hours that halve M, at most 4. -/
def State.troubles (s : State) : Nat :=
  min 4 (s.snap.trouble.filter fun b => decide (s.beat.toNat < b + 24 * 3600 * 2500000000)).length

/-- C in µs: that of the last snapshot, or 1 s before the first. [DEDUCED, log entry 16; DEDUCED, log entry 103] -/
def State.costUs (s : State) : Nat := if s.snap.costed then s.regN R.snapCostUs else 1000000

/-- T in whole seconds; 0 while MTBF_S disables automatic requests. [DEDUCED, log entry 16; DEDUCED, log entry 103] -/
def State.intervalS (s : State) : Nat :=
  if s.regN R.mtbfS = 0 then 0
  else max 30 (min 3600 (sqrtBits (2 * s.costUs * s.regN R.mtbfS / (1000000 * 2 ^ s.troubles)) 32 0))

end Sys2Proof.Machine
end

