-- ==== Sys2Proof/Machine/Records.lean ====
section
/-!
DEFINITION. Update records (Tables 9.1, 9.2), bucket slots (Table 10.1) and the fields of their descriptors that the sequencer looks at, and whether an
update or a bucket descriptor has nothing to wait for (R240).
-/
namespace Sys2Proof.Machine

abbrev Desc := BitVec 512

/-! ### Update records (Tables 9.1, 9.2) -/

def UpdRec.chVecs (r : UpdRec) : Nat := bits r.stat 94 14
def UpdRec.cfmt (r : UpdRec) : Nat := bits r.stat 92 2
def UpdRec.hasBias (r : UpdRec) : Bool := bit r.stat 91
def UpdRec.bf16Moments (r : UpdRec) : Bool := bit r.stat 90
def UpdRec.hset (r : UpdRec) : Nat := bits r.stat 86 4
/-- 0 SGD, 1 ADAMW, 2 EXPERT. -/
def UpdRec.opt (r : UpdRec) : Nat := bits r.stat 82 2
def UpdRec.vmode (r : UpdRec) : Nat := bits r.stat 78 2
def UpdRec.stash (r : UpdRec) : Bool := r.vmode == 2
def UpdRec.wmode (r : UpdRec) : Nat := bits r.stat 74 2
def UpdRec.split32 (r : UpdRec) : Bool := r.wmode == 2
def UpdRec.mat (r : UpdRec) : Nat := bits r.stat 70 2
def UpdRec.layer (r : UpdRec) : Nat := bits r.stat 50 10

/-- R12: the complement pairs of a record hold. -/
def recPairsOk (st : BitVec 128) : Bool :=
  fieldPairOk st 2 82 84 && fieldPairOk st 2 78 80 && fieldPairOk st 2 74 76 && fieldPairOk st 2 70 72 && fieldPairOk st 10 50 60

/-- R359: the current slot and the target slot. -/
def UpdRec.current (r : UpdRec) : Nat := if r.stash then r.version.toNat % 2 else 0
def UpdRec.target (r : UpdRec) : Nat := if r.stash then (r.version.toNat + 1) % 2 else 0

/-- Pins on a slot. -/
def UpdRec.ref (r : UpdRec) (slot : Nat) : Nat := if slot = 0 then r.ref0 else r.ref1
def UpdRec.setRef (r : UpdRec) (slot n : Nat) : UpdRec := if slot = 0 then { r with ref0 := n } else { r with ref1 := n }

/-- PINS entry of a Shelf: 0 not pinned, 2 slot 0, 3 slot 1. -/
def UpdRec.pin (r : UpdRec) (shelf : Nat) : Nat := bits r.pins (2 * shelf) 2

/-- Record and Shelf of an update operation (R350). -/
def uRec (d : Desc) : Nat := bits d 448 12
def uShelf (d : Desc) : Nat := bits d 464 5

/-! States of a slot (Table 10.1). -/
namespace Bk
abbrev idle : Nat := 0
abbrev opened : Nat := 1
abbrev reducing : Nat := 2
abbrev done : Nat := 3
end Bk

def State.bucket (s : State) (b : Nat) : Slot := Sparse.get {} s.bkt.slots b

/-- The state of slot `b`, in BKT_STATE0-3. -/
def State.bucketState (s : State) (b : Nat) : Nat := s.field (R.bktState (b / 16)) (2 * (b % 16)) 2

/-- Reducer index, NBUCKETS, bucket and operation of a BKT (Table 10.6). -/
def bRIndex (d : Desc) : Nat := bits d 362 6
def bNBuckets (d : Desc) : Nat := bits d 317 7
def bBucket (d : Desc) : Nat := bits d 305 6
def bOp (d : Desc) : Nat := bits d 297 4

/-- Buckets of the step that are DONE. -/
def State.doneBuckets (s : State) : List Nat := (List.range 64).filter fun b => s.bucketState b == Bk.done

/-! ### What has nothing to wait for (R240) -/

/-- An update operation that issues whatever comes of it: the gate is decided, no pin on the target slot is waited for (R361), and no update of the
record by a VER_PIN under FLUSH (R360). -/
def State.updGoes (s : State) (d : Desc) : Bool :=
  let op := bits d 268 6
  let r := s.updRec (uRec d)
  if op = 0x28 then r.stash || !r.updating
  else if op = 0x29 then true
  else s.field R.gate 0 2 != 0 && (!([0x22, 0x23, 0x24].contains op) || r.ref r.target == 0)

/-- A BKT that issues whatever comes of it: an OPEN, a CONTRIB whose bucket is not IDLE (R374), a REDUCE whose bucket has launched and whose reducer
has not started, a DECIDE with its buckets DONE (R391). -/
def State.bktGoes (s : State) (d : Desc) : Bool :=
  let st := s.bucketState (bBucket d)
  match bOp d with
  | 0 => true
  | 1 => st != Bk.idle
  | 2 => st == Bk.reducing && !(s.bkt.reds.any fun x => x.slot == bBucket d && x.idx == bRIndex d) && !(s.bucket (bBucket d)).fin.any (·.1 == bRIndex d)
  | 3 => decide (bNBuckets d ≤ s.doneBuckets.length)
  | _ => false

end Sys2Proof.Machine
end

