-- ==== Sys2Proof/Machine/Desc.lean ====
section
/-!
DEFINITION. Descriptors and their lists: the common header (Table 2.6), issue (R73, R240, R241), and completion (R73).
-/
namespace Sys2Proof.Machine

/-! ### The common header (Table 2.6) -/

def dOpcode (d : Desc) : Nat := bits d 0 8
def dFence (d : Desc) : Bool := bit d 16
def dLog (d : Desc) : Bool := bit d 17
def dSeq (d : Desc) : Nat := bits d 32 16
def dTag (d : Desc) : Half := BitVec.ofNat 16 (bits d 48 16)

/-- R12: OPCODE and its complement (Table 2.6). -/
def hdrOk (d : Desc) : Bool := fieldPairOk d 8 0 8

/-! Descriptor kinds (Table 2.5). -/
namespace Op
abbrev sld : Nat := 1
abbrev apd : Nat := 2
abbrev vod : Nat := 3
abbrev sd : Nat := 4
abbrev rld : Nat := 5
abbrev shf : Nat := 6
abbrev bkt : Nat := 7
abbrev tmk : Nat := 8
end Op

/-- No descriptor (R241). -/
abbrev noSeq : Nat := 0xFFFF

/-- FEED_SEQ and FREE_SEQ of an SD (Table 6.12) and of an SHF (Table 8.9). -/
def sdFeed (d : Desc) : Nat := bits d 240 16
def sdFree (d : Desc) : Nat := bits d 224 16
def shfFeed (d : Desc) : Nat := bits d 188 16
def shfFree (d : Desc) : Nat := bits d 172 16

/-! ### Lists -/

/-- The released list `num` of engine `core`. -/
def State.dlist (s : State) (core num : Nat) : Option DList := s.lists.find? fun l => l.core == core && l.num == num

def State.setList (s : State) (l : DList) : State :=
  { s with lists := s.lists.map fun x => if x.core == l.core && x.num == l.num then l else x }

/-- The descriptor that a reference names. -/
def State.desc (s : State) (r : DescRef) : Option Desc := (s.dlist r.core r.list).bind fun l => l.descs[r.idx]?

/-- TAG of a descriptor, for log entries. -/
def State.tagOf (s : State) (r : DescRef) : Half := ((s.desc r).map dTag).getD noHalf

/-- A descriptor of the list has completed. -/
def DList.complete (l : DList) (i : Nat) : Bool := decide (i < l.issued) && !l.busy.contains i

/-- R241, R322: an SD or SHF that names descriptor `i` in FEED_SEQ has issued and not completed. -/
def DList.fedLate (l : DList) (i : Nat) : Bool :=
  l.busy.any fun j => match l.descs[j]? with
    | some d => (dOpcode d == Op.sd && sdFeed d == i) || (dOpcode d == Op.shf && shfFeed d == i)
    | none => false

/-- A TMK at which its list is held until it completes (R242): WAIT_BEAT, WAIT_EVENT, GROUP_BARRIER. -/
def waitTmk (d : Desc) : Bool := dOpcode d == Op.tmk && [1, 3, 4].contains (bits d 64 4)

/-- The list is held at a TMK. -/
def DList.heldAt (l : DList) : Bool := l.busy.any fun j => (l.descs[j]?).any waitTmk

/-- R73, R240, R242: the next descriptor of the list, when its FENCE condition is met and every SD that feeds it has completed. -/
def DList.next (l : DList) : Option Desc :=
  match l.descs[l.issued]? with
  | some d => if (dFence d && !l.busy.isEmpty) || l.fedLate l.issued || l.heldAt then none else some d
  | none => none

/-- R348: the descriptor that FREE_SEQ (`free`) names is a gated operation of a skipped step. -/
def DList.skipFree (l : DList) (free : Nat) : Bool := l.skipped.contains free

/-- The descriptor that FREE_SEQ names has completed (R241). -/
def DList.freed (l : DList) (free : Nat) : Bool := free == noSeq || l.complete free

/-- Issue is stopped on the device (R60, R472), or a fault waits on the core. -/
def State.noIssue (s : State) (core : Nat) : Bool := s.tide.issueStop || s.tide.faults.contains core

/-! ### Issue (R149, R240) -/

/-- The array of a core waits for a retry: a pass is flagged (R149). -/
def ArrCore.flagged (a : ArrCore) : Bool := a.passes.any (·.flag.isSome)

/-- Queue of an SD (Table 6.12). -/
def sdQueue (d : Desc) : Nat := bits d 213 2

/-- OWN of an entry of a queue (R235). -/
def State.ownBit (s : State) (core q e : Nat) : Bool := bit (s.reg (R.queueOwnLo core + 4 * (q / 2))) (16 * (q % 2) + e)

/-- Index of the next entry of a queue. -/
def State.tailOf (s : State) (core q : Nat) : Nat := Sparse.get 0 s.str.tail (4 * core + q)

/-- Some descriptor of the core that `p` describes has issued and not completed. -/
def State.working (s : State) (core : Nat) (p : Desc → Bool) : Bool :=
  s.lists.any fun l => l.core == core && l.busy.any fun j => (l.descs[j]?).any p

/-- R240: the list is ready whatever its units' timing: its next descriptor's unit has no work and nothing to wait for; of an SD, the arm is accepted.
A unit at work may accept or not: the spec gives no depth of what it holds. [DEDUCED, log entry 114] -/
def State.surelyReady (s : State) (l : DList) : Bool :=
  l.next.any fun d =>
    let op := dOpcode d
    if op = Op.sd then !s.ownBit l.core (sdQueue d) (s.tailOf l.core (sdQueue d))
    else if op = Op.tmk then true
    else if op = Op.sld ∨ op = Op.apd then !s.working l.core fun x => dOpcode x == Op.sld || dOpcode x == Op.apd
    else if op = Op.vod then (decide (bits d 268 6 < 0x20) || s.updGoes d) && !s.working l.core fun x => dOpcode x == Op.vod
    else if op = Op.bkt then s.bktGoes d && !s.working l.core fun x => dOpcode x == Op.bkt
    else if op = Op.rld ∨ op = Op.shf then !s.working l.core (dOpcode · == op)
    else false

/-- R240: no list of the core with a lower number is sure to be ready. -/
def State.firstReady (s : State) (core num : Nat) : Bool :=
  s.lists.all fun l => l.core != core || decide (num ≤ l.num) || !s.surelyReady l

/-- The list `num` of `core` can issue its next descriptor, which `p` describes (R149, R240); none issues while step 4 is
delayed (R507). -/
def State.nextDesc (s : State) (core num : Nat) (p : Desc → Bool) : Option (DList × Desc) :=
  if s.noIssue core || s.tide.settleAt.isSome || (s.arr core).flagged || !s.firstReady core num then none
  else match s.dlist core num with
    | some l => l.next.bind fun d => if p d then some (l, d) else none
    | none => none

/-- The next descriptor of list `l` issues: it is busy until it completes. LIST_SWITCHES counts an issue from another list than the core's
last (R242). -/
def State.issue (s : State) (l : DList) : State :=
  let last := Sparse.get 8 s.str.lastList l.core
  let s := if last ≠ 8 ∧ last ≠ l.num then s.count (R.listSwitches l.core) else s
  let s := { s with str := { s.str with lastList := Sparse.put 8 s.str.lastList l.core l.num } }
  s.setList { l with issued := l.issued + 1, busy := l.busy ++ [l.issued] }

/-- The reference of the descriptor that list `l` issues next. -/
def DList.ref (l : DList) : DescRef := ⟨l.core, l.num, l.issued⟩

/-- A descriptor's work has drained; its completion is DESC_DONE's (R73). -/
def State.drain (s : State) (r : DescRef) : State :=
  match s.dlist r.core r.list with
  | some l => if l.busy.contains r.idx && !l.drained.contains r.idx then s.setList { l with drained := l.drained ++ [r.idx] } else s
  | none => s

/-- A pair of a running descriptor fails R12: the fault is found on its core, which issues nothing more (R209, R252, R397). -/
def State.descFault (s : State) (core : Nat) : State :=
  if s.tide.faults.contains core then s else { s with tide := { s.tide with faults := s.tide.faults ++ [core] } }

/-- The block of the unit that runs a descriptor of a kind (Table 17.1), for SOURCE of DESC_DONE. -/
def blockOfKind (opcode : Nat) : Nat :=
  if opcode = Op.sld ∨ opcode = Op.apd ∨ opcode = Op.vod then 0x10
  else if opcode = Op.sd then 0x12
  else if opcode = Op.rld then 0x11
  else if opcode = Op.shf then 0x0A
  else if opcode = Op.bkt then 0x13
  else 0x08

/-- Units of a block's SOURCE: the core for the blocks with one unit a core, 0 otherwise (R118). -/
def unitOfKind (opcode core : Nat) : Nat := if blockOfKind opcode = 0x10 ∨ blockOfKind opcode = 0x11 ∨ blockOfKind opcode = 0x12 then core else 0

/-- R347, R348: the descriptor completes as a no-op of a skipped step. -/
def State.noteSkip (s : State) (r : DescRef) : State :=
  match s.dlist r.core r.list with
  | some l => s.setList { l with skipped := l.skipped ++ [r.idx] }
  | none => s

/-- With LOG set a completion writes a DESC_DONE entry (R73, R237). -/
def State.logDone (s : State) (r : DescRef) : State :=
  match s.desc r with
  | some d =>
    if dLog d then
      s.logFull (srcOf (blockOfKind (dOpcode d)) (unitOfKind (dOpcode d) r.core)) 0x07 (BitVec.ofNat 16 r.core) (dTag d)
        (leBytes 2 (dSeq d) ++ leBytes 1 (dOpcode d)) []
    else s
  | none => s

/-- R73: a descriptor completes: with LOG set it writes a DESC_DONE entry, and FENCE, FEED_SEQ and FREE_SEQ waiters may go on. -/
def State.descDone (s : State) (r : DescRef) : State :=
  match s.dlist r.core r.list, s.desc r with
  | some l, some _ => (s.setList { l with busy := l.busy.filter (· != r.idx), drained := l.drained.filter (· != r.idx) }).logDone r
  | _, _ => s

/-- Every list of an engine has issued and completed all its descriptors. -/
def State.coreDone (s : State) (core : Nat) : Bool :=
  s.lists.all fun l => l.core != core || (l.issued == l.descs.length && l.busy.isEmpty)

end Sys2Proof.Machine
end

