-- ==== Sys2Proof/Machine/RunAhead.lean ====
section
/-!
DEFINITION. The Reel's ring (R174 to R178) and its tokens, the operations of a stream engine (R231), and the cancellation of run-aheads
(R201, R247).
-/
namespace Sys2Proof.Machine

/-! ### The ring -/

/-- Stops of a bay, by position, in ring order (Table 5.1). -/
def ringOrder (quad : Bool) : List Nat :=
  if quad then [0, 2, 10, 8] else [0, 1, 2, 3, 7, 11, 15, 14, 10, 6, 5, 9, 13, 12, 8, 4]

/-- The set configuration of a bay as SET_CFG holds it (Table 5.11): SET_SIZE, plus 8 with QUAD, or 15 for no set. -/
def State.bayCfg (s : State) (b : Nat) : Nat := if b < 8 then s.field R.setCfgLo (4 * b) 4 else s.field R.setCfgHi (4 * (b - 8)) 4

/-- The stop after that of logical core `c` in its set (R175); none in a bay that lies in no set, and for a core that is no stop. -/
def State.nextStop (s : State) (c : Nat) : Option Nat :=
  let b := c / 16
  let cfg := s.bayCfg b
  if cfg = 15 then none
  else
    let order := ringOrder (decide (8 ≤ cfg))
    match order.idxOf? (c % 16) with
    | none => none
    | some i =>
      if i + 1 < order.length then some (16 * b + order.getD (i + 1) 0)
      else
        let n := 2 ^ (cfg % 8)
        let base := b - b % n
        some (16 * (base + (b - base + 1) % n) + order.getD 0 0)

/-- Latency of the hop from core `a` to core `b` in Strait-split mode (Table 5.2), which sizes the landing buffer (R189). -/
def hopLatency (a b : Nat) : Nat := if a / 16 = b / 16 then 2 else if a / 128 = b / 128 then 6 else 34

def portKey (core stream : Nat) : Nat := 2 * core + stream

/-- Stream `stream` at the port of `core`. -/
def State.port (s : State) (core stream : Nat) : RPort := Sparse.get {} s.str.ports (portKey core stream)

def State.setPort (s : State) (core stream : Nat) (p : RPort) : State :=
  { s with str := { s.str with ports := Sparse.put {} s.str.ports (portKey core stream) p } }

/-- An item put on the hop that leads from `core` to the next stop. -/
def State.sendItem (s : State) (core stream : Nat) (i : RItem) : State :=
  match s.nextStop core with
  | some n => let p := s.port n stream; s.setPort n stream { p with hop := p.hop ++ [i] }
  | none => s

/-- R201: the head sends a VOID token. -/
def State.sendVoid (s : State) (core stream : Nat) : State :=
  ((s.sendItem core stream .void).count R.reelVoids).orReg R.reelStatus 2

/-! ### Operations -/

/-- An operation starts: it takes a number, OPS_PEAK follows, and OPS_FULL sets at 64 (Table 6.15, R255). -/
def State.startOp (s : State) (o : MemOp) : State :=
  let s := { s with str := { s.str with ops := s.str.ops ++ [{ o with id := s.str.nextOp }], nextOp := s.str.nextOp + 1 } }
  let core := o.eng.getD o.own.core
  let n := (s.opsOf core).length
  let s := if s.regN (R.opsPeak core) < n then s.setReg (R.opsPeak core) (word n) else s
  if 64 ≤ n then s.orReg (R.streamStatus core) 0x20 else s

/-- An operation is no longer in flight. -/
def State.endOp (s : State) (id : Nat) : State := { s with str := { s.str with ops := s.str.ops.filter (·.id != id) } }

/-- An armed SD or a run-ahead replaced. -/
def State.setSd (s : State) (r : SdRun) : State :=
  { s with str := { s.str with sds := s.str.sds.map fun x => if x.own == r.own then r else x } }

/-- An SD leaves the engine, or its place in it. -/
def State.dropSd (s : State) (r : DescRef) : State := { s with str := { s.str with sds := s.str.sds.filter (·.own != r) } }

def State.sdRun (s : State) (r : DescRef) : Option SdRun := s.str.sds.find? (·.own == r)

/-- Bytes of a list of staged data. -/
def stagedBytes (l : List (Nat × List Byte)) : Nat := l.foldl (fun n x => n + x.2.length) 0

/-! ### Cancellation (R247) -/

/-- What a cancelled run-ahead leaves: RA_CANCELLED, RA_DISCARD_BYTES, RA_ERRORS for the errors that were held (R249), and its operations in
flight marked so that their data is discarded. -/
def State.raGone (s : State) (r : DescRef) (bytes errs : Nat) : State :=
  let s := s.count (R.raCancelled r.core)
  let s := s.count (R.raDiscardBytes r.core) (cdiv bytes 64)
  let s := s.count (R.raErrors r.core) errs
  { s with str := { s.str with ops := s.str.ops.map fun o => if o.own == r && o.prov then { o with gone := true } else o } }

/-- The run-ahead of an SD is cancelled. -/
def State.cancelSd (s : State) (r : SdRun) : State :=
  let s := { s with str := { s.str with sds := s.str.sds.filter (·.own != r.own) } }
  s.raGone r.own (stagedBytes r.staged) r.errs.length

/-- Bytes of a list of vectors. -/
def vecBytes (l : List (List Byte)) : Nat := l.foldl (fun n x => n + x.length) 0

/-- A port discards the provisional vectors it holds in its skid buffer, and the pass they belonged to is matched from vector 0 again. -/
def RPort.unprov (p : RPort) : RPort :=
  { p with skid := p.skid.filter (!·.2.prov), prov := none, ahead := 0, fwd := match p.prov with | some o => Sparse.put 0 p.fwd o 0 | none => p.fwd }

/-- The run-ahead of a head is cancelled: the head stops injecting and sends VOID (R201). -/
def State.cancelHead (s : State) (h : HeadRun) : State :=
  let p := s.port h.own.core (bits h.desc 289 1)
  let s := (s.setPort h.own.core (bits h.desc 289 1) p.unprov).count (R.provDiscards h.own.core) (p.skid.filter (·.2.prov)).length
  let s := { s with str := { s.str with heads := s.str.heads.filter (·.own != h.own) } }
  let got := h.reads.foldl (fun n x => n + (x.2.2.map List.length).getD 0) 0
  (s.sendVoid h.own.core (bits h.desc 289 1)).raGone h.own (got + h.buf.length + vecBytes h.ready) h.errs.length

/-- Every run-ahead of which `p` holds is cancelled (Table 6.11). -/
def State.cancelRunAheads (s : State) (p : DescRef → Bool) : State :=
  let s := (s.str.sds.filter fun r => r.entry.isNone && p r.own).foldl State.cancelSd s
  (s.str.heads.filter fun h => h.prov && p h.own).foldl State.cancelHead s

/-- The handle of the image a descriptor belongs to. -/
def State.handleOf (s : State) (r : DescRef) : Option Nat := (s.dlist r.core r.list).map (·.handle)

end Sys2Proof.Machine
end

