-- ==== Sys2Proof/Machine/Restart.lean ====
section
/-!
DEFINITION. Faults that restart the job (R472, Table 13.3), and the withdrawal of images (R50, R67).
-/
namespace Sys2Proof.Machine

def State.image (s : State) (h : Nat) : Image := s.images.getD h {}

def State.setImage (s : State) (h : Nat) (i : Image) : State := { s with images := s.images.set h i }

/-- Some entry of the image opened before boundary `b` and runs past it. -/
def Image.stillRuns (i : Image) (b : Nat) : Bool :=
  i.costs.any fun c => i.runs c && decide (i.k0 + c.tide < b) && decide (b < i.k0 + c.tide + c.span)

/-- An image is withdrawn from boundary `b`: its entries that open at or after it do not run, and a TIDE_WITHDRAWN entry is written
(R50, R67). Its run-aheads are cancelled (Table 6.11). It is finished once no entry of it still runs (R81). [DEDUCED, log entry 67] -/
def State.withdraw (s : State) (h b : Nat) : State :=
  let i := s.image h
  let i' := { i with withdrawn := some (min b (i.withdrawn.getD b)) }
  let i' := if i'.stillRuns b then i' else { i' with st := .finished }
  ((s.setImage h i').cancelRunAheads fun r => s.handleOf r == some h).log_ (srcOf 0x08 0) 0x04 (leBytes 1 h ++ List.replicate 7 0 ++ leBytes 8 i.k0)

/-- Every admitted image is withdrawn at once and no longer runs (R472). -/
def State.withdrawAll (s : State) : State :=
  (List.range 16).foldl (fun s h =>
    if (s.image h).active then
      let s' := s.withdraw h s.nextStep3
      s'.setImage h { s'.image h with st := .finished }
    else s) s

/-- Issue stops on every core, which cuts off the work in progress; every admitted image is withdrawn, and every run-ahead is cancelled (R472, Table
6.11). -/
def State.stopIssue (s : State) : State :=
  let s := s.cutReports.withdrawAll.cancelRunAheads fun _ => true
  { s with tide := { s.tide with issueStop := true } }

/-- Causes of Table 13.3 that leave the device lost. [DEDUCED, log entry 33; DEDUCED, log entry 34] -/
def causeLost (code : Nat) : Bool := [0x03, 0x08, 0x0A].contains code

/-- The SNAP_DONE entry of a snapshot, with EVT_SNAP_DONE: its SNAP_SEQ, SNAP_FAILED, and C in µs (R482, R483). -/
def State.snapEntry (s : State) (seq : Word) (failed : Bool) : State :=
  s.log_ (srcOf 0x0C 0) 0x1D (leBytes 4 seq.toNat ++ leBytes 1 (b2n failed) ++ [0, 0, 0] ++ leBytes 4 (s.regN R.snapCostUs))

/-- R483: the snapshot between freeze and commit is abandoned; the previous tideline stays the last. -/
def State.abandon (s : State) : State :=
  match s.snap.staged with
  | some x =>
    let s := { s with snap := { s.snap with staged := none, state := .idle, doneFrom := [], unsound := true } }
    (s.orReg R.snapStatus 2).snapEntry x.block.seq true
  | none => s

/-- R483: on the master of the group, or on a device alone, a snapshot that cannot commit is aborted for every member. -/
def State.masterAbort (s : State) : State :=
  match s.snap.staged with
  | some x =>
    if s.isMaster then
      (s.neighbours.foldl (fun s d => s.sendTide { tidePkt T.snapAbort with dst := d, snapSeq := x.block.seq }) s).abandon
    else if s.group.member then s
    else s.abandon
  | none => s

/-- R472: a fault restarts the job with the cause code of Table 13.3: issue stops, images are withdrawn, RESTART sets, and the RESTART
entry's event carries the cause in byte 4; a snapshot not yet committed is aborted (R483). [DEDUCED, log entry 34; DEDUCED, log entry 67] -/
def State.restart (s : State) (code : Nat) : State :=
  let s := s.stopIssue
  let s := { s with job := { s.job with restart := some code, lost := s.job.lost || causeLost code, soft := s.job.soft.filter spoilStays } }
  ((s.orReg R.snapStatus 0x40).logFull srcFirmware 0x1C noHalf noHalf (leBytes 1 code) (leBytes 1 code)).masterAbort

/-- R463: the use of a spare is logged, posts EVT_SPARE and counts (class by row of Table 13.1, failed unit, spare);
for a second fault during a replay the job restarts (R471), which for a core is decided where its fault is. [DEDUCED, log entry 35] -/
def State.spareUsed (s : State) (source : Half) (cls failed spare : Nat) : State :=
  let s := { s with kept := { s.kept with spares := s.kept.spares.modify cls (· + 1) } }.trouble.log_ source 0x1B (leBytes 1 cls ++ [0] ++ leBytes 2 failed ++ leBytes 2 spare)
  if cls ≠ 3 ∧ s.tide.replayed then s.restart 0x02 else s

/-- Issue stops as for a lost device, without a cause of Table 13.3 (R529, R576). [DEDUCED, log entry 33] -/
def State.stopAsLost (s : State) : State :=
  let s := s.stopIssue
  { s with job := { s.job with lost := true } }

/-- R576: the Lighthouse enters its error state: every session closes, issue stops as for a lost device, and a LIGHTHOUSE_ERROR entry
is written to the log and to retained memory (R117). [DEDUCED, log entry 33] -/
def State.lighthouseFail (s : State) (test : Nat) : State :=
  let s := s.closeSessions (List.range 8) 7
  let s := s.stopAsLost
  { s with lys := { s.lys with error := true } }.logKept (srcOf 0x02 0) 0x2C (leBytes 1 test)

/-- A free byte string of `n` bytes is drawn. -/
def State.drawBytes (s : State) (n : Nat) : List Byte × State := (padBytes n (Config.freeBytes s.free), { s with free := s.free + 1 })

end Sys2Proof.Machine
end

