-- ==== Sys2Proof/Machine/Regions.lean ====
section
/-!
DEFINITION. Clock regions, their generators and crossings (R495 to R499, R536, R537), Enmora's roles (R86, R90, R548), and the
stages of boot that other commands reach (R541, R542, R548, R550).
-/
namespace Sys2Proof.Machine

/-! ### Regions and crossings -/

/-- The half of an array-clock region (Table 14.1): 0 West, 1 East. -/
def halfOfRegion (r : Nat) : Nat := if r < 16 then r / 8 else r % 2

/-- Two array-clock regions that data passes between: the bays along the Reel, a bay and its half's crossbar and mesh, the crossbar and mesh
of a half, and the two crossbars and the two meshes across the Strait. [DEDUCED, log entry 36] -/
def adjacent (a b : Nat) : Bool :=
  if a < 16 ∧ b < 16 then (a + 1) % 16 == b || (b + 1) % 16 == a
  else if a < 16 then (b == 16 + a / 8 || b == 18 + a / 8) && decide (b < 20)
  else if b < 16 then a == 16 + b / 8 || a == 18 + b / 8
  else (a != b) && (a % 2 == b % 2 || a / 18 == b / 18)

/-- The adjacent pairs of array-clock regions, lower first. -/
def crossingPairs : List (Nat × Nat) :=
  (List.range 20).flatMap fun a => (List.range 20).filterMap fun b => if a < b ∧ adjacent a b then some (a, b) else none

/-- Key of a crossing's slip. -/
def slipKey (a b : Nat) : Nat := 64 * min a b + max a b

/-- The region has a valid clock, running or gated. -/
def State.clocked (s : State) (r : Nat) : Bool := decide (s.regionMode r < 2)

/-- The crossing between two array-clock regions leads across the Strait. -/
def overStrait (a b : Nat) : Bool := halfOfRegion a != halfOfRegion b

/-- R27, R497: data passes between the two regions over mesochronous queues: in Strait-split mode the crossings of the Strait are asynchronous. -/
def State.meso (s : State) (a b : Nat) : Bool := adjacent a b && !(overStrait a b && s.profView.split)

/-- R498: the mesochronous queues between the pairs that `p` names are centred, where both sides have a valid clock: slip starts again at 0, and
XING_RECENTRES counts each queue. -/
def State.centrePairs (s : State) (p : Nat → Nat → Bool) : State :=
  let ps := crossingPairs.filter fun x => p x.1 x.2 && s.meso x.1 x.2 && s.clocked x.1 && s.clocked x.2
  { s with pwr := { s.pwr with
      slips := ps.foldl (fun m x => Sparse.erase m (slipKey x.1 x.2)) s.pwr.slips
      recentres := ps.foldl (fun c x => satAdd c (Config.queueCount x.1 x.2)) s.pwr.recentres } }

/-- R498: the queues of the regions that `p` names are centred. -/
def State.centre (s : State) (p : Nat → Bool) : State := s.centrePairs fun a b => p a || p b

/-- R497: the crossings of the Strait become asynchronous, and have no slip. -/
def State.dropStrait (s : State) : State :=
  { s with pwr := { s.pwr with slips := (crossingPairs.filter fun x => overStrait x.1 x.2).foldl (fun m x => Sparse.erase m (slipKey x.1 x.2)) s.pwr.slips } }

/-- REGION_STATE bits 1:0 of a region. -/
def State.setRegionMode (s : State) (r m : Nat) : State := s.setField (R.regionState r) 0 2 m

/-- The clock of a running region is gated (R516, R517). -/
def State.gate (s : State) (r : Nat) : State := if s.regionMode r = 0 then s.setRegionMode r 1 else s

/-- A gated region is ungated, and its queues are centred (R498, R517); none after a thermal trip (R513). -/
def State.ungate (s : State) (r : Nat) : State := if s.regionMode r = 1 ∧ !s.rst.tripped then (s.setRegionMode r 0).centre (· == r) else s

/-- The crossbar and mesh regions of the half of bay `b` (Table 14.1). -/
def fabricRegions (b : Nat) : List Nat := [16 + b / 8, 18 + b / 8]

/-- R517: a bay is ungated after the crossbar and mesh of its half. -/
def State.ungateBay (s : State) (b : Nat) : State := (fabricRegions b ++ [b]).foldl State.ungate s

/-- R517: a crossbar or mesh region is gated when every bay of its half is. -/
def State.gateFabric (s : State) : State :=
  [0, 1].foldl (fun s h =>
    if (List.range 8).all fun i => s.regionMode (8 * h + i) ≠ 0 then (s.gate (16 + h)).gate (18 + h) else s) s

/-- STANDBY_OK of an array-clock region: neither generator has failed and the standby stands by (Table 14.8). -/
def State.standbyOk (s : State) (r : Nat) : Bool := decide (r < 20) && bit (s.reg (R.regionState r)) 4

/-- A generator recorded as failed in the spare map (R537): 2r the running, 2r + 1 the standby generator of region r. -/
def State.genFailed (s : State) (g : Nat) : Bool := s.kept.failedGens.contains g

/-- [DEDUCED, log entry 35] -/
def State.recordGen (s : State) (g : Nat) : State :=
  if s.genFailed g then s else { s with kept := { s.kept with failedGens := s.kept.failedGens ++ [g] } }

/-- R496, R466: the running generator of region `r` has failed. With a standby, the region switches to it: GEN_SWITCH, CLK_GEN_SWITCH, the
spare class of Table 13.1 for a bay, and the crossings are centred. Without one the region has no clock and the device is lost. [DEDUCED, log entry 35] -/
def State.genSwitch (s : State) (r : Nat) : State :=
  if s.standbyOk r then
    let s := s.recordGen (2 * r)
    let s := s.setReg (R.regionState r) (setBits (s.reg (R.regionState r)) 3 2 1)
    let s := (s.orReg R.clkStatus 8).log_ (srcOf 0x01 r) 0x22 (leBytes 1 r)
    let s := if r < 16 then s.spareUsed (srcOf 0x01 r) 9 (2 * r) (2 * r + 1) else s
    s.centre (· == r)
  else ((s.recordGen (2 * r + 1)).setRegionMode r 3).restart 0x03

/-! ### Enmora's roles -/

/-- R86: the Enmora cores that run and hold no role. -/
def Enmora.spares (m : Enmora) : List Nat := (List.range 4).filter fun c => !m.failed.contains c && !m.roleCore.contains c

/-- R90: roles when no spare is left: Command and Health share one core, Tide keeps a core of its own, and with one core it runs everything. [DEDUCED, log entry 21] -/
def Enmora.shareRoles (m : Enmora) (failed : Nat) : List Nat :=
  match (List.range 4).filter fun c => !m.failed.contains c && c != failed with
  | [] => m.roleCore
  | [c] => [c, c, c]
  | a :: b :: _ => if m.roleCore.getD 1 4 = a ∨ (m.roleCore.getD 1 4 ≠ b ∧ m.roleCore.getD 0 4 = b) then [b, a, b] else [a, b, a]

/-- The spare that takes the role of core `c`, if one is left. -/
def Enmora.successor (m : Enmora) (c : Nat) : Option Nat := (m.spares.filter (· != c)).head?

/-- R87, R90: core `c` is held in reset, and its role moves. -/
def Enmora.lose (m : Enmora) (c : Nat) : Enmora :=
  { m with failed := m.failed ++ [c]
           roleCore := match m.roleCore.idxOf? c, m.successor c with
             | some r, some x => if (m.roleCore.filter (· == c)).length = 1 then m.roleCore.set r x else m.shareRoles c
             | some _, none => m.shareRoles c
             | none, _ => m.roleCore }

/-! ### Boot -/

/-- Boot stops at a stage (R541, R550). -/
def State.bootStop (s : State) (stage : Nat) : State := (s.setField R.bootState 0 4 0xF).setField R.bootState 4 4 stage

/-- DOMAIN_FAIL of region `r`: it had no valid clock in this boot; the failure is recorded in retained memory (R537). -/
def State.domainFail (s : State) (r : Nat) : State :=
  let s := { s with kept := { s.kept with domainFails := s.kept.domainFails ++ [r] } }
  if r < 32 then s.orReg R.domainFailLo (2 ^ r) else if r < 40 then s.orReg R.domainFailHi (2 ^ (r - 32)) else s

def State.domainFailed (s : State) (r : Nat) : Bool :=
  if r < 32 then bit (s.reg R.domainFailLo) r else bit (s.reg R.domainFailHi) (r - 32)

/-- A region whose running generator is recorded as failed starts on its standby (R537); one with both failed has no valid clock, nor
has a fixed-clock region whose one generator is recorded. -/
def State.startGen (s : State) (r : Nat) : State :=
  if 20 ≤ r then (if s.genFailed (2 * r) then s.domainFail r else s) else
  let s := if s.genFailed (2 * r) then (s.setField (R.regionState r) 3 1 1).orReg R.domainSpared (2 ^ r) else s
  if s.genFailed (2 * r) && s.genFailed (2 * r + 1) then s.domainFail r else s

/-- R548: the ROM releases the Enmora cores; one recorded as failed stays in reset. Enmora enables the generators of regions 0 to 37. Where a
region has no valid clock, boot stops at ENMORA (Table 15.2). With two cores recorded as failed the job is lost (R90). The VDD_CORE set point is Mean's (R601). -/
def State.enterEnmora (s : State) : State :=
  let s := s.setField R.bootState 0 4 7
  let s := { s with enm := s.kept.failedEnmora.foldl Enmora.lose { s.enm with running := true }
                    pwr := { s.pwr with setPoint := mean } }
  let s := if 2 ≤ s.kept.failedEnmora.length then s.restart 0x0A else s
  let s := (List.range 38).foldl State.startGen s
  let s := s.trainPorts
  if (List.range 40).any s.domainFailed then s.bootStop 7 else s

end Sys2Proof.Machine
end

