-- ==== Sys2Proof/Machine/Aes.lean ====
section
/-!
DEFINITION. AES-128 (FIPS 197), which R488 names for the random streams: one block of 16 bytes under a key of 16 bytes. Bytes are held as
the standard numbers them, the first byte of a block being its most significant.
-/
namespace Sys2Proof.Machine

/-- Multiplication by x in GF(2^8). -/
def gfDouble (a : Byte) : Byte := (a <<< 1) ^^^ (if bit a 7 then 0x1B else 0)

/-- The product in GF(2^8), over the low `n` bits of `b`. -/
def gfMulN : Nat → Byte → Byte → Byte
  | 0, _, _ => 0
  | n + 1, a, b => (if bit b 0 then a else 0) ^^^ gfMulN n (gfDouble a) (b >>> 1)

def gfMul (a b : Byte) : Byte := gfMulN 8 a b

/-- a^(2^(n+1) - 2), which for n = 7 is the inverse. -/
def gfInvN : Nat → Byte → Byte
  | 0, _ => 1
  | n + 1, a => let s := gfMul a a; gfMul s (gfInvN n s)

def aesSbox (a : Byte) : Byte :=
  let b := gfInvN 7 a
  b ^^^ b.rotateLeft 1 ^^^ b.rotateLeft 2 ^^^ b.rotateLeft 3 ^^^ b.rotateLeft 4 ^^^ 0x63

/-- The next round key. -/
def aesNextKey (rcon : Byte) (k : List Byte) : List Byte :=
  let t := [k.getD 13 0, k.getD 14 0, k.getD 15 0, k.getD 12 0].map aesSbox
  let w0 := xorBytes (xorBytes (k.take 4) t) [rcon, 0, 0, 0]
  let w1 := xorBytes ((k.drop 4).take 4) w0
  let w2 := xorBytes ((k.drop 8).take 4) w1
  let w3 := xorBytes ((k.drop 12).take 4) w2
  w0 ++ w1 ++ w2 ++ w3

/-- SubBytes and ShiftRows. -/
def aesShift (st : List Byte) : List Byte :=
  (List.range 16).map fun i => aesSbox (st.getD ((i + 4 * (i % 4)) % 16) 0)

def aesMixColumn (c : List Byte) : List Byte :=
  (List.range 4).map fun i =>
    gfDouble (c.getD i 0) ^^^ (gfDouble (c.getD ((i + 1) % 4) 0) ^^^ c.getD ((i + 1) % 4) 0) ^^^ c.getD ((i + 2) % 4) 0 ^^^ c.getD ((i + 3) % 4) 0

def aesMix (st : List Byte) : List Byte :=
  ((List.range 4).map fun j => aesMixColumn ((st.drop (4 * j)).take 4)).flatten

/-- The rounds, with `n` left. -/
def aesRounds : Nat → Byte → List Byte → List Byte → List Byte
  | 0, _, _, st => st
  | n + 1, rcon, k, st =>
    let k' := aesNextKey rcon k
    let t := aesShift st
    aesRounds n (gfDouble rcon) k' (xorBytes (if n = 0 then t else aesMix t) k')

def aes128 (key block : List Byte) : List Byte := aesRounds 10 1 key (xorBytes block key)

/-- A block of a random stream (R488): AES-128 of the 128-bit counter under the 64-bit key followed by 64 zero bits. [PRESUMED, log entry 13; DEDUCED, log entry 14] -/
def aesStream (key counter : Nat) : Nat :=
  leNat (aes128 ((leBytes 8 key).reverse ++ List.replicate 8 0) (leBytes 16 counter).reverse).reverse

end Sys2Proof.Machine
end

