-- ==== Sys2Proof/Machine/Errors.lean ====
section
/-!
DEFINITION. Errors of the units that work descriptors, each of which restarts the job: streams (R238), buckets and barriers (R398), the
Shelf (R326) and the update engine (R366).
-/
namespace Sys2Proof.Machine

/-- R326: the status flag sets, and INFO keeps the first error: it is written while the flags of `mask` are clear, and again by an error of the same
beat on a lower-numbered core. [DEDUCED, log entry 78] -/
def State.keepFirst (s : State) (status mask flag info v core : Nat) : State :=
  let was := s.job.firstErr.find? (·.1 == info)
  let again := was.any fun x => x.2.1 == s.groupBeat && decide (core < x.2.2)
  let s := if (s.regN status) &&& mask = 0 ∨ again then
      { s.setReg info (word v) with job := { s.job with firstErr := s.job.firstErr.filter (·.1 != info) ++ [(info, s.groupBeat, core)] } }
    else s
  s.orReg status flag

/-- R398: a bucket or barrier error: BKT_ERR, BKT_ERR_INFO, a BKT_ERROR entry, and a restart (code 0x09 for BKT_LINK, Table 13.3). -/
def State.bktError (s : State) (code id core : Nat) (tag : Half) (srcDev : Nat) : State :=
  let s := s.keepFirst R.bktStatus 1 1 R.bktErrInfo (code + 16 * (id % 64) + 1024 * (core % 256)) core
  let s := s.logFull (srcOf 0x13 0) 0x11 (BitVec.ofNat 16 core) tag (leBytes 1 code ++ [0] ++ leBytes 2 id ++ leBytes 2 srcDev) []
  s.restart (if code = 7 then 0x09 else 0x07)

/-- R326: a Shelf error: SHELF_ERR (RECORD_FAULT for SHELF_RECORD, code `rec_`), SHELF_ERR_INFO, a SHELF_ERROR entry, and a restart. -/
def State.shelfError (s : State) (code shelf depth flag info : Nat) (core : Nat) (tag : Half) : State :=
  let s := s.keepFirst R.shelfStatus 9 flag R.shelfErrInfo info core
  let s := s.logFull (srcOf 0x0A 0) 0x0D (BitVec.ofNat 16 core) tag (leBytes 1 code ++ leBytes 1 shelf ++ leBytes 2 depth) []
  s.restart 0x05

/-- R366: an update error: UPD_ERR, UPD_ERR_INFO, an UPD_ERROR entry, and a restart. -/
def State.updError (s : State) (code record flag info : Nat) (core : Nat) (tag : Half) : State :=
  let s := s.keepFirst R.updStatus flag flag R.updErrInfo info core
  let s := s.logFull (srcOf 0x0B 0) 0x10 (BitVec.ofNat 16 core) tag (leBytes 1 code ++ [0] ++ leBytes 2 record) []
  s.restart 0x06

/-- R238: an SD completes with an error: STREAM_ERR sets, and a STREAM_ERROR entry carries its TAG and the failing address. -/
def State.streamErr (s : State) (r : DescRef) (addr : Nat) : State :=
  (s.orReg (R.streamStatus r.core) 0x10).logFull (srcOf 0x12 r.core) 0x0C (BitVec.ofNat 16 r.core) (s.tagOf r) (leBytes 6 addr) []

/-- R238: an operation on a remote device that cannot be reached: its SD completes with an error, once, and the job restarts (Table 13.3). -/
def State.opUnreachable (s : State) (o : MemOp) : State :=
  let s := s.endOp o.id
  match s.sdRun o.own with
  | some r =>
    if r.failed then s
    else ((s.setSd { r with errs := r.errs ++ [o.addr], failed := true }).streamErr o.own o.addr).restart 0x09
  | none => s

/-- R306: a failing scale record, or copy of one, is an uncorrectable error in state held nowhere else. -/
def State.scaleFault (s : State) : State := (s.orReg R.numStatus 8).restart 0x04

/-- The operation in flight with number `id`. -/
def State.opById (s : State) (id : Nat) : Option MemOp := s.str.ops.find? (·.id == id)

end Sys2Proof.Machine
end

