-- ==== Sys2Proof/Machine/Real.lean ====
section
/-!
DEFINITION. Functions whose FP32 results Table 7.5 bounds (R277, R323, R354): their values in fixed point of 192 fraction bits, far below half an ulp, and
the free choice of a result within the bound. PRESUMED where a constant or a series is the standard one: the spec names the functions.
-/
namespace Sys2Proof.Machine

/-! ### Fixed point -/

/-- Fraction bits. -/
abbrev fxP : Nat := 192

def fxOne : Int := 2 ^ fxP

/-- ln 2, 1/√(2π) and √(2/π). -/
def fxLn2 : Int := 4350955369971217654477563090224794165364344896676135745069
def fxPhi0 : Int := 2504201280626952864894549311249338563268063356138482501336
def fxC : Int := 5008402561253905729789098622498677126536126712276965002673

def fxMul (a b : Int) : Int := a * b / fxOne
def fxDiv (a b : Int) : Int := a * fxOne / b

/-- A value in fixed point, cut to magnitudes up to 1,024. -/
def fxOf (v : Val) : Int :=
  match v with
  | .fin neg m e =>
    let x : Nat := if (Val.fin false 1024 0).lt (.fin false m e) then 1024 * 2 ^ fxP
      else if 0 ≤ e + fxP then m <<< (e + fxP).toNat else m >>> (-(e + fxP)).toNat
    if neg then -(x : Int) else x
  | _ => 0

/-- A fixed-point number as a value. -/
def fxVal (a : Int) : Val := .fin (decide (a < 0)) a.natAbs (-(fxP : Int))

/-- The series of e^r from its `n`th term on, for 0 ≤ r < ln 2. -/
def expSeries (r : Int) : Nat → Nat → Int
  | 0, _ => fxOne
  | c + 1, n => fxOne + fxMul r (expSeries r c (n + 1)) / n

/-- e^a as a fixed-point number and a power of two. -/
def fxExpParts (a : Int) : Int × Int := let k := a / fxLn2; (expSeries (a - k * fxLn2) 50 1, k)

/-- e^a for a ≤ 0. -/
def fxExp (a : Int) : Int := let p := fxExpParts a; p.1 / 2 ^ (-p.2).toNat

/-- The series of artanh z from its `n`th term on; `t` is that power of z. -/
def atanhSeries (zz : Int) : Nat → Nat → Int → Int
  | 0, _, _ => 0
  | c + 1, n, t => t / ((2 * n + 1 : Nat) : Int) + atanhSeries zz c (n + 1) (fxMul t zz)

/-- ln x for 1 ≤ x ≤ 2. -/
def fxLn (x : Int) : Int := let z := fxDiv (x - fxOne) (x + fxOne); 2 * atanhSeries (fxMul z z) 64 0 z

/-- 1 / (1 + e^-x). -/
def fxSigmoid (x : Int) : Int :=
  let t := fxExp (-(x.natAbs : Int))
  let s := fxDiv fxOne (fxOne + t)
  if x < 0 then fxOne - s else s

def fxTanh (x : Int) : Int :=
  let t := fxExp (-(2 * x.natAbs : Int))
  let s := fxDiv (fxOne - t) (fxOne + t)
  if x < 0 then -s else s

/-- The series of Φ(x) - 1/2 over 1/√(2π), with y = x²/2. -/
def phiSeries (y : Int) : Nat → Nat → Int → Int
  | 0, _, _ => 0
  | c + 1, n, t => t / ((2 * n + 1 : Nat) : Int) + phiSeries y c (n + 1) (-(fxMul t y) / ((n + 1 : Nat) : Int))

/-- Φ(x) = ½(1 + erf(x/√2)); beyond ±12 it is 0 or 1 to well below the bound. -/
def fxPhi (x : Int) : Int :=
  if 12 * fxOne < x then fxOne else if x < -12 * fxOne then 0
  else fxOne / 2 + fxMul fxPhi0 (phiSeries (fxMul x x / 2) 340 0 x)

/-- φ(x) = e^(-x²/2)/√(2π). -/
def fxDensity (x : Int) : Int := fxMul fxPhi0 (fxExp (-(fxMul x x / 2)))

/-- c·(x + 0.044715·x³). -/
def fxInner (x : Int) : Int := fxMul fxC (x + fxMul (fxMul x x) x * 44715 / 1000000)

/-! ### The functions -/

def expVal (a : Val) : Val := let p := fxExpParts (fxOf a); .fin false p.1.natAbs (p.2 - fxP)

/-- ln a for a finite a above 0. -/
def lnVal (a : Val) : Val :=
  match a with
  | .fin _ m e =>
    let l := m.log2
    fxVal (fxLn (if l ≤ fxP then (m <<< (fxP - l) : Nat) else (m >>> (l - fxP) : Nat)) + (e + l) * fxLn2)
  | _ => .nan

/-- Functions 3 to 8 of Table 4.9 on a finite argument. -/
def actVal (func : Nat) (a : Val) : Val :=
  let x := fxOf a
  match func with
  | 3 => a.mul (fxVal (fxPhi x))
  | 4 => a.mul (fxVal (fxSigmoid (2 * fxInner x)))
  | 5 => a.mul (fxVal (fxSigmoid x))
  | 6 => fxVal (fxSigmoid x)
  | 7 => fxVal (fxTanh x)
  | _ => (if x < 0 then Val.fin false 0 0 else a).add (fxVal (fxLn (fxOne + fxExp (-(x.natAbs : Int)))))

/-- Their derivatives (Table 8.4) on a finite argument. -/
def derivVal (func : Nat) (a : Val) : Val :=
  let x := fxOf a
  match func with
  | 3 => fxVal (fxPhi x + fxMul x (fxDensity x))
  | 4 =>
    let t := fxTanh (fxInner x)
    let poly := fxOne + fxMul x x * 134145 / 1000000
    fxVal ((fxOne + t) / 2 + fxMul (fxMul (fxMul x (fxOne - fxMul t t)) fxC) poly / 2)
  | 5 => let s := fxSigmoid x; fxVal (fxMul s (fxOne + fxMul x (fxOne - s)))
  | 6 => let s := fxSigmoid x; fxVal (fxMul s (fxOne - s))
  | 7 => let t := fxTanh x; fxVal (fxOne - fxMul t t)
  | _ => fxVal (fxSigmoid x)

/-- A value cut to 256 bits. -/
def Val.cut (v : Val) : Val :=
  match v with
  | .fin s m e => .fin s (m >>> (m.log2 - 256)) (e + ((m.log2 - 256 : Nat) : Int))
  | _ => v

/-- b^t to 256 bits, by squaring; `n` bounds the bits of t. -/
def powVal : Nat → Val → Nat → Val
  | 0, _, _ => .fin false 1 0
  | n + 1, b, t =>
    let r := powVal n (b.mul b).cut (t / 2)
    if t % 2 = 1 then (r.mul b).cut else r

/-- 1 - b^t; a power far below an ulp of 1, or far above 1, stands for itself only in its place. -/
def oneMinusPow (b : Val) (t : Nat) : Val :=
  let p := powVal 33 b t
  if p.abs.lt (.fin false 1 (-300)) then .fin false 1 0
  else if (Val.fin false 1 300).lt p.abs then p.neg else (Val.fin false 1 0).add p.neg

/-- R352, R354: u of ADAM_MOM evaluated exactly on its inputs: g̃ is c·g, and t is VERSION + 1. -/
def adamVal (c g m v b1 b2 eps : Val) (t : Nat) : Val :=
  let one : Val := .fin false 1 0
  let gs := c.mul g
  let m' := (b1.mul m).add ((one.add b1.neg).mul gs)
  let v' := (b2.mul v).add ((one.add b2.neg).mul (gs.mul gs))
  (m'.div (oneMinusPow b1 t)).div ((v'.div (oneMinusPow b2 t)).sqrt.add eps)

/-! ### Results within a bound -/

/-- A free FP32 word. -/
def freeW (n : Nat) : Word := Config.freeWord n

/-- An ulp of a value in FP32. -/
def Val.ulp : Val → Val
  | .fin _ m e => .fin false 1 (max (e + m.log2) (-126) - 23)
  | v => v

/-- `g` lies within `k` ulp of the exact `f`; below 2^-20, within 2^`abs` where that is not below an ulp. -/
def withinBound (k : Nat) (abs : Option Int) (g f : Val) : Bool :=
  let rel := (Val.fin false k 0).mul f.ulp
  let tol := match abs with
    | some a => if f.abs.lt (Val.fin false 1 (-20)) && !(Val.fin false 1 a).lt f.ulp then Val.fin false 1 a else rel
    | none => rel
  g.finite && !tol.lt (g.add f.neg).abs

/-- A result that Table 7.5 bounds and does not fix: any FP32 value within the bound of the exact `f`; a NaN, an infinity and (where no absolute
bound stands) a zero are exact. [DESIGN CHOICE, log entry 84] -/
def boundedTo (n k : Nat) (abs : Option Int) (f : Val) : Val :=
  if f.finite && !(f.isZero && abs.isNone) && withinBound k abs (wval (freeW n)) f then wval (freeW n) else f

end Sys2Proof.Machine
end

