-- ==== Sys2Proof/Machine/Vector.lean ====
section
/-!
DEFINITION. The vector engine: VOD operands (R144), operations (R142, R145, R277 to R279), conversion and its counts (R265 to R270, R286,
R287, R299), random bits (R267, R488), and the scale references that cores resolve (R281, R284).
-/
namespace Sys2Proof.Machine

/-! ### A core's state -/

def State.setArr (s : State) (core : Nat) (a : ArrCore) : State := { s with cores := Sparse.put {} s.cores core a }

/-- Bytes of a core's local store. -/
def State.ls (s : State) (core off n : Nat) : List Byte := s.bytes (lsAddr core off) n

/-- The SCALE of record `r` as core `core` resolves it (R281, R284). -/
def State.scaleCopy (s : State) (core r : Nat) : Word := Sparse.get f32one ((s.arr core).scales.getD s.nums.copies) r

/-- The record that a scale field refers to (R281). -/
def scaleRef (v : Word) : Option Nat := if 0x7FE00000 ≤ v.toNat ∧ v.toNat < 0x7FE00400 then some (v.toNat - 0x7FE00000) else none

/-- R281: a scale field, or the copy of the record that it refers to. -/
def State.resolveScale (s : State) (core : Nat) (v : Word) : Word :=
  match scaleRef v with
  | some r => s.scaleCopy core r
  | none => v

/-- R306: a core checks its copy of a record's SCALE as it resolves it. -/
def State.checkCopy (s : State) (core : Nat) (r : Option Nat) : State := if r.any fun r => s.spoilt (.scale core r) then s.scaleFault else s

/-! ### Random bits (R267, R488) -/

/-- Blocks `n` in number of the stream `kind` of a core, from its draw index, which moves past them. [DEDUCED, log entry 83] -/
def State.drawBlocks (s : State) (core kind n : Nat) : List Nat × State :=
  let a := s.arr core
  let i := Sparse.get 0 a.draws kind
  let key := s.job.seed.toNat * 2 ^ 16 + (core * 4 + kind)
  let ctr := s.job.step.toNat * 2 ^ 64 + a.mb * 2 ^ 59 + a.layer * 2 ^ 49
  ((List.range n).map fun j => aesStream key (ctr + (i + j) % 2 ^ 49), s.setArr core { a with draws := Sparse.put 0 a.draws kind ((i + n) % 2 ^ 49) })

/-- The 16 random bits of each lane of a vector that is rounded stochastically. [DEDUCED, log entry 14] -/
def State.drawLanes (s : State) (core : Nat) : List Nat × State :=
  let d := s.drawBlocks core 0 8
  ((List.range 64).map fun i => nbits (d.1.getD (i / 8) 0) (16 * (i % 8)) 16, d.2)

/-- The rounding of lane `i`: nearest, or stochastic with the bits drawn. [DEDUCED, log entry 83] -/
def laneRnd (bits : Option (List Nat)) (i : Nat) : Rnd :=
  match bits with
  | some l => .stoch (l.getD i 0)
  | none => .even

/-! ### VOD fields (Table 4.16) -/

def vImm (d : Desc) : Word := BitVec.ofNat 32 (bits d 448 32)
def vDst (d : Desc) : Nat := bits d 429 19
def vSrcA (d : Desc) : Nat := bits d 410 19
def vSrcB (d : Desc) : Nat := bits d 391 19
def vSrcC (d : Desc) : Nat := bits d 372 19
def vDstStride (d : Desc) : Nat := bits d 360 12
def vAStride (d : Desc) : Nat := bits d 348 12
def vBStride (d : Desc) : Nat := bits d 336 12
def vCStride (d : Desc) : Nat := bits d 324 12
def vDstSp (d : Desc) : Nat := bits d 306 2
def vASp (d : Desc) : Nat := bits d 304 2
def vBSp (d : Desc) : Nat := bits d 302 2
def vCSp (d : Desc) : Nat := bits d 300 2
def vDfmt (d : Desc) : Nat := bits d 296 4
def vSfmt (d : Desc) : Nat := bits d 292 4
def vFunc (d : Desc) : Nat := bits d 288 4
def vGated (d : Desc) : Bool := bit d 287
def vSr (d : Desc) : Bool := bit d 286
def vAmax (d : Desc) : Bool := bit d 285
def vAmaxIdx (d : Desc) : Nat := bits d 280 5
def vOp (d : Desc) : Nat := bits d 268 6
def vCount (d : Desc) : Nat := bits d 308 16 + 2 ^ 16 * bits d 252 16

/-- R12: the complement pairs of a VOD hold. -/
def vodPairsOk (d : Desc) : Bool := hdrOk d && fieldPairOk d 32 448 480 && fieldPairOk d 6 268 274

/-! ### Elements and vectors -/

/-- The code of element `i` of packed elements (R263). -/
def elemAt (f : Nat) (x : Nat) (i : Nat) : Nat := nbits x (elemBits f * i) (elemBits f)

/-- `n` codes packed in bytes. -/
def unpack (f n : Nat) (bs : List Byte) : List Nat := let x := leNat bs; (List.range n).map (elemAt f x)

/-- Codes packed to bytes. -/
def pack (f : Nat) (cs : List Nat) : List Byte :=
  leBytes (cs.length * elemBits f / 8) (cs.foldr (fun c acc => c + 2 ^ elemBits f * acc) 0)

/-- Bytes of a vector of 64 lanes, and of its block scales. -/
def lanesSize (f : Nat) : Nat := 64 * elemBits f / 8

/-- Elements as FP32 words, each multiplied by its block's scale (Table 7.4: exact). `scales` is empty for formats without block scales. -/
def widen (f : Nat) (codes scales : List Nat) : List Word :=
  codes.zipIdx.map fun (c, i) =>
    match scales[i / 32]? with
    | some x => w32 .even ((elemVal f c).mul (scaleVal x))
    | none => w32 .even (elemVal f c)

def bytesNat (bs : List Byte) : List Nat := bs.map (·.toNat)

/-! ### Counts (R299) -/

/-- Keys of a core's counts of `kind` for FMT `f`, and for a scale record. -/
def fmtLossKey (core f kind : Nat) : Nat := 64 * core + 3 * f + kind
def recLossKey (core rec_ kind : Nat) : Nat := 4096 * core + 3 * rec_ + kind

/-- A value of FMT `f` that counts as `l` is a NaN or an infinity: an overflow where the format has infinities and does not saturate. -/
def Loss.made (l : Loss) (f : Nat) : Bool :=
  match l with
  | .overflow => f != Fm.int8 && !(floatFmt f).saturates
  | .nonfin => f != Fm.int8
  | _ => false

/-- A conversion's loss on a core counted: in the entry of the bound record, else under the destination format; NONFIN_VALUES counts every NaN
or infinity made (R293). -/
def State.countLoss (s : State) (core f : Nat) (rec_ : Option Nat) (l : Loss) : State :=
  let kind : Option Nat := match l with
    | .none => none
    | .overflow => some 0
    | .vanish => some 1
    | .nonfin => some 2
  match kind with
  | none => s
  | some k =>
    let s := match rec_ with
      | some r => { s with nums := { s.nums with recs := Sparse.put 0 s.nums.recs (recLossKey core r k) (satAdd (Sparse.get 0 s.nums.recs (recLossKey core r k)) 1) } }
      | none => { s with nums := { s.nums with fmt := Sparse.put 0 s.nums.fmt (fmtLossKey core f k) (satAdd (Sparse.get 0 s.nums.fmt (fmtLossKey core f k)) 1) } }
    if l.made f then s.count R.nonfinValues else s

def State.countLosses (s : State) (core f : Nat) (rec_ : Option Nat) (ls : List Loss) : State :=
  ls.foldl (fun s l => s.countLoss core f rec_ l) s

/-- How an FP32 result counts (R299): an infinity made of finite operands is an overflow. -/
def lossOf (w : Word) (finite : Bool) : Loss :=
  match wval w with
  | .fin _ _ _ => .none
  | .inf _ => if finite then .overflow else .nonfin
  | .nan => .nonfin

def wfin (w : Word) : Bool := (wval w).finite

/-- How elements count as they are widened (R299): one whose block scale takes a finite value past FP32 is an overflow. -/
def wideLosses (f : Nat) (codes scales : List Nat) : List Loss :=
  ((widen f codes scales).zip codes).zipIdx.map fun ((w, c), i) => lossOf w ((elemVal f c).finite && scales[i / 32]?.all (· != 255))

/-- Elements with their block scales widened to FP32 (the first row of Table 7.4) are counted under FP32. FP32 itself converts nothing. -/
def State.countElems (s : State) (core f : Nat) (codes scales : List Nat) : State :=
  if f = Fm.fp32 then s else s.countLosses core Fm.fp32 none (wideLosses f codes scales)

/-- Elements of a FMT `f` without block scales, given as FP32, counted as they are widened. -/
def State.countWide (s : State) (core f : Nat) (ws : List Word) : State :=
  if f = Fm.fp32 then s else s.countLosses core Fm.fp32 none (ws.map fun w => lossOf w false)

/-! ### Conversion (Table 7.4, R268, R270) -/

/-- A value in FMT `f`. -/
def convert (f : Nat) (rm : Rnd) (v : Val) : Nat × Loss := if f = Fm.int8 then roundInt8 rm v else (floatFmt f).round rm v

/-- Recipe X (R270): the scale of a block, as an E8M0 code. -/
def recipeX (f : Nat) (vs : List Val) : Nat :=
  if vs.any (!·.finite) then 255
  else
    let a := vs.foldl (fun (m v : Val) => if m.lt v.abs then v.abs else m) (.fin false 0 0)
    if a.isZero then 0
    else
      let i := scaleExp 0 f (w32 .even a)
      (max 0 (min 254 (i + 127))).toNat

/-- A block converted under recipe X: its scale, its codes and their losses. A block with a NaN or an infinity takes scale 0xFF: each of its elements
is then a NaN, whose code no table gives. [DESIGN CHOICE, log entry 115] -/
def convertBlock (n f : Nat) (rnds : List Rnd) (vs : List Val) : Nat × List (Nat × Loss) :=
  let x := recipeX f vs
  (x, (vs.zip rnds).zipIdx.map fun (p, i) =>
    if x = 255 then ((freeW (n + i)).toNat % 2 ^ elemBits f, .nonfin) else convert f p.2 (p.1.div (scaleVal x)))

/-- 64 lanes converted to FMT `f`: the codes, the block scales, and the losses; `scale` divides first (R287); `n` numbers the free values. -/
def convertLanes (n f : Nat) (bits : Option (List Nat)) (scale : Val) (vs : List Val) : List Nat × List Nat × List Loss :=
  if isMx f then
    let rn := (List.range vs.length).map (laneRnd bits)
    let b0 := convertBlock n f (rn.take 32) (vs.take 32)
    let b1 := convertBlock (n + 32) f (rn.drop 32) (vs.drop 32)
    ((b0.2 ++ b1.2).map (·.1), [b0.1, b1.1], (b0.2 ++ b1.2).map (·.2))
  else
    let r := vs.zipIdx.map fun (v, i) => convert f (laneRnd bits i) (v.div scale)
    (r.map (·.1), [], r.map (·.2))

/-! ### Lane operations (Table 4.7) -/

def oneVal : Val := .fin false 1 0
def zeroVal : Val := .fin false 0 0

/-- 1 / √a; of -0 it is -∞, as IEEE 754 has it, and below 0 it is invalid. [PRESUMED, log entry 84] -/
def rsqrtVal (a : Val) : Val :=
  match a with
  | .fin neg 0 _ => .inf neg
  | .inf true => .nan
  | _ => (oneVal.div a).sqrt

/-- EXP: e^a within 2 ulp (Table 7.5); its limits at ±∞. -/
def expFn (n : Nat) (a : Val) : Val :=
  match a with
  | .inf neg => if neg then zeroVal else a
  | .nan => .nan
  | _ => boundedTo n 2 (some (-144)) (expVal a)

/-- LOG: ln a within 2 ulp; below 0 it is invalid, of 0 it is -∞. -/
def logFn (n : Nat) (a : Val) : Val :=
  if a.isZero then .inf true else if a.lt zeroVal then .nan
  else match a with
    | .fin _ _ _ => boundedTo n 2 (some (-144)) (lnVal a)
    | _ => a

/-- The limits of functions 3 to 8 at ±∞: the sign of a zero that x·0 gives is free. [DESIGN CHOICE, log entry 84] -/
def actLimit (n func : Nat) (neg : Bool) : Val :=
  match func with
  | 6 => if neg then zeroVal else oneVal
  | 7 => .fin neg 1 0
  | 8 => if neg then zeroVal else .inf false
  | _ => if neg then .fin (bit (freeW n) 0) 0 0 else .inf false

/-- The functions of Table 4.9; leaky ReLU takes its slope, and functions 3 to 8 lie within 4 ulp (Table 7.5). [DESIGN CHOICE, log entry 84] -/
def actFn (n func : Nat) (slope a : Word) : Val :=
  let v := wval a
  match func with
  | 0 => v
  | 1 => wval (fmaxOf (bit (freeW n) 0) a 0)
  | 2 => if v.lt zeroVal then v.mul (wval slope) else v
  | _ =>
    match v with
    | .nan => .nan
    | .inf neg => actLimit n func neg
    | _ => boundedTo n 4 (some (-44)) (actVal func v)

/-- Table 8.4: the derivative f′, within the bound of f (R323); a NaN gives NaN, the infinite limits are those of the table. [DESIGN CHOICE,
log entry 84] -/
def derivFn (n func : Nat) (slope z : Word) : Val :=
  let v := wval z
  let pos := zeroVal.lt v
  if v.isNan then .nan
  else match func with
    | 0 => oneVal
    | 1 => if pos then oneVal else zeroVal
    | 2 => if pos then oneVal else wval slope
    | _ =>
      match v with
      | .inf neg => if neg || func == 6 || func == 7 then zeroVal else oneVal
      | _ => boundedTo n 4 (some (-44)) (derivVal func v)

/-- The result of an operation on a lane before it is rounded: `n` numbers the free value it may take. -/
def laneOp (n op : Nat) (d : Desc) (a b c : Word) : Val :=
  let va := wval a
  let vb := wval b
  match op with
  | 0x00 => va
  | 0x01 => va.add vb
  | 0x02 => va.add vb.neg
  | 0x03 => va.mul vb
  | 0x04 => (va.mul vb).add (wval c)
  | 0x05 => wval (fmaxOf (bit (freeW n) 0) a b)
  | 0x06 => wval (fminOf (bit (freeW n) 0) a b)
  | 0x07 => va.abs
  | 0x08 => if (wval c).isZero then vb else va
  | 0x09 => boundedTo n 1 none (oneVal.div va)
  | 0x0A => boundedTo n 1 none (rsqrtVal va)
  | 0x0B => va.sqrt
  | 0x0C => expFn n va
  | 0x0D => logFn n va
  | 0x0E => va.div vb
  | 0x0F =>
    let f := actFn n (vFunc d) (vImm d) a
    if vGated d then (wval (w32 .even f)).mul vb else f
  | _ => va

/-- The first lane of a vector of which the others are zero. -/
def firstLane (w : Word) : List Val := wval w :: List.replicate 63 (.fin false 0 0)

/-- The 64 results of an operation before rounding (Table 4.7). -/
def vecOp (n op : Nat) (d : Desc) (a b c : List Word) : List Val :=
  match op with
  | 0x10 => firstLane (treeSum a)
  | 0x11 => firstLane (a.tail.foldl (fmaxOf (bit (freeW n) 0)) (a.headD 0))
  | 0x12 => firstLane ((a.tail.map fabs).foldl (fmaxOf false) (fabs (a.headD 0)))
  | 0x13 => firstLane (treeSum (a.map fun x => fmul x x))
  | _ => (List.range 64).map fun i => laneOp (n + i) op d (a.getD i 0) (b.getD i 0) (c.getD i 0)

/-! ### Operands (R144) -/

/-- The lanes of accumulator entry `e`. -/
def ArrCore.entry (a : ArrCore) (e : Nat) : List Word := (List.range 64).map fun i => Sparse.get 0 a.acc (64 * (e % 512) + i)

def ArrCore.setEntry (a : ArrCore) (e : Nat) (ws : List Word) : ArrCore :=
  { a with acc := ws.zipIdx.foldl (fun m (w, i) => Sparse.put 0 m (64 * (e % 512) + i) w) a.acc }

/-- Bytes of a block-scale plane that a vector of 64 lanes takes. -/
def mxBytes (f : Nat) : Nat := if isMx f then 2 else 0

/-- Block scales of an MX source: from the plane that SRCC names where SRCC is no operand and no plane of the result (Table 4.16); otherwise the
spec names none. [DEDUCED, log entry 82] -/
def State.srcScales (s : State) (core i : Nat) (d : Desc) (three : Bool) : List Nat :=
  if !isMx (vSfmt d) then []
  else if three || isMx (vDfmt d) then [(freeW (s.free + 64)).toNat % 256, (freeW (s.free + 65)).toNat % 256]
  else bytesNat (s.ls core (vSrcC d + 2 * i) 2)

/-- The lanes of a source for vector `i`: `drain` is the vector of DRAIN space. -/
def State.source (s : State) (core i : Nat) (d : Desc) (three : Bool) (drain : List Word) (sp addr stride : Nat) : List Word :=
  match sp with
  | 0 => widen (vSfmt d) (unpack (vSfmt d) 64 (s.ls core (addr + 32 * stride * i) (lanesSize (vSfmt d)))) (s.srcScales core i d three)
  | 1 => (s.arr core).entry (addr + stride * i)
  | 2 => List.replicate 64 (vImm d)
  | _ => drain

/-! ### Results (R145, R286, R287) -/

/-- The record bound to a VOD's amax accumulator, when AMAX is set. -/
def State.boundRec (s : State) (core : Nat) (d : Desc) : Option Nat :=
  if vAmax d then (let r := Sparse.get 1024 (s.arr core).bind (vAmaxIdx d); if r = 1024 then none else some r) else none

/-- R286: the largest |result| folded into the accumulator; a NaN stays. -/
def State.foldAmax (s : State) (core idx : Nat) (ws : List Word) : State :=
  let a := s.arr core
  let m := (ws.map fabs).foldl (fmaxOf false) (Sparse.get 0 a.amax idx)
  s.setArr core { a with amax := Sparse.put 0 a.amax idx m }

/-- The record by whose SCALE a conversion divides (R287). -/
def State.divRec (s : State) (core : Nat) (d : Desc) : Option Nat := if vDfmt d = 0 ∨ vDfmt d = 1 ∨ vDfmt d = 9 then s.boundRec core d else none

/-- R287: the scale by which a conversion divides. -/
def State.divScale (s : State) (core : Nat) (d : Desc) : Val :=
  match s.divRec core d with
  | some r => wval (s.scaleCopy core r)
  | none => oneVal

/-- A vector of results written: amax, rounding, counts, and the destination. `vs` are the results before rounding; lanes at or beyond `m`
are zero (R138). `own` is the core of the VOD's list, whose amax accumulators and bindings it uses; in a quadrille that is the leader. [DEDUCED, log
entry 83] -/
def State.writeResult (s : State) (core own i : Nat) (d : Desc) (m : Nat) (vs : List Val) : State :=
  let vs := vs.zipIdx.map fun (v, j) => if j < m then v else .fin false 0 0
  let toAcc := vDstSp d == 1
  let f := if toAcc then Fm.fp32 else vDfmt d
  let draw := if vSr d then (let r := s.drawLanes core; (some r.1, r.2)) else (none, s)
  let s := draw.2
  -- the FP32 result; only a conversion to FP32 itself rounds stochastically (R265)
  let ws := vs.zipIdx.map fun (v, j) => fp32.round (if f = Fm.fp32 then laneRnd draw.1 j else .even) v
  let words := ws.map fun w => word w.1
  let rec_ := s.boundRec own d
  let s := if vAmax d then s.foldAmax own (vAmaxIdx d) words else s
  -- without SR an FP32 result is no conversion of Table 7.4: only the NaNs and infinities made count (R293)
  let s := if f = Fm.fp32 then s.countLosses core f rec_ (ws.map fun w => if vSr d || w.2 != .vanish then w.2 else .none) else s
  if toAcc then s.setArr core ((s.arr core).setEntry (vDst d + vDstStride d * i) words)
  else if f = Fm.fp32 then s.store (lsAddr core (vDst d + 32 * vDstStride d * i)) (pack f (words.map (·.toNat)))
  else
    let c := convertLanes (s.free + 66) f draw.1 (s.divScale own d) (words.map wval)
    let s := s.countLosses core f rec_ c.2.2
    let s := s.store (lsAddr core (vDst d + 32 * vDstStride d * i)) (pack f c.1)
    if isMx f then s.store (lsAddr core (vSrcC d + 2 * i)) (c.2.1.map (BitVec.ofNat 8)) else s

/-- Operands that an operation has. -/
def opArity (d : Desc) : Nat :=
  match vOp d with
  | 0x04 => 3
  | 0x08 => 3
  | 0x01 => 2
  | 0x02 => 2
  | 0x03 => 2
  | 0x05 => 2
  | 0x06 => 2
  | 0x0E => 2
  | 0x0F => if vGated d then 2 else 1
  | 0x14 => 0
  | _ => 1

/-- RNG: lanes uniform in [0, 1), from the core's stream of kind 1. [DESIGN CHOICE, log entry 85] -/
def State.rngVec (s : State) (core : Nat) : List Val × State :=
  let r := s.drawBlocks core 1 Config.rngBlocks
  ((List.range 64).map fun i => .fin false (Config.rngLane r.1 i % 2 ^ 24) (-24), r.2)

/-- The codes and the block scales of a source in local store. -/
def State.srcCodes (s : State) (core i : Nat) (d : Desc) (three : Bool) (addr stride : Nat) : List Nat × List Nat :=
  (unpack (vSfmt d) 64 (s.ls core (addr + 32 * stride * i) (lanesSize (vSfmt d))), s.srcScales core i d three)

/-- The elements of a source in local store are widened: `v` is the state whose local store they are read from. -/
def State.countSrc (s v : State) (core i : Nat) (d : Desc) (three : Bool) (sp addr stride : Nat) : State :=
  let x := v.srcCodes core i d three addr stride
  if sp = 0 then s.countElems core (vSfmt d) x.1 x.2 else s

/-- Vector `i` of a VOD of core `own`, run at `core`, whose DRAIN operand is `drain`; lanes at or beyond `m` of the result are zero. -/
def State.vodVector (s : State) (core own : Nat) (d : Desc) (m i : Nat) (drain : List Word) : State :=
  let three := opArity d == 3
  let a := s.source core i d three drain (vASp d) (vSrcA d) (vAStride d)
  let b := if 2 ≤ opArity d then s.source core i d three drain (vBSp d) (vSrcB d) (vBStride d) else []
  let c := if three then s.source core i d three drain (vCSp d) (vSrcC d) (vCStride d) else []
  if vOp d = 0x14 then (let r := s.rngVec core; { r.2.writeResult core own i d m r.1 with free := s.free + 130 })
  else
    let v := s
    let s := s.countSrc v core i d three (vASp d) (vSrcA d) (vAStride d)
    let s := if 2 ≤ opArity d then s.countSrc v core i d three (vBSp d) (vSrcB d) (vBStride d) else s
    let s := if three then s.countSrc v core i d three (vCSp d) (vSrcC d) (vCStride d) else s
    { s.writeResult core own i d m (vecOp s.free (vOp d) d a b c) with free := s.free + 130 }

/-- Every vector of a VOD, in order. -/
def State.vodVectors (s : State) (core : Nat) (d : Desc) : State := (List.range (vCount d)).foldl (fun s i => s.vodVector core core d 64 i []) s

/-! ### Issue -/

/-- The fused VOD or push that issues with an APD is not issued on its own (R143, R324). -/
def fusedVod (d : Desc) : Bool := dOpcode d == Op.vod && vASp d == 3
def fusedPush (d : Desc) : Bool := dOpcode d == Op.shf && bit d 208

/-- R142: the next descriptor of the list is a VOD of operation `op`; it runs and its work drains. A pair that fails R12 is a core fault
(R168). -/
def State.vod (s : State) (core num op : Nat) : State :=
  match s.nextDesc core num fun d => dOpcode d == Op.vod && vOp d == op && !fusedVod d with
  | none => s
  | some (l, d) => if !vodPairsOk d then s.descFault core else (((s.issue l).checkCopy core (s.divRec core d)).vodVectors core d).drain l.ref

end Sys2Proof.Machine
end

