-- ==== Sys2Proof/Machine/Bay.lean ====
section
/-!
DEFINITION. Bay control units: the orders of Table 3.13 (R116, R591, R592), what they do at the boundary they name (R23, R153, R206, R207), and the
gating of bays (R517).
-/
namespace Sys2Proof.Machine

/-! ### Work of a bay (R517, Table 3.13) -/

/-- Admitted work of an engine for which `p` holds, in a tide from `a` to `b`. -/
def State.workIn (s : State) (p : Nat → Bool) (a b : Nat) : Bool :=
  s.images.any fun i => i.costs.any fun c => p c.engine && c.isWork && i.runs c && decide (i.k0 + c.tide ≤ b ∧ a < i.k0 + c.tide + c.span)

/-- Engines for which `p` holds have admitted work that has not closed. -/
def State.hasWork (s : State) (p : Nat → Bool) : Bool :=
  s.images.any fun i => i.costs.any fun c => p c.engine && c.isWork && i.runs c && decide (s.tide.next ≤ i.k0 + c.tide + c.span)

def inBay (b core : Nat) : Bool := core / 16 == b

/-! ### The spare core (R23, R206, R207) -/

/-- The spare slot of a bay serves no position, and no order has promised it. -/
def State.spareFree (s : State) (b : Nat) : Bool :=
  !(s.kept.spareSlotOf.any (·.1 == b)) && !(s.bay.scheduled.any fun o => o.bay == b && o.opcode == 0xC002)

/-- Slot 16 takes a failed core's logical number, local-store window and place on the Reel. Its array holds no tile and has no row mapped. [DEDUCED, log entry 99] -/
def State.threadSpare (s : State) (core : Nat) : State :=
  let b := core / 16
  if s.kept.spareSlotOf.any (·.1 == b) then s
  else
    let s := { s with kept := { s.kept with failedSlots := s.kept.failedSlots ++ [17 * b + core % 16]
                                            spareSlotOf := s.kept.spareSlotOf ++ [(b, core % 16)] } }
    let s := ((s.setReg (R.portSlot core) 16).orReg R.reelStatus 8).orReg R.snapStatus 0x200
    let s := (s.setReg (R.rowMap core) 0x7F007F).setArr core { s.arr core with tile := none, ran := false, passes := [] }
    s.spareUsed (srcOf 0x10 core) 3 (17 * b + core % 16) (17 * b + 16)

/-! ### Row mappings (R153, Table 4.20) -/

/-- A mapping of row `r` of a core is due at the next boundary (Table 4.20). [DEDUCED, log entry 87] -/
def State.rowDue (s : State) (core r : Nat) : State := (s.setField (R.rowMap core) 30 1 1).setField (R.rowMap core) 16 7 r

/-- A pending mapping of a core takes effect; a spare row counts once. [DEDUCED, log entry 99] -/
def State.mapRow (s : State) (core : Nat) : State :=
  let m := s.reg (R.rowMap core)
  if !bit m 30 then s
  else
    let r := bits m 16 7
    let m := setBits (setBits (setBits (setBits m 31 1 1) 30 1 0) 16 7 0x7F) 0 7 r
    (s.setReg (R.rowMap core) m).spareUsed (srcOf 0x10 core) 2 (65 * core + r) (65 * core + 64)

/-- ROW_MAP_APPLY (R153): every mapping that is due takes effect. -/
def State.applyRows (s : State) : State := (List.range 256).foldl State.mapRow s

/-! ### Orders -/

/-- OUTCOME (Table 17.2). -/
abbrev outDone : Nat := 1
abbrev outScheduled : Nat := 2
abbrev outRefused : Nat := 3
abbrev outHeader : Nat := 4
abbrev outSelftest : Nat := 5

/-- BAY_RESULT (Table 17.5). -/
def bayResult (tag : Half) (opcode outcome : Nat) : Nat := 65536 * tag.toNat + 256 * (opcode % 256) + outcome

/-- The outcome of an order goes to BAY_RESULT, and Enmora records it (R116). [DEDUCED, log entry 98] -/
def State.bayOutcome (s : State) (b : Nat) (tag : Half) (opcode outcome : Nat) : State :=
  (s.setReg (R.bayResult b) (word (bayResult tag opcode outcome))).log_ (srcOf 0x05 b) 0x27
    (leBytes 1 b ++ [0, 0, 0] ++ leBytes 4 (bayResult tag opcode outcome))

/-- R94: bay `b` releases its mailbox. -/
def State.releaseBay (s : State) (b : Nat) : State :=
  let s := { s.andNotReg R.e2bFull (2 ^ b) with bay := { s.bay with waiting := s.bay.waiting.filter (· != b) } }
  if bit (s.reg R.mbxIrqEn) 2 then { s with enm := { s.enm with irq := true } } else s

/-- The bay control unit takes the order in its mailbox (R116): its header is checked under R102, the order of opcode `op` is carried out or scheduled
with its TAG, BAY_RESULT is written, and the mailbox released. The unit runs while its bay is neither off nor in reset. An order whose OPCODE
Table 3.13 does not list has no outcome and stays in the slot. [DESIGN CHOICE, log entry 98] -/
def State.bayOrder (s : State) (b op : Nat) (act : State → Half → State × Nat) : State :=
  let m := s.slot (R.e2bSlot b)
  if !s.mbit R.e2bFull b || !s.clocked b then s
  else if !headerOk m then ((s.headerFault 2 b (headerTag m)).bayOutcome b (headerTag m) (bytesAt m 0 2) outHeader).releaseBay b
  else if bytesAt m 0 2 != op then s
  else
    let (s', out) := act s (headerTag m)
    (s'.bayOutcome b (headerTag m) op out).releaseBay b

/-- The order waits for the boundary that it names (R41, R591). -/
def State.schedule (s : State) (b : Nat) (tag : Half) (op boundary : Nat) (arg : List Byte) : State :=
  let k := if s.tide.running then boundary else s.nextStep3
  { s with bay := { s.bay with scheduled := s.bay.scheduled ++ [({ bay := b, tag, opcode := BitVec.ofNat 16 op, boundary := k, arg } : BayOrder)] } }

/-- BAY_APPLIED (Table 17.6). -/
def State.applied (s : State) (o : BayOrder) : State :=
  s.setReg (R.bayApplied o.bay) (word (65536 * o.tag.toNat + 256 * (o.opcode.toNat % 256) + 1))

/-- A scheduled order takes effect. -/
def State.applyOrder (s : State) (o : BayOrder) : State :=
  let core := 16 * o.bay + bytesAt o.arg 0 1
  let s := if o.opcode = 0xC002 then s.threadSpare core
    else ((s.setField (R.rowMap core) 30 1 1).setField (R.rowMap core) 16 7 (bytesAt o.arg 1 1)).mapRow core
  s.applied o

/-- A vector is in flight on a bay's Reel: on a hop, in a landing buffer or in a skid buffer (R207). -/
def State.reelBusy (s : State) (b : Nat) : Bool :=
  s.str.ports.any fun (k, p) => inBay b (k / 2) &&
    (!p.landing.isEmpty || !p.skid.isEmpty || p.hop.any fun | .vec _ => true | _ => false)

/-- A scheduled order may take effect at step 3 of boundary `k` (R591) or in a stopped apply (R41); a core is threaded only while no vector is in
flight on the bay's Reel, so an order that meets one stays scheduled (R207). [DEDUCED, log entry 98] -/
def State.orderDue (s : State) (k : Nat) (o : BayOrder) : Bool :=
  (!s.tide.running || decide (o.boundary ≤ k)) && !(o.opcode == 0xC002 && s.reelBusy o.bay)

/-- The orders that are due take effect. [DEDUCED, log entry 98] -/
def State.applyOrders (s : State) (k : Nat) : State :=
  let due := s.bay.scheduled.filter (s.orderDue k)
  let rest := s.bay.scheduled.filter fun o => !s.orderDue k o
  due.foldl State.applyOrder { s with bay := { s.bay with scheduled := rest } }

/-- The scheduled mappings that the boundary after `k` brings are due (Table 4.20). -/
def State.rowsDue (s : State) (k : Nat) : State :=
  (s.bay.scheduled.filter fun o => o.opcode == 0xC003 && decide (o.boundary ≤ k + 1)).foldl
    (fun s o => s.rowDue (16 * o.bay + bytesAt o.arg 0 1) (bytesAt o.arg 1 1)) s

/-- What a bay loses when it is powered off (R527, Table 14.5): local stores, accumulator files, scale copies, Reel and stream state of its cores. [DEDUCED, log entry 99] -/
def State.loseBay (s : State) (b : Nat) : State :=
  let lo := localBase + 16 * b * 2 ^ 20
  { s with
    mem := Sparse.dropKeys (fun a => decide (lo ≤ a ∧ a < lo + 16 * 2 ^ 20)) s.mem
    cores := (List.range 16).foldl (fun m i => Sparse.put {} m (16 * b + i) { scales := some [] }) s.cores
    str := { s.str with sds := s.str.sds.filter fun r => !inBay b r.own.core
                        ops := s.str.ops.filter fun o => !inBay b o.own.core
                        heads := s.str.heads.filter fun h => !inBay b h.own.core
                        ports := Sparse.dropKeys (fun k => inBay b (k / 2)) s.str.ports
                        tail := Sparse.dropKeys (fun k => inBay b (k / 4)) s.str.tail
                        serve := Sparse.dropKeys (inBay b) s.str.serve
                        retry := s.str.retry.filter fun x => !inBay b x.1 }
    regs := Sparse.dropKeys (fun k => (List.range 16).any fun i => k == R.queueOwnLo (16 * b + i) || k == R.queueOwnLo (16 * b + i) + 4) s.regs }

/-- BAY_POWER: 0 off, 1 Idle, 2 Active. [DEDUCED, log entry 98] -/
def State.bayPower (s : State) (b mode : Nat) : State × Nat :=
  if mode = 0 then
    if s.hasWork (inBay b) then (s, outRefused) else ((s.setRegionMode b 2).loseBay b, outDone)
  else if mode = 1 then (if s.hasWork (inBay b) then s else s.gate b, outDone)
  else (s.ungateBay b, outDone)

/-- BAY_POWER (R116, R517, R527). -/
def execBayPower (b : Fin 16) (mode : Fin 3) (s : State) : Outcome :=
  .next (s.bayOrder b 0xC001 fun s _ => s.bayPower b mode.val)

/-- BAY_CORE_MAP (R23, R207, R591): the core at position `pos` has failed; slot 16 takes its number at the boundary named. -/
def execBayCoreMap (b pos : Fin 16) (boundary : Nat) (s : State) : Outcome :=
  .next (s.bayOrder b 0xC002 fun s tag =>
    if s.spareFree b then (s.schedule b tag 0xC002 boundary (leBytes 1 pos.val), outScheduled) else (s, outRefused))

/-- BAY_ROW_MAP (R153, R591): row `row` of the core at position `pos` is mapped out at the boundary named, and due once that
is the next (Table 4.20); an array has one spare row. -/
def execBayRowMap (b pos : Fin 16) (row : Fin 64) (boundary : Nat) (s : State) : Outcome :=
  .next (s.bayOrder b 0xC003 fun s tag =>
    if bit (s.reg (R.rowMap (16 * b.val + pos.val))) 31 then (s, outRefused)
    else
      let k := if s.tide.running then boundary else s.nextStep3
      let s' := s.schedule b tag 0xC003 boundary (leBytes 1 pos.val ++ leBytes 1 row.val)
      (if k ≤ s.nextStep3 then s'.rowDue (16 * b.val + pos.val) row.val else s', outScheduled))

/-- BAY_CLKGEN (R116, R466): the bay goes over to its standby generator, and its crossings are centred. -/
def execBayClkgen (b : Fin 16) (s : State) : Outcome :=
  .next (s.bayOrder b 0xC004 fun s _ =>
    if s.standbyOk b then
      (((s.setReg (R.regionState b) (setBits (s.reg (R.regionState b)) 3 2 1)).spareUsed (srcOf 0x01 b) 9 (2 * b) (2 * b + 1)).centre (· == b.val), outDone)
    else (s, outRefused))

/-- The logical core that slot `i` of bay `b` serves, if any. -/
def State.coreAt (s : State) (b i : Nat) : Option Nat :=
  (List.range 16).findSome? fun p => if bits (s.reg (R.portSlot (16 * b + p))) 0 5 == i then some (16 * b + p) else none

/-- BAY_SELFTEST (R116, R592): the slots named, and those among them that the test finds faulty. -/
def execBaySelftest (b : Fin 16) (named faulty : BitVec 17) (s : State) : Outcome :=
  .next (s.bayOrder b 0xC005 fun s _ =>
    if (setBitsOf 17 named.toNat).any fun i => (s.coreAt b i).any fun c => s.hasWork (· == c) then (s, outRefused)
    else
      let bad := (named &&& faulty).toNat
      (s.setReg (R.baySelftestFail b) (word bad), if bad = 0 then outDone else outSelftest))

/-! ### Gating (R517) -/

/-- A bay off or in reset is neither gated nor ungated. -/
def State.gateBays (s : State) (k : Nat) : State :=
  let s := (List.range 16).foldl (fun s b => if s.workIn (inBay b) k (k + 1) then s.ungateBay b else s.gate b) s
  s.gateFabric

end Sys2Proof.Machine
end

