-- ==== Sys2Proof/Machine/Power.lean ====
section
/-!
DEFINITION. Swells, holds, generators, throttling and the thermal trip (R496 to R502, R509 to R513, R529, R600 to R602).
-/
namespace Sys2Proof.Machine

/-! ### Swells and holds (R499 to R502) -/

def State.regionDyn (s : State) (r : Nat) : RegionDyn := Sparse.get {} s.pwr.regions r

def State.setRegionDyn (s : State) (r : Nat) (d : RegionDyn) : State :=
  { s with pwr := { s.pwr with regions := Sparse.put {} s.pwr.regions r d } }

/-- By how many quarter-cycles region `a` is ahead of region `b` on their queues (R498). -/
def State.ahead (s : State) (a b : Nat) : Int :=
  let v := Sparse.get 0 s.pwr.slips (slipKey a b)
  if a < b then v else -v

/-- The slip of the queues between `a` and `b` grows by `d` quarter-cycles in favour of `a`. -/
def State.addAhead (s : State) (a b : Nat) (d : Int) : State :=
  let v := Sparse.get 0 s.pwr.slips (slipKey a b)
  { s with pwr := { s.pwr with slips := Sparse.put 0 s.pwr.slips (slipKey a b) (if a < b then v + d else v - d) } }

/-- MAX_SLIP of region `r` takes the slip of its queues to `o` in whole cycles, if larger. -/
def State.noteSlip (s : State) (r o : Nat) : State :=
  s.setReg (R.maxSlip r) (word (max (s.regN (R.maxSlip r)) ((s.ahead r o).natAbs / 4)))

/-- The regions with a running clock that mesochronous queues join to `r`. -/
def State.runningNeighbours (s : State) (r : Nat) : List Nat :=
  (List.range 20).filter fun o => o != r && s.meso r o && s.regionMode o == 0

/-- A swell of region `r` (R500): it counts, and the region falls a quarter-cycle behind its neighbours. [DEDUCED, log entry 36] -/
def State.swellNow (s : State) (r gap : Nat) : State :=
  let run := if gap = 16 then (s.regionDyn r).run + 1 else 1
  let s := (s.count (R.swells r)).setRegionDyn r ⟨false, run⟩
  (s.runningNeighbours r).foldl (fun s o => ((s.addAhead o r 1).noteSlip r o).noteSlip o r) s

/-- A warning of region `r`, `gap` cycles after its previous swell: within 15 cycles it is carried forward (R500). A queue whose slip has reached 3
has its hold first (R499). -/
def State.warned (s : State) (r gap : Nat) : State :=
  if gap < 16 then s.setRegionDyn r { s.regionDyn r with carried := true }
  else if (s.runningNeighbours r).any fun o => decide (12 ≤ s.ahead o r) then s
  else s.swellNow r gap

/-- The ceiling and the effective profile of half `h`, in profile values. -/
def ProfView.cap (v : ProfView) (h : Nat) : Nat := if h = 0 then v.capW else v.capE
def ProfView.eff (v : ProfView) (h : Nat) : Nat := if h = 0 then v.effW else v.effE

/-- The generators of array-clock region `r` settle: 256 cycles at the frequency loaded (R500, R507). -/
def State.settles (s : State) (r : Nat) : Bool :=
  s.pwr.stepped.any fun x => x.1 == halfOfRegion r && decide ((s.groupBeat - x.2) * profM s.part.fast (s.profView.eff (halfOfRegion r)) < 256 * 25)

/-- SWELL of array-clock region `r`: a warning, `gap` cycles after the last swell that a SWELL made (R500). A warning carried forward before it has made
its swell at cycle 16, the first at which one was allowed; one that comes in that very cycle makes no second. No region swells while it is gated, without
a clock, or while its frequency change settles. [DEDUCED, log entry 36] -/
def execSwell (r : Fin 20) (gap : Nat) (s : State) : Outcome :=
  .next (
    if s.regionMode r ≠ 0 ∨ s.settles r then s
    else if (s.regionDyn r).carried && decide (16 ≤ gap) then
      let s := s.warned r 16
      if gap = 16 then s else s.warned r (gap - 16)
    else s.warned r gap)

/-- XING_HOLD (R499): region `r` is ahead of `o` by 3 cycles on a queue between them, and inserts a hold, which takes the slip back by 1. -/
def execXingHold (r o : Fin 20) (s : State) : Outcome :=
  .next (if s.meso r o && decide (12 ≤ s.ahead r o) then (s.count (R.xingHolds r)).addAhead r o (-4) else s)

/-! ### Throttling (R509 to R512) -/

/-- R506: the first boundary whose step 3 begins at or after group beat `g`; later tides take the pending period, and a
boundary held past its nominal beat counts from now. -/
def State.firstAfter (s : State) (g : Int) : Nat :=
  if g ≤ s.nominal then s.nextStep3
  else s.nextStep3 + cdiv (g - max s.nominal s.groupBeat).toNat (s.latest R.tidePeriod).toNat

/-- The boundary a forced change names: none while the sequencer is stopped (R41). -/
def State.forcedKey (s : State) : Option Nat := if s.tide.running then some (s.firstAfter (s.groupBeat + 12500)) else none

/-- The move a forced change makes for half `h`. -/
def ProfForced.of (f : ProfForced) (h : Nat) : Int := if h = 0 then f.dW else f.dE

/-- R509: half `h` is free: no forced change that lowers it waits, and 1 ms (2,500,000 beats) has passed since the last took effect. -/
def State.halfFree (s : State) (h : Nat) : Bool :=
  !(s.pwr.forced.any fun f => decide (f.of h < 0)) && ((s.pwr.busy.getD h none).all fun b => decide (b ≤ s.beat.toNat))

/-- The halves among `hs` that a decision lowers: free, and not at Neap already (R509, R510). -/
def State.lowerable (s : State) (hs : List Nat) : List Nat :=
  hs.filter fun h => s.halfFree h && decide (0 < (s.profAt ((s.forcedKey).getD s.nextStep3)).cap h)

/-- A throttle decision: a forced change is named that lowers the ceilings of the free halves among `hs` by one profile (R506, R509). [DEDUCED, log entry 27] -/
def State.lower (s : State) (hs : List Nat) (split : Bool) (cause : Nat) : State :=
  let ls := s.lowerable hs
  if ls.isEmpty then s
  else
    let d (h : Nat) : Int := if ls.contains h then -1 else 0
    { s with pwr := { s.pwr with forced := s.pwr.forced ++ [ProfForced.mk s.forcedKey (d 0) (d 1) split cause] } }.syncProf

/-- Junction temperature of a half and the thresholds of THERM_CTRL. -/
def State.tj (s : State) (h : Nat) : Nat := s.field (if h = 0 then R.tjWest else R.tjEast) 0 8
def State.throttleC (s : State) : Nat := s.field R.thermCtrl 0 8
def State.resumeC (s : State) : Nat := s.field R.thermCtrl 8 8

/-- R510: an admitted image with CROSS_STRAIT has a tide at or after boundary `b`. -/
def State.crossAfter (s : State) (b : Nat) : Bool := s.images.any fun i => i.crossStrait && i.reaches b

/-- R510: a THERMAL decision on the hot half `h` enters Strait-split mode. -/
def State.maySplit (s : State) (h : Nat) : Bool :=
  let v := s.profView
  let mode := s.field R.thermCtrl 16 2
  decide (s.tj (1 - h) ≤ s.resumeC) && v.effW == v.effE && decide (neap < v.effW)
    && (mode == 2 || (mode == 1 && !s.crossAfter (s.forcedKey.getD s.nextStep3)))

/-- R509, R510: the THERMAL decision at a sample. -/
def State.thermal (s : State) : State :=
  match [0, 1].filter fun h => decide (s.throttleC ≤ s.tj h) with
  | [] => s
  | hot =>
    if s.profView.split then s.lower hot false 1
    else match hot with
      | [h] => if s.maySplit h then s.lower [h] true 1 else s.lower [0, 1] false 1
      | _ => s.lower [0, 1] false 1

/-- A condition of R511 that holds keeps the beat from which it has held; one that does not loses it. -/
def since (held : Bool) (now : Nat) (was : Option Nat) : Option Nat := if held then some (was.getD now) else none

/-- The sensors of half `h` (R617). -/
def sensorsOf (h : Nat) : List Nat := (List.range 32).map (32 * h + ·) ++ (List.range 8).map (64 + 8 * h + ·)

/-- Highest reading of a half. -/
def highest (temps : List Byte) (h : Nat) : Nat := (sensorsOf h).foldl (fun m i => max m (temps.getD i 0).toNat) 0

/-- JUNCTION_SAMPLE (R509, R510, R511): the 80 sensors in the order of R617. [DEDUCED, log entry 108; DESIGN CHOICE, log entry 117] -/
def execJunctionSample (sample : Sample) (s : State) : Outcome :=
  .next (
    let s := { s with job := { s.job with soft := s.job.soft ++ sample.soft }, memc := { s.memc with struck := s.memc.struck ++ sample.struck } }
    if !s.beatOn || s.rst.tripped then s
    else
      let w := highest sample.temps 0
      let e := highest sample.temps 1
      let s := ((s.setReg R.tjWest (word w)).setReg R.tjEast (word e)).setReg R.tjPeak (word (max (s.regN R.tjPeak) (max w e)))
      let cool := [0, 1].map fun h => since (decide (s.tj h ≤ s.resumeC)) s.beat.toNat (s.pwr.cool.getD h none)
      ({ s with pwr := { s.pwr with cool := cool } }).thermal)

/-- MARGIN_LOW of region `r` (R502, R509): 64 swells in a row. -/
def execMarginLow (r : Fin 20) (s : State) : Outcome :=
  .next (
    if (s.regionDyn r).run < 64 then s
    else
      let s := s.setRegionDyn r { s.regionDyn r with run := 0 }
      let s := ((s.orReg R.clkStatus 4).count (R.marginRuns r)).log_ (srcOf 0x01 r) 0x23 (leBytes 1 r)
      ({ s with pwr := { s.pwr with lastMargin := some s.beat.toNat } }).lower [0, 1] false 3)

/-! ### Package power (R600 to R602) -/

/-- Tenths of an ampere of TDC of VDD_CORE at a profile (Table 18.4). -/
def coreTdc (fast : Bool) (p : Nat) : Nat := if p = neap then 7333 else if p = spring ∧ fast then 16125 else 13429

/-- R602: power counted for an address that does not answer, in tenths of a mW: voltage times TDC for VDD_CORE, the design power for a
fixed rail (Table 18.4). -/
def State.railPower (s : State) (i : Nat) : Nat :=
  if i = 0 then (s.part.coreMv.getD s.pwr.setPoint 0) * coreTdc s.part.fast s.pwr.setPoint
  else [0, 1600000, 600000, 1200000, 760000, 475000, 300000, 120000].getD i 0

/-- A sample of package power: the readings of the eight addresses in mW, plus 4.5 W. -/
def State.powerSample (s : State) (reads : List (Option Nat)) : Nat :=
  (List.range 8).foldl (fun t i => t + match reads.getD i none with | some mw => 10 * mw | none => s.railPower i) 45000

/-- The samples within PWR_WINDOW_MS (R600). -/
def State.window_ (s : State) : List Nat := s.pwr.samples.take (s.field R.pwrCtrl 0 8)

/-- The average is above `pct` percent of `limit` watts (unrounded, R600). -/
def State.powerAbove (s : State) (limit pct : Nat) : Bool :=
  decide (limit * 10000 * pct * s.window_.length < 100 * s.window_.sum)

/-- The limit that a ceiling of half `h` raised by one would put in force (R511). -/
def State.raisedLimit (s : State) (h : Nat) : Nat :=
  let v := s.profView
  profLimit s.part.fast (ProfView.higher (if h = 0 then { v with capW := min 2 (v.capW + 1) } else { v with capE := min 2 (v.capE + 1) }))

/-- PMBUS_POLL (R509, R511, R600, R602): READ_POUT of addresses 0x40 to 0x47 in mW, none where an address does not answer. -/
def execPmbusPoll (reads : List (Option Nat)) (s : State) : Outcome :=
  .next (
    if !s.enm.running then s
    else
      let s := { s with pwr := { s.pwr with samples := (s.powerSample reads :: s.pwr.samples).take 100 } }
      let s := s.setReg R.pkgPower (word (min 0xFFFF (s.window_.sum / s.window_.length / 10000)))
      let pct := s.field R.pwrCtrl 8 8
      let calm := [0, 1].map fun h => since (!s.powerAbove (s.raisedLimit h) pct) s.beat.toNat (s.pwr.calm.getD h none)
      let s := { s with pwr := { s.pwr with calm := calm } }
      if s.powerAbove (profLimit s.part.fast s.profView.higher) 100 then
        let s' := s.lower [0, 1] false 2
        if (s.lowerable [0, 1]).isEmpty then s' else s'.orReg R.clkStatus 0x20
      else s)

/-- VR_FAULT of the regulator at 0x40 + `addr` (R602): it does not answer, so that STATUS_WORD is not read, or it asserts PMB_ALERT_N. [DEDUCED, log entry 38] -/
def execVrFault (addr : Fin 8) (status : Option Half) (s : State) : Outcome :=
  .next (
    if !s.enm.running then s
    else match status with
      | some w => s.log_ (srcOf 0x01 0) 0x24 (leBytes 1 (0x40 + addr) ++ [0] ++ leBytes 2 w.toNat)
      | none =>
        let d := s.draw
        d.2.log_ (srcOf 0x01 0) 0x24 (leBytes 1 (0x40 + addr) ++ [0] ++ leBytes 2 d.1.toNat))

/-! ### Ceiling rises (R511) -/

/-- 100 ms in beats. [DEDUCED, log entry 16] -/
def resumeBeats : Nat := 250000000

/-- A beat at least 100 ms ago. -/
def State.longAgo (s : State) (t : Nat) : Bool := decide (t + resumeBeats ≤ s.beat.toNat)

/-- Every condition of R511 has held for 100 ms, and the ceiling of half `h` lies below Spring. -/
def State.mayRise (s : State) (h : Nat) : Bool :=
  decide (s.profView.cap h < 2) && (s.pwr.cool.getD h none).any s.longAgo && (s.pwr.calm.getD h none).any s.longAgo
    && s.pwr.lastMargin.all s.longAgo && (s.pwr.lastRise.getD h none).all s.longAgo
    && !(s.pwr.forced.any fun f => decide (0 < f.of h))

/-- R511, R601: the rise is named for boundary n + 2; the set point rises when the rise is decided, to that of the
highest profile named. -/
def State.rise (s : State) (h : Nat) : State :=
  let key : Option Nat := if s.tide.running then some (s.tide.count.toNat + 2) else none
  let s := { s with pwr := { s.pwr with forced := s.pwr.forced ++ [ProfForced.mk key (if h = 0 then 1 else 0) (if h = 0 then 0 else 1) false 4]
                                        lastRise := s.pwr.lastRise.set h (some s.beat.toNat) } }
  let top := s.changeKeys.foldl (fun m k => max m (s.profAt k).higher) s.profView.higher
  { s with pwr := { s.pwr with setPoint := max s.pwr.setPoint top } }.syncProf

/-- CEILING_RISE of a half (R511). -/
def execCeilingRise (half : Fin 2) (s : State) : Outcome := .next (if s.mayRise half then s.rise half else s)

/-! ### Thermal trip (R513, R606) -/

/-- R513: THERMTRIP_N is asserted, every array-clock region is gated, and the trip is logged in retained memory; the device is lost to
its job, and nothing else of R472 is done. [DEDUCED, log entry 108] -/
def State.trip (s : State) (sensor reading : Nat) : State :=
  let s := (List.range 20).foldl State.gate s
  let detail := leBytes 1 sensor ++ leBytes 1 reading
  let s := { s with rst := { s.rst with tripped := true }
                    job := { s.job with lost := true }
                    tide := { s.tide with issueStop := true } }
  s.logKept (srcOf 0x01 0) 0x2B detail

/-- THERMTRIP (R513, R606): a sensor reads 110 °C or more. [DEDUCED, log entry 108] -/
def execThermtrip (sensor : Fin 80) (reading : Byte) (s : State) : Outcome :=
  .next (if s.beatOn && !s.rst.tripped && decide (110 ≤ reading.toNat) then s.trip sensor reading.toNat else s)

/-! ### Generators (R466, R496, R529) -/

/-- The generator of region `r` runs: the region has a clock. -/
def execGenFail (r : Fin 20) (s : State) : Outcome := .next (if s.clocked r then s.genSwitch r else s)

/-- R496: `cycles` counted over a window of 1,024 beats differ from the value in effect by more than 1 %. -/
def offFrequency (m cycles : Nat) : Bool :=
  decide (101 * 1024 * m < 2500 * cycles) || decide (2500 * cycles < 99 * 1024 * m)

/-- GEN_FREQ_WINDOW (R466, R496): the cycles that a generator of region `r` counted over 1,024 beats. A running generator that is off its
frequency has failed; a standby that is off can take over no longer. -/
def execGenFreqWindow (r : Fin 20) (standby : Bool) (cycles : Nat) (s : State) : Outcome :=
  .next (
    if !s.clocked r || s.pwr.settling || !offFrequency (profM s.part.fast (s.profView.eff (halfOfRegion r))) cycles then s
    else if standby then
      if s.standbyOk r then (s.recordGen (2 * r + 1)).setField (R.regionState r) 4 1 0 else s
    else s.genSwitch r)

/-- R529: the device stops issue as for a lost device, records PLL_FAULT and the region, and asserts RESET_REQ_N. -/
def State.pllFault (s : State) (d : Nat) : State :=
  let s := s.stopAsLost
  { s with rst := { s.rst with pllFault := true }, kept := { s.kept with pllFaults := s.kept.pllFaults ++ [d] } }

/-- FIXED_PLL_LOSS (R496, R529, R539, R603): loss of lock in fixed-clock region `d` (20 to 39) after boot, or in the
beat PLL (40) at any time. -/
def execFixedPllLoss (d : Fin 41) (s : State) : Outcome :=
  .next (if !s.rst.asserted && decide (20 ≤ d.val) && (if d.val = 40 then s.beatOn else s.bootStage == 9) then s.pllFault d else s)

end Sys2Proof.Machine
end

