-- ==== Sys2Proof/Machine/RegAccess.lean ====
section
/-!
DEFINITION. Reads and writes of registers by a requester (R13 to R18, R30, R100, R111, R521, R571, R587 to R590).
-/
namespace Sys2Proof.Machine

/-- How an access arrives: by a REG_* command, by a frame of the expert register window, or from Enmora itself. -/
inductive Via where
  | command | frame | enmora
  deriving DecidableEq, Repr

/-- Low and high halves of a 64-bit value. -/
def lo32 (x : Dword) : Word := x.setWidth 32
def hi32 (x : Dword) : Word := (x >>> 32).setWidth 32

/-- R304: an alarm threshold selected by the requester's ALARM_INDEX; TYPE 0 selects none. -/
def State.alarmKey (s : State) (q : Nat) : Option (Nat × Nat) :=
  let i := s.own q R.alarmIndex
  let type := bits i 16 8
  if type = 0 then none else some (type, bits i 0 16)

/-- R408: what a lane's receiver shows of symbol errors or margins (register `k`, the lane as LANE_SEL numbers it): a physical reading, 0 on a
DISABLED link. [DESIGN CHOICE, log entry 11] -/
def State.laneReading (s : State) (link lane k : Nat) : Word :=
  if s.field (R.linkState link) 0 4 = 0 then 0 else Config.reading (k * 16 + lane) s.beat.toNat

/-- A register of which the selector of the requester decides what it shows (R589). -/
def State.selected (s : State) (q k : Nat) (d : RegRow) : Option Word :=
  if k = R.alarmHi then
    some (match s.alarmKey q with | none => 0 | some (t, n) => Sparse.get 0 s.alarmHi (t * 1024 + n))
  else if k = R.alarmLo then
    some (match s.alarmKey q with | some (1, n) => Sparse.get 0 s.alarmLo (1024 + n) | _ => 0)
  else if k = R.routeData then some (lo32 (s.route (s.own q R.routeIndex).toNat))
  else if k = R.routeDataC then some (hi32 (s.route (s.own q R.routeIndex).toNat))
  else if d.base = R.pcCe 0 ∧ d.id k = R.pcCe 0 then
    some (word (Sparse.get 0 s.memc.pcCe (d.unit k * 64 + bits (s.own q (R.pcSel (d.unit k))) 0 6)))
  else if d.id k = R.laneSymErr 0 then
    some (s.laneReading (d.unit k) (bits (s.own q (R.laneSel (d.unit k))) 0 4) k)
  else if d.id k = R.laneMargin 0 then
    some (s.laneReading (d.unit k) (bits (s.own q (R.laneSel (d.unit k))) 0 4) k)
  else if R.frameData 0 ≤ k ∧ k ≤ R.frameData 7 then some (s.frameWord (s.own q R.frameIndex) ((k - R.frameData 0) / 4))
  else if R.recState 0 ≤ k ∧ k ≤ R.recState 3 then some (s.recWord (s.own q R.recordIndex) ((k - R.recState 0) / 4))
  else none

/-- A register that shows a value held elsewhere in State. [DESIGN CHOICE, log entry 11; DEDUCED, log entry 29] -/
def State.shown (s : State) (k : Nat) : Option Word :=
  if k = R.beatCountLo then some (lo32 s.beat)
  else if k = R.tideCountLo then some (lo32 s.tide.count)
  else if k = R.groupOffsetLo then some (lo32 s.tide.offset)
  else if k = R.groupOffsetHi then some (hi32 s.tide.offset)
  else if k = R.stepNumberLo then some (lo32 s.job.step)
  -- R583: readings of a DARK port are 0
  else if k = R.rxPower 0 ∨ k = R.txPower 0 then (if s.field (R.portState 0) 0 2 = 0 then some 0 else some (Config.reading k s.beat.toNat))
  else if k = R.rxPower 1 ∨ k = R.txPower 1 then (if s.field (R.portState 1) 0 2 = 0 then some 0 else some (Config.reading k s.beat.toNat))
  else if k = R.secVersionMin then some (s.part.secVersionMin.setWidth 32)
  else if k = R.xingRecentres then some s.pwr.recentres
  else if k = R.snapTS then some (word s.intervalS)
  else if k = R.dirtyBlocks then some (word s.dirtyBlocks)
  else if R.opsInFlight 0 ≤ k ∧ k ≤ R.opsInFlight 255 ∧ (k - R.opsInFlight 0) % 0x40 = 0 then some (s.opsInFlight ((k - R.opsInFlight 0) / 0x40))
  else if k = R.h2eNext then some (match s.enm.order with | mb :: _ => word (0x10 + mb) | [] => 0)
  else none

/-- What requester `q` reads at key `k`, before any effect of the read. An unlisted offset reads 0 (R587); a WO register reads 0
(Table 0.3); H2E_NEXT reads 0 to every requester but the Command role (R590); a high word reads as the requester's latch (R589). -/
def State.look (s : State) (q k : Nat) : Word :=
  match regRow k with
  | none => 0
  | some d =>
    if d.acc = .wo then 0
    else if k = R.h2eNext ∧ (q ≠ enmoraReq ∨ !s.commandRuns) then 0
    else if k = R.beatCountHi ∨ k = R.tideCountHi ∨ k = R.stepNumberHi then s.own q k
    else match s.selected q k d with
      | some v => v
      | none =>
        match s.shown k with
        | some v => v
        | none => if d.own then s.own q k else s.reg k

/-- The effect of a read: an RC register clears for every requester (R590), and a read of a low word latches the high word (R78, R367). -/
def State.readEffect (s : State) (q k : Nat) : State :=
  if k = R.beatCountLo then s.setOwn q R.beatCountHi (hi32 s.beat)
  else if k = R.tideCountLo then s.setOwn q R.tideCountHi (hi32 s.tide.count)
  else if k = R.stepNumberLo then s.setOwn q R.stepNumberHi (hi32 s.job.step)
  else if k = R.h2eNext then (if q = enmoraReq ∧ s.commandRuns then s.takeNext else s)
  else match regRow k with
    | some d => if d.acc = .rc then s.setReg k 0 else s
    | none => s

/-- A read of consecutive words: values in address order, and the state after. -/
def State.readRegs (s : State) (q k : Nat) : Nat → List Word × State
  | 0 => ([], s)
  | n + 1 =>
    let v := s.look q k
    let (vs, s') := (s.readEffect q k).readRegs q (k + 4) n
    (v :: vs, s')

/-- Block number of a key. -/
def blockOf (k : Nat) : Nat := k / 0x1000000

/-- R100, R571, R590: a write that the requester's path may not make is ignored: the mailbox block from any requester but Enmora; the
reset and Lysholt blocks through the expert window. [DEDUCED, log entry 28] -/
def writeIgnored (q : Nat) (via : Via) (k : Nat) : Bool :=
  (blockOf k == 0x04 && q != enmoraReq) || (via == .frame && (blockOf k == 0x00 || blockOf k == 0x03))

/-- R588: a write to DEV_ID in a tide group, or to LANE_MAP of a link in service, is refused. -/
def State.writeRefused (s : State) (k : Nat) : Bool :=
  (k == R.devId && s.group.member) ||
  (match regRow k with
   | some d => d.base == R.laneMap 0 && d.id k == R.laneMap 0 && s.inService (d.unit k)
   | none => false)

/-- THROTTLED is set while any ceiling lies below Spring, so a clear of it does not last (R512, R14). -/
def State.holdThrottled (s : State) : State :=
  if s.field R.profState 6 2 < 2 ∨ s.field R.profState 8 2 < 2 then s.orReg R.clkStatus 1 else s

/-- R298: NUM_STATUS reports JIT while a record is in that state, whatever clears it. -/
def State.holdJit (s : State) (k : Nat) : State := if k = R.numStatus ∧ s.reg R.jitRecords ≠ 0 then s.orReg R.numStatus 2 else s

/-- R521: a write to PROF_TARGET, which holds what was written, submits a commanded change at the boundary in PROF_BOUNDARY; a refused one, as any is
in Sleep (R518), sets PROF_REJECT. [DEDUCED, log entry 25] -/
def State.submitProf (s : State) (v : Word) : State :=
  let p := bits v 0 2
  let b := s.reg64 R.profBoundaryLo R.profBoundaryHi
  if p = 3 then s
  else match (if s.asleep then some (0, 0, 0) else s.judgeProf p b) with
    | some _ => (s.setReg R.profTarget (word p)).orReg R.clkStatus 0x10
    | none => (s.setReg R.profTarget (word p)).acceptProf p b

/-- R304: a write to ALARM_HI or ALARM_LO sets the threshold that the requester's ALARM_INDEX names; TYPE 0, and ALARM_LO of types 2 and 3,
ignore it. -/
def State.writeAlarm (s : State) (q k : Nat) (v : Word) (mark : Bool) : State :=
  match s.alarmKey q with
  | none => s
  | some (t, n) =>
    if k ≠ R.alarmHi ∧ t ≠ 1 then s
    else
      let s' := if k = R.alarmHi then { s with alarmHi := Sparse.put 0 s.alarmHi (t * 1024 + n) v }
        else { s with alarmLo := Sparse.put 0 s.alarmLo (1024 + n) v }
      if mark then s'.override (alarmName t n) else s'

/-- R173: the three fields of ARRAY_CTRL are overridden each under a name of its own. -/
def chkTolName (k : Nat) : Nat := k + 2

/-- R112, R173, R461: an expert write overrides what it writes: the register, or each of the three fields of ARRAY_CTRL, or the two parts of MEM_CTRL. -/
def State.overrideReg (s : State) (d : RegRow) (k : Nat) : State :=
  if d.id k = R.arrayCtrl 0 then ((s.override (checkEnName k)).override (rampLenName k)).override (chkTolName k)
  else if k = R.memCtrl then (s.override k).override scrubName
  else s.override k

/-- Table 8.11: SHELF_TOP_BASE + SHELF_COUNT may not exceed 32. -/
def State.shelfFits (s : State) (k : Nat) (v : Word) : Bool :=
  if k = R.shelfCtrl then decide (bits v 0 6 + (s.latest R.shelfTopBase).toNat ≤ 32)
  else if k = R.shelfTopBase then decide (bits v 0 5 + (s.latest R.shelfCtrl).toNat ≤ 32)
  else true

/-- A write of `v`, its reserved bits dropped, to the RW register `d` at key `k`. A shadowed register takes it at the next boundary (R30); any other takes
it at once (R588). Reserved encodings keep their field (R18). -/
def State.writePlain (s : State) (d : RegRow) (mark : Bool) (k : Nat) (v : Word) : State :=
  if d.shadow then
    match regMerge (d.id k) (s.latest k) v with
    | some w => if s.shelfFits k w then (if mark then (s.queueReg k w).overrideReg d k else s.queueReg k w) else s
    | none => s
  else
    match regMerge (d.id k) (s.reg k) v with
    | some w =>
      let s := if k = R.devId then (s.setReg k w).storedAt 65536 .devId else s.setReg k w
      if mark then s.overrideReg d k else s
    | none => s

/-- A write of `v` to key `k` by requester `q`. Reserved bits are dropped (R16); a W1C write clears. `mark`: the
write is an expert write, whose override stands (R112). [DEDUCED, log entry 25] -/
def State.writeReg (s : State) (q : Nat) (via : Via) (mark : Bool) (k : Nat) (v : Word) : State :=
  match regRow k with
  | none => s
  | some d =>
    if writeIgnored q via k then s
    else match d.acc with
      | .ro => s
      | .rc => s
      | .wo => s
      | .w1c => (s.andNotReg k v.toNat).holdThrottled.holdJit k
      | .rw =>
        let v := v &&& word d.mask
        if k = R.profTarget then (if bits v 0 2 = 3 then s else if mark then (s.submitProf v).override k else s.submitProf v)
        else if k = R.alarmHi ∨ k = R.alarmLo then s.writeAlarm q k v mark
        else if k = R.routeData then s.setOwn q k v
        else if k = R.routeDataC then
          let dev := (s.own q R.routeIndex).toNat
          let s := s.queueRoute dev (BitVec.ofNat 64 ((s.own q R.routeData).toNat + 2 ^ 32 * v.toNat))
          if mark then s.override (routeName dev) else s
        else if d.own then
          match regMerge (d.id k) (s.own q k) v with
          | some w => s.setOwn q k w
          | none => s
        else s.writePlain d mark k v

/-- Consecutive words written in address order. -/
def State.writeRegs (s : State) (q : Nat) (via : Via) (mark : Bool) : Nat → List Word → State
  | _, [] => s
  | k, v :: vs => (s.writeReg q via mark k v).writeRegs q via mark (k + 4) vs

/-! ### Address checks (R110, R587) -/

/-- The key of a register address, when the access of `n` words is legal: in the window, a multiple of 4, within one listed block. -/
def regKey (addr n : Nat) : Option Nat :=
  if windowBase ≤ addr ∧ addr < windowBase + 256 * 0x1000000 ∧ addr % 4 = 0 then
    let k := addr - windowBase
    if k % 0x1000000 + 4 * n ≤ 0x1000000 ∧ (blockListed (blockOf k)) then some k else none
  else none

/-- An access to a block that Sleep powers off (Table 17.1, R571). -/
def State.blockOff (s : State) (k : Nat) : Bool := s.asleep && blockOffInSleep (blockOf k)

/-- R588: some word of a write of `n` words from key `k` is refused. -/
def State.rangeRefused (s : State) (k n : Nat) : Bool := (List.range n).any fun i => s.writeRefused (k + 4 * i)

/-- The words a payload carries from byte `o`. -/
def wordsFrom (p : List Byte) (o n : Nat) : List Word := (List.range n).map fun i => word (bytesAt p (o + 4 * i) 4)

/-- Words as bytes, in address order. -/
def wordBytes (ws : List Word) : List Byte := ws.flatMap fun w => leBytes 4 w.toNat

end Sys2Proof.Machine
end

