-- ==== Sys2Proof/Machine/Links.lean ====
section
/-!
DEFINITION. The link layer (R407, R409 to R429): sequence numbers, acknowledgement and retry, credits, routing, and a link that goes DOWN.
A packet is sent flit by flit, and received by one command when it is whole.
-/
namespace Sys2Proof.Machine

/-- A failed entry of the link block: an uncorrectable error in state held nowhere else, counted at every read that finds it; the job restarts
once for each value stored (R422, R423, R435, R473, R581). [DEDUCED, log entry 79] -/
def State.linkUe (s : State) (what : Nat) : State := if s.link.reported.contains what then s.routeUe what else (s.routeUe what).restart 0x04

/-- R422: the fault of a DEV_ID that fails its check. [DEDUCED, log entry 79] -/
def State.checkId (s : State) : State := if s.devId.isSome then s else s.linkUe 65536

/-- The fault of a routing entry whose pair or ECC fails. -/
def State.checkRoute (s : State) (d : Nat) : State := if s.routeOk d then s else s.linkUe d

/-- The packet is routed (R424, R425); DL moves it to class 1. A packet without a path goes no further. -/
def State.routeRaw (s : State) (p : Pkt) (resend : Bool) : State :=
  let s := s.checkRoute p.dst.toNat
  match s.routeOf p resend with
  | .link l dl => s.enqueue l { p with dl := p.dl || dl }
  | .behind => { s with link := { s.link with waitQ := s.link.waitQ ++ [p] } }
  | .park => { s with link := { s.link with noPath := s.link.noPath ++ [p.age] } }
  | .none_ => s

/-- The UNREACH that answers a packet: it names the kind that failed in TTYPE (R425). [DESIGN CHOICE, log entry 72] -/
def unreachFor (p : Pkt) : Pkt := { p with kind := K.unreach, flits := 0, dl := false, dst := p.src, ttype := BitVec.ofNat 8 p.kind, data := [], here := {} }

/-- What becomes of a packet that can reach its destination no more (R238, R378, R425, R429): the memory operation of this device that it carries
fails, a piece of this device raises BKT_LINK, and a packet in transit is answered with UNREACH, but for an UNREACH. -/
def State.failPkt (s : State) (p : Pkt) : State :=
  let s := s.leaves p
  if s.devId = some p.src then
    if p.kind = K.readReq ∨ p.kind = K.write then
      match s.opById p.op with
      | some o => s.opUnreachable o
      | none => s
    else if p.kind = K.piece then s.bktError 7 p.bucket.toNat p.op p.here.tag 0xFFFF
    else s
  else if p.kind = K.unreach then s
  else
    match s.devId with
    | some me => s.routeRaw { unreachFor p with src := me } false
    | none => s.checkId

/-- The packet is routed; without a path it fails. [DEDUCED, log entry 75; DEDUCED, log entry 76] -/
def State.routePkt (s : State) (p : Pkt) (resend : Bool := false) : State :=
  if s.routeOf p resend = .none_ then (s.checkRoute p.dst.toNat).failPkt p else s.routeRaw p resend

/-- No path leads to the packet's destination. -/
def State.noRoute (s : State) (p : Pkt) : Bool := decide (s.routeOf p false = .none_)

/-- R422: a packet that this device originates; without an id it is not sent. -/
def State.originate (s : State) (p : Pkt) : State :=
  match s.devId with
  | some me => s.routePkt { p with src := me }
  | none => s.checkId

/-- Packets of a list routed in order. -/
def State.routeAll (s : State) (ps : List Pkt) (resend : Bool) : State := ps.foldl (fun s p => s.routePkt p resend) s

/-- R424: packets that wait for a path are tried again, in order. -/
def State.retryPaths (s : State) : State :=
  let ps := s.link.noPath
  { s with link := { s.link with noPath := [] } }.routeAll ps false

/-- R428: packets that waited behind a resend are routed, in order. -/
def State.unblock (s : State) : State :=
  let ps := s.link.waitQ
  { s with link := { s.link with waitQ := [] } }.routeAll ps false

/-! ### LINK flits -/

/-- R407, R424: packets not yet begun in the queue of a link that has left service are routed again, in order. [DEDUCED, log entry 76] -/
def State.reroute (s : State) (l : Nat) : State :=
  let x := s.linkSt l
  if s.lstate l ≠ L.active ∨ s.inService l then s
  else
    let begun := (List.range 4).filterMap fun v => if x.sent.getD v 0 = 0 then none else x.queue.find? fun p => p.vc.val == v
    (s.setLink l { x with queue := begun }).routeAll (begun.foldl List.erase x.queue) false

/-- R414: an ACK with the next sequence expected. -/
def State.sendAckFlit (s : State) (l : Nat) : State :=
  let x := s.linkSt l
  (s.setLink l { x with unacked := 0 }).sendFlit l 1 x.rxSeq 0

/-- R415: a NACK with the sequence expected; RETRIES counts it. -/
def State.sendNack (s : State) (l : Nat) : State := (s.count (R.retries l)).sendFlit l 2 (s.linkSt l).rxSeq 0

/-- Flit `b` lies at or after flit `a` in the 16-bit sequence. -/
def seqGe (b a : Nat) : Bool := decide ((b + 65536 - a) % 65536 < 32768)

/-- R414: a packet whose last flit precedes `seq` is acknowledged whole, and its flits are freed together. -/
def LinkSt.ack (x : LinkSt) (seq : Nat) : LinkSt :=
  let done := (x.replay.filter fun e => e.num == e.pkt.flits && seqGe seq ((e.seq + 1) % 65536)).map (·.head)
  { x with replay := x.replay.filter fun e => !done.contains e.head }

/-- R415: every unacknowledged flit from `seq` on is sent again, in order; a mark among them is stale (R421). -/
def State.replayFrom (s : State) (l seq : Nat) : State :=
  let x := s.linkSt l
  let x := { x with replay := x.replay.map fun (e : TxFlit) => if seqGe e.seq seq then { e with pkt := e.pkt.age } else e }
  let again := x.replay.filter fun e => seqGe e.seq seq
  again.foldl (fun s e => s.emit (.flit l (e.pkt.flit e.num) true)) ((s.setLink l x).count (R.replayedFlits l) again.length)

/-! ### A link goes DOWN (R427) -/

/-- The partner's device id and link number, as exchanged in PARAM (Table 11.11). -/
def State.partnerDev (s : State) (l : Nat) : Half := BitVec.ofNat 16 (s.field (R.partner l) 0 16)
def State.partnerLink (s : State) (l : Nat) : Nat := s.field (R.partner l) 16 8

/-- A packet sent whole fills no buffer entry any more (R417). -/
def sentWhole (p : Pkt) : Pkt := { p with here := { p.here with via := none } }

/-- What a link that goes DOWN holds: the packets sent whole and not acknowledged, and those that wait, in order (R428). -/
def LinkSt.heldBack (x : LinkSt) : List (Option Nat × Pkt) :=
  ((x.replay.filter fun e => e.num == e.pkt.flits).map fun e => (some e.seq, sentWhole e.pkt)) ++ x.queue.map fun p => (none, p)

/-- R427, R428: the link leaves service at once; what it has sent and not had acknowledged, and what waits for it, is held; a packet received in
part is discarded; and a LOSS_REPORT goes to the partner's device id by routing. Nothing happens to a link on which no flits flow. [DEDUCED, log entry 74] -/
def State.linkDown (s : State) (l cause : Nat) : State :=
  if s.lstate l ≠ L.active ∧ s.lstate l ≠ L.swap then s
  else
    let x := s.linkSt l
    let s := s.setLink l { x with replay := [], queue := [], sent := [0, 0, 0, 0], swap := none, discarding := false, await := false, nacks := 0, part := [0, 0, 0, 0]
                                  losses := x.losses ++ [⟨x.heldBack, s.partnerDev l, s.partnerLink l⟩] }
    let s := ((s.setLstate l L.down).count (R.linkDowns l)).orReg (R.linkStatus l) 1
    let s := s.log_ (srcOf 0x18 l) 0x15 (leBytes 1 cause)
    match s.devId with
    | some me =>
      s.routePkt { kind := K.lossReport, src := me, dst := s.partnerDev l, ttype := 1, link := Fin.ofNat 64 l
                   lastSeq := BitVec.ofNat 16 x.lastWhole } true
    | none => s.checkId

/-! ### Receiving (R407, R411, R413, R414, R425) -/

/-- R414: `n` sequenced flits have arrived; an ACK goes out at every 32nd since the last. -/
def State.countFlits (s : State) (l n : Nat) : State :=
  let x := s.linkSt l
  let s := s.setLink l { x with rxSeq := (x.rxSeq + n) % 65536, unacked := (x.unacked + n) % 32 }
  (List.range ((x.unacked + n) / 32)).foldl (fun s i => s.sendFlit l 1 ((x.rxSeq + 65536 + 32 * (i + 1) - x.unacked) % 65536) 0) s

/-- Sequenced flits of packets under way that the receiver has not counted before: `begun` of each channel have come. -/
def LinkSt.fresh (x : LinkSt) (begun : List Nat) : Nat := ((List.range 4).map fun v => begun.getD v 0 - x.part.getD v 0).sum

/-- R410, R413 to R415: flits of packets under way count as they arrive, and end the discarding. -/
def State.moreFlits (s : State) (l : Nat) (begun : List Nat) : State :=
  let x := s.linkSt l
  if x.fresh begun = 0 then s
  else
    (s.setLink l { x with part := (List.range 4).map fun v => max (x.part.getD v 0) (begun.getD v 0), discarding := false, await := false, nacks := 0 }).countFlits
      l (x.fresh begun)

/-- The receiver has taken a whole packet, of which it held `part` flits before; its buffer entries are free unless it `stays`, to be sent on (R417).
[DESIGN CHOICE, log entry 71] -/
def State.takeFlits (s : State) (l : Nat) (p : Pkt) (stays : Bool) : State :=
  let x := s.linkSt l
  let n := p.size - x.part.getD p.vc 0
  let s := s.setLink l { x with part := x.part.set p.vc 0, lastWhole := (x.rxSeq + n + 65535) % 65536, discarding := false, await := false, nacks := 0
                                freed := if stays then x.freed else addCredit x.freed p.cls p.size }
  s.countFlits l n

/-- R411: a bad packet is discarded, counted and logged. -/
def State.badPacket (s : State) (l : Nat) (p : Pkt) : State :=
  let x := s.linkSt l
  (s.setLink l { x with badPackets := satAdd x.badPackets 1 }).log_ (srcOf 0x18 l) 0x13 (leBytes 1 p.kind ++ [0] ++ leBytes 2 p.src.toNat)

/-- R425: a packet for another device is forwarded; with no path in service it is discarded and an UNREACH returns to its originator, which
names the request that failed (its kind stands in TTYPE). A device without an id sends no UNREACH (R422), and an UNREACH is not answered. [DESIGN CHOICE, log entry 72] -/
def State.forward (s : State) (p : Pkt) : State :=
  if s.noRoute p then
    let s := s.checkRoute p.dst.toNat
    if p.kind = K.unreach then s else s.originate (unreachFor p)
  else s.routePkt p

/-- A packet of kind `k` arrives on link `l` (`resent`: in a replay), and `act` is what this device does with it. Flits are accepted only
while the state is ACTIVE (R407), and after an error only resent ones (R415). A packet of another row's kind does not occur here. -/
def State.arrive (s : State) (l : Nat) (resent : Bool) (p : Pkt) (k : Fin 16) (tts : List Byte) (act : State → Pkt → State) : State :=
  if !p.bad && (p.kind != k || !(tts.isEmpty || tts.contains p.ttype)) then s
  else if s.lstate l ≠ L.active then s
  else if (s.linkSt l).discarding && !resent then s
  else
    let begun := p.here.begun
    let p := { if resent then p.age else p with here := { sender := p.here.sender } }
    let mine := p.bad || s.devId == some p.dst
    let s := (s.moreFlits l begun).takeFlits l p (!mine && !s.noRoute p)
    if p.bad then s.badPacket l p
    else if mine then act s p
    else s.checkId.forward { p with here := { via := some (l, p.cls) } }

end Sys2Proof.Machine
end

