-- ==== Sys2Proof/Machine/LinkCmd.lean ====
section
/-!
DEFINITION. The LINK_* commands and the routing JOB_* commands (R422, R423, R430, Tables 2.13 and 11.10).
-/
namespace Sys2Proof.Machine

/-- The links of a 64-bit mask. -/
def linksOf (mask : Nat) : List Nat := setBitsOf 64 mask

/-- R430: bits 3:0 state, bit 4 IN_SERVICE, bit 5 a spare in use in either direction, bit 6 SPARE_BAD. -/
def State.linkByte (s : State) (l : Nat) : Nat :=
  s.lstate l + 16 * b2n (bit (s.reg (R.linkCtrl l)) 0)
    + 32 * b2n (s.field (R.laneMap l) 12 3 == 7 || (s.linkSt l).rxSpare.isNone) + 64 * b2n (bit (s.reg (R.linkStatus l)) 2)

def cmdLinkStatus : Cmd where
  op := 0x0501
  len := lenIs 0
  act s _ := (s, some (.ok ((List.range 64).map fun l => BitVec.ofNat 8 (s.linkByte l))))

/-- R406, R431: training of link `l` starts in the reach chosen, which a pending change of IN_SERVICE keeps; an override of its LANE_MAP ends, and the
mapping is that of power-on again. [DEDUCED, log entry 73] -/
def State.startTraining (s : State) (l : Nat) (lr : Bool) : State :=
  let s := if (s.pendingReg (R.linkCtrl l)).isSome then s.queueField (R.linkCtrl l) 1 1 (b2n lr) else s
  let s := s.setField (R.linkCtrl l) 1 1 (b2n lr)
  let s := if s.overrides.contains (R.laneMap l) then (s.setReg (R.laneMap l) (regReset (R.laneMap l))).basic (R.laneMap l) else s
  (s.setLink l { s.linkSt l with returns := 0, swap := none }).setLstate l L.detect

def cmdLinkTrain : Cmd where
  op := 0x0502
  len := lenIs 16
  state s r := (linksOf (r.at 0 8)).all fun l => s.lstate l == L.disabled || s.lstate l == L.down
  act s r := ((linksOf (r.at 0 8)).foldl (fun s l => s.startTraining l ((r.at 8 8).testBit l)) s, some .ok)

/-- R408: one lane's vertical margin, horizontal margin and symbol errors, in 8 bytes. -/
def State.laneBytes (s : State) (l lane : Nat) : List Byte :=
  leBytes 4 (s.laneReading l lane (R.laneMargin l)).toNat ++ leBytes 4 (s.laneReading l lane (R.laneSymErr l)).toNat

/-- [DEDUCED, log entry 77] -/
def cmdLinkMargin : Cmd where
  op := 0x0503
  len := lenIs 1
  param _ r := decide (r.at 0 1 < 64)
  act s r := (s, some (.ok ([0, 1, 2, 3, 4, 8, 9, 10, 11, 12].flatMap fun i => s.laneBytes (r.at 0 1) i)))

/-- R407: IN_SERVICE of a link takes the value at step 3 of the next boundary; an override of LINK_CTRL stands until reset (R431). -/
def State.queueService (s : State) (v : Nat) (l : Nat) : State := s.queueField (R.linkCtrl l) 0 1 v

def cmdLinkDisable : Cmd where
  op := 0x0504
  len := lenIs 8
  state s r := (linksOf (r.at 0 8)).all fun l => bit (s.reg (R.linkCtrl l)) 0
  act s r := ((linksOf (r.at 0 8)).foldl (·.queueService 0 ·) s, some .ok)

def cmdLinkEnable : Cmd where
  op := 0x0505
  len := lenIs 8
  state s r := (linksOf (r.at 0 8)).all fun l => s.lstate l == L.active
  act s r := ((linksOf (r.at 0 8)).foldl (·.queueService 1 ·) s, some .ok)

def cmdLinkCounters : Cmd where
  op := 0x0506
  len := lenIs 1
  param _ r := decide (r.at 0 1 < 64)
  act s r :=
    let l := r.at 0 1
    (s, some (.ok (((List.range 7).flatMap fun i => leBytes 4 (s.regN (R.crcErrors l + 4 * i))) ++ leBytes 4 (s.linkSt l).badPackets.toNat)))

/-- R430: the link must be ACTIVE and out of service; the spec gives the test no result. [DESIGN CHOICE, log entry 60] -/
def cmdLinkLoopback : Cmd where
  op := 0x0507
  len := lenIs 2
  expert := true
  param _ r := decide (r.at 0 1 < 64) && decide (r.at 1 1 ≤ 1)
  state s r := s.lstate (r.at 0 1) == L.active && !(bit (s.reg (R.linkCtrl (r.at 0 1))) 0)
  act s _ := (s, some .ok)

/-- R422: refused with JOB_ACTIVE in a tide group. -/
def cmdJobSetId : Cmd where
  op := 0x0602
  len := lenIs 4
  param _ r := pairOk 16 (r.at 0 2) (r.at 2 2)
  act s r :=
    if s.group.member then (s, some (.refused 0x23))
    else ((s.setReg R.devId (word (r.at 0 4))).storedAt 65536 .devId, some .ok)

/-- R430: the required LENGTH of JOB_ROUTE_SET. -/
def routeSetLen (p : List Byte) : Bool :=
  let c := bytesAt p 1 1
  match bytesAt p 0 1 with
  | 1 => p.length == 16 + 8 * c
  | 2 => p.length == 16 + 20 * c
  | _ => p.length == 16 + 8 * c || p.length == 16 + 20 * c

/-- KIND, count and first entry within the limits of Table 11.10. -/
def routeRangeOk (kind c first : Nat) : Bool :=
  (kind == 1 && decide (1 ≤ c ∧ c ≤ 28 ∧ first + c ≤ 65536)) || (kind == 2 && decide (1 ≤ c ∧ c ≤ 11 ∧ first + c ≤ 16))

/-- R377, R430: a ring entry of five words: both pairs hold, and RING_CFG is no reserved encoding. -/
def ringEntryOk (ws : List Word) : Bool :=
  fieldPairOk (ws.getD 1 0) 16 0 16 && fieldPairOk (ws.getD 2 0) 16 0 16 && ringCfgOk ((ws.getD 0 0).toNat &&& 0x8FFF0FFF)

/-- The payload of JOB_ROUTE_SET is legal (R430). -/
def routeSetOk (r : Req) : Bool :=
  let c := r.at 1 1
  routeRangeOk (r.at 0 1) c (r.at 2 2) && r.at 4 12 == 0 &&
    (if r.at 0 1 = 1 then (List.range c).all fun i => pairOk 32 (r.at (16 + 8 * i) 4) (r.at (20 + 8 * i) 4)
     else (List.range c).all fun i => ringEntryOk (wordsFrom r.pay (16 + 20 * i) 5))

/-- A ring entry queued as five shadowed writes (R402). -/
def State.queueRing (s : State) (n : Nat) (ws : List Word) : State :=
  (List.range 5).foldl (fun s i =>
    let k := R.ringCfg n + 4 * i
    (s.queueReg k (ws.getD i 0 &&& (if i = 0 then 0x8FFF0FFF else 0xFFFFFFFF))).basic k) s

def cmdJobRouteSet : Cmd where
  op := 0x0603
  len := routeSetLen
  param _ r := routeSetOk r
  act s r :=
    let c := r.at 1 1
    let first := r.at 2 2
    (if r.at 0 1 = 1 then
       (List.range c).foldl (fun s i => (s.queueRoute (first + i) (BitVec.ofNat 64 (r.at (16 + 8 * i) 8))).basic (routeName (first + i))) s
     else (List.range c).foldl (fun s i => s.queueRing (first + i) (wordsFrom r.pay (16 + 20 * i) 5)) s, some .ok)

def cmdJobRouteGet : Cmd where
  op := 0x0604
  len := lenIs 4
  param _ r := routeRangeOk (r.at 0 1) (r.at 1 1) (r.at 2 2)
  act s r :=
    let c := r.at 1 1
    let first := r.at 2 2
    (s, some (.ok (if r.at 0 1 = 1 then (List.range c).flatMap fun i => leBytes 8 (s.route (first + i)).toNat
      else (List.range c).flatMap fun i => (List.range 5).flatMap fun j => leBytes 4 (s.regN (R.ringCfg (first + i) + 4 * j)))))

/-- A link in service that leads directly to device `d`. -/
def State.linkTo (s : State) (d : Nat) : Option Nat := (List.range 64).find? fun l => s.inService l && s.field (R.partner l) 0 16 == d

def cmdJobMeasure : Cmd where
  op := 0x0605
  len := lenIs 2
  state s r := (s.linkTo (r.at 0 2)).isSome
  act s r := ({ s with link := { s.link with measures := s.link.measures ++ [⟨r.mb, r.tag, []⟩] } }, none)

/-- The median of an even number of values: the mean of the middle two, rounded down. [DEDUCED, log entry 62] -/
def medianOf (xs : List Nat) : Nat :=
  let ys := xs.mergeSort
  (ys.getD (xs.length / 2 - 1) 0 + ys.getD (xs.length / 2) 0) / 2

/-- R82: a probe of the measurement for mailbox `mb` returned after `beats`; the 16th gives the median and posts the response. [DEDUCED, log entry 62] -/
def State.probeBack (s : State) (mb beats : Nat) : State :=
  match s.link.measures.find? (·.mb == mb) with
  | none => s
  | some m =>
    let others := s.link.measures.filter (·.mb != mb)
    let trips := m.trips ++ [beats]
    if trips.length < 16 then { s with link := { s.link with measures := others ++ [{ m with trips }] } }
    else
      let rt := medianOf trips
      { s with link := { s.link with measures := others } }.respond mb 0x0605 m.tag (.ok (leBytes 4 rt ++ leBytes 4 (rt / 2)))

/-- LINK_STATUS (R430). -/
def execLinkStatus (r : Req) (s : State) : Outcome := cmdLinkStatus.serve r s
/-- LINK_TRAIN (R406, R430). -/
def execLinkTrain (r : Req) (s : State) : Outcome := cmdLinkTrain.serve r s
/-- LINK_MARGIN (R408). -/
def execLinkMargin (r : Req) (s : State) : Outcome := cmdLinkMargin.serve r s
/-- LINK_DISABLE (R407, R430). -/
def execLinkDisable (r : Req) (s : State) : Outcome := cmdLinkDisable.serve r s
/-- LINK_ENABLE (R407, R430). -/
def execLinkEnable (r : Req) (s : State) : Outcome := cmdLinkEnable.serve r s
/-- LINK_COUNTERS (R430, R432). -/
def execLinkCounters (r : Req) (s : State) : Outcome := cmdLinkCounters.serve r s
/-- LINK_LOOPBACK (R430). -/
def execLinkLoopback (r : Req) (s : State) : Outcome := cmdLinkLoopback.serve r s
/-- JOB_SET_ID (R422). -/
def execJobSetId (r : Req) (s : State) : Outcome := cmdJobSetId.serve r s
/-- JOB_ROUTE_SET (R402, R423, R430). -/
def execJobRouteSet (r : Req) (s : State) : Outcome := cmdJobRouteSet.serve r s
/-- JOB_ROUTE_GET (R82). -/
def execJobRouteGet (r : Req) (s : State) : Outcome := cmdJobRouteGet.serve r s
/-- JOB_MEASURE (R82): the probes return by MEASURE_PROBE. -/
def execJobMeasure (r : Req) (s : State) : Outcome := cmdJobMeasure.serve r s
/-- MEASURE_PROBE (R82). -/
def execMeasureProbe (mb : Fin 16) (beats : Word) (s : State) : Outcome := .next (s.probeBack mb beats.toNat)

end Sys2Proof.Machine
end

