-- ==== Sys2Proof/Machine/LinkEvents.lean ====
section
/-!
DEFINITION. What happens on a link: training (R406), acknowledgement and retry (R413 to R416), lane swaps (R418 to R420), and whole-link loss
(R427 to R429).
-/
namespace Sys2Proof.Machine

/-! ### Training (R406) -/

/-- A training state ends, and the next begins. -/
def State.trainStep (s : State) (l a b : Nat) : State := if s.lstate l = a then s.setLstate l b else s

/-- R406: DESKEW ends in PARAM: this device's id and link number go to the partner, and an RTT_PROBE begins the measurement of RTT_ACK. A device
without an id gives 0xFFFF. [DESIGN CHOICE, log entry 73] -/
def State.enterParam (s : State) (l : Nat) : State :=
  if s.lstate l = L.deskew then ((s.setLstate l L.paramSt).emit (.param l (s.devId.getD noHalf))).sendFlit l 5 0 0 else s

/-- R419: the mapping of the receive and transmit lanes returns to that of power-on; lane spares in use are free again (R463). -/
def State.restoreLanes (s : State) (l : Nat) : State :=
  let used := b2n (s.field (R.laneMap l) 12 3 == 7) + b2n (s.linkSt l).rxSpare.isNone
  let s := { s with kept := { s.kept with spares := s.kept.spares.modify 0 (· - used) } }
  let s := s.setReg (R.laneMap l) (regReset (R.laneMap l))
  s.setLink l { s.linkSt l with rxMap := [0, 1, 2, 3], rxSpare := some 4, rxBad := false }

/-- R406, R413, R417: the link becomes ACTIVE: sequence numbers, credits and the replay buffer start afresh, and packets that wait for a path
are tried again (R424). [DEDUCED, log entry 73] -/
def State.activate (s : State) (l : Nat) (partner : Half) (plink : Nat) (allPass : Bool) : State :=
  if s.lstate l ≠ L.paramSt then s
  else
    let s := if allPass then s.restoreLanes l else s
    let x := s.linkSt l
    let s := s.setLink l { x with txSeq := 0, rxSeq := 0, replay := [], slot := 0, sent := [0, 0, 0, 0], sentCr := List.replicate 8 0, retCr := List.replicate 8 0
                                  freed := List.replicate 8 0, unacked := 0, part := [0, 0, 0, 0], lastWhole := 65535, discarding := false, await := false, nacks := 0, returns := 0 }
    let s := s.setReg (R.partner l) (word (partner.toNat + 65536 * plink))
    (s.setLstate l L.active).retryPaths

/-- R406: a state reaches its limit: back to DETECT, or, at the third return of one LINK_TRAIN, DOWN with a LINK_TRAIN_FAIL entry. SWAP's
limit passes with the lane not replaced, which takes the link DOWN (R420). [DEDUCED, log entry 73; DEDUCED, log entry 74] -/
def State.stateLimit (s : State) (l : Nat) : State :=
  let st := s.lstate l
  if st = L.swap then s.linkDown l 2
  else if L.detect ≤ st ∧ st ≤ L.paramSt then
    let x := s.linkSt l
    if x.returns + 1 < 3 then (s.setLink l { x with returns := x.returns + 1 }).setLstate l L.detect
    else ((s.setLink l { x with returns := 0 }).setLstate l L.down).log_ (srcOf 0x18 l) 0x12 (leBytes 1 st)
  else s

/-- R415, R416: the echo ends the measurement of RTT_ACK in PARAM; RTT_LIMITED sets above 163 ns. -/
def State.rttEcho (s : State) (l : Nat) (ns : Word) : State :=
  if s.lstate l = L.paramSt then
    let s := s.setReg (R.rttAck l) ns
    if 163 < ns.toNat then s.orReg (R.linkStatus l) 8 else s
  else s

/-! ### Acknowledgement and retry -/

/-- Credits as a LINK flit carries them (Table 11.6). -/
def creditsOf (cr : BitVec 96) : List Nat := (List.range 8).map fun i => bits cr (12 * i) 12

/-- LINK control flits are taken while the link is ACTIVE or in SWAP. -/
def State.linkUp (s : State) (l : Nat) : Bool := s.lstate l == L.active || s.lstate l == L.swap

/-- R413, R414, R417: an ACK frees acknowledged packets and returns credits, and what waited for either is sent; `fixed` codewords have been corrected
since the last ACK (FEC_CORRECTED). [DESIGN CHOICE, log entry 119] -/
def State.ackFlit (s : State) (l : Nat) (seq : Half) (cr : BitVec 96) (fixed : Word) : State :=
  let s := s.count (R.linkFecCorrected l) fixed.toNat
  if s.linkUp l then (s.setLink l { (s.linkSt l).ack seq.toNat with retCr := creditsOf cr }).pump l else s

/-- R414: 20 ns after the first flit not yet acknowledged. -/
def State.ackDue (s : State) (l : Nat) (begun : List Nat) : State :=
  let s := if s.lstate l = L.active then s.moreFlits l begun else s
  if s.linkUp l ∧ 0 < (s.linkSt l).unacked then s.sendAckFlit l else s

/-- R419: a completed swap is counted and logged on this device: LANE_SWAPS, SWAPPED, LANE_SWAP with the direction, and the lane spare. -/
def State.swapDone (s : State) (l dir : Nat) (w : Swap) : State :=
  let s := ((s.count (R.laneSwaps l)).orReg (R.linkStatus l) 2)
  let s := s.log_ (srcOf 0x18 l) 0x14 (leBytes 1 dir ++ leBytes 1 w.lane ++ leBytes 1 w.failed ++ leBytes 1 w.spare)
  s.spareUsed (srcOf 0x18 l) 0 w.failed w.spare

/-- R419 steps 4 and 5: the transmitter of a swap returns to ACTIVE when the NACK comes, with the new mapping in LANE_MAP. -/
def State.swapSent (s : State) (l : Nat) : State :=
  match (s.linkSt l).swap with
  | some w =>
    if w.receive then s
    else
      let s := (s.setField (R.laneMap l) (3 * w.lane) 3 w.spare).setField (R.laneMap l) 12 3 7
      let s := (s.setLink l { s.linkSt l with swap := none }).setLstate l L.active
      s.swapDone l 1 w
  | none => s

/-- R415: a NACK: its credits count, a swap of this transmitter ends, and unacknowledged flits from its sequence on are sent again. -/
def State.nackFlit (s : State) (l : Nat) (seq : Half) (cr : BitVec 96) : State :=
  if s.linkUp l then
    let s := (s.setLink l { s.linkSt l with retCr := creditsOf cr }).swapSent l
    if s.lstate l = L.active then (s.replayFrom l seq.toNat).pump l else s
  else s

/-- R415: an uncorrectable codeword, or a CRC error on a sequenced flit, which no class's seed fits (R409): it and later flits are discarded, and one
NACK goes out; while it discards, only after resent flits have come. `good` flits of packets not yet whole came before it. -/
def State.crcError (s : State) (l : Nat) (uncorr : Bool) (f : BitVec 544) (good : List Nat) : State :=
  if s.lstate l ≠ L.active ∨ (!uncorr ∧ (flitClass f).isSome) then s
  else
    let s := if uncorr then s.count (R.linkFecUncorr l) else s.count (R.crcErrors l)
    let s := s.moreFlits l good
    if (s.linkSt l).discarding then s else (s.setLink l { s.linkSt l with discarding := true, nacks := 1 }).sendNack l

/-- R415: 2 × RTT_ACK pass without a resent flit after an error or a swap: the NACK is repeated; after the eighth for one sequence the link goes DOWN. -/
def State.nackRepeat (s : State) (l : Nat) : State :=
  let x := s.linkSt l
  if s.lstate l = L.active ∧ (x.discarding ∨ x.await) then
    if x.nacks < 8 then (s.setLink l { x with nacks := x.nacks + 1 }).sendNack l else s.linkDown l 1
  else s

/-! ### Lane swaps -/

/-- R418: what the receiver finds of a lane fails it: loss of signal or of lock, more symbol errors in a window than LANE_SER_THRESH, or a vertical
margin below LANE_MARGIN_MIN in this window and the one before. -/
def State.laneBad (s : State) (lost : Bool) (errors : Word) (margin before : Half) : Bool :=
  let least := s.field R.linkThresh 16 8
  lost || decide (s.field R.linkThresh 0 16 < errors.toNat) || (decide (margin.toNat < least) && decide (before.toNat < least))

/-- R418 to R421: a receive lane fails. A spare that fails is marked unusable; a failed active lane starts a swap when the spare is free, and marks that
wait at the output go stale; any failure in SWAP, and one that the spare cannot absorb, takes the link DOWN. `begun` flits of packets not yet whole came
before it. -/
def State.laneFail (s : State) (l lane : Nat) (begun : List Nat) : State :=
  let s := if s.lstate l = L.active then s.moreFlits l begun else s
  let x := s.linkSt l
  if !s.linkUp l then s
  else if s.lstate l = L.swap then s.linkDown l 2
  else if x.rxSpare = some lane then (s.setLink l { x with rxBad := true }).orReg (R.linkStatus l) 4
  else match x.rxMap.idxOf? lane with
    | none => s
    | some i =>
      match x.rxSpare, x.rxBad with
      | some sp, false =>
        ((s.setLink l { x with swap := some { receive := true, lane := i, failed := lane, spare := sp }, queue := x.queue.map Pkt.age }).setLstate l L.swap).sendFlit l 3 0 i
      | _, _ => s.linkDown l 2

/-- R419 step 2: on LANE_SWAP the transmitter stops sequenced flits, moves the lane to the spare and sends SWAP_MARK. -/
def State.laneSwapFlit (s : State) (l lane : Nat) : State :=
  if s.lstate l = L.active ∧ s.field (R.laneMap l) 12 3 ≠ 7 then
    let w : Swap := { receive := false, lane, failed := s.field (R.laneMap l) (3 * lane) 3, spare := s.field (R.laneMap l) 12 3 }
    let x := s.linkSt l
    ((s.setLink l { x with swap := some w, queue := x.queue.map Pkt.age }).setLstate l L.swap).sendFlit l 4 0 lane
  else s.linkDown l 2

/-- R419 step 3. -/
def State.swapMark (s : State) (l lane : Nat) : State :=
  match (s.linkSt l).swap with
  | some w => if w.receive ∧ w.lane = lane then s.setLink l { s.linkSt l with swap := some { w with marked := true } } else s
  | none => s

/-- R419 step 4: after FEC lock with the spare in place the receiver is ACTIVE and sends NACK with the next sequence. -/
def State.swapLock (s : State) (l : Nat) : State :=
  let x := s.linkSt l
  match x.swap with
  | some w =>
    if s.lstate l = L.swap ∧ w.receive ∧ w.marked then
      let s := (s.setLink l { x with swap := none, rxMap := x.rxMap.set w.lane w.spare, rxSpare := none, rxBad := false, await := true, nacks := 1 }).setLstate l L.active
      ((s.sendNack l).swapDone l 0 w).pump l
    else s
  | none => s

/-! ### Whole-link loss -/

/-- A held packet that the partner has not delivered: never sent, or its last flit lies after `last` (R428). -/
def beyond (last : Nat) (e : Option Nat × Pkt) : Bool := e.1.all fun q => !seqGe last q

/-- R428, R429: the report on a loss of this device's link `l`, the oldest that it fits: the loss is reported as absorbed by routing, the packets beyond the one
named are sent again by routing, and packets that waited for that go on. -/
def State.lossReport1 (s : State) (p : Pkt) (l : Nat) : State :=
  let x := s.linkSt l
  match x.losses.find? fun y => y.dev == p.src && y.link == p.link.val with
  | some y =>
    let s := (s.setLink l { x with losses := x.losses.erase y }).spareUsed (srcOf 0x18 l) 1 l 0xFFFF
    (s.routeAll ((y.held.filter (beyond p.lastSeq.toNat)).map fun e => e.2) true).unblock
  | none => s

/-- [DEDUCED, log entry 75; DEDUCED, log entry 76] -/
def State.lossReport (s : State) (p : Pkt) : State := (List.range 64).foldl (fun s l => s.lossReport1 p l) s

/-- R429: LOSS_WAIT passes without a report while packets are held: they fail, LOSS_TIMEOUT is logged, and the job restarts. [DEDUCED, log entry 75] -/
def State.lossExpire (s : State) (l : Nat) : State :=
  let x := s.linkSt l
  match x.losses with
  | [] => s
  | y :: ys =>
    let s := s.setLink l { x with losses := ys }
    if y.held.isEmpty then s
    else
      let s := (s.orReg (R.linkStatus l) 0x10).log_ (srcOf 0x18 l) 0x16 (leBytes 2 y.dev.toNat)
      (((y.held.map (·.2)).foldl State.failPkt s).unblock).restart 0x09

/-! ### The rows -/

/-- LINK_DETECT_DONE (R406). -/
def execLinkDetectDone (l : Fin 64) (s : State) : Outcome := .next (s.trainStep l L.detect L.equalise)
/-- LINK_EQUALISE_DONE (R406). -/
def execLinkEqualiseDone (l : Fin 64) (s : State) : Outcome := .next (s.trainStep l L.equalise L.fecLock)
/-- LINK_FEC_LOCK_DONE (R406). -/
def execLinkFecLockDone (l : Fin 64) (s : State) : Outcome := .next (s.trainStep l L.fecLock L.deskew)
/-- LINK_DESKEW_DONE (R406). -/
def execLinkDeskewDone (l : Fin 64) (s : State) : Outcome := .next (s.enterParam l)
/-- LINK_PARAM_DONE (R406): the partner's device id and link, and whether every lane passed training. -/
def execLinkParamDone (l : Fin 64) (partner : Half) (plink : Byte) (allPass : Bool) (s : State) : Outcome :=
  .next (s.activate l partner plink.toNat allPass)
/-- LINK_STATE_TIMEOUT (R406). -/
def execLinkStateTimeout (l : Fin 64) (s : State) : Outcome := .next (s.stateLimit l)
/-- RTT_PROBE (R406): answered with an echo in PARAM. -/
def execRttProbe (l : Fin 64) (s : State) : Outcome := .next (if s.lstate l = L.paramSt ∨ s.linkUp l then s.sendFlit l 6 0 0 else s)
/-- RTT_ECHO (R406, R416). -/
def execRttEcho (l : Fin 64) (ns : Word) (s : State) : Outcome := .next (s.rttEcho l ns)
/-- LINK_ACK (R413, R414, R417, R432). -/
def execLinkAck (l : Fin 64) (seq : Half) (a : AckBody) (s : State) : Outcome := .next (s.ackFlit l seq a.credits a.fixed)
/-- LINK_ACK_SEND (R414). -/
def execLinkAckSend (due : AckDue) (s : State) : Outcome := .next (s.ackDue due.link due.begun)
/-- NACK (R415, R419, R421). -/
def execNack (l : Fin 64) (seq : Half) (cr : BitVec 96) (s : State) : Outcome := .next (s.nackFlit l seq cr)
/-- NACK_REPEAT (R415). -/
def execNackRepeat (l : Fin 64) (s : State) : Outcome := .next (s.nackRepeat l)
/-- FLIT_CRC_ERROR (R415): an uncorrectable codeword, or a CRC error on a sequenced flit. -/
def execFlitCrcError (l : Fin 64) (b : BadFlit) (s : State) : Outcome := .next (s.crcError l b.uncorr b.flit b.good)
/-- LANE_FAIL (R418 to R421): what the receiver finds of a physical receive lane. -/
def execLaneFail (l : Fin 64) (f : LaneFinding) (s : State) : Outcome :=
  .next (if s.laneBad f.lost f.errors f.margin f.before then s.laneFail l f.lane f.begun else s)
/-- LANE_SWAP (R419, R420). -/
def execLaneSwap (l : Fin 64) (lane : Fin 4) (s : State) : Outcome := .next (if s.linkUp l then s.laneSwapFlit l lane else s)
/-- SWAP_MARK (R419). -/
def execSwapMark (l : Fin 64) (lane : Fin 4) (s : State) : Outcome := .next (s.swapMark l lane)
/-- SWAP_LOCK_DONE (R419). -/
def execSwapLockDone (l : Fin 64) (s : State) : Outcome := .next (s.swapLock l)
/-- LINK_DOWN (R427): two or more lanes lose lock together, or the partner's transmitters stop. -/
def execLinkDown (l : Fin 64) (partnerStopped : Bool) (s : State) : Outcome := .next (s.linkDown l (if partnerStopped then 4 else 3))
/-- LOSS_REPORT (R428, R429). -/
def execLossReport (l : Fin 64) (resent : Bool) (p : Pkt) (s : State) : Outcome :=
  .next (s.arrive l resent p K.lossReport [] fun s p => s.lossReport p)
/-- LOSS_WAIT_EXPIRE (R429). -/
def execLossWaitExpire (l : Fin 64) (s : State) : Outcome := .next (s.lossExpire l)

end Sys2Proof.Machine
end

