-- ==== Sys2Proof/Machine/BktState.lean ====
section
/-!
DEFINITION. Bucket slots (R371 to R375) and what an SD write does to them (R373, R375).
-/
namespace Sys2Proof.Machine

def State.setBucket (s : State) (b : Nat) (x : Slot) : State := { s with bkt := { s.bkt with slots := Sparse.put {} s.bkt.slots b x } }

def State.setBucketState (s : State) (b st : Nat) : State := s.setField (R.bktState (b / 16)) (2 * (b % 16)) 2 st

/-- The flag of slot `b`, in BKT_FLAGS: the local flag while OPEN, the final flag once DONE. -/
def State.bucketFlag (s : State) (b : Nat) : Bool := bit (s.reg (if b < 32 then R.bktFlagsLo else R.bktFlagsHi)) (b % 32)

def State.setBucketFlag (s : State) (b : Nat) (v : Bool) : State :=
  s.setField (if b < 32 then R.bktFlagsLo else R.bktFlagsHi) (b % 32) 1 (b2n v)

/-- A word encodes an FP32 NaN or infinity. -/
def nonFinite (w : Word) : Bool := !(wval w).finite

/-- The FP32 words that bytes spell, least significant byte first. -/
def wordsOf (bs : List Byte) : List Word := (List.range (bs.length / 4)).map fun i => word (bytesAt bs (4 * i) 4)

/-- The bytes of words. -/
def bytesOf (ws : List Word) : List Byte := (ws.map fun w => leBytes 4 w.toNat).flatten

/-- The part of a write at `a` that lies in the range of `n` bytes from `lo`, cut to whole 32-bit words. -/
def overlap (lo n a : Nat) (bs : List Byte) : List Byte :=
  let first := (max lo a + 3) / 4 * 4
  let last := min (lo + n) (a + bs.length) / 4 * 4
  (bs.drop (first - a)).take (last - first)

/-- What an SD write does to slot `b`: a non-finite word written into an OPEN bucket sets its local flag (R373); a write into the range of a
launched bucket raises BKT_LATE (R375). [DEDUCED, log entry 93] -/
def State.slotWrite (s : State) (core : Nat) (tag : Half) (a : Nat) (bs : List Byte) (b : Nat) : State :=
  let x := s.bucket b
  if bs.isEmpty ∨ x.base + x.size ≤ a ∨ a + bs.length ≤ x.base then s
  else
    let st := s.bucketState b
    if st = Bk.opened then (if (wordsOf (overlap x.base x.size a bs)).any nonFinite then s.setBucketFlag b true else s)
    else if st = Bk.reducing ∨ st = Bk.done then s.bktError 6 b core tag 0xFFFF
    else s

/-- A write of an SD of this device: the bytes, and their effect on the bucket slots in use. [DEDUCED, log entry 93] -/
def State.sdStore (s : State) (core : Nat) (tag : Half) (a : Nat) (bs : List Byte) : State :=
  (s.bkt.slots.map (·.1)).foldl (fun s b => s.slotWrite core tag a bs b) (s.store a bs)

end Sys2Proof.Machine
end

