-- ==== Sys2Proof/Machine/Stream.lean ====
section
/-!
DEFINITION. The stream engine (R231 to R238, R241, R243 to R249, R251): operations formed from an SD, staging, writes, and what the end of
an operation does. An operation's effect on memory is taken where it is issued, so that the operations of one core on one line keep
their order (R221, R225); its end is the command that reports it.
-/
namespace Sys2Proof.Machine

/-! ### SD fields (Table 6.12) -/

def sdSrc (d : Desc) : Nat := bits d 464 48
def sdDst (d : Desc) : Nat := bits d 416 48
def sdLen (d : Desc) : Nat := bits d 384 32
def sdRows (d : Desc) : Nat := bits d 368 16
def sdSrcPitch (d : Desc) : Nat := bits d 336 32
def sdDstPitch (d : Desc) : Nat := bits d 304 32
def sdSrcDev (d : Desc) : Half := BitVec.ofNat 16 (bits d 288 16)
def sdDstDev (d : Desc) : Half := BitVec.ofNat 16 (bits d 272 16)
def sdVc (d : Desc) : Nat := bits d 211 2
def sdRa (d : Desc) : Bool := bit d 210
def sdDstRemote (d : Desc) : Bool := bit d 209
def sdSrcRemote (d : Desc) : Bool := bit d 208

/-- Table 6.13. -/
def sdOpSize (d : Desc) : Nat := 64 * 2 ^ bits d 205 3

/-- R252: the complement pairs of an SD hold. -/
def sdPairsOk (d : Desc) : Bool := fieldPairOk d 8 208 216 && fieldPairOk d 16 272 256 && fieldPairOk d 8 0 8

/-! ### RLD fields (Table 5.9) -/

def rSrc (d : Desc) : Nat := bits d 464 48
def rCount (d : Desc) : Nat := bits d 432 32
def rTile (d : Desc) : Nat := bits d 400 32
def rVec (d : Desc) : Nat := bits d 384 16
def rMxs (d : Desc) : Nat := bits d 336 48
def rLand (d : Desc) : Nat := bits d 317 19
def rLandStride (d : Desc) : Nat := bits d 305 12
def rInterval (d : Desc) : Nat := bits d 301 4
def rFmt (d : Desc) : Nat := bits d 293 4
def rTurn (d : Desc) : Bool := bit d 292
def rRa (d : Desc) : Bool := bit d 291
def rQuad (d : Desc) : Bool := bit d 290
def rStream (d : Desc) : Nat := bits d 289 1
def rRole (d : Desc) : Nat := bits d 286 3
def rSetSize (d : Desc) : Nat := bits d 280 3
def rSetBase (d : Desc) : Nat := bits d 273 4

/-- Table 5.4: a head; a role that uses each vector; into the array, or into local store. -/
def rHead (d : Desc) : Bool := decide (4 ≤ rRole d)
def rUses (d : Desc) : Bool := rRole d % 4 != 0
def rArray (d : Desc) : Bool := rRole d % 4 == 1
def rLands (d : Desc) : Bool := rRole d % 4 == 2

/-- R12: the complement pairs of an RLD hold. -/
def rldPairsOk (d : Desc) : Bool :=
  hdrOk d && fieldPairOk d 4 293 297 && fieldPairOk d 3 286 283 && fieldPairOk d 3 280 277 && fieldPairOk d 4 273 269

/-- Data bytes of a vector of the stream; a vector of FP32 is 256 bytes (R126). -/
def rSize (d : Desc) : Nat := vecSize (rFmt d) (rQuad d)
def rScales (d : Desc) : Nat := vecScales (rFmt d) (rQuad d)

/-! ### Reads -/

/-- The next operation that an SD reads (R251): source and destination address and length; none when all have been read, or it has failed. [DEDUCED, log entry 80] -/
def SdRun.nextRead (r : SdRun) : Option (Nat × Nat × Nat) :=
  let d := r.desc
  if r.failed ∨ r.skip ∨ sdRows d ≤ r.row ∨ sdLen d = 0 then none
  else
    let src := sdSrc d + r.row * sdSrcPitch d + r.off
    let n := min (sdOpSize d - src % sdOpSize d) (sdLen d - r.off)
    some (src, sdDst d + r.row * sdDstPitch d + r.off, n)

/-- The SD after it has read `n` more bytes of its row. -/
def SdRun.advance (r : SdRun) (n : Nat) : SdRun :=
  if sdLen r.desc ≤ r.off + n then { r with row := r.row + 1, off := 0 } else { r with off := r.off + n }

/-- Staging space a core uses: data staged, and data of reads in flight (R241, R244). -/
def State.stagingUsed (s : State) (core : Nat) : Nat :=
  ((s.str.sds.filter (·.own.core == core)).foldl (fun n r => n + stagedBytes r.staged) 0)
    + ((s.opsOf core).filter (fun o => !o.write && (s.sdRun o.own).isSome)).foldl (fun n o => n + o.len) 0

/-- The 64 KiB staging buffer has room for `n` bytes. -/
def State.stagingFits (s : State) (core n : Nat) : Bool := decide (s.stagingUsed core + n ≤ 65536)

/-- R244: the engine has a free operation slot; at most 32 of its 64 may be provisional. -/
def State.slotFree (s : State) (core : Nat) (prov : Bool) : Bool :=
  decide ((s.opsOf core).length < 64) && (!prov || decide (((s.opsOf core).filter (·.prov)).length < 32))

/-- A packet that carries a memory operation of this device (R410, R411). -/
def opPacket (kind : Fin 16) (o : MemOp) (dev : Half) (vc : Nat) : Pkt :=
  { kind, flits := if kind = K.write then Fin.ofNat 128 (cdiv o.len 64) else 0, dst := dev, vc := Fin.ofNat 4 vc, addr := BitVec.ofNat 48 o.addr
    len := o.len, op := o.id, data := if kind = K.write then padBytes (64 * cdiv o.len 64) o.data else [] }

/-- A remote operation leaves as a packet; without an id or a path it completes with an error at once (R238, R422, R424). -/
def State.sendRemote (s : State) (o : MemOp) (kind : Fin 16) (vc : Nat) : State :=
  match o.dev with
  | none => s
  | some dev =>
    let p := opPacket kind { o with id := s.str.nextOp - 1 } dev vc
    if s.devId.isNone then (s.checkId.opUnreachable { o with id := s.str.nextOp - 1 })
    else if s.noRoute p then (s.checkRoute dev.toNat).opUnreachable { o with id := s.str.nextOp - 1 }
    else s.originate p

/-- The read of an SD's next operation is issued: a local one takes its data as it stands now. -/
def State.issueRead (s : State) (r : SdRun) (src dst n : Nat) : State :=
  let dev := if sdSrcRemote r.desc then some (sdSrcDev r.desc) else none
  let o : MemOp := { id := 0, own := r.own, write := false, addr := src, len := n, dst, dev, data := if dev.isSome then [] else s.bytes src n
                     prov := r.entry.isNone }
  ((s.setSd (r.advance n)).startOp o).sendRemote o K.readReq (sdVc r.desc)

/-! ### Heads (R185, R195, R208, R232) -/

/-- Rows of a tile that a TURN head reads, which is also the columns it emits of it. -/
def turnDepth (d : Desc) : Nat := if rQuad d then 128 else 64

/-- Units that a head reads: vectors, or rows of whole tiles. -/
def headUnits (d : Desc) : Nat := if rTurn d then cdiv (rCount d) (turnDepth d) * turnDepth d else rCount d

/-- Address of unit `u` (R208). -/
def unitAddr (d : Desc) (u : Nat) : Nat :=
  let k := if rTurn d then turnDepth d else 64
  rSrc d + (u % k) * rVec d + (u / k) * rTile d

/-- Length of the run of bytes at position `pos` of the stream that is contiguous, up to `room` bytes. -/
def runLen (d : Desc) (pos room : Nat) : Nat → Nat
  | 0 => 0
  | n + 1 =>
    let sz := rSize d
    let left := sz - pos % sz
    let u := pos / sz
    if room ≤ left then room
    else if headUnits d ≤ u + 1 ∨ unitAddr d (u + 1) ≠ unitAddr d u + sz then left
    else left + runLen d (pos + left) (room - left) n

/-- The next operation of a head (R232): address and length, within a 4 KiB block. -/
def HeadRun.nextRead (h : HeadRun) : Option (Nat × Nat) :=
  let sz := rSize h.desc
  if !h.errs.isEmpty || sz == 0 || decide (headUnits h.desc * sz ≤ h.pos) then none
  else
    let a := unitAddr h.desc (h.pos / sz) + h.pos % sz
    some (a, runLen h.desc h.pos (4096 - a % 4096) 512)

/-- Bytes that a head has read or is reading and has not injected. -/
def HeadRun.held (h : HeadRun) : Nat := h.reads.foldl (fun n x => n + x.2.1) 0 + h.buf.length + vecBytes h.ready

def State.setHead (s : State) (h : HeadRun) : State :=
  { s with str := { s.str with heads := s.str.heads.map fun x => if x.own == h.own then h else x } }

/-- The engine that a head gives its next operation: in a quadrille the four in turn (R232). -/
def State.headEngine (s : State) (h : HeadRun) : Nat :=
  if rQuad h.desc then h.own.core + [0, 1, 4, 5].getD ((s.port h.own.core (rStream h.desc)).turn % 4) 0 else h.own.core

/-- The next read of a head, if what it holds stays within 64 KiB. -/
def HeadRun.wants (h : HeadRun) : Option (Nat × Nat) := h.nextRead.bind fun x => if h.held + x.2 ≤ 65536 then some x else none

/-- The engines that a head reads its stream through (R232). -/
def HeadRun.engines (h : HeadRun) : List Nat := if rQuad h.desc then [0, 1, 4, 5].map (h.own.core + ·) else [h.own.core]

/-- A head issues its next read, when the engine whose turn it is has a free slot. -/
def State.headRead (s : State) (h : HeadRun) : Option State :=
  match h.wants with
  | some (a, n) =>
    let e := s.headEngine h
    if s.slotFree e h.prov then
      let o : MemOp := { id := 0, own := h.own, write := false, addr := a, len := n, data := s.bytes a n, prov := h.prov
                         eng := if rQuad h.desc then some e else none }
      let s' := s.setHead { h with pos := h.pos + n, reads := h.reads ++ [(s.str.nextOp, n, none)] }
      let p := s'.port h.own.core (rStream h.desc)
      some ((s'.setPort h.own.core (rStream h.desc) { p with turn := p.turn + 1 }).startOp o)
    else none
  | none => none

/-- A head that the engine of `core` reads for, committed or ahead, issues its next read on the engine whose turn it is. -/
def State.headReadStep (s : State) (core : Nat) (prov : Bool) : Option State :=
  (s.str.heads.filter fun h => h.prov == prov && h.engines.contains core).findSome? s.headRead

/-! ### Writes -/

/-- R241: the descriptor that FREE_SEQ names has completed, and the SD has issued. -/
def State.mayWrite (s : State) (r : SdRun) : Bool :=
  r.entry.isSome && !r.failed &&
    (match s.dlist r.own.core r.own.list with
      | some l => l.freed (sdFree r.desc)
      | none => true)

/-- The address lies in the core's own local-store window (R214, R235). -/
def ownStore (core a : Nat) : Bool := decide (lsAddr core 0 ≤ a ∧ a < lsAddr core 0 + 2 ^ 19)

/-- The next write of an SD's staged data: up to a 4 KiB boundary of the destination (R231), and what then stays staged. -/
def SdRun.nextWrite (r : SdRun) : Option (Nat × List Byte × List (Nat × List Byte)) :=
  match r.staged with
  | [] => none
  | (a, bs) :: rest =>
    let n := 4096 - a % 4096
    if bs.length ≤ n then some (a, bs, rest) else some (a, bs.take n, (a + n, bs.drop n) :: rest)

/-- A write of staged data: into the core's own local store at once; to any other target as an operation, which is acknowledged later. [DEDUCED, log entry 80] -/
def State.issueWrite (s : State) (r : SdRun) (a : Nat) (bs : List Byte) (rest : List (Nat × List Byte)) : State :=
  let s := s.setSd { r with staged := rest }
  if sdDstRemote r.desc then
    let o : MemOp := { id := 0, own := r.own, write := true, addr := a, len := bs.length, dev := some (sdDstDev r.desc), data := bs }
    (s.startOp o).sendRemote o K.write (sdVc r.desc)
  else if ownStore r.own.core a then s.store a bs
  else (s.startOp { id := 0, own := r.own, write := true, addr := a, len := bs.length }).sdStore r.own.core (s.tagOf r.own) a bs

/-! ### The engine's choice (R237) -/

/-- What an SD can do next: write staged data, or read; `none` when it waits or is done. -/
def State.sdAction (s : State) (r : SdRun) : Option State :=
  let c := r.own.core
  match r.nextWrite with
  | some (a, bs, rest) =>
    if s.mayWrite r && (s.slotFree c false || (!sdDstRemote r.desc && ownStore c a)) then some (s.issueWrite r a bs rest)
    else match r.nextRead with
      | some (src, dst, n) => if s.slotFree c r.entry.isNone && s.stagingFits c n then some (s.issueRead r src dst n) else none
      | none => none
  | none =>
    match r.nextRead with
    | some (src, dst, n) => if s.slotFree c r.entry.isNone && s.stagingFits c n then some (s.issueRead r src dst n) else none
    | none => none

/-- The first SD of a list that can do something. -/
def State.firstAction (s : State) (rs : List SdRun) : Option State := rs.findSome? s.sdAction

/-- The SD has started. -/
def SdRun.started (r : SdRun) : Bool := r.row != 0 || r.off != 0 || r.failed || r.skip

/-- R237: the SDs of a queue that have started, and the next in arming order. -/
def inTurn (rs : List SdRun) : List SdRun := rs.filter (·.started) ++ (rs.filter fun r => !r.started).take 1

/-- The queue of an armed SD. -/
def SdRun.inQueue (r : SdRun) (core q : Nat) : Bool := r.own.core == core && r.entry.isSome && sdQueue r.desc == q

/-- The queue that is served next: the first from the one after the last served that has something to do (R237). -/
def State.queueAction (s : State) (core : Nat) : Option State :=
  let q0 := Sparse.get 0 s.str.serve core
  (List.range 4).findSome? fun i =>
    let q := (q0 + i) % 4
    (s.firstAction (inTurn (s.str.sds.filter (·.inQueue core q)))).map fun s' =>
      { s' with str := { s'.str with serve := Sparse.put 0 s'.str.serve core ((q + 1) % 4) } }

/-- The core's most recently started run-ahead, of an SD or of a head, is cancelled (Table 6.11). -/
def State.cancelLast (s : State) (core : Nat) : Option State :=
  let sds := (s.str.sds.filter fun r => r.own.core == core && r.entry.isNone).map fun r => (r.born, fun (s : State) => s.cancelSd r)
  let heads := (s.str.heads.filter fun h => h.own.core == core && h.prov).map fun h => (h.born, fun (s : State) => s.cancelHead h)
  let all := sds ++ heads
  let last := all.foldl (fun m x => max m x.1) 0
  (all.find? (·.1 == last)).map fun x => x.2 s

/-- R247: a committed read that finds no staging space reclaims it from the core's most recently started run-ahead. -/
def State.reclaim (s : State) (core : Nat) : Option State :=
  let wants := s.str.sds.any fun r => r.own.core == core && r.entry.isSome &&
    (match r.nextRead with
     | some (_, _, n) => s.slotFree core false && !s.stagingFits core n
     | none => false)
  if wants then s.cancelLast core else none

/-- R244: nothing committed of the core waits for a slot or for staging space. -/
def State.noneWaits (s : State) (core : Nat) : Bool :=
  (s.str.sds.all fun r => r.own.core != core || r.entry.isNone ||
    (match r.nextRead with
     | some (_, _, n) => s.slotFree core false && s.stagingFits core n
     | none => true))
    && (s.str.heads.all fun h => h.prov || s.headEngine h != core || h.wants.isNone || s.slotFree core false)
    && (s.shelf.runs.all fun x => x.own.core != core || x.pieces.isEmpty)
    && s.shelf.chunks.all fun x => x.core != core || x.pieces.isEmpty

/-- One thing that the engine of `core` does next: committed work of SDs and heads first, then a reclaim of staging space for it, then run-aheads
(R244). [DEDUCED, log entry 80] -/
def State.engineAction (s : State) (core : Nat) : Option State :=
  (s.queueAction core) <|> (s.headReadStep core false) <|> (s.reclaim core)
    <|> (if s.noneWaits core then (s.firstAction (s.str.sds.filter fun r => r.own.core == core && r.entry.isNone)) <|> (s.headReadStep core true) else none)

/-- The engine of `core` goes on until nothing can be done; `n` bounds the steps. -/
def State.pumpCoreN (s : State) (core : Nat) : Nat → State
  | 0 => s
  | n + 1 =>
    match s.engineAction core with
    | some s' => s'.pumpCoreN core n
    | none => s

/-- 64 slots and 2,048 staged units bound what the engine can do at once. -/
def State.pumpCore (s : State) (core : Nat) : State := s.pumpCoreN core 8192

/-! ### Arming and completion -/

def State.setOwnBit (s : State) (core q e : Nat) (v : Bool) : State :=
  s.setField (R.queueOwnLo core + 4 * (q / 2)) (16 * (q % 2) + e) 1 (b2n v)

def State.retrying (s : State) (core num : Nat) : Bool := s.str.retry.contains (core, num)

/-- R236: an arm into an entry whose OWN is set: REARM_EARLY, REARM_WAITS, and the arm is repeated. -/
def State.armRejected (s : State) (core num q : Nat) : State :=
  let s := (s.orReg (R.streamStatus core) (2 ^ q)).count (R.rearmWaits core)
  if s.retrying core num then s else { s with str := { s.str with retry := s.str.retry ++ [(core, num)] } }

/-- Bytes that an SD moves, in units of 64. -/
def sdUnits (d : Desc) : Nat := cdiv (sdLen d * sdRows d) 64

/-- R235: an accepted arm: OWN sets, and the SD starts, or its run-ahead is committed (R245). An SD with LEN 0 completes at arming. An error
that the run-ahead held is now reported (R249) and handled by `bad`, by core and address. -/
def State.arm (s : State) (l : DList) (d : Desc) (bad : Nat → Nat → State → State) : State :=
  let core := l.core
  let q := sdQueue d
  let e := s.tailOf core q
  let r := l.ref
  let s := { s with str := { s.str with tail := Sparse.put 0 s.str.tail (4 * core + q) ((e + 1) % 16)
                                        retry := s.str.retry.filter (· != (core, l.num)) } }
  let s := s.issue l
  if sdLen d = 0 then s.descDone r
  else
    let s := s.setOwnBit core q e true
    if l.complete (sdFree d) && l.skipFree (sdFree d) then
      -- R348: it writes nothing, and its run-ahead is cancelled
      let s := (s.str.sds.filter (·.own == r)).foldl State.cancelSd s
      { s with str := { s.str with sds := s.str.sds ++ [({ own := r, desc := d, entry := some e, skip := true } : SdRun)] } }.pumpCore core
    else
    match s.sdRun r with
    | some ra =>
      -- it takes its place in arming order (R237)
      let s := (s.count (R.raCommitted core)).dropSd r
      let s := { s with str := { s.str with sds := s.str.sds ++ [({ ra with entry := some e, failed := !ra.errs.isEmpty } : SdRun)] } }
      let s := { s with str := { s.str with ops := s.str.ops.map fun (o : MemOp) => if o.own == r then { o with prov := false } else o } }
      match ra.errs with
      | a :: _ => ra.errs.foldl (fun s x => bad core x s) (s.streamErr r a)
      | [] => s.pumpCore core
    | none =>
      { s with str := { s.str with sds := s.str.sds ++ [({ own := r, desc := d, entry := some e } : SdRun)] } }.pumpCore core

/-- An SD in its list's turn is armed, or its arm is rejected (R235, R236). -/
def State.tryArm (s : State) (l : DList) (d : Desc) (bad : Nat → Nat → State → State) : State :=
  if !sdPairsOk d then s.descFault l.core
  else if s.ownBit l.core (sdQueue d) (s.tailOf l.core (sdQueue d)) then s.armRejected l.core l.num (sdQueue d)
  else s.arm l d bad

/-- Every operation of an SD has been read, written and acknowledged; after a failure, its operations in flight have ended. -/
def State.sdFinished (s : State) (r : SdRun) : Bool :=
  !(s.str.ops.any (·.own == r.own)) && (r.failed || r.skip || (decide (sdRows r.desc ≤ r.row) && r.staged.isEmpty))

/-- R235, R237, R238: the last completion of an SD is acknowledged: OWN clears, with LOG a DESC_DONE entry is written, and unless it failed what it
feeds may go on. [DEDUCED, log entry 80] -/
def State.sdComplete (s : State) (r : SdRun) : State :=
  match r.entry with
  | none => s
  | some e =>
    if s.sdFinished r then
      let s := s.setOwnBit r.own.core (sdQueue r.desc) e false
      let s := s.dropSd r.own
      if r.failed then s.logDone r.own
      else ((if r.skip then s else s.count (R.bytesMoved r.own.core) (sdUnits r.desc)).descDone r.own).pumpCore r.own.core
    else s

/-- R348: when a gated operation of a skipped step completes, an armed SD that its FREE_SEQ names it writes nothing, and a run-ahead of one is
cancelled. -/
def State.skipWaiters (s : State) (r : DescRef) : State :=
  let waits := fun (x : SdRun) => x.own.core == r.core && x.own.list == r.list && sdFree x.desc == r.idx
  let s := (s.str.sds.filter fun x => x.entry.isNone && waits x).foldl State.cancelSd s
  { s with str := { s.str with sds := s.str.sds.map fun x => if waits x then { x with skip := true, staged := [] } else x } }

/-! ### The end of an operation -/

/-- An SD operation ends well: the data of a read is staged; then the engine goes on. The data of a cancelled operation is discarded
(R247). [DEDUCED, log entry 80] -/
def State.opEnds (s : State) (o : MemOp) (data : List Byte) : State :=
  let s := s.endOp o.id
  if o.gone then (s.count (R.raDiscardBytes o.own.core) (cdiv o.len 64)).pumpCore o.own.core
  else match s.sdRun o.own with
    | some r => (if o.write || r.skip then s else s.setSd { r with staged := r.staged ++ [(o.dst, data)] }).pumpCore o.own.core
    | none => s.pumpCore o.own.core

/-- An SD operation ends with an error at `a` (an address, and above it 1 for a failed address check) that `handle` treats (R238, R249): a
provisional one is held, or, once cancelled, counted; a committed one completes its SD with an error, once. [DEDUCED, log entry 80] -/
def State.opFails (s : State) (o : MemOp) (a : Nat) (handle : State → State) : State :=
  let s := s.endOp o.id
  if o.gone then (s.count (R.raErrors o.own.core)).pumpCore o.own.core
  else match s.sdRun o.own with
    | some r =>
      let r' := { r with errs := r.errs ++ [a] }
      if r.entry.isNone then s.setSd { r' with row := 65536 }
      else if r.failed then handle (s.setSd r')
      else handle ((s.setSd { r' with failed := true }).streamErr o.own a)
    | none => handle s

/-! ### Run-ahead (R243) -/

/-- R243: the descriptor of index `i` may run ahead: RA_EN, within RA_DEPTH of the issue point, and not started. -/
def State.mayRunAhead (s : State) (l : DList) (i : Nat) : Bool :=
  bit (s.reg (R.streamCtrl l.core)) 0 && decide (l.issued ≤ i ∧ i < l.issued + s.field (R.streamCtrl l.core) 4 4)
    && !s.noIssue l.core && (s.sdRun ⟨l.core, l.num, i⟩).isNone && !(s.str.heads.any fun h => h.own == ⟨l.core, l.num, i⟩)

/-- A run-ahead starts: it is counted and numbered. -/
def State.raStart (s : State) (core : Nat) : Nat × State :=
  let s := s.count (R.raStarted core)
  (s.str.nextRa, { s with str := { s.str with nextRa := s.str.nextRa + 1 } })

/-- An SD starts before it issues. -/
def State.sdAhead (s : State) (l : DList) (i : Nat) (d : Desc) : State :=
  if sdRa d && !sdSrcRemote d && s.mayRunAhead l i && s.noneWaits l.core && decide (sdLen d ≠ 0) then
    let (n, s) := s.raStart l.core
    { s with str := { s.str with sds := s.str.sds ++ [({ own := ⟨l.core, l.num, i⟩, desc := d, entry := none, born := n } : SdRun)] } }.pumpCore l.core
  else s

end Sys2Proof.Machine
end

