-- ==== Sys2Proof/Machine/Shelf.lean ====
section
/-!
DEFINITION. The Shelf (chapter 8): frame records, chunks and their moves, pushes and pops.
-/
namespace Sys2Proof.Machine

/-! ### SHF fields (Table 8.9) -/

def hFrameOff (d : Desc) : Nat := bits d 472 40
def hFrameVecs (d : Desc) : Nat := bits d 440 32
def hVecOff (d : Desc) : Nat := bits d 408 32
def hCount (d : Desc) : Nat := bits d 392 16 + 2 ^ 16 * bits d 156 16
def hLsAddr (d : Desc) : Nat := bits d 373 19
def hLsStride (d : Desc) : Nat := bits d 361 12
def hMxs (d : Desc) : Nat := bits d 342 19
def hTag (d : Desc) : Nat := bits d 310 16
def hSlope (d : Desc) : Word := BitVec.ofNat 32 (bits d 278 32)
def hLayer (d : Desc) : Nat := bits d 268 10
def hDepth (d : Desc) : Nat := bits d 258 10
def hShelf (d : Desc) : Nat := bits d 248 5
def hParties (d : Desc) : Nat := bits d 239 9
def hScaleRec (d : Desc) : Nat := bits d 229 10
def hScaleEn (d : Desc) : Bool := bit d 228
def hSfmt (d : Desc) : Nat := bits d 220 4
def hNarrow (d : Desc) : Nat := bits d 216 2
def hDfunc (d : Desc) : Nat := bits d 212 4
def hDmode (d : Desc) : Nat := bits d 210 2
def hFinal (d : Desc) : Bool := bit d 209
def hPop (d : Desc) : Bool := bits d 204 2 == 1

/-- R12: the complement pairs of an SHF hold. -/
def shfPairsOk (d : Desc) : Bool :=
  hdrOk d && fieldPairOk d 16 310 326 && fieldPairOk d 5 248 253 && fieldPairOk d 4 220 224 && fieldPairOk d 2 216 218 && fieldPairOk d 2 204 206

/-! ### Sizes (R311, R316, Table 8.2) -/

/-- The stored format of a frame. -/
def storedFmt (sfmt narrow : Nat) : Nat := match narrow with | 1 => Fm.bf16 | 2 => Fm.mx8e4 | _ => sfmt

/-- Elements of a Shelf vector. -/
def shelfElems (f : Nat) : Nat := if f = Fm.mx4 then 128 else 64

/-- Data and scale bytes of a Shelf vector. -/
def shelfData (f : Nat) : Nat := shelfElems f * elemBits f / 8
def shelfScales (f : Nat) : Nat := if isMx f then shelfElems f / 32 else 0

/-- Stored size of a frame: its vectors, then its scale plane, in whole 4,096 bytes. -/
def frameSize (f vecs : Nat) : Nat := cdiv (vecs * (shelfData f + shelfScales f)) 4096 * 4096

/-! ### Frame records (Table 8.12) -/

def State.setFrame (s : State) (shelf depth : Nat) (r : BitVec 256) : State :=
  { s with shelf := { s.shelf with frames := Sparse.put frameEmpty s.shelf.frames (frameKey shelf depth) r } }

def fOff (r : BitVec 256) : Nat := bits r 216 40
def fVecs (r : BitVec 256) : Nat := bits r 184 32
def fTag (r : BitVec 256) : Nat := bits r 152 16
def fScale (r : BitVec 256) : Word := BitVec.ofNat 32 (bits r 120 32)
def fScaleRec (r : BitVec 256) : Nat := bits r 110 10
def fScaleEn (r : BitVec 256) : Bool := bit r 109
def fWriters (r : BitVec 256) : Nat := bits r 100 9
def fReaders (r : BitVec 256) : Nat := bits r 91 9
def fReadersSet (r : BitVec 256) : Bool := bit r 90
def fLayer (r : BitVec 256) : Nat := bits r 80 10
def fSfmt (r : BitVec 256) : Nat := bits r 76 4
def fNarrow (r : BitVec 256) : Nat := bits r 74 2
/-- 0 EMPTY, 1 FILLING, 2 SEALED. -/
def fState (r : BitVec 256) : Nat := bits r 72 2
def fCreateBeat (r : BitVec 256) : Int := (BitVec.ofNat 64 (bits r 0 64)).toInt

/-- Bytes of stack space that a frame occupies. -/
def fSize (r : BitVec 256) : Nat := frameSize (storedFmt (fSfmt r) (fNarrow r)) (fVecs r)

/-- The record that the first push creates (R318); SCALE keeps what the core resolved (R321). [DEDUCED, log entry 88] -/
def State.newFrame (s : State) (core : Nat) (d : Desc) : BitVec 256 :=
  let scale := if hScaleEn d then s.scaleCopy core (hScaleRec d) else 0
  let put := fun (r : BitVec 256) (f : Nat × Nat × Nat) => setBits r f.1 f.2.1 f.2.2
  [(216, 40, hFrameOff d), (184, 32, hFrameVecs d), (168, 16, 0xFFFF - hTag d), (152, 16, hTag d), (120, 32, scale.toNat),
   (110, 10, hScaleRec d), (109, 1, b2n (hScaleEn d)), (100, 9, hParties d), (80, 10, hLayer d), (76, 4, hSfmt d),
   (74, 2, hNarrow d), (72, 2, 1), (64, 8, core), (0, 64, (BitVec.ofInt 64 s.groupBeat).toNat)].foldl put 0

/-- Live frames of a Shelf: depth and record. -/
def State.liveFrames (s : State) (shelf : Nat) : List (Nat × BitVec 256) :=
  (s.shelf.frames.filter fun e => e.1 / 1024 == shelf && fState e.2 != 0).map fun e => (e.1 % 1024, e.2)

/-- R310: a new frame keeps the order of offsets by depth, overlaps none, and ends within 64 GiB. -/
def State.layoutOk (s : State) (d : Desc) : Bool :=
  let size := frameSize (storedFmt (hSfmt d) (hNarrow d)) (hFrameVecs d)
  decide (hFrameOff d + size ≤ 2 ^ 36) && (s.liveFrames (hShelf d)).all fun (depth, r) =>
    if depth < hDepth d then decide (fOff r < hFrameOff d ∧ fOff r + fSize r ≤ hFrameOff d)
    else decide (hFrameOff d < fOff r ∧ hFrameOff d + size ≤ fOff r)

/-! ### Chunks (R312 to R314) -/

/-- Device address of a chunk's place. -/
def State.chunkAddr (s : State) (shelf pool num : Nat) : Nat :=
  match pool with
  | 0 => sliceBase + (s.regN R.shelfTopBase + shelf) * 2 ^ 23 + num * 2 ^ 20
  | 1 => s.reg64 R.shelfBodyBaseLo R.shelfBodyBaseHi + num * 2 ^ 20
  | _ => s.reg64 R.shelfSpillBaseLo R.shelfSpillBaseHi + num * 2 ^ 20

/-- The chunk that backs 1 MiB `idx` of a Shelf's stack space. -/
def State.chunkAt (s : State) (shelf idx : Nat) : Option Chunk :=
  s.shelf.chunks.find? fun c => c.shelf == shelf && c.idx == idx && !c.freed

/-- The lowest number below `limit` that no chunk of the pool holds; in the top chunks, of the Shelf. -/
def State.freeNum (s : State) (shelf pool limit : Nat) : Option Nat :=
  let used := sortDedup ((s.shelf.chunks.filter fun c => c.pool == pool && (pool != 0 || c.shelf == shelf)).map (·.num))
  let n := (used.zipIdx.takeWhile fun (u, i) => u == i).length
  if n < limit then some n else none

/-- A place in the body pool, or else in the spill pool. -/
def State.lowerPlace (s : State) (shelf : Nat) : Option (Nat × Nat) :=
  match s.freeNum shelf 1 (1024 * s.regN R.shelfLimit) with
  | some n => some (1, n)
  | none => (s.freeNum shelf 2 (1024 * s.regN R.shelfSpillSize)).map fun n => (2, n)

/-- HBM_CHUNKS, its peak, and SPILL_CHUNKS follow the chunk map. -/
def State.countChunks (s : State) : State :=
  let n := (s.shelf.chunks.filter (·.pool == 1)).length
  let s := s.setReg R.hbmChunks (word n)
  let s := if s.regN R.hbmChunksPeak < n then s.setReg R.hbmChunksPeak (word n) else s
  s.setReg R.spillChunks (word (s.shelf.chunks.filter (·.pool == 2)).length)

/-- R312: a first allocation from the spill pool sets SPILLED; each counts. -/
def State.spilled (s : State) (pool : Nat) : State := if pool = 2 then (s.orReg R.shelfStatus 2).count R.spillAllocs else s

/-- `n` bytes copied from `a` to `b`, which does not overlap. -/
def State.copyRange (s : State) (a b n : Nat) : State :=
  let from_ := s.mem.filter fun c => decide (a ≤ c.1 ∧ c.1 < a + n)
  let cleared := s.mem.filter fun c => !decide (b ≤ c.1 ∧ c.1 < b + n)
  (({ s with mem := from_.foldl (fun m c => Memory.put m (c.1 - a + b) c.2) cleared } : State).freshCheck b n).markDirty b n

/-- R313: a chunk moves to another place, by the engine of `core`: its bytes, and the map; accesses to it wait until the move ends, whose operations of
4 KiB take the slots of the core. [DEDUCED, log entry 89] -/
def State.moveChunk (s : State) (core : Nat) (c : Chunk) (pool num : Nat) : State :=
  let a := s.chunkAddr c.shelf c.pool c.num
  let b := s.chunkAddr c.shelf pool num
  let s := s.copyRange a b (2 ^ 20)
  let pieces := (List.range 256).flatMap fun i => [(false, a + 4096 * i), (true, b + 4096 * i)]
  let s := { s with shelf := { s.shelf with chunks := s.shelf.chunks.map fun x => if x == c then { c with pool, num, moving := true, core, pieces } else x } }
  ((s.spilled pool).count R.chunkMoves).countChunks

def State.addChunk (s : State) (shelf idx pool num : Nat) : State :=
  ({ s with shelf := { s.shelf with chunks := s.shelf.chunks ++ [({ shelf, idx, pool, num } : Chunk)] } }.spilled pool).countChunks

/-- The lowest top chunk of a Shelf that holds live data. -/
def State.lowestTop (s : State) (shelf : Nat) : Option Chunk :=
  (s.shelf.chunks.filter fun c => c.shelf == shelf && c.pool == 0 && !c.freed).foldl
    (fun (b : Option Chunk) c => match b with
      | some x => if c.idx < x.idx then some c else some x
      | none => some c) none

/-- R312, R313: chunk `idx` is allocated for an SHF of `core`; none when the pools are full (R314). -/
def State.allocChunk (s : State) (core shelf idx : Nat) : Option State :=
  if (s.chunkAt shelf idx).isSome then some s
  else match s.freeNum shelf 0 8 with
    | some n => some (s.addChunk shelf idx 0 n)
    | none =>
      match s.lowerPlace shelf with
      | none => none
      | some (pool, n) =>
        match s.lowestTop shelf with
        | some c => if c.idx < idx then some ((s.moveChunk core c pool n).addChunk shelf idx 0 c.num) else some (s.addChunk shelf idx pool n)
        | none => some (s.addChunk shelf idx pool n)

/-- The chunks that the bytes from `a` to `a + n` of stack space meet. -/
def chunksOf (a n : Nat) : List Nat := if n = 0 then [] else (List.range ((a + n - 1) / 2 ^ 20 - a / 2 ^ 20 + 1)).map (a / 2 ^ 20 + ·)

/-- Stack space of the first `n` vectors from VEC_OFF on: data and scales. -/
def vecRanges (d : Desc) (n : Nat) : List (Nat × Nat) :=
  let f := storedFmt (hSfmt d) (hNarrow d)
  [(hFrameOff d + hVecOff d * shelfData f, n * shelfData f),
   (hFrameOff d + hFrameVecs d * shelfData f + hVecOff d * shelfScales f, n * shelfScales f)]

/-- Vectors that an SHF moves; a fused push of a quadrille moves those of both halves, as far as the frame holds them. [DESIGN CHOICE, log entry 116] -/
def shfVecs (d : Desc) (quad : Bool) : Nat := if quad then min (2 * hCount d) (max (hCount d) (hFrameVecs d - hVecOff d)) else hCount d

/-- Stack space of the vectors that an SHF moves. -/
def shfRanges (d : Desc) : List (Nat × Nat) := vecRanges d (hCount d)

def rangeChunks (rs : List (Nat × Nat)) : List Nat := sortDedup (rs.flatMap fun r => chunksOf r.1 r.2)

def shfChunks (d : Desc) : List Nat := rangeChunks (shfRanges d)

/-- The parts of a range between 4 KiB boundaries. -/
def parts4k (a n : Nat) : List (Nat × Nat) :=
  if n = 0 then [] else (List.range ((a + n - 1) / 4096 - a / 4096 + 1)).map fun i =>
    let lo := max a (4096 * (a / 4096 + i))
    (lo, min (a + n) (4096 * (a / 4096 + i + 1)) - lo)

/-- Every chunk that a push touches is allocated, in ascending order. -/
def State.allocAll (s : State) (core shelf : Nat) : List Nat → Option State
  | [] => some s
  | i :: is => (s.allocChunk core shelf i).bind fun s' => s'.allocAll core shelf is

/-- R313: a chunk that the SHF touches is being moved. -/
def State.chunkBusy (s : State) (d : Desc) (quad : Bool) : Bool :=
  (rangeChunks (vecRanges d (shfVecs d quad))).any fun i => match s.chunkAt (hShelf d) i with
    | some c => c.moving
    | none => false

/-- Device address of a byte of stack space. -/
def State.stackAddr (s : State) (shelf a : Nat) : Nat :=
  match s.chunkAt shelf (a / 2 ^ 20) with
  | some c => s.chunkAddr shelf c.pool c.num + a % 2 ^ 20
  | none => 0

/-- Bytes of stack space from `a`; a run may cross chunks. -/
def State.stackRead (s : State) (shelf a n : Nat) : List Byte := (List.range n).map fun i => s.byte (s.stackAddr shelf (a + i))

def State.stackWrite (s : State) (shelf : Nat) : Nat → List Byte → State
  | _, [] => s
  | a, b :: bs => (s.store (s.stackAddr shelf a) [b]).stackWrite shelf (a + 1) bs

/-! ### The data of a vector -/

/-- Stored bytes of vector `i` of an SHF: where its data and its scales lie. -/
def vecData (d : Desc) (i : Nat) : Nat := let f := storedFmt (hSfmt d) (hNarrow d); hFrameOff d + (hVecOff d + i) * shelfData f
def vecScale (d : Desc) (i : Nat) : Nat :=
  let f := storedFmt (hSfmt d) (hNarrow d)
  hFrameOff d + hFrameVecs d * shelfData f + (hVecOff d + i) * shelfScales f

def State.putVec (s : State) (d : Desc) (i : Nat) (data scales : List Byte) : State :=
  (s.stackWrite (hShelf d) (vecData d i) data).stackWrite (hShelf d) (vecScale d i) scales

/-- Words stored under a narrowing (Table 8.3), with its counts. -/
def State.pushWords (s : State) (core : Nat) (d : Desc) (i : Nat) (ws : List Word) : State :=
  let f := storedFmt (hSfmt d) (hNarrow d)
  let c := convertLanes s.free f none (.fin false 1 0) (ws.map wval)
  let s := { s with free := s.free + 64 }
  (if f = Fm.fp32 then s else s.countLosses core f none c.2.2).putVec d i (pack f c.1) (c.2.1.map (BitVec.ofNat 8))

/-- Vector `i` that an SHF reads, with its block scales: a push from local store, a pop from stack space (R318, R319). -/
def State.shfSource (s : State) (core : Nat) (d : Desc) (i : Nat) : List Byte × List Byte :=
  if hPop d then
    let f := storedFmt (hSfmt d) (hNarrow d)
    (s.stackRead (hShelf d) (vecData d i) (shelfData f), s.stackRead (hShelf d) (vecScale d i) (shelfScales f))
  else
    let f := hSfmt d
    (s.ls core (hLsAddr d + 32 * hLsStride d * i) (shelfData f), if hNarrow d = 0 then s.ls core (hMxs d + shelfScales f * i) (shelfScales f) else [])

/-- R318: vector `i` of a push is stored; `x` is what was read of it. -/
def State.pushVec (s : State) (core : Nat) (d : Desc) (i : Nat) (x : List Byte × List Byte) : State :=
  if hNarrow d = 0 then s.putVec d i x.1 x.2 else s.pushWords core d i (widen (hSfmt d) (unpack (hSfmt d) 64 x.1) [])

/-- R319, R323: vector `i` of a pop is written to local store; `x` is what was read of it; a widened or derived result is formed from the stored elements in FP32, times the scale that the frame keeps. -/
def State.popVec (s : State) (core : Nat) (d : Desc) (i : Nat) (x : List Byte × List Byte) : State :=
  let f := storedFmt (hSfmt d) (hNarrow d)
  let (data, scales) := x
  let dst := lsAddr core (hLsAddr d + 32 * hLsStride d * i)
  if hDmode d = 0 ∧ hNarrow d = 0 then
    (s.store dst data).store (lsAddr core (hMxs d + shelfScales f * i)) scales
  else
    let codes := unpack f (shelfElems f) data
    let ws := widen f codes (bytesNat scales)
    if hDmode d = 0 then
      let c := convertLanes s.free (hSfmt d) none (.fin false 1 0) (ws.map wval)
      (if hSfmt d = Fm.fp32 then s.countElems core f codes (bytesNat scales) else s.countLosses core (hSfmt d) none c.2.2).store dst (pack (hSfmt d) c.1)
    else
      let ws := if hScaleEn d then ws.map (fmul · (fScale (s.frame (hShelf d) (hDepth d)))) else ws
      let r := ws.zipIdx.map fun (w, j) =>
        fp32.round .even (if hDmode d = 1 then derivFn (s.free + j) (hDfunc d) (hSlope d) w else actFn (s.free + j) (hDfunc d) (hSlope d) w)
      let s := (s.countElems core f codes (bytesNat scales)).countLosses core Fm.fp32 none (r.map (·.2))
      { s.store dst (pack Fm.fp32 (r.map (·.1))) with free := s.free + 128 }

/-! ### Freeing (R320) -/

/-- A chunk of the Shelf that no live frame overlaps is free. [DEDUCED, log entry 89] -/
def State.freeChunks (s : State) (core shelf : Nat) : State :=
  let live := (s.liveFrames shelf).flatMap fun e => chunksOf (fOff e.2) (fSize e.2)
  { s with shelf := { s.shelf with chunks := s.shelf.chunks.map fun c => if c.shelf == shelf && !c.freed && !live.contains c.idx then { c with freed := true, core } else c } }

/-- A frame record becomes EMPTY. -/
def State.releaseFrame (s : State) (core shelf depth : Nat) : State := (s.setFrame shelf depth frameEmpty).freeChunks core shelf

/-- The highest chunk of a Shelf held outside the top moves up while a top chunk is free, by the engine of the core that freed it (R313). -/
def State.moveUp (s : State) (core shelf : Nat) : Nat → State
  | 0 => s
  | n + 1 =>
    let outside := (s.shelf.chunks.filter fun c => c.shelf == shelf && c.pool != 0 && !c.freed && !c.moving).foldl
      (fun (b : Option Chunk) c => match b with
        | some x => if x.idx < c.idx then some c else some x
        | none => some c) none
    match s.freeNum shelf 0 8, outside with
    | some k, some c => (s.moveChunk core c 0 k).moveUp core shelf n
    | _, _ => s

/-- R320, step 3: free chunks return to their pools, and chunks move up into the top chunks that this frees. [DEDUCED, log entry 89] -/
def State.returnChunks (s : State) : State :=
  let tops := s.shelf.chunks.filter fun c => c.freed && c.pool == 0
  let s := { s with shelf := { s.shelf with chunks := s.shelf.chunks.filter (!·.freed) } }.countChunks
  tops.foldl (fun s c => s.moveUp c.core c.shelf 1) s

/-! ### Errors (Table 8.6) -/

def State.shfError (s : State) (r : DescRef) (d : Desc) (code : Nat) : State :=
  s.shelfError code (hShelf d) (hDepth d) (if code = 9 then 8 else 1) (code + 16 * hShelf d + 512 * hDepth d + 2 ^ 19 * r.core) r.core (s.tagOf r)

/-- The frame record holds R12 and its ECC, and so does the chunk map of the Shelf (Table 8.6). -/
def State.recordOk (s : State) (d : Desc) : Bool :=
  fieldPairOk (s.frame (hShelf d) (hDepth d)) 16 152 168 && !s.spoilt (.frame (hShelf d) (hDepth d)) && !s.spoilt (.chunks (hShelf d))

/-- Fields in which a push must agree with the record. -/
def pushAgrees (d : Desc) (r : BitVec 256) : Bool :=
  hTag d == fTag r && hFrameOff d == fOff r && hFrameVecs d == fVecs r && hSfmt d == fSfmt r && hNarrow d == fNarrow r
    && hScaleEn d == fScaleEn r && (!hScaleEn d || hScaleRec d == fScaleRec r) && hLayer d == fLayer r

/-- PARTIES of the pushes of a frame, and of its pops with FINAL. -/
def State.writersOf (s : State) (d : Desc) : Nat := Sparse.get 0 s.shelf.writers (frameKey (hShelf d) (hDepth d))
def State.readersOf (s : State) (d : Desc) : Nat := Sparse.get 0 s.shelf.readers (frameKey (hShelf d) (hDepth d))

/-- The first error that a push finds (R318). [DEDUCED, log entry 88] -/
def State.pushError (s : State) (d : Desc) : Option Nat :=
  let r := s.frame (hShelf d) (hDepth d)
  if !s.recordOk d then some 9
  else if fState r = 0 then (if s.layoutOk d then none else some 8)
  else if !pushAgrees d r || hParties d != s.writersOf d then some 3
  else if fState r = 2 then some 4
  else none

/-- The first error that a pop finds at issue (R319 to R321). [DEDUCED, log entry 88] -/
def State.popError (s : State) (core : Nat) (d : Desc) : Option Nat :=
  let r := s.frame (hShelf d) (hDepth d)
  if !s.recordOk d then some 9
  else if fState r = 0 then some 1
  else if hTag d != fTag r then some 2
  else if !(hFrameVecs d == fVecs r && hSfmt d == fSfmt r && hNarrow d == fNarrow r && hLayer d == fLayer r && hScaleEn d == fScaleEn r) then some 3
  else if hFinal d && fReadersSet r && hParties d != s.readersOf d then some 3
  else if hScaleEn d && (fScale r != s.scaleCopy core (hScaleRec d)) then some 6
  else none

/-- R318: the frame record takes a push: the first creates it, and a FINAL push seals once all have. -/
def State.createFrame (s : State) (core : Nat) (d : Desc) : State :=
  if fState (s.frame (hShelf d) (hDepth d)) = 0 then
    let s := s.setFrame (hShelf d) (hDepth d) (s.newFrame core d)
    { s with shelf := { s.shelf with writers := Sparse.put 0 s.shelf.writers (frameKey (hShelf d) (hDepth d)) (hParties d) } }
  else s

def State.sealFrame (s : State) (d : Desc) : State :=
  if hFinal d then
    let r := s.frame (hShelf d) (hDepth d)
    let w := fWriters r - 1
    s.setFrame (hShelf d) (hDepth d) (setBits (setBits r 100 9 w) 72 2 (if w = 0 then 2 else 1))
  else s

/-- R320: the first pop with FINAL loads READERS_LEFT. -/
def State.loadReaders (s : State) (d : Desc) : State :=
  let r := s.frame (hShelf d) (hDepth d)
  if hFinal d && !fReadersSet r then
    let s := s.setFrame (hShelf d) (hDepth d) (setBits (setBits r 91 9 (hParties d)) 90 1 1)
    { s with shelf := { s.shelf with readers := Sparse.put 0 s.shelf.readers (frameKey (hShelf d) (hDepth d)) (hParties d) } }
  else s

/-- R320: a pop with FINAL releases; the last makes the record EMPTY. -/
def State.releasePop (s : State) (core : Nat) (d : Desc) : State :=
  if hFinal d then
    let r := s.frame (hShelf d) (hDepth d)
    let n := fReaders r - 1
    if n = 0 then
      let s := s.releaseFrame core (hShelf d) (hDepth d)
      let k := frameKey (hShelf d) (hDepth d)
      { s with shelf := { s.shelf with writers := Sparse.put 0 s.shelf.writers k 0, readers := Sparse.put 0 s.shelf.readers k 0 } }
    else s.setFrame (hShelf d) (hDepth d) (setBits r 91 9 n)
  else s

/-- R319: the frame is SEALED and every frame of greater depth is EMPTY. [DEDUCED, log entry 90] -/
def State.popReady (s : State) (d : Desc) : Bool :=
  fState (s.frame (hShelf d) (hDepth d)) == 2 && (s.liveFrames (hShelf d)).all fun e => decide (e.1 ≤ hDepth d)

/-! ### Doing an SHF -/

/-- Stored bytes of `n` vectors of an SHF. -/
def shfBytes (d : Desc) (n : Nat) : Nat := let f := storedFmt (hSfmt d) (hNarrow d); n * (shelfData f + shelfScales f)

/-- The operations of an SHF over `n` vectors (R322). -/
def shfPieces (d : Desc) (n : Nat) : List (Nat × Nat) := (vecRanges d n).flatMap fun r => parts4k r.1 r.2

def State.setRun (s : State) (x : ShfRun) : State :=
  { s with shelf := { s.shelf with runs := s.shelf.runs.map fun y => if y.own == x.own then x else y } }

/-- An SHF in progress leaves. -/
def State.dropRun (s : State) (r : DescRef) : State := { s with shelf := { s.shelf with runs := s.shelf.runs.filter (·.own != r) } }

/-- The vectors of an SHF, read. -/
def State.shfRead (s : State) (x : ShfRun) : List (List Byte × List Byte) := (List.range (hCount x.desc)).map (s.shfSource x.own.core x.desc)

/-- A push's data is written: chunks are allocated, and the vectors stored once none of them is on the move (R312 to R314, R318). -/
def State.doPush (s : State) (x : ShfRun) : State :=
  let d := x.desc
  match s.allocAll x.own.core (hShelf d) (shfChunks d) with
  | none => (s.dropRun x.own).shfError x.own d 7
  | some s =>
    if s.chunkBusy d false then s
    else (x.staged.zipIdx.foldl (fun s (v, i) => s.pushVec x.own.core d i v) s).setRun
      { x with started := true, staged := [], pieces := shfPieces d (hCount d), bytes := shfBytes d (hCount d) }

/-- A pop's data is written to local store, once FREE_SEQ lets it (R241, R319); a skipped step's writes nothing (R348). [DEDUCED, log entry 90] -/
def State.popWrite (s : State) (l : DList) (x : ShfRun) : State :=
  if !x.held || !l.freed (shfFree x.desc) then s
  else if l.skipFree (shfFree x.desc) then s.setRun { x with held := false, staged := [], bytes := 0 }
  else (x.staged.zipIdx.foldl (fun s (v, i) => s.popVec x.own.core x.desc i v) s).setRun { x with held := false, staged := [] }

/-- An SHF ends: with FINAL its record, read once more (R325, R581), is sealed or released. -/
def State.shfEnd (s : State) (r : DescRef) (d : Desc) : State :=
  if hFinal d && !s.recordOk d then s.shfError r d 9 else (if hPop d then s.releasePop r.core d else s.sealFrame d).drain r

/-- Operations of a core, as far as its slots go: each is a write or a read, its address and its length; what is left. -/
def State.slotOps (s : State) (own : DescRef) : List (Bool × Nat × Nat) → State × List (Bool × Nat × Nat)
  | [] => (s, [])
  | (w, a, n) :: rest =>
    if s.slotFree own.core false then (s.startOp { id := 0, own, write := w, addr := a, len := n }).slotOps own rest else (s, (w, a, n) :: rest)

/-- Stack space at `a` of a Shelf lies in a chunk on the move (R313). -/
def State.onMove (s : State) (shelf a : Nat) : Bool := (s.chunkAt shelf (a / 2 ^ 20)).any (·.moving)

/-- An SHF whose data has begun to move: its operations issue, up to one whose chunk is on the move, and with the last of them ended and its data
written it is done: a push with FINAL seals, a pop releases. -/
def State.shfGo (s : State) (x : ShfRun) : State :=
  let sh := hShelf x.desc
  let now := x.pieces.takeWhile fun p => !s.onMove sh p.1
  let r := s.slotOps x.own (now.map fun p => (!hPop x.desc, s.stackAddr sh p.1, p.2))
  let left := x.pieces.drop (now.length - r.2.length)
  let s := r.1.setRun { x with pieces := left }
  if left.isEmpty && !x.held && !(s.str.ops.any (·.own == x.own)) then
    let s := s.dropRun x.own
    let n := cdiv x.bytes 4096
    (s.count (if hPop x.desc then R.popUnits else R.pushUnits) n).shfEnd x.own x.desc
  else s

/-- An SHF goes on with what `f` makes of its run, if it has one still. -/
def State.withRun (s : State) (r : DescRef) (f : State → ShfRun → State) : State :=
  match s.shelf.runs.find? (·.own == r) with
  | some x => f s x
  | none => s

/-- An SHF that has not begun to move data: its vectors are read, unless it waits for its turn or reads from a chunk on the move; what FREE_SEQ holds
is the writing alone (R241, R322). -/
def State.shfBegin (s : State) (l : DList) (x : ShfRun) : State :=
  let d := x.desc
  if x.waits || (hPop d && s.chunkBusy d false) then s
  else if l.freed (shfFree d) && l.skipFree (shfFree d) then (s.dropRun x.own).shfEnd x.own d
  else
    let x := if x.staged.isEmpty then { x with staged := s.shfRead x } else x
    if hPop d then s.setRun { x with started := true, held := true, pieces := shfPieces d (hCount d), bytes := shfBytes d (hCount d) }
    else
      let s := s.setRun x
      if l.freed (shfFree d) then s.doPush x else s

/-- The SHFs that can go on do so, oldest first. -/
def State.shfStep (s : State) (x : ShfRun) : State :=
  match s.dlist x.own.core x.own.list with
  | none => s
  | some l =>
    let s := if x.started then s else s.shfBegin l x
    s.withRun x.own fun s y => if y.started then (s.popWrite l y).withRun x.own State.shfGo else s

/-- The operations of a move of a chunk are the SHF's whose core makes it, under a list number of their own. -/
def Chunk.ref (c : Chunk) : DescRef := ⟨c.core, 8, 65536 * c.shelf + c.idx⟩

/-- A move goes on, as far as the slots of its core go. -/
def State.moveStep (s : State) (c : Chunk) : State :=
  if c.pieces.isEmpty then s
  else
    let r := s.slotOps c.ref (c.pieces.map fun p => (p.1, p.2, 4096))
    { r.1 with shelf := { r.1.shelf with chunks := r.1.shelf.chunks.map fun x => if x == c then { c with pieces := c.pieces.drop (c.pieces.length - r.2.length) } else x } }

/-- Every SHF and every move of a chunk goes on. -/
def State.pumpShelf (s : State) : State :=
  let s := s.shelf.runs.foldl State.shfStep s
  s.shelf.chunks.foldl State.moveStep s

/-- SHFs of a core in progress (R322). -/
def State.shfsOf (s : State) (core : Nat) : Nat :=
  s.lists.foldl (fun n l => if l.core = core then n + (l.busy.filter fun i => (l.descs[i]?.map dOpcode) == some Op.shf).length else n) 0

/-- An SHF of a list issues (R318, R319): its record is judged, and it starts. -/
def State.shf (s : State) (core num : Nat) (pop : Bool) : State :=
  match s.nextDesc core num fun d => dOpcode d == Op.shf && hPop d == pop && !fusedPush d with
  | none => s
  | some (l, d) =>
    if 8 ≤ s.shfsOf core then s
    else if !shfPairsOk d then s.descFault core
    else
      let r := l.ref
      let s := (s.issue l).checkCopy core (if hScaleEn d then some (hScaleRec d) else none)
      match (if pop then s.popError core d else s.pushError d) with
      | some code => s.shfError r d code
      | none =>
        let s := if pop then s.loadReaders d else s.createFrame core d
        let x : ShfRun := { own := r, desc := d, waits := pop }
        { s with shelf := { s.shelf with runs := s.shelf.runs ++ [x] } }.pumpShelf

/-! ### The commands -/

/-- SHF_PUSH (R318). -/
def execShfPush (core : Fin 256) (list : Fin 8) (s : State) : Outcome := .next (s.shf core.val list.val false)

/-- SHF_POP (R319). -/
def execShfPop (core : Fin 256) (list : Fin 8) (s : State) : Outcome := .next (s.shf core.val list.val true)

/-- POP_WAIT_END (R319): the pop of descriptor `idx` has waited `cycles` cycles and its frame is SEALED with every greater depth EMPTY;
a record that fails its check ends the pop (R325). -/
def execPopWaitEnd (core : Fin 256) (list : Fin 8) (idx : Nat) (cycles : Word) (s : State) : Outcome :=
  let r : DescRef := ⟨core.val, list.val, idx⟩
  match s.shelf.runs.find? (·.own == r) with
  | some x =>
    if x.waits && !s.recordOk x.desc then .next ((s.dropRun r).shfError r x.desc 9)
    else if x.waits && s.popReady x.desc then
      let s := s.count R.popWaitCycles cycles.toNat
      .next { s with shelf := { s.shelf with runs := s.shelf.runs.map fun (y : ShfRun) => if y.own == r then { y with waits := false } else y } }.pumpShelf
    else .next s
  | none => .next s

/-- SHELF_ORDER (R319, Table 8.6): the pop has waited SHELF_WAIT_LIMIT cycles and its condition does not hold. -/
def execShelfOrder (core : Fin 256) (list : Fin 8) (idx : Nat) (s : State) : Outcome :=
  let r : DescRef := ⟨core.val, list.val, idx⟩
  match s.shelf.runs.find? (·.own == r) with
  | some x =>
    if x.waits && !s.popReady x.desc then
      let s := s.count R.popWaitCycles (2 ^ s.regN R.shelfWaitLimit)
      .next ({ s with shelf := { s.shelf with runs := s.shelf.runs.filter (·.own != r) } }.shfError r x.desc 5)
    else .next s
  | none => .next s

end Sys2Proof.Machine
end

