-- ==== Sys2Proof/Machine/Array.lean ====
section
/-!
DEFINITION. The matrix array (chapter 4): the stationary load, the product of a vector, the check row, the drain with its fused VOD and push,
and the retry of flagged passes. A quadrille's tile and passes are held at its leader.
-/
namespace Sys2Proof.Machine

/-! ### SLD and APD fields (Tables 4.14, 4.15) -/

def lScale (d : Desc) : Word := BitVec.ofNat 32 (bits d 416 32)
def lSrc (d : Desc) : Nat := bits d 397 19
def lStride (d : Desc) : Nat := bits d 378 19
def lMxs (d : Desc) : Nat := bits d 359 19
def lConv (d : Desc) : Nat := bits d 346 13
def lRows (d : Desc) : Nat := bits d 338 8
def lCols (d : Desc) : Nat := bits d 329 9
def lFmt (d : Desc) : Nat := bits d 321 4
def lMode (d : Desc) : Nat := bits d 317 2
def lQuad (d : Desc) : Bool := bit d 316
def lTrans (d : Desc) : Bool := bit d 315

def aScale (d : Desc) : Word := BitVec.ofNat 32 (bits d 448 32)
def aN (d : Desc) : Nat := bits d 416 32
def aBias (d : Desc) : Nat := bits d 397 19
def aBase (d : Desc) : Nat := bits d 388 9
/-- 0 FIRST, 1 ADD, 2 LAST, 3 ONLY (Table 4.6). -/
def aMode (d : Desc) : Nat := bits d 384 2
def aInit (d : Desc) : Bool := bit d 383
def aM (d : Desc) : Nat := bits d 375 8
def aK (d : Desc) : Nat := bits d 366 9
def aFmt (d : Desc) : Nat := bits d 358 4
def aQuad (d : Desc) : Bool := bit d 357
/-- VSRC: vectors from local store. -/
def aLocal (d : Desc) : Bool := bit d 356
def aVaddr (d : Desc) : Nat := bits d 337 19
def aVstride (d : Desc) : Nat := bits d 325 12
def aRldSeq (d : Desc) : Nat := bits d 309 16

/-- R12: the complement pairs of an SLD and of an APD hold. -/
def sldPairsOk (d : Desc) : Bool := hdrOk d && fieldPairOk d 32 416 448 && fieldPairOk d 4 321 325 && fieldPairOk d 2 317 319
def apdPairsOk (d : Desc) : Bool := hdrOk d && fieldPairOk d 32 448 480 && fieldPairOk d 2 384 386 && fieldPairOk d 4 358 362

/-! ### The tile (R128, R130, R159 to R162) -/

/-- Elements `n` of FMT `f` packed from local-store offset `off`. -/
def State.lsElems (s : State) (core f off n : Nat) : List Nat := unpack f n (s.ls core off (cdiv (n * elemBits f) 8))

/-- Element `i` of FMT `f` counted from local-store offset `off`. -/
def State.lsElem (s : State) (core f off i : Nat) : Nat :=
  let b := i * elemBits f
  nbits (leNat (s.ls core (off + b / 8) 4)) (b % 8) (elemBits f)

/-- Fields of the convolution parameter block (Table 4.13), at offset CONV_PTR × 64. -/
def State.convField (s : State) (core : Nat) (d : Desc) (lo len : Nat) : Nat := nbits (leNat (s.ls core (64 * lConv d) 64)) lo len

/-- R159: the position in the input, in elements, of tile row `r` and column `i`; none where it is loaded as zero. -/
def State.convAt (s : State) (core : Nat) (d : Desc) (r i : Nat) : Option Nat :=
  let g := s.convField core d
  let (kw, kh, kd) := (g 219 5, g 214 5, g 209 5)
  let (sw, sh, sd) := (g 205 4, g 201 4, g 197 4)
  let (dw, dh, dd) := (g 193 4, g 189 4, g 185 4)
  let (pw, ph, pd) := (g 181 4, g 177 4, g 173 4)
  let (inW, inH, inD) := (g 328 16, g 312 16, g 296 16)
  let (outW, outH, outD) := (g 376 16, g 360 16, g 344 16)
  let (c, cg, gi) := (g 276 20, g 256 20, g 236 20)
  let o := g 392 32 + r
  let j := g 424 24 + i
  if outD * outH * outW ≤ o ∨ kd * kh * kw * cg ≤ j then none
  else
    let (od, oh, ow) := (o / (outW * outH), o / outW % outH, o % outW)
    let t := j / cg
    let (ktd, kth, ktw) := (t / (kw * kh), t / kw % kh, t % kw)
    let z : Int := (od * sd : Nat) - (pd : Nat) + (ktd * dd : Nat)
    let y : Int := (oh * sh : Nat) - (ph : Nat) + (kth * dh : Nat)
    let x : Int := (ow * sw : Nat) - (pw : Nat) + (ktw * dw : Nat)
    if z < 0 ∨ (inD : Int) ≤ z ∨ y < 0 ∨ (inH : Int) ≤ y ∨ x < 0 ∨ (inW : Int) ≤ x then none
    else some (((z.toNat * inH + y.toNat) * inW + x.toNat) * c + (gi * cg + j % cg))

/-- Code of the element that row `r` and column `k` of the tile take; rows at or beyond ROWS and columns at or beyond COLS are zero. -/
def State.tileElem (s : State) (core : Nat) (d : Desc) (r k : Nat) : Nat :=
  let f := lFmt d
  if lRows d ≤ r ∨ lCols d ≤ k then 0
  else if lMode d = 1 then (match s.convAt core d r k with | some i => s.lsElem core f (lSrc d) i | none => 0)
  else if lMode d = 2 then (if r = k then s.lsElem core f (lSrc d) r else 0)
  else if lTrans d then s.lsElem core f (lSrc d + lStride d * k) r
  else s.lsElem core f (lSrc d + lStride d * r) k

/-- The E8M0 scale of block `b` of row `r`: the plane at MXS_SRC in the order of the blocks (R264); for a convolution at the positions of its
elements (R161), for DIAG that of the diagonal element, and 1.0 for the blocks of zeros (R162); 1.0 beyond ROWS and COLS (R128). [DEDUCED, log entry 82] -/
def State.tileScale (s : State) (core : Nat) (d : Desc) (r b : Nat) : Nat :=
  let at_ := fun i => (s.byte (lsAddr core (lMxs d + i))).toNat
  if lRows d ≤ r ∨ lCols d ≤ 32 * b then 127
  else if lMode d = 1 then (match s.convAt core d r (32 * b) with | some i => at_ (i / 32) | none => 127)
  else if lMode d = 2 then (if b = r / 32 then at_ b else 127)
  else at_ (r * (vecElems (lFmt d) (lQuad d) / 32) + b)

/-- The value T[r][k] as an FP32 word, with its block's scale. -/
def tileWord (f : Nat) (codes scales : List Nat) (k : Nat) : Word :=
  match scales[k / 32]? with
  | some x => w32 .even ((elemVal f (codes.getD k 0)).mul (scaleVal x))
  | none => w32 .even (elemVal f (codes.getD k 0))

/-- The column sums of a group of rows (R128): in FP32 in ascending rows; exactly, for INT8; zero from column `cols` on. -/
def columnSums (f depth cols : Nat) (rows : List (List Nat × List Nat)) : List Word :=
  (List.range depth).map fun k =>
    if cols ≤ k then 0
    else if f = Fm.int8 then BitVec.ofInt 32 (rows.foldl (fun (a : Int) r => a + sext 8 (r.1.getD k 0)) 0)
    else fsum (rows.map fun r => tileWord f r.1 r.2 k)

/-- The tile that an SLD loads. [DEDUCED, log entry 82] -/
def State.loadTile (s : State) (core : Nat) (d : Desc) : Tile :=
  let f := lFmt d
  let depth := vecElems f (lQuad d)
  let n := if lQuad d then 128 else 64
  let elems := (List.range n).map fun r => (List.range depth).map fun k => s.tileElem core d r k
  let scales := if isMx f then (List.range n).map fun r => (List.range (depth / 32)).map fun b => s.tileScale core d r b else []
  let rows := elems.zip (if isMx f then scales else List.replicate n [])
  { fmt := f, rows := lRows d, cols := lCols d, quad := lQuad d, scale := s.resolveScale core (lScale d), elems, scales
    check := if lQuad d then [columnSums f depth (lCols d) (rows.take 64), columnSums f depth (lCols d) (rows.drop 64)] else [columnSums f depth (lCols d) rows]
    desc := d }

/-- How the elements of a tile count as they are widened. -/
def Tile.losses (t : Tile) : List Loss := (t.elems.zipIdx.map fun (r, i) => wideLosses t.fmt r (t.scales.getD i [])).flatten

/-- A tile loads: the array stalls for `cycles`. -/
def State.putTile (s : State) (core cycles : Nat) (t : Tile) : State :=
  (((s.setArr core { s.arr core with tile := some t })).count (R.loadCycles core) cycles).countLosses core Fm.fp32 none (if t.fmt = Fm.fp32 then [] else t.losses)

/-- Cores of a quadrille whose rows `h` (0: 0-63, 1: 64-127) drain, and those that hold them (R156); a single array holds and drains its own. -/
def drainCore (quad : Bool) (core h : Nat) : Nat := if quad then (if h = 0 then core + 1 else core + 5) else core
def halfCores (quad : Bool) (core h : Nat) : List Nat := if quad then (if h = 0 then [core, core + 1] else [core + 4, core + 5]) else [core]

/-- SLD (R128 to R130): once every pass on the array has taken its last vector, the tile loads; the array stalls 64 cycles, 128 in a quadrille,
and 128 for a transposed load that nothing could stage. [DEDUCED, log entry 82] -/
def State.sld (s : State) (core num : Nat) : State :=
  match s.nextDesc core num fun d => dOpcode d == Op.sld with
  | none => s
  | some (l, d) =>
    let a := s.arr core
    if !a.passes.isEmpty then s
    else if !sldPairsOk d then s.descFault core
    else
      let cycles := if lQuad d then 128 else if lTrans d && !a.ran then 128 else 64
      ((((s.issue l).checkCopy core (scaleRef (lScale d))).setArr core { a with ran := false }).putTile core cycles (s.loadTile core d)).drain l.ref

/-! ### The product (R125, R271) -/

/-- The product of two elements, as FP32. -/
def elemMul (fT fW c w : Nat) : Word := w32 .even ((elemVal fT c).mul (elemVal fW w))

/-- One row's sum: exact in INT32 for INT8; by blocks of 32 with their scales where a format is MX; else in FP32 in ascending k. [DEDUCED, log entry 82] -/
def rowSum (fT fW : Nat) (t tS w wS : List Nat) : Word :=
  if fT = Fm.int8 then BitVec.ofInt 32 ((t.zip w).foldl (fun (a : Int) x => a + sext 8 x.1 * sext 8 x.2) 0)
  else
    let ps := (t.zip w).map fun x => elemMul fT fW x.1 x.2
    if isMx fT || isMx fW then
      fsum ((List.range (ps.length / 32)).map fun b =>
        let sc := (scaleVal (tS.getD b 127)).mul (scaleVal (wS.getD b 127))
        w32 .even ((wval (fsum ((ps.drop (32 * b)).take 32))).mul sc))
    else fsum ps

/-- The check row's output: its column sums, in FP32, times the vector. [DEDUCED, log entry 82] -/
def checkSum (fT fW : Nat) (cs : List Word) (w wS : List Nat) : Word :=
  if fT = Fm.int8 then BitVec.ofInt 32 ((cs.zip w).foldl (fun (a : Int) x => a + x.1.toInt * sext 8 x.2) 0)
  else
    let ps := (cs.zip w).map fun x => w32 .even ((wval x.1).mul (elemVal fW x.2))
    if isMx fW then
      fsum ((List.range (ps.length / 32)).map fun b =>
        w32 .even ((wval (fsum ((ps.drop (32 * b)).take 32))).mul (scaleVal (wS.getD b 127))))
    else fsum ps

/-- The bits that a fault inverts in output `row` of vector `n`. -/
def badBits (bad : List (Nat × Nat × Word)) (n row : Nat) : Word :=
  bad.foldl (fun w x => if x.1 = n ∧ x.2.1 = row then w ^^^ x.2.2 else w) 0

/-- Outputs of vector `n` in half `h`: 64 rows, then the check row. -/
def Tile.outputs (t : Tile) (fW n h : Nat) (bad : List (Nat × Nat × Word)) (data scales : List Byte) : List Word :=
  let w := unpack fW (vecElems fW t.quad) data
  let wS := bytesNat scales
  let ys := (List.range 64).map fun r => rowSum t.fmt fW (t.elems.getD (64 * h + r) []) (t.scales.getD (64 * h + r) []) w wS
  (ys ++ [checkSum t.fmt fW (t.check.getD h []) w wS]).zipIdx.map fun (y, r) => y ^^^ badBits bad n (65 * h + r)

/-! ### The check (R146, R147) -/

/-- A sum as FP32: INT8 sums are converted (R140). -/
def sumWord (f : Nat) (y : Word) : Word := if f = Fm.int8 then w32 .even (intVal y.toInt) else y

/-- t of Table 4.10 plus CHK_TOL_ADJ. -/
def State.tolerance (s : State) (core f : Nat) : Int :=
  (if fmtClass f = 2 then 19 else 20) + sext 3 (s.field (R.arrayCtrl core) 4 3)

/-- |x - y| > (K + M) × 2^-t × a. -/
def pastTolerance (k m : Nat) (t : Int) (a x y : Word) : Bool :=
  ((Val.fin false (k + m) (-t)).mul (wval a)).lt ((wval x).add (wval y).neg).abs

/-- Valid rows of half `h` of a pass. -/
def halfRows (d : Desc) (h : Nat) : Nat := min 64 (aM d - 64 * h)

/-- R146: the vector fails its check in half `h`, over its valid rows; K + M is that of the whole pass. [DEDUCED, log entry 82] -/
def State.checkFails (s : State) (core : Nat) (t : Tile) (d : Desc) (h : Nat) (ys : List Word) : Bool :=
  let yc := ys.getD 64 0
  let m := ys.take (halfRows d h)
  if t.fmt = Fm.int8 then
    decide (m.foldl (fun (a : Int) y => a + y.toInt) 0 ≠ yc.toInt)
  else if !wfin yc || m.any fun y => !wfin y then false
  else
    let a := fadd .even (fsum (m.map fabs)) (fabs yc)
    pastTolerance (aK d) (aM d) (s.tolerance core t.fmt) a (fsum m) yc

/-- Half `h` is checked: CHECK_EN, and no spare row in use in it (R154, R158). -/
def State.checked (s : State) (quad : Bool) (core h : Nat) : Bool :=
  bit (s.reg (R.arrayCtrl core)) 0 && (halfCores quad core h).all fun c => !bit (s.reg (R.rowMap c)) 31

/-! ### The drain (R138, R140, R272, R273) -/

/-- Initial value of output vector `n` (R140). -/
def State.initial (s : State) (core : Nat) (d : Desc) (n : Nat) : Word :=
  if aInit d then BitVec.ofNat 32 (s.num (lsAddr core (aBias d + 4 * n)) 4) else 0

/-- A drain addition of `out` to `old` that makes the entry's term count `terms`: stochastic above the long-sum threshold. -/
def State.drainAdd (s : State) (core terms : Nat) (old out : List Word) : List Word × State :=
  let draw := if 2 ^ s.field R.numCtrl 0 5 < terms then (let r := s.drawLanes core; (some r.1, r.2)) else (none, s)
  ((old.zip out).zipIdx.map fun (x, i) => fadd (laneRnd draw.1 i) x.1 x.2, draw.2)

/-- An accumulator entry and its term count written. -/
def State.setAcc (s : State) (core e terms : Nat) (ws : List Word) : State :=
  let a := (s.arr core).setEntry e ws
  s.setArr core { a with terms := Sparse.put 0 a.terms e (min terms (2 ^ 24 - 1)) }

def State.termsOf (s : State) (core e : Nat) : Nat := Sparse.get 0 (s.arr core).terms e

/-- Step 2 of R140 for output vector `n`; `out` is none for a pass with K = 0 (Table 4.5). The finished vector of LAST and ONLY is answered;
the entry that LAST frees keeps what it holds. [DESIGN CHOICE, log entry 123] -/
def State.accumulate (s : State) (core : Nat) (d : Desc) (n : Nat) (out : Option (List Word)) : Option (List Word) × State :=
  let e := (aBase d + n) % 512
  let init := List.replicate 64 (s.initial core d n)
  match aMode d, out with
  | 0, some y => let r := s.drainAdd core (aK d) init y; (none, r.2.setAcc core e (aK d) r.1)
  | 0, none => (none, s.setAcc core e 0 init)
  | 1, some y =>
    let k := min (s.termsOf core e + aK d) (2 ^ 24 - 1)
    let r := s.drainAdd core k ((s.arr core).entry e) y
    (none, r.2.setAcc core e k r.1)
  | 1, none => (none, s)
  | 2, some y =>
    let k := min (s.termsOf core e + aK d) (2 ^ 24 - 1)
    let r := s.drainAdd core k ((s.arr core).entry e) y
    (some r.1, r.2.setAcc core e k r.1)
  | 2, none => (some ((s.arr core).entry e), s)
  | _, some y => let r := s.drainAdd core (aK d) init y; (some r.1, r.2)
  | _, none => (some init, s)

/-- Every NaN or infinity that the drain stage produces is counted (R293): once, as it leaves the stage in `made`, or stands in its entry; `out` are
the scaled outputs it came of. [DEDUCED, log entry 86] -/
def State.countNonfin (s : State) (core : Nat) (out made : List Word) : State :=
  s.countLosses core Fm.fp32 none ((made.zip out).map fun x => lossOf x.1 (wfin x.2))

/-- The fused VOD and push of a pass take a finished vector (R143, R324); a push that a skipped step frees writes nothing (R348). The halves of a
quadrille push vectors N apart. [DEDUCED, log entry 86; DESIGN CHOICE, log entry 116] -/
def State.finish (s : State) (core : Nat) (p : PassRun) (h n : Nat) (ws : List Word) : State :=
  let s := match p.push.bind fun r => (s.dlist r.core r.list).bind fun l => (s.desc r).map fun d => (l, d) with
    | some (l, d) => if l.skipFree (shfFree d) || decide (shfVecs d (aQuad p.desc) ≤ h * aN p.desc + n) then s else s.pushWords core d (h * aN p.desc + n) ws
    | none => s
  match p.vod.bind s.desc with
  | some d => s.vodVector core p.own.core d (halfRows p.desc h) n ws
  | none => s

/-- Output vector `n` of half `h` is drained (R140). -/
def State.drainVec (s : State) (core : Nat) (p : PassRun) (h n : Nat) (out : Option (List Word)) : State :=
  let c := drainCore (aQuad p.desc) core h
  let r := s.accumulate c p.desc n out
  let made := r.1.getD ((r.2.arr c).entry ((aBase p.desc + n) % 512))
  let r := match out with
    | some y => (r.1, r.2.countNonfin c y made)
    | none => r
  match r.1 with
  | some ws => r.2.finish c p h n (ws.zipIdx.map fun (w, i) => if i < halfRows p.desc h then w else 0)
  | none => r.2

/-- Step 1 of R140: the outputs of a half, times SCALE × W_SCALE. -/
def scaleOut (t : Tile) (p : PassRun) (ys : List Word) : List Word :=
  (ys.take 64).map fun y => fmul (sumWord t.fmt y) (fmul t.scale p.wscale)

/-- The halves of a pass. -/
def passHalves (quad : Bool) : List Nat := if quad then [0, 1] else [0]

/-- A vector's outputs drain in every half. -/
def State.commitVec (s : State) (core : Nat) (t : Tile) (p : PassRun) (n : Nat) (data scales : List Byte) (bad : List (Nat × Nat × Word)) : State :=
  (passHalves t.quad).foldl (fun s h => s.drainVec core p h n (some (scaleOut t p (t.outputs (aFmt p.desc) n h bad data scales)))) s

def State.setPass (s : State) (core : Nat) (p : PassRun) : State :=
  let a := s.arr core
  s.setArr core { a with passes := a.passes.map fun x => if x.own == p.own then p else x }

/-- The pass has drained: its APD and fused VOD are done; the operations of its fused push begin (R322, R324). -/
def State.endPass (s : State) (core : Nat) (p : PassRun) (noop : Bool := false) : State :=
  let a := s.arr core
  let s := s.setArr core { a with passes := a.passes.filter (·.own != p.own) }
  let s := (s.drain p.own)
  let s := match p.vod with
    | some r => s.drain r
    | none => s
  match p.push.bind fun r => (s.dlist r.core r.list).bind fun l => (s.desc r).map fun d => (r, l, d) with
  | some (r, l, d) =>
    if noop || l.skipFree (shfFree d) then s.shfEnd r d
    else { s with shelf := { s.shelf with runs := s.shelf.runs ++ [({ own := r, desc := d, waits := false, started := true
                                                                      pieces := shfPieces d (shfVecs d (aQuad p.desc))
                                                                      bytes := shfBytes d (shfVecs d (aQuad p.desc)) } : ShfRun)] } }.pumpShelf
  | none => s

/-- Some half of the vector fails its check. -/
def State.vecFails (s : State) (core : Nat) (t : Tile) (p : PassRun) (n : Nat) (data scales : List Byte) (bad : List (Nat × Nat × Word)) : Bool :=
  (passHalves t.quad).any fun h => s.checked t.quad core h && s.checkFails core t p.desc h (t.outputs (aFmt p.desc) n h bad data scales)

/-- The outcome of a flagged pass: the status bit, and the log entry of R151. -/
def State.outcome (s : State) (core : Nat) (p : PassRun) (v0 b : Nat) : State :=
  (s.orReg (R.arrayStatus core) (2 ^ b)).logFull (srcOf 0x10 core) 0x0A (BitVec.ofNat 16 core) (s.tagOf p.own) (leBytes 4 v0 ++ leBytes 1 b) []

/-- A pass is flagged at vector `v`, which came out as `first` (R148); a quadrille counts in its leader's registers. [DEDUCED, log entry 82] -/
def State.setFlag (s : State) (core : Nat) (p : PassRun) (v : Nat) (first : List (List Word)) : State :=
  (((s.orReg (R.arrayStatus core) 1).count (R.chkFails core))).setPass core { p with flag := some v, first }

/-- R148: a pass is flagged at v0; a fifth flagged pass is a core fault. -/
def State.flagPass (s : State) (core : Nat) (t : Tile) (p : PassRun) (data scales : List Byte) : State :=
  let n := ((s.arr core).passes.filter (·.flag.isSome)).length
  let s := s.setFlag core { p with taken := p.taken + 1 } p.taken ((passHalves t.quad).map fun h => t.outputs (aFmt p.desc) p.taken h p.bad data scales)
  if 4 ≤ n then (s.outcome core p p.taken 5).descFault core else s

/-- Cycles of the ramp at a cold start (Table 4.4). -/
def State.rampCycles (s : State) (core : Nat) : Nat :=
  match s.field (R.arrayCtrl core) 1 2 with
  | 1 => 16
  | 2 => 64
  | _ => 32

/-- Cycles that the vectors of a pass take; a cold pass takes L/2 more (R133). -/
def State.passCycles (s : State) (core : Nat) (p : PassRun) : Nat :=
  aN p.desc * vecCycles (aFmt p.desc) + if p.cold then s.rampCycles core / 2 else 0

/-- A vector enters the array: its cycles, and what is not finite in it. -/
def State.enterVec (s : State) (core : Nat) (p : PassRun) (data scales : List Byte) : State :=
  let f := aFmt p.desc
  (s.count (R.vectorCycles core) (vecCycles f)).countElems core f (unpack f (vecElems f (aQuad p.desc)) data) (bytesNat scales)

/-- A vector enters the array in the oldest pass that has not taken its last (R140, R148); at the first of a cold pass a cold start counts (R133).
[DEDUCED, log entry 86] -/
def State.takeVec (s : State) (core : Nat) (p : PassRun) (data scales : List Byte) : State :=
  match (s.arr core).tile with
  | none => s
  | some t =>
    let s := s.enterVec core p data scales
    let s := if p.taken = 0 ∧ p.cold then s.count (R.coldStarts core) else s
    let last := p.taken + 1 == aN p.desc
    let s := if last then (let s := s.count (R.passes core); s.setArr core { s.arr core with ran := (s.arr core).ran || decide (64 ≤ s.passCycles core p) }) else s
    if p.flag.isSome then s.setPass core { p with taken := p.taken + 1 }
    else if s.vecFails core t p p.taken data scales p.bad then s.flagPass core t p data scales
    else
      let s := (s.commitVec core t p p.taken data scales p.bad).setPass core { p with taken := p.taken + 1 }
      if last then s.endPass core p else s

/-- A pass with K = 0: entries and initial values alone (Table 4.5). Vectors sent to it stay in the skid buffer.
[DESIGN CHOICE, log entry 123] -/
def State.emptyPass (s : State) (core : Nat) (p : PassRun) : State :=
  let s := s.count (R.apdK0 core)
  let s := (List.range (aN p.desc)).foldl (fun s n => (passHalves (aQuad p.desc)).foldl (fun s h => s.drainVec core p h n none) s) s
  s.endPass core p

/-- A pass with M = 0 or N = 0 does nothing; its fused descriptors complete as no-ops. -/
def State.noPass (s : State) (core : Nat) (p : PassRun) : State :=
  (s.count (R.apdNoop core)).endPass core p true

/-- Vector `i` of a pass in local store, and its scales, which follow its data (Table 4.1). -/
def State.localVec (s : State) (core : Nat) (d : Desc) (i : Nat) : List Byte × List Byte :=
  let a := aVaddr d + 32 * aVstride d * i
  let n := vecSize (aFmt d) (aQuad d)
  (s.ls core a n, s.ls core (a + n) (vecScales (aFmt d) (aQuad d)))

/-- A pass from local store takes all its vectors (VSRC 1). -/
def State.localPass (s : State) (core : Nat) (p : PassRun) : State :=
  (List.range (aN p.desc)).foldl (fun s i =>
    match (s.arr core).passes.find? (·.own == p.own) with
    | some q => let x := s.localVec core p.desc i; s.takeVec core q x.1 x.2
    | none => s) s

/-- Vector `i` of an RLD as memory holds it, through the turn where it is transposed (R149, R195, R208). -/
def State.rldVec (s : State) (d : Desc) (i : Nat) : List Byte × List Byte :=
  let k := turnDepth d
  let e := elemBits (rFmt d) / 8
  (if rTurn d then ((List.range k).map fun r => s.bytes (unitAddr d (k * (i / k) + r) + e * (i % k)) e).flatten else s.bytes (unitAddr d i) (rSize d),
   s.bytes (rMxs d + i * rScales d) (rScales d))

/-- Vector `i` of a pass, fetched again by the core's stream engine (R149, R183). -/
def State.passVec (s : State) (core : Nat) (p : PassRun) (i : Nat) : List Byte × List Byte :=
  if aLocal p.desc then s.localVec core p.desc i
  else match s.desc ⟨core, p.own.list, aRldSeq p.desc⟩ with
    | some d => s.rldVec d (p.base + i)
    | none => ([], [])

/-! ### The retry (R149 to R151, Table 4.11) -/

/-- Rows of v0 that differ between its first run and the retry by more than the tolerance: half and row. -/
def State.differing (s : State) (core : Nat) (t : Tile) (p : PassRun) (again : List (List Word)) : List (Nat × Nat) :=
  (passHalves t.quad).flatMap fun h =>
    let x := p.first.getD h []
    let y := again.getD h []
    let a := fadd .even (fsum ((y.take 64).map fun w => fabs (sumWord t.fmt w))) (fabs (sumWord t.fmt (y.getD 64 0)))
    ((List.range 65).filter fun r =>
      if t.fmt = Fm.int8 then x.getD r 0 != y.getD r 0
      else pastTolerance (aK p.desc) (aM p.desc) (s.tolerance core t.fmt) a (x.getD r 0) (y.getD r 0)
        || ((wval (x.getD r 0)).finite != (wval (y.getD r 0)).finite)).map fun r => (h, r)

/-- Vectors from `v` to the last of a flagged pass are fetched and run again, and committed; with `check` on, the first that fails ends the run and is
answered. -/
def State.rerun (s : State) (core : Nat) (t : Tile) (p : PassRun) (v : Nat) (check : Bool) (bad : List (Nat × Nat × Word)) : Option Nat × State :=
  (List.range (aN p.desc - v)).foldl (fun (r : Option Nat × State) j =>
    if r.1.isSome then r
    else
      let x := r.2.passVec core p (v + j)
      let s := r.2.enterVec core p x.1 x.2
      if check && s.vecFails core t p (v + j) x.1 x.2 bad then (some (v + j), s) else (none, s.commitVec core t p (v + j) x.1 x.2 bad)) (none, s)

/-- Cycles of a retry are retry cycles and stall cycles (R151). -/
def State.retryCycles (s : State) (core n : Nat) : State :=
  let s := (s.count (R.retryCycles core) n).count (R.coreStall core) n
  s.setArr core { s.arr core with retried := (s.arr core).retried + n }

/-- A retry segment of `n` cycles (R149): a cold start. -/
def State.retryCost (s : State) (core n : Nat) : State := (s.retryCycles core n).count (R.coldStarts core)

/-- A pass has failed in a retry: it is flagged anew where it failed, and a second time it is a core fault (R149). [DEDUCED, log entry 87] -/
def State.failAgain (s : State) (core : Nat) (t : Tile) (p : PassRun) (v : Nat) (bad : List (Nat × Nat × Word)) : State :=
  let x := s.passVec core p v
  if p.failed then (s.outcome core p v 6).descFault core
  else s.setFlag core { p with failed := true } v ((passHalves t.quad).map fun h => t.outputs (aFmt p.desc) v h bad x.1 x.2)

/-- A mapping found under step 3a: it holds from here on, and an order of Enmora's, whose TAG is free, records it at the next boundary (R153).
[DEDUCED, log entry 87] -/
def State.confirmRow (s : State) (core r : Nat) : State :=
  let (v, s) := s.draw
  let tag : Half := v.setWidth 16
  let s := (s.setField (R.rowMap core) 31 1 1).setField (R.rowMap core) 0 7 r
  (s.schedule (core / 16) tag 0xC003 s.nextStep3 (leBytes 1 (core % 16) ++ leBytes 1 r)).bayOutcome (core / 16) tag 0xC003 outScheduled

/-- One flagged pass is retried. `run1` and `run2` are what a fault inverts in the first and the second segment, `faulty` the rows that the
self-test finds, `lf` the first-access latency of the source in cycles. A core fault ends the retry. [DEDUCED, log entry 86] -/
def State.retryPass (s : State) (core lf : Nat) (p : PassRun) (run1 run2 : List (Nat × Nat × Word)) (faulty : List Nat) : State :=
  match (s.arr core).tile, p.flag with
  | some t, some v0 =>
    if s.noIssue core then s
    else
    let x := s.passVec core p v0
    let again := (passHalves t.quad).map fun h => t.outputs (aFmt p.desc) v0 h run1 x.1 x.2
    let n := aN p.desc
    let c := vecCycles (aFmt p.desc)
    let s := (s.retryCost core (lf + 145)).enterVec core p x.1 x.2
    if !s.vecFails core t p v0 x.1 x.2 run1 then
      let s := s.commitVec core t p v0 x.1 x.2 run1
      let s := s.retryCost core (lf + (n - v0 - 1) * c + 145)
      match s.rerun core t p (v0 + 1) true run2 with
      | (some v, s) => s.failAgain core t p v run2
      | (none, s) =>
        let s := s.endPass core p
        match s.differing core t p again with
        | [(h, r)] => ((s.outcome core p v0 3).rowDue ((halfCores t.quad core h).headD core) r)
        | _ => s.outcome core p v0 1
    else
      -- the self-test: two pattern tiles of 64 load cycles, and 64 test vectors through each (R150)
      let s := (s.count (R.loadCycles core) 128).count (R.vectorCycles core) 128
      -- the tile is reloaded
      let t' : Tile := { s.loadTile core t.desc with scale := t.scale }
      let s := s.putTile core (if t.quad then 128 else 64) t'
      let again := fun s : State => s.retryCost core (514 + 64 + lf + (n - v0) * c + 145)
      match faulty with
      | [] =>
        match (again s).rerun core t' p v0 true run2 with
        | (some v, s) => s.failAgain core t' p v run2
        | (none, s) => (s.endPass core p).outcome core p v0 2
      | [x] =>
        let r := (again s).rerun core t' p v0 false run2
        ((r.2.endPass core p).outcome core p v0 4).confirmRow ((halfCores t.quad core (x / 65)).headD core) (x % 65)
      | _ => ((s.retryCycles core (514 + 64)).outcome core p v0 6).descFault core
  | _, _ => s

/-- The retry may run: a pass is flagged, and every pass of the array has taken its last vector (R149). -/
def ArrCore.retryReady (a : ArrCore) : Bool := a.flagged && a.passes.all fun p => p.taken == aN p.desc

/-- Entries of a list given for the `i`th flagged pass. -/
def ofPass (l : List (Fin 4 × Nat × Fin 130 × Word)) (i : Nat) : List (Nat × Nat × Word) :=
  (l.filter fun x => x.1.val == i).map fun x => (x.2.1, x.2.2.1.val, x.2.2.2)

end Sys2Proof.Machine
end

