-- ==== Sys2Proof/Machine/Reel.lean ====
section
/-!
DEFINITION. The Reel (chapter 5): matching of vectors to RLDs, forward-first flow with credits, heads and the turn, consumers, tokens; and
the APD, whose vectors the Reel brings.
-/
namespace Sys2Proof.Machine

/-- Slots that a vector takes on a hop (R180). -/
def RVec.slots (v : RVec) : Nat := cdiv v.data.length 128

/-! ### The ring -/

/-- The stop before logical core `c` in its set. -/
def State.prevStop (s : State) (c : Nat) : Option Nat :=
  let b := c / 16
  let cfg := s.bayCfg b
  if cfg = 15 then none
  else
    let order := ringOrder (decide (8 ≤ cfg))
    match order.idxOf? (c % 16) with
    | none => none
    | some i =>
      if 0 < i then some (16 * b + order.getD (i - 1) 0)
      else
        let n := 2 ^ (cfg % 8)
        let base := b - b % n
        some (16 * (base + (b - base + n - 1) % n) + order.getD (order.length - 1) 0)

/-- A core's RLDs of a stream that match vectors, in list order (R184). -/
def State.rldsOf (s : State) (core stream : Nat) : List (DescRef × Desc) :=
  (s.lists.filter (·.core == core)).flatMap fun l =>
    (l.descs.zipIdx.filter fun (d, _) => dOpcode d == Op.rld && rStream d == stream && rCount d != 0).map fun (d, i) => (⟨core, l.num, i⟩, d)

/-- The core is the head of the stream in its set (R183). -/
def State.isHead (s : State) (core stream : Nat) : Bool := (s.rldsOf core stream).any fun x => rHead x.2

/-- The core is the tail: its next stop is the head (R187). -/
def State.isTail (s : State) (core stream : Nat) : Bool :=
  match s.nextStop core with
  | some n => s.isHead n stream
  | none => true

/-- The RLD to which the next vector is matched: its order, reference and descriptor. -/
def State.curRld (s : State) (core stream : Nat) : Option (Nat × DescRef × Desc) :=
  ((s.rldsOf core stream).zipIdx.find? fun (x, o) => decide (Sparse.get 0 (s.port core stream).fwd o < rCount x.2)).map fun (x, o) => (o, x.1, x.2)

/-- Credit for `n` slots on the hop from `core` (R189). -/
def State.hasCredit (s : State) (core stream n : Nat) : Bool :=
  match s.nextStop core with
  | some nx => let p := s.port core stream; decide (p.spent + p.returning + n ≤ 2 * hopLatency core nx)
  | none => false

/-- The skid buffer of a port has a free entry (R188). -/
def State.skidFree (s : State) (core : Nat) : Bool := decide ((s.port core 0).skid.length + (s.port core 1).skid.length < 4)

/-- A vector leaves the landing buffer: its slots' credit is on its way back to the sender. -/
def State.freeSlots (s : State) (core stream n : Nat) : State :=
  match s.prevStop core with
  | some q => let p := s.port q stream; s.setPort q stream { p with spent := p.spent - n, returning := p.returning + n }
  | none => s

/-- A vector goes out on the hop from `core`, and spends its credit. -/
def State.sendVec (s : State) (core stream : Nat) (v : RVec) : State :=
  let s := s.sendItem core stream (.vec v)
  let p := s.port core stream
  s.setPort core stream { p with spent := p.spent + v.slots }

def bumpAt (m : List (Nat × Nat)) (o : Nat) : List (Nat × Nat) := Sparse.put 0 m o (Sparse.get 0 m o + 1)

/-! ### A port's flow (R187, R188) -/

/-- The oldest vector of the landing buffer is forwarded and, for a using role, placed in the skid buffer; none when it cannot leave. -/
def State.forwardStep (s : State) (core stream : Nat) : Option State :=
  let p := s.port core stream
  match p.landing, s.curRld core stream with
  | v :: rest, some (o, _, d) =>
    let tail := s.isTail core stream
    if (!tail && !s.hasCredit core stream v.slots) || (rUses d && !s.skidFree core) then none
    else
      let s := s.setPort core stream { p with landing := rest, fwd := bumpAt p.fwd o, prov := if v.prov then some o else p.prov
                                              skid := if rUses d then p.skid ++ [(o, v)] else p.skid
                                              ahead := if v.prov && !tail then p.ahead + 1 else p.ahead }
      let s := s.freeSlots core stream v.slots
      some (if tail then s else if v.prov then s.sendVec core stream v else (s.sendVec core stream v).count (R.fwdVectors core))
  | _, _ => none

/-- The oldest committed vector of the stream in the skid buffer, for consumption. -/
def State.skidHead (s : State) (core stream : Nat) : Option (Nat × RVec × DescRef × Desc) :=
  match (s.port core stream).skid with
  | (o, v) :: _ => if v.prov then none else ((s.rldsOf core stream)[o]?).map fun x => (o, v, x.1, x.2)
  | [] => none

/-- The consumer takes the oldest vector of the stream. -/
def State.takeSkid (s : State) (core stream o : Nat) : State :=
  let p := s.port core stream
  (s.setPort core stream { p with skid := p.skid.drop 1, taken := bumpAt p.taken o }).count (R.usedVectors core)

/-- The descriptor has issued. -/
def State.hasIssued (s : State) (r : DescRef) : Bool :=
  match s.dlist r.core r.list with
  | some l => decide (r.idx < l.issued)
  | none => false

/-- R190: a LAND consumer writes a vector, and its scales to the plane behind the data. -/
def State.landStep (s : State) (core stream : Nat) : Option State :=
  match s.skidHead core stream with
  | some (o, v, r, d) =>
    if rLands d && s.hasIssued r then
      let i := Sparse.get 0 (s.port core stream).taken o
      let s := s.store (lsAddr core (rLand d + 32 * rLandStride d * i)) v.data
      let s := s.store (lsAddr core (rLand d + 32 * rLandStride d * rCount d + i * rScales d)) v.scales
      some (s.takeSkid core stream o)
    else none
  | none => none

/-- The pass that takes vectors next: the oldest that has not taken its last. -/
def ArrCore.taking (a : ArrCore) : Option PassRun := a.passes.find? fun p => decide (p.taken < aN p.desc)

/-- The fused push of a pass may write: FREE_SEQ lets it, and no chunk it touches is on the move (R313, R322). -/
def State.pushReady (s : State) (p : PassRun) : Bool :=
  match p.push.bind fun r => (s.dlist r.core r.list).bind fun l => (s.desc r).map fun d => (l, d) with
  | some (l, d) => l.freed (shfFree d) && !s.chunkBusy d (aQuad p.desc)
  | none => true

/-- The array does the next thing it can: a pass without vectors, one from local store, or a vector from the Reel. -/
def State.arrayStep (s : State) (core : Nat) : Option State :=
  match (s.arr core).taking with
  | none => none
  | some p =>
    let d := p.desc
    if !s.pushReady p then none
    else if aK d = 0 then some (s.emptyPass core p)
    else if aLocal d then (if p.taken = 0 then some (s.localPass core p) else none)
    else
      match s.desc ⟨core, p.own.list, aRldSeq d⟩ with
      | none => none
      | some rd =>
        match s.skidHead core (rStream rd) with
        | some (o, v, r, _) =>
          if r.list = p.own.list ∧ r.idx = aRldSeq d then
            let q : PassRun := if p.taken = 0 then { p with base := Sparse.get 0 (s.port core (rStream rd)).taken o } else p
            some ((s.takeSkid core (rStream rd) o).takeVec core q v.data v.scales)
          else none
        | none => none

/-! ### Heads (R185, R195 to R199) -/

/-- Column `c` of a tile of `k` rows of `k` elements of `e` bytes. -/
def tileColumn (tile : List Byte) (k e c : Nat) : List Byte :=
  ((List.range k).map fun r => (tile.drop ((r * k + c) * e)).take e).flatten

/-- Vectors formed of the bytes that have come, in order. -/
def HeadRun.form (h : HeadRun) : Nat → HeadRun
  | 0 => h
  | n + 1 =>
    let d := h.desc
    if rTurn d then
      let k := turnDepth d
      let e := elemBits (rFmt d) / 8
      if k * k * e ≤ h.buf.length ∧ h.formed < rCount d then
        let m := min k (rCount d - h.formed)
        ({ h with ready := h.ready ++ (List.range m).map (tileColumn (h.buf.take (k * k * e)) k e), buf := h.buf.drop (k * k * e)
                  formed := h.formed + m } : HeadRun).form n
      else h
    else if rSize d ≤ h.buf.length ∧ h.formed < rCount d then
      ({ h with ready := h.ready ++ [h.buf.take (rSize d)], buf := h.buf.drop (rSize d), formed := h.formed + 1 } : HeadRun).form n
    else h

/-- Reads that have come, from the oldest on, join the bytes in order. -/
def HeadRun.collect (h : HeadRun) : HeadRun :=
  let got := h.reads.takeWhile (·.2.2.isSome)
  ({ h with reads := h.reads.drop got.length, buf := h.buf ++ (got.map fun x => x.2.2.getD []).flatten } : HeadRun).form 1024

/-- The head's run for the RLD whose turn it is to be injected. -/
def State.headRun (s : State) (core stream : Nat) : Option (Nat × HeadRun) :=
  match s.curRld core stream with
  | some (o, r, d) => if rHead d then (s.str.heads.find? (·.own == r)).map fun h => (o, h) else none
  | none => none

/-- R185: a vector is injected. -/
def State.injectStep (s : State) (core stream : Nat) : Option State :=
  match s.headRun core stream with
  | some (o, h) =>
    match h.ready with
    | x :: rest =>
      let v : RVec := { data := x, scales := s.bytes (rMxs h.desc + h.sent * rScales h.desc) (rScales h.desc), prov := h.prov }
      if !s.hasCredit core stream v.slots || (rUses h.desc && !s.skidFree core) then none
      else
        let p := s.port core stream
        let s := s.setPort core stream { p with fwd := bumpAt p.fwd o, prov := if v.prov then some o else p.prov, skid := if rUses h.desc then p.skid ++ [(o, v)] else p.skid }
        let h' := { h with ready := rest, sent := h.sent + 1 }
        let s := if h'.sent = rCount h.desc ∧ !h.prov then { s with str := { s.str with heads := s.str.heads.filter (·.own != h.own) } } else s.setHead h'
        some (s.sendVec core stream v)
    | [] => none
  | none => none

/-! ### Completion of RLDs (R186) -/

/-- RLDs that have issued, of which every vector has been forwarded and taken, have drained. -/
def State.rldCheck (s : State) (core stream : Nat) : State :=
  let p := s.port core stream
  (s.rldsOf core stream).zipIdx.foldl (fun s (x, o) =>
    if s.hasIssued x.1 && Sparse.get 0 p.fwd o == rCount x.2 && (!rUses x.2 || Sparse.get 0 p.taken o == rCount x.2) then s.drain x.1 else s) s

/-- One thing that happens at a stop, if anything can. -/
def State.reelStep (s : State) (core : Nat) : Option State :=
  (s.arrayStep core) <|> (s.landStep core 0) <|> (s.landStep core 1) <|> (s.forwardStep core 0) <|> (s.forwardStep core 1)
    <|> (s.injectStep core 0) <|> (s.injectStep core 1) <|> (s.headReadStep core false)
    <|> (if s.noneWaits core then s.headReadStep core true else none)

def State.reelGoN (s : State) (core : Nat) : Nat → State
  | 0 => s
  | n + 1 =>
    match s.reelStep core with
    | some s' => s'.reelGoN core n
    | none => s

/-- A stop goes on until nothing can be done; buffers, credits and operation slots bound it. -/
def State.reelGo (s : State) (core : Nat) : State := (((s.reelGoN core 65536).rldCheck core 0).rldCheck core 1)

/-! ### Starts -/

/-- R197: the pass starts with a cold turn: no RLD of the stream comes before it in the core's lists, or the one before has no TURN. -/
def State.coldTurn (s : State) (r : DescRef) (d : Desc) : Bool :=
  let l := s.rldsOf r.core (rStream d)
  match l.findIdx? (·.1 == r) with
  | some (o + 1) => (l[o]?).all fun x => !rTurn x.2
  | _ => true

/-- A head starts a pass, ahead of issue or at it. -/
def State.startHead (s : State) (r : DescRef) (d : Desc) (prov : Bool) (born : Nat) : State :=
  { s with str := { s.str with heads := s.str.heads ++ [({ own := r, desc := d, prov, born } : HeadRun)] } }

/-- Vectors of the RLD in hand at a port are committed (R200). -/
def RVec.commit (v : RVec) : RVec := { v with prov := false }

def State.commitPort (s : State) (core stream : Nat) : State :=
  let p := s.port core stream
  (s.setPort core stream { p with landing := p.landing.map RVec.commit, prov := none, ahead := 0, skid := p.skid.map fun x => (x.1, x.2.commit) }).count
    (R.fwdVectors core) p.ahead

/-- An RLD issues at a head (R185, R200, R245, R249), where a cold turn counts (R197); `bad` handles an error that its run-ahead held, by core and
address. -/
def State.headIssue (s : State) (r : DescRef) (d : Desc) (bad : Nat → Nat → State → State) : State :=
  let s := if rTurn d && s.coldTurn r d then s.count (R.turnCold r.core) else s
  match s.str.heads.find? (·.own == r) with
  | some h =>
    let s := (s.count (R.raCommitted r.core)).commitPort r.core (rStream d)
    let s := s.sendItem r.core (rStream d) .commit
    let s := { s with str := { s.str with ops := s.str.ops.map fun (o : MemOp) => if o.own == r then { o with prov := false } else o } }
    match h.errs with
    | a :: _ => h.errs.foldl (fun s x => bad r.core x s) ((s.setHead { h with prov := false }).streamErr r a)
    | [] =>
      if h.sent = rCount d then { s with str := { s.str with heads := s.str.heads.filter (·.own != r) } } else s.setHead { h with prov := false }
  | none => s.startHead r d false 0

/-- RLD (R184 to R186): it issues; at a head its vectors are injected; one with COUNT 0 completes. -/
def State.rld (s : State) (core num : Nat) (bad : Nat → Nat → State → State) : State :=
  match s.nextDesc core num fun d => dOpcode d == Op.rld with
  | none => s
  | some (l, d) =>
    if !rldPairsOk d then s.descFault core
    else
      let s := s.issue l
      if rCount d = 0 then s.drain l.ref
      else (if rHead d then s.headIssue l.ref d bad else s).reelGo core

/-! ### APD (R136 to R143) -/

/-- The fused VOD and push that issue with the APD at index `i`. -/
def DList.fused (l : DList) (i : Nat) : Option DescRef × Option DescRef :=
  let at_ := fun j => l.descs[j]?
  let v := (at_ (i + 1)).any fusedVod
  let j := if v then i + 2 else i + 1
  (if v then some ⟨l.core, l.num, i + 1⟩ else none, if (at_ j).any fusedPush then some ⟨l.core, l.num, j⟩ else none)

/-- The next descriptor of a list issues with the one before it. -/
def State.issueNext (s : State) (core num : Nat) (r : Option DescRef) : State :=
  match r, s.dlist core num with
  | some _, some l => s.issue l
  | _, _ => s

/-- The record of a fused push is judged and its chunks allocated where it issues (R318, R324). -/
def State.openPush (s : State) (core : Nat) (r : Option DescRef) (quad : Bool) : State :=
  match r.bind fun r => (s.desc r).map fun d => (r, d) with
  | none => s
  | some (r, d) =>
    if !shfPairsOk d then s.descFault core
    else match s.pushError d with
      | some code => s.shfError r d code
      | none =>
        let s := s.createFrame core d
        match s.allocAll core (hShelf d) (rangeChunks (vecRanges d (shfVecs d quad))) with
        | some s' => s'
        | none => s.shfError r d 7

/-- An APD issues: its pass is queued in the array behind those before it. `cold`: the array is idle in the cycle before its first vector
(R133); `bad`: what a faulty array inverts in its outputs. -/
def State.apd (s : State) (core num : Nat) (cold : Bool) (bad : List (Nat × Nat × Word)) : State :=
  match s.nextDesc core num fun d => dOpcode d == Op.apd with
  | none => s
  | some (l, d) =>
    if !apdPairsOk d then s.descFault core
    else
      let f := l.fused l.issued
      -- R322: the Shelf takes no ninth SHF of the core
      if f.2.isSome && decide (8 ≤ s.shfsOf core) then s
      else
      let p : PassRun := { own := l.ref, desc := d, wscale := s.resolveScale core (aScale d), vod := f.1, push := f.2, bad, cold := cold && aK d != 0 }
      let s := ((s.issue l).issueNext core num f.1).issueNext core num f.2
      let s := (s.checkCopy core (scaleRef (aScale d))).checkCopy core ((f.1.bind s.desc).bind fun v => s.divRec core v)
      if (f.1.bind s.desc).any (!vodPairsOk ·) then s.descFault core
      else
        let s := s.openPush core f.2 (aQuad d)
        if s.noIssue core then s
        else if aM d = 0 ∨ aN d = 0 then s.noPass core p
        else
          let a := s.arr core
          (s.setArr core { a with passes := a.passes ++ [p] }).reelGo core

/-! ### Commands -/

/-- SLD (R128). -/
def execSld (core : Fin 256) (list : Fin 8) (s : State) : Outcome := .next (s.sld core.val list.val)

/-- APD (R140). -/
def execApd (core : Fin 256) (list : Fin 8) (cold : Bool) (bad : List (Nat × Fin 130 × Word)) (s : State) : Outcome :=
  .next (s.apd core.val list.val cold (bad.map fun x => (x.1, x.2.1.val, x.2.2)))

/-- First-access latency of the source of the i-th flagged pass, in cycles. -/
def latencyOf (lf : List Half) (i : Nat) : Nat := (lf.getD i (lf.getLastD 0)).toNat

/-- ARRAY_RETRY (R149): every flagged pass is retried, in the order in which they were flagged. `lf`: the first-access latency of the
source of each, the last of the list standing for those after it; `run1`, `run2`: what a
fault inverts in the first and second segment of each flagged pass; `faulty`: rows that the self-test finds. -/
def execArrayRetry (core : Fin 256) (lf : List Half) (run1 run2 : List (Fin 4 × Nat × Fin 130 × Word)) (faulty : List (Fin 130)) (s : State) : Outcome :=
  let a := s.arr core.val
  if a.retryReady && !s.noIssue core.val then
    let ps := a.passes.filter (·.flag.isSome)
    .next ((ps.zipIdx.foldl (fun s (p, i) => s.retryPass core.val (latencyOf lf i) p (ofPass run1 i) (ofPass run2 i) (sortDedup (faulty.map (·.val)))) s).reelGo core.val)
  else .next s

/-- REEL_VECTOR_LAND (R187): the oldest item of the incoming hop is a vector; it lands. -/
def execReelVectorLand (core : Fin 256) (stream : Fin 2) (s : State) : Outcome :=
  let p := s.port core.val stream.val
  match p.hop with
  | .vec v :: rest => .next ((s.setPort core.val stream.val { p with hop := rest, landing := p.landing ++ [v] }).reelGo core.val)
  | _ => .next s

/-- REEL_CREDIT_RETURN (R189): the sender `core` regains the credit of one slot. -/
def execReelCreditReturn (core : Fin 256) (stream : Fin 2) (s : State) : Outcome :=
  let p := s.port core.val stream.val
  if p.returning = 0 then .next s
  else .next ((s.setPort core.val stream.val { p with returning := p.returning - 1 }).reelGo core.val)

/-- A token passes on, unless the next stop is the stream's head. -/
def State.passToken (s : State) (core stream : Nat) (t : RItem) : State := if s.isTail core stream then s else s.sendItem core stream t

/-- COMMIT_TOKEN (R200). -/
def execCommitToken (core : Fin 256) (stream : Fin 2) (s : State) : Outcome :=
  let p := s.port core.val stream.val
  match p.hop with
  | .commit :: rest =>
    .next ((((s.setPort core.val stream.val { p with hop := rest }).commitPort core.val stream.val).passToken core.val stream.val .commit).reelGo core.val)
  | _ => .next s

/-- R201: every provisional vector of the stream at a port is discarded; credits of those in the landing buffer return, and the pass they
belonged to is matched again from vector 0. -/
def State.voidPort (s : State) (core stream : Nat) : State :=
  let p := s.port core stream
  let gone := p.landing.filter (·.prov)
  let n := gone.length + (p.skid.filter (·.2.prov)).length
  let s := s.setPort core stream ({ p with landing := p.landing.filter (!·.prov) } : RPort).unprov
  (gone.foldl (fun s v => s.freeSlots core stream v.slots) s).count (R.provDiscards core) n

/-- VOID_TOKEN (R201). -/
def execVoidToken (core : Fin 256) (stream : Fin 2) (s : State) : Outcome :=
  let p := s.port core.val stream.val
  match p.hop with
  | .void :: rest =>
    .next ((((s.setPort core.val stream.val { p with hop := rest }).voidPort core.val stream.val).passToken core.val stream.val .void).reelGo core.val)
  | _ => .next s

/-- REEL_STALL (R192, R193): STALL_CYCLES and HELD_CYCLES of the ports given rise; and an episode of the head `core` on `stream` that lasted `cycles`
cycles ends (0: none does), whose origin is the member whose STALL_CYCLES rose by the most. [DEDUCED, log entry 113] -/
def execReelStall (core : Fin 256) (stream : Fin 2) (cycles : Word) (stall held : List (Fin 256 × Word)) (s : State) : Outcome :=
    let s := stall.foldl (fun s x => s.count (R.stallCycles x.1.val) x.2.toNat) s
    let s := held.foldl (fun s x => s.count (R.heldCycles x.1.val) x.2.toNat) s
    let thr := s.regN R.reelStallThresh
    if !s.isHead core.val stream.val ∨ thr = 0 ∨ cycles.toNat ≤ thr then .next s
    else
      let origin := (stall.foldl (fun (b : Fin 256 × Word) x => if b.2.toNat < x.2.toNat then x else b) (stall.headD (core, 0))).1
      let tag := ((s.curRld core.val stream.val).map fun x => dTag x.2.2).getD noHalf
      let s := s.logFull (srcOf 0x11 core.val) 0x0B (BitVec.ofNat 16 core.val) tag (leBytes 1 stream.val ++ [0, 0, 0] ++ leBytes 4 cycles.toNat ++ leBytes 2 origin.val) []
      .next ((s.count R.reelStalls).orReg R.reelStatus 1)

/-! ### Run-ahead (R199, R243) -/

/-- A head starts a pass before its RLD issues. -/
def State.headAhead (s : State) (l : DList) (i : Nat) (d : Desc) : State :=
  if rRa d && rHead d && s.mayRunAhead l i && s.noneWaits l.core && rCount d != 0 then
    (let r := s.raStart l.core; r.2.startHead ⟨l.core, l.num, i⟩ d true r.1).reelGo l.core
  else s

/-- RUN_AHEAD_START (R243): descriptor `idx` of the list starts its reads. -/
def execRunAheadStart (core : Fin 256) (list : Fin 8) (idx : Nat) (s : State) : Outcome :=
  match s.dlist core.val list.val with
  | none => .next s
  | some l =>
    match l.descs[idx]? with
    | some d =>
      if dOpcode d = Op.sd then .next (s.sdAhead l idx d)
      else if dOpcode d = Op.rld then .next (s.headAhead l idx d)
      else .next s
    | none => .next s

end Sys2Proof.Machine
end

