-- ==== Sys2Proof/Machine/Tree.lean ====
section
/-!
DEFINITION. Messages on the mark tree of a tide group (R58, R63, R393, R480, R618).
-/
namespace Sys2Proof.Machine

/-- A message that this member originates goes to every tree neighbour (R618). -/
def State.broadcast (s : State) (p : Pkt) : State := s.neighbours.foldl (fun s d => s.originate { p with dst := d }) s

/-- A path to device `d` leads over link `l`. -/
def State.pathUses (s : State) (l : Nat) (d : Half) : Bool := (s.paths d.toNat).any (·.1 == l)

/-- The neighbour from which a relayed message came: the one its arrival names; or else the partner of its link; its originator; or else, over an external switch or another device's transit,
the first neighbour to which a path leads over that link. [DESIGN CHOICE, log entry 112] -/
def State.cameFrom (s : State) (l : Nat) (p : Pkt) : Option Half :=
  if p.here.sender.any s.neighbours.contains then p.here.sender
  else if s.neighbours.contains (s.partnerDev l) then some (s.partnerDev l)
  else if s.neighbours.contains p.src then some p.src
  else s.neighbours.find? (s.pathUses l)

/-- R618: a received message is forwarded at once to every tree neighbour but the one from which it came, with only DST_DEV changed. -/
def State.relay (s : State) (l : Nat) (p : Pkt) : State :=
  (s.neighbours.filter fun d => s.cameFrom l p != some d).foldl (fun s d => s.routePkt { p with dst := d }) s

/-- A message to each child (R58, R393). -/
def State.toChildren (s : State) (p : Pkt) : State :=
  s.group.children.foldl (fun s d => s.routePkt { p with dst := BitVec.ofNat 16 d }) s

/-- R480: a request whose tideline is the first quiescent step advance that closes step `step` + 1 or later. -/
def State.addRequest (s : State) (step : Nat) : State :=
  if s.snap.requests.contains (step + 1) then s else { s with snap := { s.snap with requests := s.snap.requests ++ [step + 1] } }

/-- R480: this member requests a snapshot: it records the request and broadcasts SNAP_REQ with the step in effect. -/
def State.snapRequest (s : State) : State :=
  (s.addRequest s.job.step.toNat).broadcast { tidePkt T.snapReq with step := s.job.step }

end Sys2Proof.Machine
end

