-- ==== Sys2Proof/Machine/Update.lean ====
section
/-!
DEFINITION. The update engine (chapter 9): update records, the gate, the built-in rules, the FP8 copy, and versions.
-/
namespace Sys2Proof.Machine

/-! ### Update records (Tables 9.1, 9.2) -/

def State.setRec (s : State) (u : Nat) (r : UpdRec) : State := { s with upd := { s.upd with recs := Sparse.put {} s.upd.recs u r } }

/-! ### Hyperparameters (Table 9.3) -/

def State.hpWord (s : State) (r : UpdRec) (i : Nat) : Word := BitVec.ofNat 32 (bytesAt (s.upd.hp.getD r.hset []) (4 * i) 4)
def State.hpLr (s : State) (r : UpdRec) : Word := s.hpWord r 0
def State.hpWd (s : State) (r : UpdRec) : Word := s.hpWord r 1
def State.hpBeta1 (s : State) (r : UpdRec) : Word := s.hpWord r 2
def State.hpBeta2 (s : State) (r : UpdRec) : Word := s.hpWord r 3
def State.hpEps (s : State) (r : UpdRec) : Word := s.hpWord r 4
def State.hpGscale (s : State) (r : UpdRec) : Word := s.hpWord r 5
def State.hpDamp (s : State) (r : UpdRec) : Word := s.hpWord r 6
def State.hpNesterov (s : State) (r : UpdRec) : Bool := bit (s.hpWord r 7) 0

/-! ### Operands -/

/-- 64 lanes of FMT `f` in local store, as FP32. -/
def State.lsLanes (s : State) (core f off : Nat) : List Word := widen f (unpack f 64 (s.ls core off (lanesSize f))) []

/-- Lanes written to local store in FMT `f`: BF16 state is rounded stochastically (R354, recipe O), and counted (R299): an infinity
made of finite operands is an overflow. -/
def State.putLanes (s : State) (core f off : Nat) (stoch : Bool) (ws : List Word) (finite : List Bool) : State :=
  let draw := if stoch then (let r := s.drawLanes core; (some r.1, r.2)) else (none, s)
  let c := convertLanes s.free f draw.1 (.fin false 1 0) (ws.map wval)
  let made := (c.2.2.zip (ws.zip finite)).map fun x => if x.2.2 && !wfin x.2.1 && !(wval x.2.1).isNan then Loss.overflow else x.1
  (draw.2.countLosses core f none made).store (lsAddr core off) (pack f c.1)

/-- The gradient operand: FP32 in the accumulator file or in local store. -/
def State.gradLanes (s : State) (core : Nat) (d : Desc) (i : Nat) : List Word :=
  if vASp d = 1 then (s.arr core).entry (vSrcA d + vAStride d * i) else s.lsLanes core Fm.fp32 (vSrcA d + 32 * vAStride d * i)

def offB (d : Desc) (i : Nat) : Nat := vSrcB d + 32 * vBStride d * i
def offC (d : Desc) (i : Nat) : Nat := vSrcC d + 32 * vCStride d * i
def offDst (d : Desc) (i : Nat) : Nat := vDst d + 32 * vDstStride d * i

def State.putAcc (s : State) (core e : Nat) (ws : List Word) : State := s.setArr core ((s.arr core).setEntry e ws)

/-- Optimizer state format (MFMT). -/
def UpdRec.mfmt (r : UpdRec) : Nat := if r.bf16Moments then Fm.bf16 else Fm.fp32

def zip3 (f : Word → Word → Word → Word) (a b c : List Word) : List Word := (a.zip (b.zip c)).map fun x => f x.1 x.2.1 x.2.2

/-! ### The built-in rules (R351 to R353) -/

/-- An FP32 result of an update (R354): of operands all finite, an infinity counts as an overflow (R299). -/
def State.countMade (s : State) (core : Nat) (ws : List Word) (finite : List Bool) : State :=
  s.countLosses core Fm.fp32 none ((ws.zip finite).map fun x => lossOf x.1 x.2)

/-- Lanes at which every list is finite. -/
def allFinite (ls : List (List Word)) : List Bool := (List.range 64).map fun i => ls.all fun l => (l[i]?).all wfin

/-- R351. -/
def State.sgdVec (s : State) (core : Nat) (d : Desc) (r : UpdRec) (i : Nat) : State :=
  let g := s.gradLanes core d i
  let b := s.lsLanes core r.mfmt (offB d i)
  let w := s.lsLanes core Fm.bf16 (offC d i)
  let mu := s.hpBeta1 r
  let dd := (g.zip w).map fun x => fadd .even (fmul (s.hpGscale r) x.1) (fmul (s.hpWd r) x.2)
  let b' := if r.version = 0 then dd
    else (dd.zip b).map fun x => fadd .even (fmul mu x.2) (fmul (fsub f32one (s.hpDamp r)) x.1)
  let u := if s.hpNesterov r then (dd.zip b').map fun x => fadd .even x.1 (fmul mu x.2) else b'
  -- at VERSION 0 b is no operand
  let fin := allFinite (if r.version = 0 then [g, w] else [g, b, w])
  let s := (((if r.version = 0 then s else s.countWide core r.mfmt b).countWide core Fm.bf16 w).countMade core u fin)
  (s.putLanes core r.mfmt (offB d i) r.bf16Moments b' fin).putAcc core (vDst d + vDstStride d * i) u

/-- R352. The value of u is bounded and not fixed (R354: within 6 ulp of the rule evaluated exactly on the inputs). [DESIGN CHOICE, log entry 91] -/
def State.adamVec (s : State) (core : Nat) (d : Desc) (r : UpdRec) (i : Nat) : State :=
  let g0 := s.gradLanes core d i
  let g := g0.map (fmul (s.hpGscale r))
  let m := s.lsLanes core r.mfmt (offB d i)
  let v := s.lsLanes core r.mfmt (offC d i)
  let b1 := s.hpBeta1 r
  let b2 := s.hpBeta2 r
  let m' := (m.zip g).map fun x => fadd .even (fmul b1 x.1) (fmul (fsub f32one b1) x.2)
  let v' := (v.zip g).map fun x => fadd .even (fmul b2 x.1) (fmul (fsub f32one b2) (fmul x.2 x.2))
  let at_ := fun (l : List Word) j => wval (l.getD j 0)
  let u := (List.range 64).map fun j => w32 .even (boundedTo (s.free + j) 6 none
    (adamVal (wval (s.hpGscale r)) (at_ g0 j) (at_ m j) (at_ v j) (wval b1) (wval b2) (wval (s.hpEps r)) (r.version.toNat + 1)))
  let s := { s with free := s.free + 64 }
  let s := (((s.countWide core r.mfmt m).countWide core r.mfmt v).countMade core u (allFinite [g0, m, v]))
  let s := (s.putLanes core r.mfmt (offB d i) r.bf16Moments m' (allFinite [g0, m])).putLanes core r.mfmt (offC d i) r.bf16Moments v'
    (allFinite [g0, v])
  s.putAcc core (vDst d + vDstStride d * i) u

/-- A sum of a layer (R301): SSQ_W 0, SSQ_DW 1. [DESIGN CHOICE, log entry 91] -/
def State.layerSum (s : State) (layer kind : Nat) (ws : List Word) : State :=
  let k := 4 * layer + kind
  let t := ws.foldl (fun a w => fadd .even a (fmul w w)) (Sparse.get 0 s.nums.layers k)
  { s with nums := { s.nums with layers := Sparse.put 0 s.nums.layers k t } }

/-- A count of a layer (R357): W_OVERFLOW 2, W_VANISH 3. -/
def State.layerCount (s : State) (layer kind n : Nat) : State :=
  let k := 4 * layer + kind
  { s with nums := { s.nums with layers := Sparse.put 0 s.nums.layers k (satAdd (Sparse.get 0 s.nums.layers k) n) } }

/-- The 64 half-words of a high or low half. -/
def State.halves (s : State) (core off : Nat) : List Nat := unpack Fm.bf16 64 (s.ls core off 128)

/-- R353: w and w′ of vector `i`. -/
def State.applyWords (s : State) (core : Nat) (d : Desc) (r : UpdRec) (i : Nat) : List Word × List Word :=
  let u := (s.arr core).entry (vSrcA d + vAStride d * i)
  let hi := s.halves core (offB d i)
  let w : List Word := if r.split32 then (hi.zip (s.halves core (offC d i))).map fun x => word (x.1 * 65536 + x.2) else hi.map fun h => word (h * 65536)
  let wd : Word := if r.opt = 0 then 0 else s.hpWd r
  (w, (w.zip u).map fun x => fsub x.1 (fmul (s.hpLr r) (fadd .even x.2 (fmul wd x.1))))

/-- R342, R343, R353, R356: vector `i` of an APPLY; none when its channel lies beyond the amax file. -/
def State.applyVec (s : State) (core : Nat) (d : Desc) (r : UpdRec) (i : Nat) : Option State :=
  let (w, w') := s.applyWords core d r i
  let a := s.arr core
  let c := Sparse.get 0 a.chCount (uRec d)
  let j := c / max 1 r.chVecs
  if r.cfmt ≠ 0 ∧ 64 ≤ j then none
  else
    let s := if r.cfmt = 0 then s
      else
        let m := (w'.map fabs).foldl (fmaxOf false) (Sparse.get 0 a.chMax j)
        s.setArr core { a with chMax := Sparse.put 0 a.chMax j m, chCount := Sparse.put 0 a.chCount (uRec d) (c + 1) }
    let s := if r.split32 then s else s.countWide core Fm.bf16 w
    let s := (s.layerSum r.layer 0 w).layerSum r.layer 1 ((w'.zip w).map fun x => fsub x.1 x.2)
    some (if r.split32 then
      let s := s.store (lsAddr core (offDst d i)) (pack Fm.bf16 (w'.map fun (x : Word) => x.toNat / 65536))
      (s.store (lsAddr core (offC d i)) (pack Fm.bf16 (w'.map fun (x : Word) => x.toNat % 65536))).countMade core w'
        (allFinite [w, (s.arr core).entry (vSrcA d + vAStride d * i)])
    else s.putLanes core Fm.bf16 (offDst d i) true w' (allFinite [w, (s.arr core).entry (vSrcA d + vAStride d * i)]))

/-! ### The FP8 copy (R356, R357) -/

/-- FMT of the FP8 copy. -/
def UpdRec.copyFmt (r : UpdRec) : Nat := if r.cfmt = 1 then Fm.e4m3 else Fm.e5m2

/-- s_n of R291 for an output channel's amax, clamped (R357); the spec gives no scale for an amax that is a NaN. [DESIGN CHOICE, log entry 91] -/
def State.channelScale (s : State) (r : UpdRec) (j : Nat) (m : Word) : Word :=
  if (wval m).isZero then f32one
  else if (wval m).isNan then w32 .even (wval (freeW (s.free + j)))
  else if !wfin m then pow2Word 127 127 127
  else pow2Word (-126) 127 (scaleExp 0 r.copyFmt m)

/-- R357: the scale tables of the channels counted; none when the counter is no whole number of channels. -/
def State.chScales (s : State) (core : Nat) (d : Desc) (r : UpdRec) : Option State :=
  let a := s.arr core
  let v := max 1 r.chVecs
  let c := Sparse.get 0 a.chCount (uRec d)
  if c = 0 ∨ c % v ≠ 0 then none
  else
    let g := c / v
    let sc := (List.range g).map fun j => s.channelScale r j (Sparse.get 0 a.chMax j)
    let bias := s.lsLanes core Fm.fp32 (vSrcA d)
    let s' := s.store (lsAddr core (vDst d)) (pack Fm.fp32 ((sc ++ List.replicate (64 - g) 0).map fun (x : Word) => x.toNat))
    let s' := sc.zipIdx.foldl (fun (s : State) (x, j) =>
      s.store (lsAddr core (offC d j)) (pack Fm.bf16 (List.replicate 64 (bf16.round .even (wval x)).1))) s'
    let s' := if r.hasBias then
        let s' := s'.countMade core (sc.zipIdx.map fun (x, j) => fdiv (bias.getD j 0) x) (bias.map wfin)
        sc.zipIdx.foldl (fun (s : State) (x, j) => s.store (lsAddr core (vSrcB d + 4 * j)) (leBytes 4 (fdiv (bias.getD j 0) x).toNat)) s'
      else s'
    let chs := sc.zipIdx.foldl (fun m (x, j) => Sparse.put 0 m j x) a.chs
    some { s'.setArr core { s'.arr core with chMax := [], chCount := [], chs, quants := 0 } with free := s.free + 64 }

/-- R357: vector `i` of a QUANT. -/
def State.quantVec (s : State) (core : Nat) (d : Desc) (r : UpdRec) (i : Nat) : State :=
  let a := s.arr core
  let sc := Sparse.get 0 a.chs (a.quants / max 1 r.chVecs)
  let w := s.lsLanes core Fm.bf16 (vSrcA d + 32 * vAStride d * i)
  let c := convertLanes s.free r.copyFmt none (wval sc) (w.map wval)
  let s := ((s.setArr core { a with quants := a.quants + 1 }).countWide core Fm.bf16 w).countLosses core r.copyFmt none c.2.2
  let s := (s.layerCount r.layer 2 (c.2.2.filter (· == .overflow)).length).layerCount r.layer 3 (c.2.2.filter (· == .vanish)).length
  s.store (lsAddr core (offDst d i)) (pack r.copyFmt c.1)

/-- R355: vector `i` of a GMOV: any format to any, BF16 rounded stochastically. -/
def State.gmovVec (s : State) (core : Nat) (d : Desc) (i : Nat) : State :=
  let d' : Desc := if vDfmt d = Fm.bf16 ∧ vDstSp d = 0 then setBits d 286 1 1 else d
  let a := s.source core i d false [] (vASp d) (vSrcA d) (vAStride d)
  { (s.countSrc s core i d false (vASp d) (vSrcA d) (vAStride d)).writeResult core core i d' 64 (a.map wval) with free := s.free + 130 }

/-! ### Errors and waits -/

def State.updErr (s : State) (r : DescRef) (d : Desc) (code : Nat) : State :=
  s.updError code (uRec d) 1 (code + 16 * uRec d + 65536 * (r.core % 256)) r.core (s.tagOf r)

/-- The next descriptor of the list, when it is an update operation `op`. -/
def State.nextUpd (s : State) (core num op : Nat) : Option (DList × Desc) := s.nextDesc core num fun d => dOpcode d == Op.vod && vOp d == op

/-- A wait for pins (R361): VER_WAIT, and its cycles since the command was last given. [DEDUCED, log entry 92] -/
def State.verWait (s : State) (cycles : Word) : State :=
  if cycles = 0 then s else (s.orReg R.updStatus 2).count R.verWaitCycles cycles.toNat

/-- The resolved copy of a record holds R12 and its ECC (Table 9.6). -/
def State.updRecOk (s : State) (u : Nat) : Bool := recPairsOk (s.updRec u).stat && !s.spoilt (.update u)

/-- A gated operation (R347, R362): of no vectors, a no-op (R166); held while the gate is OPEN; a no-op under SKIP; under PASS it runs, unless its record has been committed in
the step. `waits`: it waits on pins, under PASS or SKIP, and sets UPDATING (R361). `gateWait` and `pinWait` are the cycles that it has waited since the command was last
given; a wait that goes on counts them too. `run` is its effect, with its reference, and whether it ends well; otherwise it is an error of the group
kind, UPD_GROUP. [DEDUCED, log entry 92] -/
def State.gated (s : State) (core num op : Nat) (waits : Bool) (gateWait pinWait : Word) (run : State → DescRef → Desc → UpdRec → State × Bool) : State :=
  match s.nextUpd core num op with
  | none => s
  | some (l, d) =>
    let g := s.field R.gate 0 2
    let rec_ := s.updRec (uRec d)
    if !vodPairsOk d then s.descFault core
    else if vCount d = 0 then (s.issue l).drain l.ref
    else
      let s := s.count R.gateWaitCycles gateWait.toNat
      let s := if waits then s.verWait pinWait else s
      let pinned := waits && rec_.ref rec_.target != 0
      if g = 0 then s
      else if g = 2 then (if pinned then s.orReg R.updStatus 2 else (((s.issue l).count R.skippedUpdates).noteSkip l.ref).drain l.ref)
      else if !s.updRecOk (uRec d) then ((s.issue l).updErr l.ref d 5)
      else if rec_.committed then ((s.issue l).updErr l.ref d 2)
      else
        if pinned then s.orReg R.updStatus 2
        else
          let s := s.issue l
          let s := if waits then s.setRec (uRec d) { rec_ with updating := true } else s
          match run s l.ref d (s.updRec (uRec d)) with
          | (s', true) => s'.drain l.ref
          | (s', false) => s'.updErr l.ref d 4

/-- Every vector of an operation, in order. -/
def overVecs (d : Desc) (s : State) (f : State → Nat → State) : State := (List.range (vCount d)).foldl f s

/-! ### Commands -/

/-- SGD_MOM (R351). -/
def execSgdMom (core : Fin 256) (list : Fin 8) (gateWait : Word) (s : State) : Outcome :=
  .next (s.gated core.val list.val 0x20 false gateWait 0 fun s _ d r => (overVecs d s fun s i => s.sgdVec core.val d r i, true))

/-- ADAM_MOM (R352). -/
def execAdamMom (core : Fin 256) (list : Fin 8) (gateWait : Word) (s : State) : Outcome :=
  .next (s.gated core.val list.val 0x21 false gateWait 0 fun s _ d r => (overVecs d s fun s i => s.adamVec core.val d r i, true))

/-- APPLY (R353). -/
def execApplyUpd (core : Fin 256) (list : Fin 8) (gateWait pinWait : Word) (s : State) : Outcome :=
  .next (s.gated core.val list.val 0x22 true gateWait pinWait fun s _ d r =>
    (List.range (vCount d)).foldl (fun o i =>
      if o.2 then (match o.1.applyVec core.val d r i with | some s' => (s', true) | none => (o.1, false)) else o) (s, true))

/-- CH_SCALES (R357). -/
def execChScales (core : Fin 256) (list : Fin 8) (gateWait pinWait : Word) (s : State) : Outcome :=
  .next (s.gated core.val list.val 0x23 true gateWait pinWait fun s _ d r => match s.chScales core.val d r with | some s' => (s', true) | none => (s, false))

/-- QUANT (R357). -/
def execQuant (core : Fin 256) (list : Fin 8) (gateWait pinWait : Word) (s : State) : Outcome :=
  .next (s.gated core.val list.val 0x24 true gateWait pinWait fun s _ d r => (overVecs d s fun s i => s.quantVec core.val d r i, true))

/-- GMOV (R355). -/
def execGmov (core : Fin 256) (list : Fin 8) (gateWait : Word) (s : State) : Outcome :=
  .next (s.gated core.val list.val 0x25 false gateWait 0 fun s _ d _ => (overVecs d s fun s i => s.gmovVec core.val d i, true))

/-- GRAD_PASS (R350). -/
def execGradPass (core : Fin 256) (list : Fin 8) (gateWait : Word) (s : State) : Outcome :=
  .next (s.gated core.val list.val 0x26 false gateWait 0 fun s _ _ _ => (s, true))

/-- VER_COMMIT (R362): without UPDATING it ends with UPD_COMMIT. -/
def State.verCommit (s : State) (core num : Nat) (gateWait : Word) : State :=
  match s.nextUpd core num 0x2A with
  | none => s
  | some (l, d) =>
    let r := s.updRec (uRec d)
    if s.field R.gate 0 2 == 1 && vodPairsOk d && vCount d != 0 && s.updRecOk (uRec d) && !r.committed && !r.updating then
      ((s.count R.gateWaitCycles gateWait.toNat).issue l).updErr l.ref d 3
    else s.gated core num 0x2A false gateWait 0 fun s _ d r =>
      ((s.setRec (uRec d) { r with version := r.version + 1, updating := false, committed := true }).count R.commits, true)

/-- VER_COMMIT (R362). -/
def execVerCommit (core : Fin 256) (list : Fin 8) (gateWait : Word) (s : State) : Outcome := .next (s.verCommit core.val list.val gateWait)

/-- VER_PIN (R360, R361): under FLUSH it waits while UPDATING is set; `wait` is the cycles that it has waited since the command was last given. -/
def execVerPin (core : Fin 256) (list : Fin 8) (wait : Word) (s : State) : Outcome :=
  match s.nextUpd core.val list.val 0x28 with
  | none => .next s
  | some (l, d) =>
    let r := s.updRec (uRec d)
    if !vodPairsOk d then .next (s.descFault core.val)
    else if !s.updRecOk (uRec d) then .next (((s.verWait wait).issue l).updErr l.ref d 5)
    else if !r.stash && r.updating then .next ((s.verWait wait).orReg R.updStatus 2)
    else
      let s := (s.verWait wait).issue l
      if r.pin (uShelf d) ≠ 0 then .next (s.updErr l.ref d 1)
      else
        let slot := r.current
        let r' := { r.setRef slot (r.ref slot + 1) with pins := setBits r.pins (2 * uShelf d) 2 (2 + slot) }
        .next ((s.setRec (uRec d) r').drain l.ref)

/-- VER_UNPIN (R360). -/
def execVerUnpin (core : Fin 256) (list : Fin 8) (s : State) : Outcome :=
  match s.nextUpd core.val list.val 0x29 with
  | none => .next s
  | some (l, d) =>
    let r := s.updRec (uRec d)
    if !vodPairsOk d then .next (s.descFault core.val)
    else if !s.updRecOk (uRec d) then .next ((s.issue l).updErr l.ref d 5)
    else
      let s := s.issue l
      if r.pin (uShelf d) = 0 then .next (s.updErr l.ref d 1)
      else
        let slot := r.pin (uShelf d) - 2
        let r' := { r.setRef slot (r.ref slot - 1) with pins := setBits r.pins (2 * uShelf d) 2 0 }
        .next ((s.setRec (uRec d) r').drain l.ref)

end Sys2Proof.Machine
end

