-- ==== Sys2Proof/Machine/Finish.lean ====
section
/-!
DEFINITION. The completion of a descriptor (R73), and what may go on after it.
-/
namespace Sys2Proof.Machine

/-- The units of a core go on: its stream engine, the Shelf, and its Reel port. -/
def State.settle (s : State) (core : Nat) : State := (s.pumpCore core).pumpShelf.reelGo core

/-- R73: a descriptor completes, and what waited for it goes on; R348: SDs that a gated operation of a skipped step frees write nothing. [DEDUCED, log entry 97] -/
def State.completeDesc (s : State) (r : DescRef) : State :=
  let gated := (s.dlist r.core r.list).any (·.skipFree r.idx)
  let s := s.descDone r
  (if gated then s.skipWaiters r else s).settle r.core

/-- The work of this descriptor has drained, and it has not completed. -/
def State.isDrained (s : State) (r : DescRef) : Bool := (s.dlist r.core r.list).any fun l => l.busy.contains r.idx && l.drained.contains r.idx

/-- DESC_DONE (R73). -/
def execDescDone (core : Fin 256) (list : Fin 8) (idx : Nat) (s : State) : Outcome :=
  .next (if s.isDrained ⟨core.val, list.val, idx⟩ then s.completeDesc ⟨core.val, list.val, idx⟩ else s)

/-- Arrays whose fused push waited for a chunk go on (R313). -/
def State.passesGo (s : State) : State := (s.cores.map (·.1)).foldl (fun s c => if (s.arr c).passes.any (·.push.isSome) then s.reelGo c else s) s

/-- CHUNK_MOVE_DONE (R313): the move of a chunk ends, and accesses that waited for it go on. -/
def execChunkMoveDone (shelf : Fin 32) (idx : BitVec 16) (s : State) : Outcome :=
  match s.chunkAt shelf.val idx.toNat with
  | some c =>
    if c.moving && c.pieces.isEmpty && !(s.str.ops.any (·.own == c.ref)) then
      .next { s with shelf := { s.shelf with chunks := s.shelf.chunks.map fun x => if x == c then { c with moving := false } else x } }.pumpShelf.passesGo
    else .next s
  | none => .next s

end Sys2Proof.Machine
end

