-- ==== Sys2Proof/Machine/Tmk.lean ====
section
/-!
DEFINITION. TMK descriptors (R74, R75) and group barriers (R392 to R394).
-/
namespace Sys2Proof.Machine

/-! ### Fields of a TMK (Table 2.7) -/

def tOp (d : Desc) : Nat := bits d 64 4
def tEvt (d : Desc) : Nat := bits d 72 8
def tMarkId (d : Desc) : Nat := bits d 80 16
def tCount (d : Desc) : Nat := bits d 96 32
def tBeatOff (d : Desc) : Nat := bits d 128 32
def tBarrier (d : Desc) : Nat := bits d 160 16
def tTargets (d : Desc) : Nat := bits d 192 256

/-- R12: the complement pairs of a TMK hold. -/
def tmkPairsOk (d : Desc) : Bool := hdrOk d && fieldPairOk d 4 64 448

/-- The next descriptor of a list is a TMK with operation `op`. -/
def State.nextTmk (s : State) (core num op : Nat) : Option (DList × Desc) := s.nextDesc core num fun d => dOpcode d == Op.tmk && tOp d == op

/-- A TMK issues: `act` gets the state after the issue, the reference and the descriptor. A failed pair is a fault of its core. -/
def State.tmk (s : State) (core num op : Nat) (act : State → DList → Desc → State) : State :=
  match s.nextTmk core num op with
  | none => s
  | some (l, d) => if !tmkPairsOk d then s.descFault core else act (s.issue l) l d

/-! ### Marks and waits for a beat -/

/-- R74, R122: a mark entry of the tide's telemetry record; the tide's first 112 are recorded, and later ones set MARKS_LOST. -/
def State.addMark (s : State) (core id : Nat) : State :=
  let t := s.tide
  if t.marks.length < 112 then
    { s with tide := { t with marks := t.marks ++ [({ beat := BitVec.ofInt 64 s.groupBeat, id, core } : Mark)] } }
  else { s with tide := { t with marksLost := true } }

/-- Record to which an amax accumulator is bound when nothing binds it. -/
abbrev unbound : Nat := 1024

/-- R285: a bind mark names an accumulator in bits 14:10 of MARK_ID and a record in bits 9:0. -/
def State.bindMark (s : State) (core id : Nat) : State :=
  let a := s.arr core
  s.setArr core { a with bind := Sparse.put unbound a.bind (nbits id 10 5) (nbits id 0 10) }

/-- R345: the step marks, of which 0x7FFE asks for a quiescent advance. -/
def State.stepMarkAt (s : State) (id : Nat) : State :=
  { s with tide := { s.tide with stepMark := true, quiescent := s.tide.quiescent || id == 0x7FFE } }

/-- R488: a position mark: micro-batch COUNT[14:10], layer COUNT[9:0], draw indices 0. -/
def State.positionMark (s : State) (core count : Nat) : State :=
  s.setArr core { s.arr core with mb := nbits count 10 5, layer := nbits count 0 10, draws := [] }

/-- What a LOCAL_MARK does beside its entry in the tide's telemetry record. -/
def State.markEffect (s : State) (core : Nat) (d : Desc) : State :=
  let id := tMarkId d
  let s := if 0x8000 ≤ id then s.bindMark core id else if id = 0x7FFF ∨ id = 0x7FFE then s.stepMarkAt id else s
  if bit d 127 then s.positionMark core (tCount d) else s

/-- LOCAL_MARK (R74, R122, R285, R345, R488). -/
def execLocalMark (core : Fin 256) (list : Fin 8) (s : State) : Outcome :=
  .next (s.tmk core.val list.val 0 fun s l d => ((s.addMark core.val (tMarkId d)).markEffect core.val d).completeDesc l.ref)

/-- R74: the group beat has reached the opening boundary of the list's tide plus BEAT_OFF, which lies within one period (R75): a list of an
earlier tide, in a multi-tide span, has passed it. [DEDUCED, log entry 97] -/
def State.beatReached (s : State) (l : DList) (d : Desc) : Bool :=
  decide (l.tide < s.tide.count.toNat) || decide (s.tide.openBeat + tBeatOff d ≤ s.groupBeat)

/-- WAIT_BEAT (R74): it completes at once when its beat has passed. -/
def execWaitBeat (core : Fin 256) (list : Fin 8) (s : State) : Outcome :=
  .next (s.tmk core.val list.val 1 fun s l d => if s.beatReached l d then s.completeDesc l.ref else s)

/-- The list's TMK of operation `op` that has issued and not completed. -/
def State.heldTmk (s : State) (core num op : Nat) : Option (DList × Nat × Desc) :=
  (s.dlist core num).bind fun l => l.busy.findSome? fun j =>
    match l.descs[j]? with
    | some d => if dOpcode d == Op.tmk && tOp d == op then some (l, j, d) else none
    | none => none

/-- WAIT_BEAT_REACHED (R74). -/
def execWaitBeatReached (core : Fin 256) (list : Fin 8) (s : State) : Outcome :=
  match s.heldTmk core.val list.val 1 with
  | some (l, j, d) => .next (if s.beatReached l d then s.completeDesc ⟨l.core, l.num, j⟩ else s)
  | none => .next s

/-! ### Event counters (R75) -/

/-- Key of counter `e` of a core. -/
def evtKey (core e : Nat) : Nat := 16 * core + e % 16

def State.evt (s : State) (core e : Nat) : Word := Sparse.get 0 s.evts (evtKey core e)

/-- A saturating increment of an event counter. -/
def State.evtAdd (s : State) (core e n : Nat) : State := { s with evts := Sparse.put 0 s.evts (evtKey core e) (satAdd (s.evt core e) n) }

/-- TMK WAIT_EVENTs of a core whose threshold is reached complete. -/
def State.evtWaiters (s : State) (core : Nat) : State :=
  (List.range 8).foldl (fun s num =>
    match s.heldTmk core num 3 with
    | some (l, j, d) => if tCount d ≤ (s.evt core (tEvt d)).toNat then s.completeDesc ⟨l.core, l.num, j⟩ else s
    | none => s) s

/-- SIGNAL (R74): COUNT goes to every core in TARGET_MASK over VC0; with no target it completes at once. -/
def execTmkSignal (core : Fin 256) (list : Fin 8) (s : State) : Outcome :=
  .next (s.tmk core.val list.val 2 fun s l d =>
    let cs := setBitsOf 256 (tTargets d)
    let s := cs.foldl (fun s c => s.emit (.signal c (tEvt d) (word (tCount d)))) s
    let s := { s with str := { s.str with signals := s.str.signals ++ cs.map fun c => ({ own := l.ref, target := c, evt := tEvt d, count := tCount d } : Signal) } }
    if cs.isEmpty then s.completeDesc l.ref else s)

/-- EVT_COUNTER_ADD (R74, R75): a core applies the `k`th increment that is on its way to it; when every target has applied its own, the SIGNAL
completes. -/
def execEvtCounterAdd (core : Fin 256) (k : Nat) (s : State) : Outcome :=
  match (s.str.signals.filter (·.target == core.val))[k]? with
  | none => .next s
  | some g =>
    let s := { s with str := { s.str with signals := s.str.signals.erase g } }
    let s := (s.evtAdd core g.evt g.count).evtWaiters core
    .next (if s.str.signals.any (·.own == g.own) then s else s.completeDesc g.own)

/-- WAIT_EVENT (R74). -/
def execWaitEvent (core : Fin 256) (list : Fin 8) (s : State) : Outcome :=
  .next (s.tmk core.val list.val 3 fun s l d => if tCount d ≤ (s.evt core (tEvt d)).toNat then s.completeDesc l.ref else s)

/-! ### Barriers (R392 to R394) -/

/-- A BARRIER packet: ARRIVE 1, RELEASE 2 (Table 11.16). -/
def barPkt (tt : Byte) (id tide : Nat) : Pkt :=
  { kind := K.barrier, dst := 0, ttype := tt, barrier := BitVec.ofNat 16 id, tide := BitVec.ofNat 64 tide }

/-- The TMKs of an instance: the lists of its tide that hold a GROUP_BARRIER with its BARRIER_ID, with the descriptor's place. -/
def State.parties (s : State) (id tide : Nat) : List (DList × Nat) :=
  (s.lists.filter (·.tide == tide)).filterMap fun l =>
    (l.descs.findIdx? fun d => dOpcode d == Op.tmk && tOp d == 4 && tBarrier d == id).map fun j => (l, j)

/-- R392: the member has arrived: the tide has opened, and every local party's TMK has issued. -/
def State.arrivedAll (s : State) (id tide : Nat) : Bool :=
  s.tide.running && decide (tide ≤ s.tide.count.toNat) && (s.parties id tide).all fun x => decide (x.2 < x.1.issued)

def State.barrier (s : State) (id tide : Nat) : Option Barrier := s.bkt.bars.find? fun b => b.id == id && b.tide == tide

def State.setBarrier (s : State) (b : Barrier) : State :=
  { s with bkt := { s.bkt with bars := s.bkt.bars.map fun x => if x.id == b.id && x.tide == b.tide then b else x } }

/-- The instance is pending from now on. [DEDUCED, log entry 97] -/
def State.needBarrier (s : State) (id tide : Nat) : State :=
  if (s.barrier id tide).isSome then s
  else { s with bkt := { s.bkt with bars := s.bkt.bars ++ [({ id, tide } : Barrier)] } }

/-- R393: an instance is released: a member's RELEASE goes to its children, the local parties' TMKs complete, and the instance ends. [DEDUCED, log entry 97] -/
def State.releaseBarrier (s : State) (id tide : Nat) : State :=
  let beats := match s.barrier id tide with
    | some b => (b.arrived.map fun a => (s.groupBeat - a).toNat).getD 0
    | none => 0
  let s := if !s.group.member || s.group.children.isEmpty then s else match s.devId with
    | some me => s.toChildren { barPkt 2 id tide with src := me }
    | none => s.checkId
  let s := (s.parties id tide).foldl (fun s x => s.completeDesc ⟨x.1.core, x.1.num, x.2⟩) s
  let bars := s.bkt.bars.filter fun x => !(x.id == id && x.tide == tide)
  let s := { s with bkt := { s.bkt with bars, released := s.bkt.released ++ [(id, tide)] } }
  (s.count R.barriersDone).setReg R.barLastBeats (word beats)

/-- Local arrival is noted when it comes about. -/
def State.noteArrival (s : State) (id tide : Nat) : State :=
  match s.barrier id tide with
  | some b => if b.arrived.isNone && s.arrivedAll id tide then s.setBarrier { b with arrived := some s.groupBeat } else s
  | none => s

/-- R393: once the member has arrived and every child's ARRIVE has come, its own ARRIVE goes to the parent; the master releases. [DEDUCED, log entry 97] -/
def State.barrierGo (s : State) (id tide : Nat) : State :=
  let s := s.noteArrival id tide
  match s.barrier id tide with
  | none => s
  | some b =>
    if b.arrived.isNone || b.sent then s
    else if !s.group.member then s.releaseBarrier id tide
    else if s.group.children.all fun c => b.from_.contains (BitVec.ofNat 16 c) then
      if s.isMaster then s.releaseBarrier id tide
      else (s.setBarrier { b with sent := true }).originate { barPkt 1 id tide with dst := BitVec.ofNat 16 s.group.parent }
    else s

/-- Every pending instance is looked at again: a tide has opened (R392). -/
def State.barriersGo (s : State) : State := s.bkt.bars.foldl (fun s b => s.barrierGo b.id b.tide) s

/-- GROUP_BARRIER (R392, R393); R469: in a replay, an instance already released completes at issue. -/
def execGroupBarrier (core : Fin 256) (list : Fin 8) (s : State) : Outcome :=
  .next (s.tmk core.val list.val 4 fun s l d =>
    if s.tide.replayed && s.bkt.released.contains (tBarrier d, l.tide) then s.completeDesc l.ref
    else (s.needBarrier (tBarrier d) l.tide).barrierGo (tBarrier d) l.tide)

/-- R394: instances for which an ARRIVE is kept. -/
def State.barsKept (s : State) : Nat := (s.bkt.bars.filter fun b => !b.from_.isEmpty).length

/-- An ARRIVE from a child (R393); one for a 257th pending instance raises BAR_FULL (R394). -/
def State.barrierArrive (s : State) (p : Pkt) : State :=
  let id := p.barrier.toNat
  let tide := p.tide.toNat
  let kept := (s.barrier id tide).any fun b => !b.from_.isEmpty
  if !kept && decide (256 ≤ s.barsKept) then s.bktError 9 id 0xFFFF noHalf p.src.toNat
  else
    let s := s.needBarrier id tide
    match s.barrier id tide with
    | some b => (s.setBarrier { b with from_ := if b.from_.contains p.src then b.from_ else b.from_ ++ [p.src] }).barrierGo id tide
    | none => s

/-- BARRIER_ARRIVE (R393, R394). -/
def execBarrierArrive (l : Fin 64) (resent : Bool) (p : Pkt) (s : State) : Outcome :=
  .next (s.arrive l resent p K.barrier [1] fun s p => s.barrierArrive p)

/-- BARRIER_RELEASE (R393). -/
def execBarrierRelease (l : Fin 64) (resent : Bool) (p : Pkt) (s : State) : Outcome :=
  .next (s.arrive l resent p K.barrier [2] fun s p => s.releaseBarrier p.barrier.toNat p.tide.toNat)

def State.ringSize (s : State) (n : Nat) : Nat := let v := s.field (R.ringCfg n) 0 12; if v = 0 then 4096 else v

/-- The ring entries that an OPEN names (R379). -/
def ringsOf (topo a b : Nat) : List Nat := if topo = 1 then [a] else if topo = 2 then [a, b] else []

/-- Members that the reduction spans (R376). -/
def State.members (s : State) (x : Slot) : Nat := (ringsOf x.topo x.ringA x.ringB).foldl (fun n r => n * s.ringSize r) 1

/-- A core's random streams at micro-batch, layer and draw index 0. -/
def rewind (x : Nat × ArrCore) : Nat × ArrCore := (x.1, { x.2 with mb := 0, layer := 0, draws := [] })

end Sys2Proof.Machine
end

