-- ==== Sys2Proof/Machine/Holds.lean ====
section
/-!
DEFINITION. Engines that report, the holds of a boundary (R51 to R55, R62 to R64, R618), and marks of a tide group (R58 to R60).
-/
namespace Sys2Proof.Machine

/-! ### Holds of the tide group -/

/-- A member's HOLD for boundary `k` names the tide that it closes (R62); it goes to every tree neighbour (R618). [DEDUCED, log entry 52] -/
def State.sendHold (s : State) (k : Nat) : State := s.broadcast { tidePkt T.hold with tide := BitVec.ofInt 64 ((k : Int) - 1) }

/-- This member holds boundary `k` (R62, R64); a hold that arises after its own RELEASE holds again. -/
def State.selfHold (s : State) (k : Nat) : State :=
  if s.tide.selfHolds.contains k then s
  else
    { s with tide := { s.tide with selfHolds := s.tide.selfHolds ++ [k], selfReleases := s.tide.selfReleases.filter (·.1 != k) } }.sendHold k

/-- R63: a holder whose own conditions are met sends RELEASE to every tree neighbour. -/
def State.ownDone (s : State) : State :=
  match s.ownRelease with
  | some (s, p) => s.broadcast p
  | none => s

/-- R55, R64: a hold that may arise after the decision beat: HOLD is sent at once, and past D of boundary `k` the holder also holds the boundary after it. -/
def State.lateHold (s : State) (k : Nat) : State :=
  if s.group.member then
    let s := s.selfHold k
    if s.tide.running ∧ k = s.tide.next ∧ s.nominal - s.regN R.holdWindow ≤ s.groupBeat then s.selfHold (k + 1) else s
  else s

/-- A remote holder recorded by a HOLD or RELEASE that names boundary `k` (R63); one for a boundary that has opened is applied to the boundary that
closes the current tide (R64). A boundary whose step 4 waits has not opened. [DEDUCED, log entry 52] -/
def State.noteHolder (s : State) (dev k : Nat) (release : Option Int) : State :=
  if s.tide.holders.any fun h => h.dev == dev && h.named == k then
    { s with tide := { s.tide with holders := s.tide.holders.map fun (h : Holder) => if h.dev == dev && h.named == k then { h with release } else h } }
  else
    let late := decide (k < s.tide.next)
    let h : Holder := { dev, named := k, boundary := if late then s.tide.next else k, release }
    let s := { s with tide := { s.tide with holders := s.tide.holders ++ [h] } }
    if late && release.isNone then s.orReg R.tideStatus 2 else s

/-- The boundary that a HOLD or RELEASE names. -/
def holdBoundary (p : Pkt) : Nat := (p.tide.toInt + 1).toNat

/-- HOLD (R63, R64, R618): relayed at once, and the holder is recorded. -/
def execHoldMsg (l : Fin 64) (resent : Bool) (p : Pkt) (s : State) : Outcome :=
  .next (s.arrive l resent p K.tide [T.hold] fun s p =>
    if s.group.member && s.devId != some p.src then (s.relay l p).noteHolder p.src.toNat (holdBoundary p) none else s)

/-- RELEASE (R63, R618). -/
def execReleaseMsg (l : Fin 64) (resent : Bool) (p : Pkt) (s : State) : Outcome :=
  .next (s.arrive l resent p K.tide [T.release] fun s p =>
    if s.group.member && s.devId != some p.src then (s.relay l p).noteHolder p.src.toNat (holdBoundary p) (some p.beat.toInt) else s)

/-- HOLD_DECISION (R62): at the decision beat, a member with an engine still to report sends HOLD. [DEDUCED, log entry 52] -/
def execHoldDecision (s : State) : Outcome :=
  .next (if s.group.member ∧ s.tide.running ∧ !s.tide.past3 ∧ s.nominal - s.regN R.holdWindow ≤ s.groupBeat ∧ !s.step1 then s.selfHold s.tide.next
         else s)

/-! ### Reports -/

/-- ENGINE_REPORT (R31, R53, R70): the engine has completed its admitted work, with its working cycles, its stall
cycles but those of R151, and the cycles in which a request of it waited for a local-store bank (R215). [DESIGN CHOICE, log entry 111] -/
def execEngineReport (core : Fin 256) (working : Word) (r : Stalls) (s : State) : Outcome :=
  .next (match s.openEntry core with
    | none => s
    | some c => if s.coreDone core && !s.noIssue core then ((s.addReport c (c.tide + c.span) working r.stall).count (R.lsConflicts core) r.conflicts.toNat).ownDone else s)

/-! ### The nominal boundary (R51, R53) -/

/-- Group beat of the boundary that is next to open: its nominal boundary, or the beat that TIDE_RUN names (R40). -/
def State.fallBeat (s : State) : Option Int := if s.tide.past3 then none else if s.tide.running then some s.nominal else s.tide.runAt

/-- The remote holders of the next boundary that keep it closed at group beat `g`. -/
def State.remoteHolds (s : State) (g : Int) : List Holder :=
  s.tide.holders.filter fun h => h.boundary == s.tide.next && h.release.all fun b => decide (g < b)

/-- A remote hold's cause (R53, R64). -/
def Holder.cause (h : Holder) : Nat := if h.named = h.boundary then 5 else 8

/-- A cause mask with one more cause. -/
def addCause (m c : Nat) : Nat := m ||| 2 ^ c

/-- NOMINAL_BOUNDARY (R51): the nominal boundary falls; the mask takes what TIDE_HOLD and remote holders leave unmet (R53), and the count of R54 starts
while an engine is to report. -/
def State.nominalFalls (s : State) (g : Int) : State :=
  let m := if s.tide.hostHolds.contains s.tide.next then addCause s.tide.causes 7 else s.tide.causes
  let m := (s.remoteHolds g).foldl (fun m h => addCause m h.cause) m
  let t := { s.tide with fallen := true, causes := m }
  { s with tide := if s.step1 then t else { t with hangFrom := some g } }

/-- NOMINAL_BOUNDARY (R51, R53, R54). -/
def execNominalBoundary (s : State) : Outcome :=
  match s.fallBeat with
  | some g => .next (if g ≤ s.groupBeat ∧ !s.tide.fallen then s.nominalFalls g else s)
  | none => .next s

/-! ### Marks (R58 to R60, R84) -/

/-- TIDE_MARK_EMIT (R58). -/
def execTideMarkEmit (s : State) : Outcome :=
  let due := s.group.lastMark + s.regN R.markInterval
  if s.isMaster ∧ due ≤ s.groupBeat then
    let s' := { s with group := { s.group with lastMark := due } }
    .next (match s.devId with
      | some me => s'.toChildren { tidePkt T.mark with src := me, beat := BitVec.ofInt 64 s.groupBeat, tide := s.tide.count }
      | none => s'.checkId)
  else .next s

/-- GROUP_OFFSET changes by `d` beats. -/
def State.shiftGroup (s : State) (d : Int) : State := { s with tide := { s.tide with offset := s.tide.offset + BitVec.ofInt 64 d } }

/-- R60: a loss of alignment is raised once, until the member has left its group or has been reset. -/
def State.alignLost (s : State) (e : Int) : State :=
  let s := s.orReg R.tideStatus 0x10
  if s.group.lossRaised then s
  else
    let s := { s with group := { s.group with lossRaised := true }, tide := { s.tide with stopNext := true } }
    s.log_ (srcOf 0x08 0) 0x06 (leBytes 4 (BitVec.ofInt 32 e).toNat)

/-- R59, R60, R84: what a member does with the mark of its master; a stale one is passed on only (R421). ALIGN_ERROR keeps
the low 32 bits of e. [DESIGN CHOICE, log entry 121] -/
def State.align (s : State) (p : Pkt) : State :=
  let e := p.beat.toInt + s.group.pathDelay - s.groupBeat
  let s := s.setReg R.alignError (BitVec.ofInt 32 e)
  if s.group.firstMark then { s with group := { s.group with firstMark := false } }.shiftGroup e
  else
    let s := if 1 < e.natAbs then s.shiftGroup (e.sign * (min e.natAbs 4 : Nat)) else s
    let s := if 125 < e.natAbs then s.orReg R.tideStatus 8 else s
    if 1250 < e.natAbs then s.alignLost e else s

/-- TIDE_MARK (R58 to R60, R421). -/
def execTideMark (l : Fin 64) (resent : Bool) (p : Pkt) (s : State) : Outcome :=
  .next (s.arrive l resent p K.tide [T.mark] fun s p =>
    if s.group.member && !s.isMaster then
      let s := s.toChildren p
      if p.stale then s else s.align p
    else s)

end Sys2Proof.Machine
end

