-- ==== Sys2Proof/Machine/Tables.lean ====
section
/-!
DEFINITION. The job's tables in HBM: scale records (R282 to R297, R306), the layer table (R329), the update table (R337, R338), and the
hyperparameter sets (R340, R341).
-/
namespace Sys2Proof.Machine

/-! ### Scale records (Tables 7.7, 7.8) -/

abbrev ScaleRec := BitVec 1024

def ScaleRec.kind (v : ScaleRec) : Nat := bits v 610 3
def ScaleRec.state (v : ScaleRec) : Nat := bits v 608 2
def ScaleRec.fmt (v : ScaleRec) : Nat := bits v 616 4
def ScaleRec.backoff (v : ScaleRec) : Nat := bits v 624 4
def ScaleRec.clean (v : ScaleRec) : Nat := bits v 628 4
def ScaleRec.jitLeft (v : ScaleRec) : Nat := bits v 632 8
def ScaleRec.scale (v : ScaleRec) : Word := BitVec.ofNat 32 (bits v 544 32)
def ScaleRec.curAmax (v : ScaleRec) : Word := BitVec.ofNat 32 (bits v 512 32)
def ScaleRec.hist (v : ScaleRec) (i : Nat) : Word := BitVec.ofNat 32 (bits v (32 * i) 32)

/-- KIND G: a gradient tensor. -/
def ScaleRec.isG (v : ScaleRec) : Bool := v.kind == 2

/-- SCALE with its complement. -/
def ScaleRec.setScale (v : ScaleRec) (w : Word) : ScaleRec := setBits (setBits v 544 32 w.toNat) 576 32 (2 ^ 32 - 1 - w.toNat)

/-- R306: the pairs of a record hold, and it holds no reserved bit or encoding. -/
def ScaleRec.ok (v : ScaleRec) : Bool :=
  fieldPairOk v 32 544 576 && fieldPairOk v 3 610 613 && fieldPairOk v 4 616 620 && bits v 672 352 == 0
    && (if v.kind = 3 then v.fmt == 0xA || v.fmt == 7 else (v.kind == 1 || v.kind == 2) && [0, 1, 9].contains v.fmt)
    && decide (v.state < 3) && decide (v.jitLeft ≤ 16)

/-- Address of record `r` of the table at `base` (R282). -/
def scaleAddr (base r : Nat) : Nat := base + 128 * r

def State.scaleBase (s : State) : Nat := s.reg64 R.scaleBaseLo R.scaleBaseHi

/-- Record `r` of the scale table in effect. -/
def State.scaleRecAt (s : State) (base r : Nat) : ScaleRec := BitVec.ofNat 1024 (s.num (scaleAddr base r) 128)

def State.putScaleRec (s : State) (base r : Nat) (v : ScaleRec) : State := s.store (scaleAddr base r) (leBytes 128 v.toNat)

/-- What the records of a table become under `f`; an EMPTY record is unused and stays, and a record that fails its check raises SCALE_FAULT, once (R306).
[DEDUCED, log entry 68] -/
def State.eachRec (s : State) (base count : Nat) (f : Nat → ScaleRec → ScaleRec) : State :=
  let rs := List.range count
  let s' := rs.foldl (fun s r =>
    let v := s.scaleRecAt base r
    let v' := f r v
    if v.ok && v.state != 0 && v' != v then s.putScaleRec base r v' else s) s
  if rs.any fun r => !(s.scaleRecAt base r).ok then s'.scaleFault else s'

/-- JIT_RECORDS counts the records in state JIT, and NUM_STATUS reports JIT while there are any (R298). -/
def State.countJit (s : State) (base count : Nat) : State :=
  let n := ((List.range count).filter fun r => let v := s.scaleRecAt base r; v.ok && v.state == 2).length
  let s := s.setReg R.jitRecords (word n)
  if n = 0 then s else s.orReg R.numStatus 2

/-- R296: an A or G record starts again in state JIT. -/
def ScaleRec.toJit (v : ScaleRec) : ScaleRec :=
  if v.kind = 1 ∨ v.kind = 2 then
    let v : ScaleRec := setBits (setBits (setBits (setBits v 608 2 2) 632 8 16) 624 8 0) 0 512 0
    v.setScale f32one
  else v

/-- R296: every A and G record of the table enters JIT. -/
def State.jitAll (s : State) (base count : Nat) : State :=
  let entered := (List.range count).any fun r => let v := s.scaleRecAt base r; v.state != 0 && v.ok && v.kind != 3
  let s := (s.eachRec base count fun _ v => v.toJit).countJit base count
  if entered then s.orReg R.numStatus 2 else s

/-- R290, R297: the scale that amax `m` gives a record, clamped; a zero amax gives a base scale of 1.0. [DEDUCED, log entry 68] -/
def ScaleRec.scaleFor (v : ScaleRec) (m : Word) : Word :=
  let e : Int := if (wval m).isZero then 0 else if !(wval m).finite then 127 else scaleExp (if v.isG then 1 else 0) v.fmt m
  if v.kind = 3 then f32one else pow2Word (-126) 127 (if v.isG then e + v.backoff else e)

/-- The largest HIST entry. -/
def ScaleRec.histMax (v : ScaleRec) : Word := (List.range 16).foldl (fun a i => fmaxOf false a (v.hist i)) 0

/-- R297: a record in state JIT follows CUR_AMAX, unless that is 0. -/
def ScaleRec.jitScale (v : ScaleRec) : ScaleRec :=
  if v.state = 2 ∧ !(wval v.curAmax).isZero then v.setScale (v.scaleFor v.curAmax) else v

/-- R294, R295: BACKOFF and CLEAN of a G record at an advance. -/
def ScaleRec.backOff (v : ScaleRec) (skipped : Bool) : ScaleRec :=
  if !v.isG then v
  else if skipped then setBits (setBits v 624 4 (min 15 (v.backoff + 1))) 628 4 0
  else if v.clean < 15 then setBits v 628 4 (v.clean + 1)
  else setBits (setBits v 628 4 0) 624 4 (v.backoff - 1)

/-- R290, R294, R295, R297: a record at the advance that finishes `step`. [DEDUCED, log entry 68] -/
def ScaleRec.advance (step : Nat) (skipped : Bool) (v : ScaleRec) : ScaleRec :=
  let v := (v.backOff skipped).jitScale
  let v : ScaleRec := if (wval v.curAmax).finite && !(v.isG && skipped) then setBits v (32 * (step % 16)) 32 v.curAmax.toNat else v
  let v : ScaleRec := if v.state = 1 then v.setScale (v.scaleFor v.histMax)
    else let v : ScaleRec := setBits v 632 8 (v.jitLeft - 1); if v.jitLeft = 0 then setBits v 608 2 1 else v
  setBits (setBits v 640 32 step) 512 32 0

/-! ### Copies (R284) -/

/-- Boundary `b` lies strictly inside a multi-tide span of a core's admitted work (R70). -/
def State.inSpan (s : State) (core b : Nat) : Bool :=
  s.images.any fun i => i.costs.any fun c => c.engine == core && i.runs c && decide (i.k0 + c.tide < b ∧ b < i.k0 + c.tide + c.span)

/-- R284: the cores' copies of every SCALE are refreshed, and a copy so rewritten is whole again (R306). -/
def State.refreshCopies (s : State) : State :=
  let base := s.scaleBase
  let copies := (List.range (s.regN R.scaleCount)).foldl (fun m r =>
    let v := s.scaleRecAt base r
    if v.ok && v.state != 0 then Sparse.put f32one m r v.scale else m) ([] : List (Nat × Word))
  { s with nums := { s.nums with copies }
           job := { s.job with soft := s.job.soft.filter fun | .scale c _ => (s.arr c).scales.isSome | _ => true } }

/-! ### Amax (R288) -/

/-- CUR_AMAX with one more amax: the maximum; a NaN or infinity makes it +infinity. -/
def maxAmax (a m : Word) : Word := if (wval a).finite && (wval m).finite then fmaxOf false a m else f32inf

/-- One bound accumulator is folded into its record. -/
def State.foldOne (s : State) (base rec_ : Nat) (m : Word) : State :=
  let v := s.scaleRecAt base rec_
  let s := { s with nums := { s.nums with amax := Sparse.put 0 s.nums.amax rec_ (maxAmax (Sparse.get 0 s.nums.amax rec_) m) } }
  if v.ok then s.putScaleRec base rec_ (setBits v 512 32 (maxAmax v.curAmax m).toNat) else s.scaleFault

/-- A core's bound accumulators are folded, cleared and unbound. -/
def State.foldCore (s : State) (core : Nat) : State :=
  let a := s.arr core
  let s := a.bind.foldl (fun s b => s.foldOne s.scaleBase b.2 (Sparse.get 0 a.amax b.1)) s
  s.setArr core { s.arr core with amax := a.amax.filter (fun e => !(a.bind.any (·.1 == e.1))), bind := [] }

/-- R288: at step 2 of boundary `b`, for every core but those inside a multi-tide span. -/
def State.foldAll (s : State) (b : Nat) : State :=
  (s.cores.map (·.1)).foldl (fun s c => if (s.arr c).bind.isEmpty || s.inSpan c b then s else s.foldCore c) s

/-! ### Layer table (R329) -/

/-- A layer entry holds its pairs and no reserved bit or encoding. -/
def layerOk (e : Dword) : Bool :=
  let mode := bits e 0 2
  let rank := bits e 32 9
  fieldPairOk e 2 0 2 && fieldPairOk e 9 32 41 && bits e 4 28 == 0 && bits e 50 14 == 0 && mode != 3
    && (if mode = 1 then decide (1 ≤ rank ∧ rank ≤ 256) else rank == 0)

def State.layerAt (s : State) (base l : Nat) : Dword := BitVec.ofNat 64 (s.num (base + 8 * l) 8)

/-- Enmora's copy of the layer table. [DEDUCED, log entry 45] -/
def State.readLayers (s : State) (base count : Nat) : List (Nat × Nat) :=
  (List.range count).foldl (fun m l => let e := s.layerAt base l; Sparse.put 0 m l (bits e 0 2 + 4 * bits e 32 9)) []

/-- TRAIN_MODE of a layer: 0 FULL, 1 ADAPTER, 2 FROZEN. -/
def State.trainMode (s : State) (l : Nat) : Nat := Sparse.get 0 s.nums.modes l % 4

/-! ### Update table (R337, R338) -/

def State.updAt (s : State) (base u : Nat) : BitVec 256 := BitVec.ofNat 256 (s.num (base + 32 * u) 32)

/-- A record of the table holds its pairs and no reserved bit or encoding, in PINS neither (R337). -/
def updRowOk (v : BitVec 256) : Bool :=
  ((List.range 32).all fun i => bits v (192 + 2 * i) 2 != 1) &&
  recPairsOk (BitVec.ofNat 128 (bits v 0 128)) && bits v 0 50 == 0 && bits v 110 2 == 0 && bits v 128 32 == 0
    && bits v 74 2 != 3 && bits v 78 2 != 3 && bits v 82 2 != 3 && bits v 70 2 != 3 && bits v 92 2 != 3

/-- A field and its complement two bits above. -/
def setPair2 (v : BitVec 128) (lo x : Nat) : BitVec 128 := setBits (setBits v lo 2 x) (lo + 2) 2 (3 - x)

/-- R337: the static fields with each JOB value replaced by the job default. -/
def resolveRec (defaults : Word) (v : BitVec 256) : UpdRec :=
  let st := BitVec.ofNat 128 (bits v 0 108)
  let st := if bits st 74 2 = 0 then setPair2 st 74 (bits defaults 0 2) else st
  let st := if bits st 78 2 = 0 then setPair2 st 78 (bits defaults 2 2) else st
  { stat := st }

def State.readRecs (s : State) (defaults : Word) (base count : Nat) : List (Nat × UpdRec) :=
  (List.range count).foldl (fun m u => Sparse.put {} m u (resolveRec defaults (s.updAt base u))) []

/-- R338: a record's dynamic fields written into the table (Table 9.1). -/
def State.writeDynamic (s : State) (base u : Nat) : State :=
  let r := s.updRec u
  let v := setBits (setBits (setBits (setBits (setBits (setBits (s.updAt base u) 192 64 r.pins.toNat) 160 32 r.version.toNat) 120 8 r.ref1) 112 8 r.ref0)
    109 1 (b2n r.committed)) 108 1 (b2n r.updating)
  s.store (base + 32 * u) (leBytes 32 v.toNat)

/-! ### Hyperparameter sets (R340, R341) -/

/-- R341: no reserved bit, every field finite, BETA1 and BETA2 in [0, 1), EPS positive. -/
def hpOk (bs : List Byte) : Bool :=
  let w := fun i => wval (word (bytesAt bs (4 * i) 4))
  let one := wval f32one
  let zero : Val := .fin false 0 0
  bytesAt bs 28 1 / 2 == 0 && bytesAt bs 29 35 == 0 && ((List.range 7).all fun i => (w i).finite)
    && !(w 2).lt zero && (w 2).lt one && !(w 3).lt zero && (w 3).lt one && zero.lt (w 4)

/-- The sets are latched; one that is not valid keeps its copy, with HP_REJECT and an HP_REJECTED entry. -/
def State.latchHp (s : State) (base : Nat) : State :=
  (List.range 16).foldl (fun s i =>
    let bs := s.bytes (base + 64 * i) 64
    if hpOk bs then { s with upd := { s.upd with hp := s.upd.hp.set i bs } }
    else (s.orReg R.updStatus 8).log_ (srcOf 0x0B 0) 0x0F (leBytes 1 i)) s

end Sys2Proof.Machine
end

