-- ==== Sys2Proof/Machine/Jobs.lean ====
section
/-!
DEFINITION. The JOB_* commands of chapter 2 (R82 to R84).
-/
namespace Sys2Proof.Machine

/-- `v` is a value that register `k` may hold: no reserved bit, and no reserved encoding in any field. -/
def regLegal (k v : Nat) : Bool :=
  match regRow k with
  | none => false
  | some d => decide (v < 2 ^ 32) && (v &&& d.mask) == v && (regFields (d.id k) (word d.reset) (word v)).all fun f => f.ok (bits (word v) f.lo f.len)

/-- A basic command queues a shadowed register, which ends an expert override of it (R112). -/
def State.queueBasic (s : State) (k v : Nat) : State := (s.queueReg k (word v)).basic k

/-! ### JOB_CREATE (R83) -/

/-- The registers that a JOB_CREATE payload sets, with their values: bases as low and high words. -/
def jobWrites (r : Req) : List (Nat × Nat) :=
  let base := fun lo hi o => [(lo, r.at o 4), (hi, r.at (o + 4) 4)]
  [(R.shelfCtrl, r.at 14 1), (R.shelfTopBase, r.at 15 1), (R.scaleCount, r.at 24 2), (R.layerCount, r.at 26 2), (R.shelfSpillSize, r.at 52 2),
    (R.updCount, r.at 54 2), (R.bktCtrl, r.at 13 1)]
    ++ base R.scaleBaseLo R.scaleBaseHi 16 ++ base R.layerBaseLo R.layerBaseHi 28 ++ base R.shelfBodyBaseLo R.shelfBodyBaseHi 36
    ++ base R.shelfSpillBaseLo R.shelfSpillBaseHi 44 ++ base R.updBaseLo R.updBaseHi 56 ++ base R.hpBaseLo R.hpBaseHi 64
    ++ (if bit (word (r.at 12 1)) 4 then [(R.updDefaults, r.at 12 1 % 16)] else [])

/-- UPD_DEFAULTS as the job has it (R337, R370). -/
def State.jobDefaults (s : State) (r : Req) : Word := if bit (word (r.at 12 1)) 4 then word (r.at 12 1 % 16) else s.latest R.updDefaults

/-- The fields are legal, and so are the layer table and the update table (R83, R329, R337). [DEDUCED, log entry 69] -/
def State.jobParamOk (s : State) (r : Req) : Bool :=
  r.at 10 2 == 0 && r.at 12 1 / 32 == 0 && ((jobWrites r).all fun w => regLegal w.1 w.2) && decide (r.at 14 1 + r.at 15 1 ≤ 32)
    && ((List.range (r.at 26 2)).all fun l => layerOk (s.layerAt (r.at 28 8) l))
    && ((List.range (r.at 54 2)).all fun u => updRowOk (s.updAt (r.at 56 8) u))

/-- [DEDUCED, log entry 68; DEDUCED, log entry 70] -/
def cmdJobCreate : Cmd where
  op := 0x0601
  len := lenIs 96
  param s r := s.jobParamOk r
  state s r := !s.job.exists_ && (r.at 52 2 == 0 || s.regN R.ddrCapacity != 0)
  act s r :=
    let s := (jobWrites r).foldl (fun s w => s.queueBasic w.1 w.2) s
    let s := { s with
      job := { exists_ := true, id := word (r.at 0 4), seed := BitVec.ofNat 48 (r.at 4 6), perStep := BitVec.ofNat 64 (r.at 72 8)
               epoch := word (r.at 80 4), shard := word (r.at 84 4), sample := BitVec.ofNat 64 (r.at 88 8), step := 0, lost := s.job.lost
               soft := s.job.soft.filter spoilStays }
      nums := { s.nums with modes := s.readLayers (r.at 28 8) (r.at 26 2) }
      upd := { s.upd with recs := s.readRecs (s.jobDefaults r) (r.at 56 8) (r.at 54 2) } }
    (((s.latchHp (r.at 64 8)).jitAll (r.at 16 8) (r.at 24 2)), some .ok)

/-! ### JOB_GROUP_FORM and JOB_GROUP_LEAVE (R84) -/

/-- HOLD_WINDOW from H and t_link: T_hold = H × (t_link + 7) + 350 ns, in beats of 0.4 ns, rounded up. -/
def holdWindowOf (h tlink : Nat) : Nat := cdiv ((h * (tlink + 7) + 350) * 5) 2

/-- Payload fields of JOB_GROUP_FORM: on the master the parent is its own id and the path delay is 0. [DEDUCED, log entry 69] -/
def State.groupParamOk (s : State) (r : Req) : Bool :=
  let me := s.devId.map (·.toNat)
  let onMaster := me == some (r.at 4 2)
  r.at 22 2 == 0 && decide (1 ≤ r.at 0 4 ∧ r.at 0 4 ≤ 65536) && decide (r.at 20 2 ≤ 108)
    && (onMaster == (me == some (r.at 6 2))) && (!onMaster || r.at 8 4 == 0)
    && regLegal R.holdWindow (holdWindowOf (r.at 12 2) (r.at 14 2)) && (r.at 16 4 == 0 || regLegal R.markInterval (r.at 16 4))

def cmdJobGroupForm : Cmd where
  op := 0x0606
  len p := decide (24 ≤ p.length) && p.length == 24 + 2 * bytesAt p 20 2
  param s r := s.groupParamOk r
  state s _ := s.job.exists_ && !s.group.member
  act s r :=
    if 1 < r.at 0 4 ∧ s.clkmode = 2 then (s, some (.refused 0x22))
    else
      let s := s.queueBasic R.holdWindow (holdWindowOf (r.at 12 2) (r.at 14 2))
      let s := if r.at 16 4 = 0 then s else s.queueBasic R.markInterval (r.at 16 4)
      let g : Group := { member := true, size := r.at 0 4, master := r.at 4 2, parent := r.at 6 2, pathDelay := r.at 8 4
                         children := (List.range (r.at 20 2)).map fun i => r.at (24 + 2 * i) 2, firstMark := true, lastMark := s.groupBeat }
      ({ s with group := g }, some .ok)

/-- [DEDUCED, log entry 69; DESIGN CHOICE, log entry 120] -/
def cmdJobGroupLeave : Cmd where
  op := 0x0607
  len := lenIs 8
  state s _ := s.group.member
  act s r :=
    if s.late (r.at 0 8) then (s, some (.refused 0x21 noEngine (r.at 0 8)))
    else
      -- a later command that names another boundary replaces nothing: the earliest acts
      let at_ : Option Nat := if s.tide.running then some (match s.group.leaveAt with
        | some (some b) => min b (r.at 0 8)
        | _ => r.at 0 8) else none
      ({ s with group := { s.group with leaveAt := some at_ } }, some .ok)

/-! ### The others (R82, R83) -/

/-- [DEDUCED, log entry 69] -/
def cmdJobCursor : Cmd where
  op := 0x0608
  len := lenIs 0
  state s _ := s.job.exists_
  act s _ := (s, some (.ok (leBytes 4 s.job.epoch.toNat ++ leBytes 4 s.job.shard.toNat ++ leBytes 8 s.job.sample.toNat ++ leBytes 8 s.job.step.toNat)))

/-- Job state as JOB_STATUS reports it (Table 2.13); of several that apply, the highest. [DESIGN CHOICE, log entry 121] -/
def State.jobState (s : State) : Nat :=
  if !s.job.exists_ then 0
  else if s.snap.restore == .running then 4
  else if s.job.restart.isSome then 3
  else if s.group.member then 2
  else 1

/-- [DEDUCED, log entry 69] -/
def cmdJobStatus : Cmd where
  op := 0x0609
  len := lenIs 0
  act s _ := (s, some (.ok (leBytes 4 s.job.id.toNat ++ leBytes 1 s.jobState ++ leBytes 3 0 ++ leBytes 8 s.job.step.toNat
    ++ leBytes 4 (s.regN R.skippedSteps) ++ leBytes 4 (if s.group.member then s.group.size else 0) ++ leBytes 2 (s.field R.devId 0 16))))

/-- [DEDUCED, log entry 69] -/
def cmdJobEnd : Cmd where
  op := 0x060A
  len := lenIs 0
  state s _ := s.job.exists_ && !s.group.member && !(s.images.any Image.active)
  act s _ := ({ s with job := { lost := s.job.lost, soft := s.job.soft, firstErr := s.job.firstErr }, tide := { s.tide with issueStop := s.job.lost } }, some .ok)

/-- JOB_CREATE (R83, R296, R329, R337, R340). -/
def execJobCreate (r : Req) (s : State) : Outcome := cmdJobCreate.serve r s
/-- JOB_GROUP_FORM (R61, R84). -/
def execJobGroupForm (r : Req) (s : State) : Outcome := cmdJobGroupForm.serve r s
/-- JOB_GROUP_LEAVE (R65, R84). -/
def execJobGroupLeave (r : Req) (s : State) : Outcome := cmdJobGroupLeave.serve r s
/-- JOB_CURSOR (R82). -/
def execJobCursor (r : Req) (s : State) : Outcome := cmdJobCursor.serve r s
/-- JOB_STATUS (R82). -/
def execJobStatus (r : Req) (s : State) : Outcome := cmdJobStatus.serve r s
/-- JOB_END (R83). -/
def execJobEnd (r : Req) (s : State) : Outcome := cmdJobEnd.serve r s

end Sys2Proof.Machine
end

