-- ==== Sys2Proof/Machine/Memory.lean ====
section
/-!
DEFINITION. Memory controllers (R436 to R456, R464, R465) and the MEM_* commands (R457, Table 12.6).
-/
namespace Sys2Proof.Machine

/-! ### Interleave (R439, R440, R453) -/

def stackOf (a : Nat) : Nat := a / 4096 % 8
def logicalPc (a : Nat) : Nat := a / 4096 / 8 % 63
def rowIndex (a : Nat) : Nat := a / 4096 / 8 / 63
def channelOf (a : Nat) : Nat := (a - ddrBase) / 4096 % 8

/-- Blocks of a pseudo-channel (R440). -/
def State.pcBlocks (s : State) : Nat := if s.part.high12 then 196608 else 262144

/-- The physical pseudo-channel that an access to HBM address `a` goes to: the spare when the logical one is mapped to it, or once its block has
been copied (R440, R447). [DEDUCED, log entry 106; DEDUCED, log entry 107] -/
def State.physicalPc (s : State) (a : Nat) : Nat :=
  let st := stackOf a
  let k := logicalPc a
  if s.field (R.pcMap st) 0 6 = k then 63
  else if bit (s.reg (R.hbmState st)) 7 ∧ s.field (R.pcMap st) 8 6 = k ∧ rowIndex a < s.regN (R.copyPtr st) then 63
  else k

/-! ### Errors (R216, R442, R443, R454) -/

/-- What a read finds. -/
inductive ReadErr where
  | none_
  | correctable
  | uncorrectable (addressCheck : Bool)
  deriving DecidableEq, Repr

def bump (m : List (Nat × Nat)) (k : Nat) : List (Nat × Nat) := Sparse.put 0 m k (Sparse.get 0 m k + 1)

/-- A correctable error at `a`: corrected in the access, written back and counted; the data stands (R216, R442, R454). An SRAM bit or a DDR5 device
so corrected counts in DEV_SPARES and writes no SPARE_USED entry. [DESIGN CHOICE, log entry 121] -/
def State.correctable (s : State) (a : Nat) : State :=
  let s := { s with memc := { s.memc with struck := s.memc.struck.filter (· != (a / 32, 0)) } }
  match s.tierOf a with
  | some .hbm =>
    let s := s.count (R.ceCount (stackOf a))
    { s with memc := { s.memc with pcCe := (fun m k => Sparse.put 0 m k (min 65535 (Sparse.get 0 m k + 1))) s.memc.pcCe (64 * stackOf a + s.physicalPc a) } }
  | some .ddr =>
    { s with kept := { s.kept with spares := s.kept.spares.modify 7 (· + 1) } }.count (R.chCeCount (channelOf a))
  | some .slice =>
    let s := (s.count R.sramCeCount).orReg R.fabricStatus 1
    { s with kept := { s.kept with spares := s.kept.spares.modify 6 (· + 1) }
             memc := { s.memc with sliceCe := bump s.memc.sliceCe ((a - sliceBase) / 2 ^ 21) } }
  | some .localStore =>
    let s := (s.count R.sramCeCount).orReg R.fabricStatus 1
    { s with kept := { s.kept with spares := s.kept.spares.modify 6 (· + 1) } }
  | none => s

/-- R447: a unit of the range always reads as uncorrectable. -/
def State.poisoned (s : State) (a n : Nat) : Bool := s.memc.poison.any fun u => decide (a < 32 * u + 32 ∧ 32 * u < a + n)

/-- The errors that a read of `n` bytes from `a` meets in what memory holds: the address of each correctable one, with 0, and then of the first other one
of each 4 KiB block, with 1 or, for one of the address bits, 2 (R441, R442, R443, R447, R454). -/
def State.metUnits (s : State) (a n : Nat) : List (Nat × Fin 3) :=
  let hit := fun u : Nat => decide (a < 32 * u + 32 ∧ 32 * u < a + n)
  let all := (s.memc.struck.filter fun x => hit x.1).map fun x => (32 * x.1, x.2)
  let bad := (all.filter (·.2 != 0)) ++ (s.memc.poison.filter hit).map fun u => (32 * u, 1)
  (all.filter (·.2 == 0)) ++ bad.foldl (fun l x => if l.any fun y => y.1 / 4096 == x.1 / 4096 then l else l ++ [x]) []

/-- Where such a read finds its error, correctable or not: what the row brings lies at `a`. -/
def State.metAt (s : State) (a n : Nat) (bad : Bool) : Nat := (((s.metUnits a n).find? fun x => (x.2 != 0) == bad).map (·.1)).getD a

/-- R443: an uncorrectable error at `a` of HBM or DDR5: UE_COUNT with the unit's count, UE_ADDR, MEM_UE, and a MEM_UE entry with the kind. One in
local store or a slice has no such record (R216). -/
def State.recordUe (s : State) (a : Nat) (addressCheck : Bool) : State :=
  match s.tierOf a with
  | some .hbm =>
    let s := (s.count R.ueCount).count (R.stackUe (stackOf a))
    let s := { s with memc := { s.memc with pcUe := bump s.memc.pcUe (64 * stackOf a + s.physicalPc a) } }
    let s := (s.setReg R.ueAddrLo (word a)).setReg R.ueAddrHi (word (a / 2 ^ 32 % 65536 + 131072 * b2n addressCheck))
    (s.orReg R.memStatus 1).log_ (srcOf 0x20 (stackOf a)) 0x17 (leBytes 6 a ++ leBytes 1 (b2n addressCheck))
  | some .ddr =>
    let s := (s.count R.ueCount).count (R.chUeCount (channelOf a))
    let s := (s.setReg R.ueAddrLo (word a)).setReg R.ueAddrHi (word (a / 2 ^ 32 % 65536 + 65536 + 131072 * b2n addressCheck))
    (s.orReg R.memStatus 1).log_ (srcOf 0x20 (8 + channelOf a)) 0x17 (leBytes 6 a ++ leBytes 1 (b2n addressCheck))
  | _ => s

/-! ### Thresholds and copies (R445 to R449, R464, R465) -/

/-- A job with snapshots configured is running (R446). -/
def State.snapJob (s : State) : Bool := s.job.exists_ && s.snap.configured && s.job.restart.isNone

/-- R445: physical pseudo-channels of a stack that have failed their threshold in this window and have not been dealt with. -/
def State.failingPcs (s : State) (st : Nat) : List Nat :=
  (List.range 64).filter fun p =>
    (decide (4 * s.field R.memCtrl 2 14 ≤ Sparse.get 0 s.memc.pcCe (64 * st + p)) || decide (2 ≤ Sparse.get 0 s.memc.pcUe (64 * st + p)))
      && !s.memc.pcFailed.contains (64 * st + p)

/-- R449: the pseudo-channel stays in service. -/
def State.pcExhausted (s : State) (st p : Nat) : State :=
  let s := { s with memc := { s.memc with pcFailed := s.memc.pcFailed ++ [64 * st + p] } }
  (s.orReg R.memStatus 4).trouble.log_ (srcOf 0x20 st) 0x18 (leBytes 1 p ++ [1])

/-- R446: PENDING sets, MEM_PC_THRESH is written, and the copy waits for a tideline that is now requested, or for the next boundary. -/
def State.pcPending (s : State) (st p : Nat) : State :=
  let s := s.setField (R.hbmState st) 6 1 1
  let s := { s with memc := { s.memc with pcFailed := s.memc.pcFailed ++ [64 * st + p], pcPend := s.memc.pcPend ++ [(st, p, if s.snapJob then some (s.job.step.toNat + 1) else none)] } }
  let s := s.trouble.log_ (srcOf 0x20 st) 0x18 (leBytes 1 p ++ [0])
  if s.snapJob then s.snapRequest else s

/-- R445, R446, R449: the lowest-numbered failing pseudo-channel takes the spare when it is free, and the others stay in service. [DEDUCED, log entry 106] -/
def State.pcThreshold (s : State) (st : Nat) : State :=
  match s.failingPcs st with
  | [] => s
  | p :: rest =>
    let free := s.field (R.hbmState st) 6 3 = 0
    let s := if free then s.pcPending st p else s.pcExhausted st p
    rest.foldl (fun s q => s.pcExhausted st q) s

/-- R446: the copies that wait for this boundary begin at step 3; one that waits for a tideline, at its own request's, at which a freeze
follows an advance that closes step `tideline`. -/
def State.startPcCopies (s : State) (tideline : Option Nat) : State :=
  let ready := fun x : Nat × Nat × Option Nat => x.2.2.all fun k => tideline.any fun t => decide (k ≤ t)
  let now := s.memc.pcPend.filter ready
  let s := { s with memc := { s.memc with pcPend := s.memc.pcPend.filter fun x => !ready x } }
  now.foldl (fun s x => ((s.setField (R.hbmState x.1) 7 1 1).setField (R.pcMap x.1) 8 6 x.2.1).setReg (R.copyPtr x.1) 0) s

/-- Address of the block that a stack's copy moves next. [DEDUCED, log entry 101] -/
def State.copyBlock (s : State) (st : Nat) : Nat := 4096 * (st + 8 * (s.field (R.pcMap st) 8 6 + 63 * s.regN (R.copyPtr st)))

/-- R447: one block has been copied; an uncorrectable error leaves it reading as uncorrectable and is reported under R443. The state, and
whether an error is to be handled (R473). -/
def State.blockCopied (s : State) (st : Nat) (e : ReadErr) : State :=
  if bit (s.reg (R.hbmState st)) 7 ∧ s.regN (R.copyPtr st) < s.pcBlocks then
    let a := s.copyBlock st
    let s := match e with
      | .none_ => s
      | .correctable => s.correctable a
      | .uncorrectable k =>
        { s with memc := { s.memc with poison := s.memc.poison ++ (List.range 128).map fun i => a / 32 + i } }.recordUe a k
    s.count (R.copyPtr st)
  else s

/-- R448: the copy is complete. -/
def State.pcCopied (s : State) (st : Nat) : State :=
  if bit (s.reg (R.hbmState st)) 7 ∧ s.regN (R.copyPtr st) = s.pcBlocks then
    let k := s.field (R.pcMap st) 8 6
    let s := s.setReg (R.pcMap st) (word (k + 256 * 63))
    let s := s.setField (R.hbmState st) 6 3 4
    let s := (s.orReg R.memStatus 2).log_ (srcOf 0x20 st) 0x19 (leBytes 1 k ++ leBytes 1 k)
    s.spareUsed (srcOf 0x20 st) 5 (64 * st + k) (64 * st + 63)
  else s

/-- The spare slice of a half is free: neither in use nor being copied into, nor promised (R464). -/
def State.sliceFree (s : State) (h : Nat) : Bool :=
  !(s.kept.spareSlice.any (·.1 == h)) && !(s.memc.slicePend.any fun n => halfOfSlice n == h) && !(s.memc.sliceCopy.any fun x => halfOfSlice x.1 == h)

/-- R464, R465: a slice's corrected errors reach 256 in one window. [DEDUCED, log entry 106] -/
def State.sliceThreshold (s : State) (n : Nat) : State :=
  if Sparse.get 0 s.memc.sliceCe n < 256 ∨ s.memc.sliceFailed.contains n then s
  else
    let free := s.sliceFree (halfOfSlice n)
    let s := { s with memc := { s.memc with sliceFailed := s.memc.sliceFailed ++ [n] } }.trouble
    if free then { s with memc := { s.memc with slicePend := s.memc.slicePend ++ [n] } } else s.orReg R.snapStatus 0x100

/-- R464: the copies that wait begin at step 3. -/
def State.startSliceCopies (s : State) : State :=
  { s with memc := { s.memc with slicePend := [], sliceCopy := s.memc.sliceCopy ++ s.memc.slicePend.map fun n => (n, 0) } }

/-- A 64-byte line of a slice copy is done (R464). -/
def State.lineCopied (s : State) (h : Nat) : State :=
  { s with memc := { s.memc with sliceCopy := s.memc.sliceCopy.map fun x => if halfOfSlice x.1 == h ∧ x.2 < 32768 then (x.1, x.2 + 1) else x } }

/-- R464: the copy of 2 MiB ends, and the spare takes the logical number (R24). -/
def State.sliceCopied (s : State) (h : Nat) : State :=
  match s.memc.sliceCopy.find? fun x => halfOfSlice x.1 == h && x.2 == 32768 with
  | some (n, _) =>
    let s := { s with memc := { s.memc with sliceCopy := s.memc.sliceCopy.filter (·.1 != n) }
                      kept := { s.kept with spareSlice := s.kept.spareSlice ++ [(h, n)] } }
    (s.orReg R.snapStatus 0x80).spareUsed (srcOf 0x12 0) 4 n (128 + h)
  | none => s

/-- R445, R456: the windows end and new ones start. -/
def State.newWindows (s : State) : State :=
  { s with memc := { s.memc with pcCe := [], pcUe := [], pcFailed := [], sliceCe := [], sliceFailed := [] } }

/-- R444: refresh doubles above 85 °C and returns at 80 °C or less. -/
def State.stackTemp (s : State) (st t : Nat) : State :=
  let s := s.setReg (R.stackTemp st) (word t)
  if 85 < t then s.setField (R.hbmState st) 5 1 1 else if t ≤ 80 then s.setField (R.hbmState st) 5 1 0 else s

/-- The DDR5 tier is present (R452). -/
def State.ddrPresent (s : State) : Bool := decide (0 < s.regN R.ddrCapacity)

/-- Bursts of 64 bytes in one channel's module. -/
def State.bursts (s : State) : Nat := s.ddrSize / 8 / 64

/-- The burst that patrol scrub reads next in a channel. -/
def State.scrubAddr (s : State) (c : Nat) : Nat :=
  let i := Sparse.get 0 s.memc.scrubPos c
  ddrBase + 4096 * (8 * (i / 64) + c) + 64 * (i % 64)

/-- Patrol scrub runs (R455). -/
def State.scrubs (s : State) : Bool := s.field R.memCtrl 16 8 != 0 && s.ddrPresent && !s.asleep

/-- R455: patrol scrub reads the next burst of a channel and corrects what it finds; the last burst ends a pass. [DEDUCED, log entry 106] -/
def State.scrub (s : State) (c : Nat) (e : ReadErr) : State :=
  if !s.scrubs then s
  else
    let i := Sparse.get 0 s.memc.scrubPos c
    let a := s.scrubAddr c
    let s := match e with
      | .none_ => s
      | .correctable => (s.correctable a).count (R.scrubCe c)
      | .uncorrectable k => s.recordUe a k
    let last := decide (s.bursts ≤ i + 1)
    let s := { s with memc := { s.memc with scrubPos := Sparse.put 0 s.memc.scrubPos c (if last then 0 else i + 1) } }
    if last then s.count (R.scrubPasses c) else s

/-! ### Commands (Table 12.6) -/

def cmdMemWindowOpen : Cmd where
  op := 0x0401
  len := lenIs 20
  param s r := r.at 0 8 % 4096 == 0 && r.at 8 8 % 4096 == 0 && decide (r.at 16 1 ≤ 2) && r.at 17 3 == 0 && s.rangeOk allTiers (r.at 0 8) (r.at 8 8)
  state s r := (s.posterOf r.mb).isSome && s.lys.windows.any Option.isNone
  act s r :=
    let n := s.lys.windows.findIdx Option.isNone
    let w : Window := ⟨(s.posterOf r.mb).getD 0, r.at 0 8, r.at 8 8, r.at 16 1 != 1, r.at 16 1 != 0⟩
    ({ s with lys := { s.lys with windows := s.lys.windows.set n (some w) } }, some (.ok (leBytes 1 n)))

def cmdMemWindowClose : Cmd where
  op := 0x0402
  len := lenIs 1
  param _ r := decide (r.at 0 1 < 4)
  state s r := (s.lys.windows.getD (r.at 0 1) none).isSome
  act s r := ({ s with lys := { s.lys with windows := s.lys.windows.set (r.at 0 1) none } }, some .ok)

/-- Count 1 to 224, and a legal range (R437). -/
def memRangeOk (s : State) (r : Req) : Bool := decide (1 ≤ r.at 8 4 ∧ r.at 8 4 ≤ 224) && s.rangeOk allTiers (r.at 0 8) (r.at 8 4)

def cmdMemWrite : Cmd where
  op := 0x0404
  len p := p.length == 12 + bytesAt p 8 4
  param := memRangeOk
  act s r := (s.store (r.at 0 8) (r.pay.drop 12), some .ok)

/-- A 64-bit pattern repeated over `n` bytes. -/
def patternBytes (pattern n : Nat) : List Byte := (List.range (n / 8)).flatMap fun _ => leBytes 8 pattern

def cmdMemFill : Cmd where
  op := 0x0405
  len := lenIs 24
  param s r := r.at 0 8 % 64 == 0 && r.at 8 8 % 64 == 0 && s.rangeOk allTiers (r.at 0 8) (r.at 8 8)
  act s r := (s.store (r.at 0 8) (patternBytes (r.at 16 8) (r.at 8 8)), some .ok)

def cmdMemInfo : Cmd where
  op := 0x0406
  len := lenIs 0
  act s _ := (s, some (.ok (((List.range 8).flatMap fun k => leBytes 4 (s.regN (R.hbmState k)) ++ leBytes 4 (s.regN (R.pcMap k)))
    ++ ((List.range 8).flatMap fun c => leBytes 4 (s.regN (R.ddrState c))) ++ leBytes 4 (s.regN R.hbmCapacity) ++ leBytes 4 (s.regN R.ddrCapacity))))

def cmdMemScrub : Cmd where
  op := 0x0407
  len := lenIs 2
  param _ r := decide (r.at 0 2 ≤ 168)
  act s r := ((s.setField R.memCtrl 16 8 (r.at 0 2)).basic scrubName, some .ok)

def cmdMemShelfLimit : Cmd where
  op := 0x0408
  len := lenIs 2
  param s r := decide (1 ≤ r.at 0 2 ∧ r.at 0 2 * 1024 ≤ s.regN R.hbmCapacity)
  act s r := ((s.queueReg R.shelfLimit (word (r.at 0 2))).basic R.shelfLimit, some .ok)

/-! ### The rows -/

/-- MEM_WINDOW_OPEN (R457, R572). -/
def execMemWindowOpen (r : Req) (s : State) : Outcome := cmdMemWindowOpen.serve r s
/-- MEM_WINDOW_CLOSE (R457, R572). -/
def execMemWindowClose (r : Req) (s : State) : Outcome := cmdMemWindowClose.serve r s
/-- MEM_WRITE (R457). -/
def execMemWrite (r : Req) (s : State) : Outcome := cmdMemWrite.serve r s
/-- MEM_FILL (R437, R457). -/
def execMemFill (r : Req) (s : State) : Outcome := cmdMemFill.serve r s
/-- MEM_INFO (R457). -/
def execMemInfo (r : Req) (s : State) : Outcome := cmdMemInfo.serve r s
/-- MEM_SCRUB (R461). -/
def execMemScrub (r : Req) (s : State) : Outcome := cmdMemScrub.serve r s
/-- MEM_SHELF_LIMIT (R336). -/
def execMemShelfLimit (r : Req) (s : State) : Outcome := cmdMemShelfLimit.serve r s
/-- HBM_REFRESH (R444): refresh costs a pseudo-channel time and changes no state. -/
def execHbmRefresh (s : State) : Outcome := .next s
/-- DDR5_REFRESH (R451): as HBM_REFRESH. -/
def execDdr5Refresh (s : State) : Outcome := .next s
/-- STACK_TEMP_READ (R444): the temperatures of the eight stacks, in °C. -/
def execStackTempRead (temps : List Byte) (s : State) : Outcome :=
  .next ((List.range 8).foldl (fun s k => s.stackTemp k (temps.getD k 0).toNat) s)
/-- PC_CE_WINDOW (R445). -/
def execPcCeWindow (s : State) : Outcome := .next s.newWindows
/-- PC_THRESHOLD of a stack (R445, R446, R449). -/
def execPcThreshold (st : Fin 8) (s : State) : Outcome := .next (s.pcThreshold st)
/-- PC_COPY_DONE of a stack (R448). -/
def execPcCopyDone (st : Fin 8) (s : State) : Outcome := .next (s.pcCopied st)
/-- SLICE_THRESHOLD of a logical slice (R464, R465). -/
def execSliceThreshold (n : Fin 128) (s : State) : Outcome := .next (s.sliceThreshold n)
/-- SLICE_COPY_DONE of a half (R464). -/
def execSliceCopyDone (h : Fin 2) (s : State) : Outcome := .next (s.sliceCopied h)

end Sys2Proof.Machine
end

