-- ==== Sys2Proof/Machine/Snap.lean ====
section
/-!
DEFINITION. Tideline snapshots: the snapshot table, the dirty map, method selection, freeze, transfer, commit and the interval (R474 to R484), and
the SNAP_* commands (R491, R494). Staging, mirror slots and parity shares are held as state of the snapshot block; what the buddy and the parity holders keep is theirs.
-/
namespace Sys2Proof.Machine

/-! ### The snapshot table (R474, Table 13.5) -/

/-- Entry `i` of the table at `base`. -/
def State.snapEntAt (s : State) (base i : Nat) : BitVec 256 := BitVec.ofNat 256 (s.num (base + 32 * i) 32)

def entOf (v : BitVec 256) : SnapEnt :=
  { base := bits v 208 48, lenMb := bits v 184 24, parOff := bits v 160 24, id := bits v 144 16, method := bits v 140 2 }

/-- The pair holds, no bit or encoding is reserved, and the range is one that R437 takes in HBM or DDR5. -/
def State.entOk (s : State) (v : BitVec 256) : Bool :=
  let e := entOf v
  fieldPairOk v 2 140 142 && bits v 0 140 == 0 && e.method != 3 && e.base % mib == 0 && decide (1 ≤ e.lenMb)
    && s.rangeOk [.hbm, .ddr] e.base (e.lenMb * mib)

/-! ### The dirty map (R476) -/

/-- Block `i` of an entry is dirty. -/
def State.entDirty (s : State) (e : SnapEnt) (i : Nat) : Bool := Sparse.get false s.dirty (e.base / mib + i)

/-- The dirty bits of an entry clear. -/
def State.cleanEnt (s : State) (e : SnapEnt) : State :=
  { s with dirty := Sparse.dropKeys (fun b => decide (e.base / mib ≤ b ∧ b < e.base / mib + e.lenMb)) s.dirty }

/-! ### Method selection (R477 to R479) -/

/-- Dirty blocks of an entry; an entry whose last copy was spoiled is wholly dirty. -/
def State.dirtyOf (s : State) (e : SnapEnt) : List Nat :=
  if s.snap.spoiled.contains e.id then List.range e.lenMb
  else (s.dirty.filter fun b => decide (e.base / mib ≤ b.1 ∧ b.1 < e.base / mib + e.lenMb)).map fun b => b.1 - e.base / mib

/-- Method of an entry: 1 Mirror, 2 Parity. [DEDUCED, log entry 103] -/
def State.methodOf (s : State) (e : SnapEnt) : Nat :=
  if s.snap.parPos = 0xFF ∨ e.method = 1 then 1
  else if e.method = 2 then 2
  else if e.lenMb < s.field R.snapCtrl 0 16 ∨ s.field R.snapCtrl 16 7 * e.lenMb < 100 * (s.dirtyOf e).length then 1
  else 2

/-- The method the entry took at the previous snapshot; 0 for none. -/
def State.lastMethod (s : State) (e : SnapEnt) : Nat := Sparse.get 0 s.snap.lastMethod e.id

/-- What the freeze copies of an entry: every block under Mirror, and the dirty blocks under Parity, which are all when it enters Parity (R478). -/
def State.copyEnt (s : State) (e : SnapEnt) : SnapCopy :=
  let m := s.methodOf e
  let blocks := if m = 1 ∨ !s.snap.based.contains e.id then List.range e.lenMb else s.dirtyOf e
  { ent := e, method := m, blocks
    cells := (s.mem.filter fun c => decide (e.base ≤ c.1 ∧ c.1 < e.base + e.lenMb * mib) && blocks.contains ((c.1 - e.base) / mib)).map
      fun c => (c.1 - e.base, c.2) }

/-- R479: an entry that sets METHOD, or whose choice differs from the last, is logged. -/
def State.logMethod (s : State) (c : SnapCopy) : State :=
  let was := s.lastMethod c.ent
  if c.ent.method ≠ 0 ∨ (was ≠ 0 ∧ was ≠ c.method) then s.log_ (srcOf 0x0C 0) 0x1E (leBytes 2 c.ent.id ++ leBytes 1 c.method) else s

/-! ### The interval (R484) -/

/-- T has elapsed since the start of the last freeze: e beats of 0.4 ns with (0.4 ns × e)² at least 2 × C × M, between the clamps. [DEDUCED, log entry 63; DEDUCED, log entry 103] -/
def State.intervalOver (s : State) : Bool :=
  let e := s.beat.toNat - s.snap.freezeBeat
  s.regN R.mtbfS != 0 && decide (30 * 2500000000 ≤ e)
    && (decide (3600 * 2500000000 ≤ e) || decide (2 * s.costUs * s.regN R.mtbfS * 10 ^ 14 ≤ 16 * e ^ 2 * 2 ^ s.troubles))

/-! ### Requests and freeze (R480, R481) -/

/-- What the job state block holds before its SHA-512, in the order of R475. [DESIGN CHOICE, log entry 104] -/
def JobBlock.body (b : JobBlock) : List Byte :=
  leBytes 4 b.seq.toNat ++ leBytes 8 b.step.toNat ++ leBytes 4 b.epoch.toNat ++ leBytes 4 b.shard.toNat ++ leBytes 8 b.sample.toNat
    ++ leBytes 6 b.seed.toNat ++ b.scales ++ b.versions.flatMap (leBytes 4 ·)

/-- The job state block's bytes. -/
def JobBlock.bytes (b : JobBlock) : List Byte := b.body ++ b.digest

/-- Counter of a core's stream: bits 63:0 (R488). -/
def ArrCore.counter (a : ArrCore) (kind : Nat) : Nat := a.mb % 32 * 2 ^ 59 + a.layer % 1024 * 2 ^ 49 + Sparse.get 0 a.draws kind % 2 ^ 49

/-- The stored counters that are not 0, of kinds 0 and 1. -/
def State.streamCounters (s : State) : List (Nat × Nat) :=
  s.cores.flatMap fun c => ([0, 1].map fun k => (4 * c.1 + k, c.2.counter k)).filter (·.2 != 0)

def State.jobBlock (s : State) : JobBlock :=
  let b : JobBlock := { seq := s.reg R.snapSeq + 1, step := s.job.step, epoch := s.job.epoch, shard := s.job.shard, sample := s.job.sample, seed := s.job.seed,
                        scales := s.bytes s.scaleBase (128 * s.regN R.scaleCount),
                        versions := (List.range (s.regN R.updCount)).map fun u => (s.updRec u).version.toNat,
                        streams := s.streamCounters, digest := [] }
  { b with digest := sha512 b.body }

/-- A request is held whose tideline an advance that closes step `closed` may be. -/
def State.tidelineDue (s : State) (closed : Nat) : Bool := s.snap.configured && s.snap.requests.any fun r => decide (r ≤ closed)

/-- The freeze (R481): the job state block and the entries go to local staging, and their dirty bits clear. Its requests are satisfied. [DESIGN CHOICE, log entry 102] -/
def State.freeze (s : State) (closed : Nat) : State :=
  let copies := s.snap.entries.map s.copyEnt
  let block := s.jobBlock
  let s := copies.foldl State.logMethod s
  let s := s.snap.entries.foldl State.cleanEnt s
  { s with
    snap := { s.snap with
      state := .freeze, staged := some { block, copies }, freezeBeat := s.beat.toNat, step := s.job.step, due := false, deferred := false, doneFrom := [],
      requests := s.snap.requests.filter fun r => !decide (r ≤ closed)
      lastMethod := copies.foldl (fun m c => Sparse.put 0 m c.ent.id c.method) s.snap.lastMethod }
    tide := { s.tide with freezing := true } }

/-! ### Transfer (R478, R482) -/

/-- R478: the stripes of a round that hold data of the member at position `p`, ascending. -/
def stripesOf (p : Nat) : List Nat := (List.range 10).filter fun t => p != t && p != (t + 1) % 10

/-- D′ ⊕ D of two blocks, bytes by offset. -/
def xorCells (new old : List Host.Cell) : List Host.Cell := new.foldl (fun m c => Sparse.put 0 m c.1 (Sparse.get 0 m c.1 ^^^ c.2)) old

/-- The cells of block `b`, by offset in it. -/
def blockCells (cells : List Host.Cell) (b : Nat) : List Host.Cell :=
  (cells.filter fun c => c.1 / mib == b).map fun c => (c.1 % mib, c.2)

/-- R478: the delta of parity block `b`, whose bytes are to be `new`, goes to the two holders of its stripe's parity. -/
def State.sendDelta (s : State) (b : Nat) (new : List Host.Cell) : State :=
  let t := (stripesOf s.snap.parPos).getD (b % 8) 0
  let d := xorCells new (blockCells s.snap.base b)
  [t, (t + 1) % 10].foldl (fun s h => s.emit (.delta (s.snap.members.getD h 0) (b / 8) t s.snap.parPos d)) s

/-- The parity blocks of an entry whose contents the transfer changes: those staged under Parity, and under Mirror those that the base still holds. -/
def State.deltaBlocks (s : State) (c : SnapCopy) : List Nat :=
  if c.method = 1 then (List.range c.ent.lenMb).filter fun i => s.snap.base.any fun x => x.1 / mib == c.ent.parOff + i
  else c.blocks

/-- What an entry's copy sends: all of a Mirror entry to the inactive slot on the buddy, and the deltas of its parity blocks. [DESIGN CHOICE, log entry 102] -/
def State.sendCopy (s : State) (c : SnapCopy) : State :=
  let s := if c.method = 1 then s.emit (.mirror s.snap.buddy (1 - s.snap.slot) c.ent.id c.cells) else s
  (s.deltaBlocks c).foldl (fun s i => s.sendDelta (c.ent.parOff + i) (if c.method = 1 then [] else blockCells c.cells i)) s

/-- The transfer begins (R482). -/
def State.startTransfer (s : State) : State :=
  match s.snap.staged with
  | some x =>
    let s := { s with snap := { s.snap with state := .transfer } }
    let s := s.emit (.mirror s.snap.buddy (1 - s.snap.slot) 65536 (x.block.bytes.zipIdx.map fun e => (e.2, e.1)))
    x.copies.foldl State.sendCopy s
  | none => s

/-! ### Commit (R482) -/

/-- The base copy takes what a Parity entry staged; the base of a Mirror entry is zero. -/
def commitBase (base : List Host.Cell) (c : SnapCopy) : List Host.Cell :=
  let at_ := c.ent.parOff * mib
  let base := Sparse.dropKeys (fun a => decide (at_ ≤ a ∧ a < at_ + c.ent.lenMb * mib) && (c.method == 1 || c.blocks.contains ((a - at_) / mib))) base
  if c.method = 1 then base else c.cells.foldl (fun m x => Sparse.put 0 m (at_ + x.1) x.2) base

/-- SNAP_COMMIT on a member. [DESIGN CHOICE, log entry 102] -/
def State.commit (s : State) : State :=
  match s.snap.staged with
  | some x =>
    let s := { s with snap := { s.snap with staged := none, committed := some x, state := .idle, doneFrom := [], spoiled := [], unsound := false, slot := 1 - s.snap.slot,
                                            base := x.copies.foldl commitBase s.snap.base,
                                            based := (x.copies.filter fun (c : SnapCopy) => c.method == 2).map fun (c : SnapCopy) => c.ent.id } }
    let s := ((s.setReg R.snapSeq x.block.seq).orReg R.snapStatus 1).count R.snapshots
    s.snapEntry x.block.seq false
  | none => s

/-- R482: the master commits once every member has sent SNAP_DONE. -/
def State.masterCommit (s : State) : State :=
  match s.snap.staged with
  | some x =>
    if s.group.member && decide (s.snap.doneFrom.length < s.group.size) then s
    else (s.broadcast { tidePkt T.snapCommit with snapSeq := x.block.seq }).commit
  | none => s

/-- The snapshot in transfer has the number `seq`. -/
def State.inTransfer (s : State) (seq : Word) : Bool := s.snap.state == .transfer && s.snap.staged.any fun x => x.block.seq == seq

/-- The snapshot between freeze and commit has the number `seq`. -/
def State.staging (s : State) (seq : Word) : Bool := s.snap.staged.any fun x => x.block.seq == seq

/-- A SNAP_DONE counts for its sender. -/
def State.noteDone (s : State) (dev : Half) : State :=
  if s.snap.doneFrom.contains dev then s else { s with snap := { s.snap with doneFrom := s.snap.doneFrom ++ [dev] } }

/-- R482: what this member's transfer comes to: SNAP_DONE to the master, which counts its own. -/
def State.transferDone (s : State) : State :=
  match s.snap.staged with
  | some x =>
    if !s.group.member then s.masterCommit
    else if s.isMaster then (s.noteDone (BitVec.ofNat 16 s.group.master)).masterCommit
    else s.originate { tidePkt T.snapDone with dst := BitVec.ofNat 16 s.group.master, snapSeq := x.block.seq }
  | none => s

/-- The id and the routing entries that messages to the tree neighbours need are checked (R435). -/
def State.checkTree (s : State) : State := if s.group.member then s.neighbours.foldl (fun s d => s.checkRoute d.toNat) s.checkId else s

/-- R483: this member reports an uncorrectable error in its staging. -/
def State.snapFails (s : State) : State :=
  match s.snap.staged with
  | some x =>
    if s.group.member && !s.isMaster then s.originate { tidePkt T.snapFail with dst := BitVec.ofNat 16 s.group.master, snapSeq := x.block.seq }
    else s.checkTree.masterAbort
  | none => s

/-! ### Commands -/

/-- Bounds of the snapshot area are those of the DDR5 tier. -/
def State.areaOk (s : State) (base gib : Nat) : Bool :=
  base % mib == 0 && (!s.ddrPresent || s.rangeOk [.ddr] base (gib * 2 ^ 30))

def cmdSnapConfig : Cmd where
  op := 0x0701
  len := lenIs 48
  param s r :=
    (decide (r.at 2 1 ≤ 9) || r.at 2 1 == 0xFF) && r.at 3 1 == 0 && r.at 24 8 % 32 == 0 && decide (r.at 32 4 ≤ 4096)
      && s.rangeOk [.hbm] (r.at 24 8) (32 * r.at 32 4) && s.areaOk (r.at 36 8) (r.at 44 4)
      && (List.range (r.at 32 4)).all fun i => s.entOk (s.snapEntAt (r.at 24 8) i)
  state s _ := s.snap.staged.isNone && s.ddrPresent
  act s r :=
    let n := r.at 32 4
    let s := ((s.setReg R.snapTableLo (word (r.at 24 4))).setReg R.snapTableHi (word (r.at 28 4))).setReg R.snapCount (word n)
    let s := ((s.basic R.snapTableLo).basic R.snapTableHi).basic R.snapCount
    ({ s with snap := { s.snap with
        configured := true, buddy := BitVec.ofNat 16 (r.at 0 2), parPos := r.at 2 1
        members := (List.range 10).map fun i => BitVec.ofNat 16 (r.at (4 + 2 * i) 2)
        area := r.at 36 8, areaGiB := r.at 44 4
        entries := (List.range n).map fun i => entOf (s.snapEntAt (r.at 24 8) i)
        -- after SNAP_CONFIG every Parity entry is rebuilt as one that enters Parity, from a base of zero (R478, R490)
        based := [], base := [], freezeBeat := if s.snap.configured then s.snap.freezeBeat else s.beat.toNat } }, some .ok)

def cmdSnapPolicy : Cmd where
  op := 0x0702
  len := lenIs 4
  param _ r := decide (1 ≤ r.at 0 2) && decide (1 ≤ r.at 2 1 ∧ r.at 2 1 ≤ 100) && r.at 3 1 == 0
  act s r := ((s.setReg R.snapCtrl (word (r.at 0 2 + 65536 * r.at 2 1))).basic R.snapCtrl, some .ok)

def cmdSnapInterval : Cmd where
  op := 0x0703
  len := lenIs 8
  param _ r := r.at 4 4 == 0
  act s r := ((s.setReg R.mtbfS (word (r.at 0 4))).basic R.mtbfS, some .ok)

def cmdSnapNow : Cmd where
  op := 0x0704
  len := lenIs 0
  state s _ := s.job.exists_ && s.snap.configured && s.job.restart.isNone
  act s _ := (s.snapRequest, some .ok)

/-- State that SNAP_STATUS reports: 0 idle, 1 waiting for its tideline, 2 freeze, 3 transfer; a request that waits
is reported first (R480). -/
def State.snapStateCode (s : State) : Nat :=
  if !s.snap.requests.isEmpty then 1
  else match s.snap.state with
    | .freeze => 2
    | .transfer => 3
    | .idle => 0

/-- [DESIGN CHOICE, log entry 104] -/
def cmdSnapStatus : Cmd where
  op := 0x0705
  len := lenIs 0
  act s _ := (s, some (.ok (leBytes 4 (s.regN R.snapSeq) ++ leBytes 8 ((s.snap.committed.map (·.block.step.toNat)).getD 0)
    ++ leBytes 4 (s.regN R.snapCostUs) ++ leBytes 4 s.intervalS ++ leBytes 1 s.snapStateCode)))

/-! ### The rows -/

/-- SNAP_CONFIG (R474, R490, R491, R494). -/
def execSnapConfig (r : Req) (s : State) : Outcome := cmdSnapConfig.serve r s
/-- SNAP_POLICY (R491, R494). -/
def execSnapPolicy (r : Req) (s : State) : Outcome := cmdSnapPolicy.serve r s
/-- SNAP_INTERVAL (R484, R491, R494). -/
def execSnapInterval (r : Req) (s : State) : Outcome := cmdSnapInterval.serve r s
/-- SNAP_NOW (R480, R491). -/
def execSnapNow (r : Req) (s : State) : Outcome := cmdSnapNow.serve r s
/-- SNAP_STATUS (R491). -/
def execSnapStatus (r : Req) (s : State) : Outcome := cmdSnapStatus.serve r s

/-- SNAP_INTERVAL_EXPIRE (R484): the request itself is made at the next step advance. -/
def execSnapIntervalExpire (s : State) : Outcome :=
  .next (if s.job.exists_ && s.snap.configured && s.job.restart.isNone && s.intervalOver then { s with snap := { s.snap with due := true } } else s)

/-- SNAP_REQ (R480, R618). -/
def execSnapReq (l : Fin 64) (resent : Bool) (p : Pkt) (s : State) : Outcome :=
  .next (s.arrive l resent p K.tide [T.snapReq] fun s p =>
    if s.group.member && s.devId != some p.src then (s.relay l p).addRequest p.step.toNat else s)

/-- SNAP_TRANSFER_DONE (R482): this member has had everything it sent acknowledged and has received everything owed to it. -/
def execSnapTransferDone (s : State) : Outcome := .next (if s.snap.state == .transfer then s.transferDone else s)

/-- SNAP_DONE (R482) at the master. -/
def execSnapDone (l : Fin 64) (resent : Bool) (p : Pkt) (s : State) : Outcome :=
  .next (s.arrive l resent p K.tide [T.snapDone] fun s p =>
    if s.isMaster && s.staging p.snapSeq then
      let s := s.noteDone p.src
      if s.snap.state == .transfer then s.masterCommit else s
    else s)

/-- SNAP_COMMIT (R482, R618) at a member. -/
def execSnapCommit (l : Fin 64) (resent : Bool) (p : Pkt) (s : State) : Outcome :=
  .next (s.arrive l resent p K.tide [T.snapCommit] fun s p =>
    if s.group.member && s.devId != some p.src then
      let s := s.relay l p
      if s.inTransfer p.snapSeq then s.commit else s
    else s)

/-- SNAP_FAIL (R483) at the master. -/
def execSnapFail (l : Fin 64) (resent : Bool) (p : Pkt) (s : State) : Outcome :=
  .next (s.arrive l resent p K.tide [T.snapFail] fun s p => if s.isMaster && s.staging p.snapSeq then s.checkTree.masterAbort else s)

/-- SNAP_ABORT (R483, R618) at a member. -/
def execSnapAbort (l : Fin 64) (resent : Bool) (p : Pkt) (s : State) : Outcome :=
  .next (s.arrive l resent p K.tide [T.snapAbort] fun s p =>
    if s.group.member && s.devId != some p.src then
      let s := s.relay l p
      if s.staging p.snapSeq then s.abandon else s
    else s)

end Sys2Proof.Machine
end

