-- ==== Sys2Proof/Machine/Replay.lean ====
section
/-!
DEFINITION. Core faults, substitution and tide replay (R57, R467 to R471), hangs (R54), and the handling of uncorrectable errors (R473).
-/
namespace Sys2Proof.Machine

/-! ### The tide that may be replayed (R57, R468) -/

/-- The cost entries that run in tide `k`, each with its image. -/
def State.workOf (s : State) (k : Nat) : List (Image × Cost) :=
  s.images.flatMap fun i => (i.costs.filter fun c => i.runs c && c.isWork && decide (i.k0 + c.tide ≤ k ∧ k < i.k0 + c.tide + c.span)).map fun c => (i, c)

/-- R57: a multi-tide span of an admitted image covers tide `k`, whether or not it has work. -/
def State.spanCovers (s : State) (k : Nat) : Bool :=
  s.images.any fun i => i.costs.any fun c => i.runs c && decide (1 < c.span) && decide (i.k0 + c.tide ≤ k ∧ k < i.k0 + c.tide + c.span)

/-- Tide `k` may be replayed for a fault on `core`: no multi-tide span covers it, and the image of the core's work in it has REPLAYABLE set; of a core
without work there, every image at work. [DEDUCED, log entry 100] -/
def State.mayReplay (s : State) (k core : Nat) : Bool :=
  let w := s.workOf k
  let own := w.filter (·.2.engine == core)
  !s.spanCovers k && (if own.isEmpty then !w.isEmpty && w.all (·.1.replayable) else own.all (·.1.replayable))

/-! ### Opening values (R469) -/

/-- Registers that return: bucket states and flags. -/
def replayRegs : List Nat := (List.range 4).map R.bktState ++ [R.bktFlagsLo, R.bktFlagsHi]

/-- What a replay of the tide now opening would return to. -/
def State.keepOpening (s : State) : State :=
  { s with opening := { shelf := s.shelf, recs := s.upd.recs, slots := s.bkt.slots, decided := s.bkt.decided
                        regs := replayRegs.map fun k => (k, s.reg k), cores := s.cores } }

/-- A core's engines as the replay begins: its amax accumulators unbound, its random streams and channel state at their opening values. -/
def ArrCore.reopen (a was : ArrCore) : ArrCore :=
  { a with passes := [], amax := [], bind := [], mb := was.mb, layer := was.layer, draws := was.draws
           chCount := was.chCount, chMax := was.chMax, chs := was.chs, quants := was.quants }

/-- R469, R75, R328, R365: the tide's state returns to its opening values. -/
def State.reopen (s : State) : State :=
  let o := s.opening
  let s : State := o.regs.foldl (fun (t : State) (x : Nat × Word) => t.setReg x.1 x.2) s
  let keys := sortDedup (s.cores.map Prod.fst ++ o.cores.map Prod.fst)
  let cores := keys.foldl (fun m c => Sparse.put {} m c ((s.arr c).reopen (Sparse.get {} o.cores c))) []
  let s : State := { s with
    shelf := { o.shelf with runs := [] }
    upd := { s.upd with recs := o.recs }
    bkt := { s.bkt with slots := o.slots, reds := [], decided := o.decided }
    evts := []
    cores := cores }
  s.countChunks

/-- Provisional vectors that a port holds, on its incoming hop too. -/
def RPort.provs (p : RPort) : Nat :=
  (p.hop.filter fun i => match i with | .vec v => v.prov | _ => false).length + (p.landing.filter (·.prov)).length
    + (p.skid.filter (·.2.prov)).length

/-- Provisional data that the flush discards is counted: the operations of cancelled run-aheads (R247), and the vectors at the ports (R210). -/
def State.countFlush (s : State) : State :=
  let s := s.str.ops.foldl (fun s o => if o.gone then s.count (R.raDiscardBytes o.own.core) (cdiv o.len 64) else s) s
  s.str.ports.foldl (fun s x => s.count (R.provDiscards (x.1 / 2)) x.2.provs) s

/-- Steps 1, 2 and 6 of Table 13.2 in the streams: every stream, queue and operation starts again, and every list from its first descriptor. -/
def State.flushTide (s : State) : State :=
  let s := (s.cancelRunAheads fun _ => true).countFlush
  { s with str := { s.str with sds := [], ops := [], tail := [], serve := [], retry := [], heads := [], signals := [], ports := [] }
           regs := Sparse.dropKeys (fun k => (List.range 256).any fun c => k == R.queueOwnLo c || k == R.queueOwnHi c) s.regs
           lists := s.lists.map fun l => { l with issued := 0, busy := [], drained := [], skipped := [] } }

/-- Steps 1 to 3 of Table 13.2: issue stops and the closing boundary is held under R64, the streams are flushed, and the tide's state returns to
its opening values. -/
def State.replayStart (s : State) : State := (s.lateHold s.tide.next).flushTide.reopen

/-- The replay (Table 13.2): the closing boundary is held under R64, and the tide begins again. [DEDUCED, log entry 100] -/
def State.replay (s : State) : State :=
  let s := s.replayStart
  let s := { s with tide := { s.tide with
    replayed := true, reports := []
    hangFrom := if s.tide.fallen then some (s.tide.hangFrom.getD s.groupBeat) else none } }
  (s.orReg R.snapStatus 0x20).count R.replays

/-! ### Core faults (R467 to R471) -/

/-- R471: the spare takes the failed core's number at the next boundary, by an order of Enmora's own (R207), whose TAG is free. [DEDUCED, log entry 99] -/
def State.orderSpare (s : State) (core : Nat) : State :=
  let (v, s) := s.draw
  let b := core / 16
  let tag : Half := v.setWidth 16
  (s.schedule b tag 0xC002 s.nextStep3 (leBytes 1 (core % 16))).bayOutcome b tag 0xC002 outScheduled

/-- A core fault (R467): `ue`: an uncorrectable error is found in the failed core's storage (R470), which ends the replay at step 4 of Table 13.2.
Between steps 3 and 4 of a boundary no tide is open to be replayed. [DEDUCED, log entry 81; DEDUCED, log entry 100] -/
def State.coreFault (s : State) (core : Nat) (ue : Bool) : State :=
  let s := { s with tide := { s.tide with faults := s.tide.faults.filter (· != core) } }
  let k := s.tide.count.toNat
  if s.job.lost then s
  else if !s.spareFree (core / 16) then s.restart 0x03
  else if s.tide.replayed then (s.orderSpare core).restart 0x02
  else if !s.tide.running then s.orderSpare core
  else if s.tide.past3 || !s.mayReplay k core then (s.orderSpare core).restart 0x01
  else if ue then s.replayStart.restart 0x04
  else s.replay.threadSpare core

/-- CORE_FAULT (R467 to R471): a fault of a logical core, found by its own logic or by a unit that runs its descriptors. -/
def execCoreFault (core : Fin 256) (ue : Bool) (s : State) : Outcome := .next (s.coreFault core.val ue)

/-- Beats counted against HOLD_LIMIT (R54). -/
def State.hangBeats (s : State) : Nat :=
  s.tide.hangCount + match s.tide.hangFrom with
    | some g => (s.groupBeat - g).toNat
    | none => 0

/-- R54: HOLD_LIMIT_HIT, a TIDE_HANG entry, and a core fault on the lowest-numbered engine still to report; the count begins again. [DEDUCED, log entry 100] -/
def State.hang (s : State) (e : Nat) (ue : Bool) : State :=
  let n := s.hangBeats
  let s := (s.orReg R.tideStatus 4).logCore (srcOf 0x08 0) 0x05 e (leBytes 8 n)
  { s with tide := { s.tide with hangCount := 0, hangFrom := some s.groupBeat } }.coreFault e ue

/-- TIDE_HANG (R54, R467). -/
def execTideHang (ue : Bool) (s : State) : Outcome :=
  .next (match s.unreported with
    | e :: _ => if s.tide.fallen ∧ s.regN R.holdLimit ≤ s.hangBeats then s.hang e ue else s
    | [] => s)

/-! ### Uncorrectable errors (R473) -/

/-- The address lies in the snapshot area. -/
def State.inSnapArea (s : State) (a : Nat) : Bool :=
  s.snap.configured && decide (s.snap.area ≤ a ∧ a < s.snap.area + s.snap.areaGiB * 2 ^ 30)

/-- Row 2 of Table 13.4: the copies are unusable; the next snapshot rewrites the entries, and a snapshot in progress fails (R483). -/
def State.storeUe (s : State) : State :=
  let s := { s.orReg R.snapStatus 8 with snap := { s.snap with spoiled := sortDedup (s.snap.entries.map (fun (e : SnapEnt) => e.id) ++ s.snap.spoiled) } }
  s.snapFails

/-- This device's copy of block `i` is still that of the last committed snapshot: local staging holds a later one between freeze and commit (R481), and
then the base copy that of a block which the freeze has not copied (R478). -/
def State.lastHeld (s : State) (c : SnapCopy) (i : Nat) : Bool :=
  (c.method == 1 || s.snap.based.contains c.ent.id)
    && s.snap.staged.all fun x => c.method != 1 && x.copies.all fun y => !(y.ent.id == c.ent.id && y.blocks.contains i)

/-- The bytes that this device's copy in the last committed snapshot holds of the clean 4 KiB block at `a`: of a Mirror entry from its local staging, of a
Parity entry from the base copy. [DEDUCED, log entry 101] -/
def State.cleanCopy (s : State) (a : Nat) : Option (List Byte) :=
  if s.snap.unsound then none
  else
    (s.snap.committed.bind fun x => x.copies.find? fun c => decide (c.ent.base ≤ a ∧ a < c.ent.base + c.ent.lenMb * mib)
        && !s.entDirty c.ent ((a - c.ent.base) / mib) && !s.snap.spoiled.contains c.ent.id && s.lastHeld c ((a - c.ent.base) / mib)).map fun c =>
      if c.method = 1 then (List.range 4096).map fun i => Sparse.get 0 c.cells (a - c.ent.base + i)
      else (List.range 4096).map fun i => Sparse.get 0 s.snap.base (c.ent.parOff * mib + (a - c.ent.base) + i)

/-- R473: an uncorrectable error at address `a`, found on behalf of `core` when a tide read it. [DEDUCED, log entry 101] -/
def State.ueHandle (s : State) (core : Option Nat) (a : Nat) : State :=
  let blk := a / 4096 * 4096
  if s.inSnapArea a then s.storeUe
  else match s.cleanCopy blk with
    | some bs =>
      let s := (s.store blk bs).log_ (srcOf 0x20 (match s.tierOf a with | some .ddr => 8 + channelOf a | _ => stackOf a)) 0x1A (leBytes 6 blk)
      match core with
      | none => s
      | some c =>
        if s.tide.replayed then s.restart 0x02
        else if s.tide.running && !s.tide.past3 && s.mayReplay s.tide.count.toNat c then s.replay
        else s.restart 0x04
    | none => s.restart 0x04

/-- A read that no core makes meets errors: they are corrected, or reported and handled (R442, R443, R447, R473). -/
def State.meetRead (s : State) (a n : Nat) : State :=
  (s.metUnits a n).foldl (fun s u => if u.2 = 0 then s.correctable u.1 else (s.recordUe u.1 (u.2 == 2)).ueHandle none u.1) s

end Sys2Proof.Machine
end

