-- ==== Sys2Proof/Machine/Bucket.lean ====
section
/-!
DEFINITION. Buckets, rings and reduction (R371 to R391).
-/
namespace Sys2Proof.Machine

/-! ### Fields of a BKT (Table 10.6) -/

def bBase (d : Desc) : Nat := bits d 464 48
def bSizeMb (d : Desc) : Nat := bits d 457 7
def bTopo (d : Desc) : Nat := bits d 455 2
def bRingA (d : Desc) : Nat := bits d 449 4
def bRingB (d : Desc) : Nat := bits d 445 4
def bRcoreBase (d : Desc) : Nat := bits d 437 8
def bRcoresLog2 (d : Desc) : Nat := bits d 434 3
def bOffset (d : Desc) : Nat := bits d 408 26
def bLen (d : Desc) : Nat := bits d 381 27
def bRec (d : Desc) : Nat := bits d 369 12
def bLast (d : Desc) : Bool := bit d 368
def bRxAddr (d : Desc) : Nat := bits d 343 19
def bWorkAddr (d : Desc) : Nat := bits d 324 19

/-- R12, R397: the complement pairs of a BKT hold. -/
def bktPairsOk (d : Desc) : Bool := hdrOk d && fieldPairOk d 6 305 311 && fieldPairOk d 4 297 301 && fieldPairOk d 2 455 453

/-- The next descriptor of a list is a BKT with operation `op`. -/
def State.nextBkt (s : State) (core num op : Nat) : Option (DList × Desc) := s.nextDesc core num fun d => dOpcode d == Op.bkt && bOp d == op

/-- BKT_STATE and the others at a descriptor: it issues, and the error is raised (R398). -/
def State.bktErrAt (s : State) (l : DList) (d : Desc) (code : Nat) : State := (s.issue l).bktError code (bBucket d) l.core (dTag d) 0xFFFF

/-- The BKT issues, acts and has drained. -/
def State.bktDo (s : State) (l : DList) (act : State → State) : State := (act (s.issue l)).drain l.ref

/-! ### Rings (R377) -/

def State.ringPos (s : State) (n : Nat) : Nat := s.field (R.ringCfg n) 16 12
def State.ringNextDev (s : State) (n : Nat) : Half := BitVec.ofNat 16 (s.field (R.ringNext n) 0 16)
def State.ringPrevDev (s : State) (n : Nat) : Half := BitVec.ofNat 16 (s.field (R.ringPrev n) 0 16)

/-- R12: the complement pairs of a ring entry hold. -/
def State.ringOk (s : State) (n : Nat) : Bool := fieldPairOk (s.reg (R.ringNext n)) 16 0 16 && fieldPairOk (s.reg (R.ringPrev n)) 16 0 16

/-! ### OPEN and CONTRIB -/

/-- R372: what an OPEN of a core sets. -/
def State.openBucket (s : State) (core : Nat) (d : Desc) : State :=
  let b := bBucket d
  let mb := if bSizeMb d = 0 then s.field R.bktCtrl 0 7 else bSizeMb d
  let s := s.setBucket b { base := bBase d, size := mb * 2 ^ 20, topo := bTopo d, ringA := bRingA d, ringB := bRingB d
                           rbase := bRcoreBase d, rlog := bRcoresLog2 d, core, tag := dTag d }
  (s.setBucketState b Bk.opened).setBucketFlag b false

/-- OPEN (R371, R372): a slot that is not IDLE raises BKT_STATE; a ring entry whose pair fails is an uncorrectable error (R401). [DEDUCED, log entry 96] -/
def execBktOpen (core : Fin 256) (list : Fin 8) (s : State) : Outcome :=
  match s.nextBkt core.val list.val 0 with
  | none => .next s
  | some (l, d) =>
    if !bktPairsOk d then .next (s.descFault core)
    else if s.bucketState (bBucket d) ≠ Bk.idle then .next (s.bktErrAt l d 3)
    else if (ringsOf (bTopo d) (bRingA d) (bRingB d)).any fun n => !s.ringOk n then .next ((s.issue l).restart 0x04)
    else .next (s.bktDo l fun s => s.openBucket core.val d)

/-- Ready bytes of a bucket. -/
def Slot.ready (x : Slot) : Nat := x.ranges.foldl (fun n e => n + e.2) 0

/-- End of the highest ready range. -/
def Slot.top (x : Slot) : Nat := x.ranges.foldl (fun n e => max n (e.1 + e.2)) 0

/-- R374: the range overlaps an earlier ready range, or passes beyond SIZE. -/
def Slot.badRange (x : Slot) (off len : Nat) : Bool :=
  decide (x.size < off + len) || x.ranges.any fun e => decide (off < e.1 + e.2 ∧ e.1 < off + len)

/-- CONTRIB (R374): it waits while its bucket is IDLE. -/
def execBktContrib (core : Fin 256) (list : Fin 8) (s : State) : Outcome :=
  match s.nextBkt core.val list.val 1 with
  | none => .next s
  | some (l, d) =>
    let b := bBucket d
    let x := s.bucket b
    let st := s.bucketState b
    if !bktPairsOk d then .next (s.descFault core)
    else if st = Bk.idle then .next s
    else if st ≠ Bk.opened then .next (s.bktErrAt l d 3)
    else if x.badRange (bOffset d) (bLen d) then .next (s.bktErrAt l d 4)
    else .next (s.bktDo l fun s =>
      s.setBucket b { x with ranges := x.ranges ++ [(bOffset d, bLen d)], last := x.last || bLast d, core := l.core, tag := dTag d })

/-! ### Launch and DONE -/

/-- R376: the reduced extent E. -/
def State.extent (s : State) (x : Slot) : Nat := let q := 256 * 2 ^ x.rlog * s.members x; cdiv x.eReady q * q

/-- A bucket reaches DONE with its final flag (R371, R388, R391, Table 10.11). -/
def State.bucketDone (s : State) (b : Nat) (flag : Bool) : State :=
  let s := ((s.setBucketState b Bk.done).setBucketFlag b flag).count R.bucketsDone
  if flag then
    let s := (s.count R.nonfinBuckets).orReg R.bktStatus 2
    if s.bkt.decided then s.bktError 3 b (s.bucket b).core (s.bucket b).tag 0xFFFF else s
  else s

/-- BUCKET_LAUNCH (R375): the bucket is full, or its LAST contribution has issued. [DEDUCED, log entry 93; DEDUCED, log entry 96] -/
def execBucketLaunch (b : Fin 64) (s : State) : Outcome :=
  let x := s.bucket b
  if s.bucketState b = Bk.opened ∧ (x.ready = x.size ∨ x.last) then
    let gap := x.ready ≠ x.top
    let s := (s.setBucket b { x with eReady := x.top }).setBucketState b Bk.reducing
    let s := if gap then s.bktError 5 b x.core x.tag 0xFFFF else s
    .next (if x.topo = 0 then s.bucketDone b (s.bucketFlag b) else s)
  else .next s

/-! ### The plan of a reducer (R381 to R383) -/

/-- One ring phase of a reducer: PHASE, its ring, whether it gathers, the members and this member's position, and the region. -/
structure Phase where
  code : Nat
  ringB : Bool
  gather : Bool
  size : Nat
  pos : Nat
  base : Nat
  len : Nat
  deriving DecidableEq, Repr

/-- Bytes of a chunk. -/
def Phase.chunk (p : Phase) : Nat := p.len / p.size

/-- Pieces of a chunk (R383). -/
def Phase.pieces (p : Phase) : Nat := cdiv p.chunk 4096

/-- The chunk that the phase's step `j` sends, and the one it receives (Table 10.3). -/
def Phase.sends (p : Phase) (j : Nat) : Nat := (p.pos + b2n p.gather + p.size - j) % p.size
def Phase.receives (p : Phase) (j : Nat) : Nat := (p.pos + b2n p.gather + p.size - 1 - j) % p.size

/-- Piece `k` of chunk `c`: offset in the bucket, and length. -/
def Phase.piece (p : Phase) (c k : Nat) : Nat × Nat := (p.base + c * p.chunk + 4096 * k, min 4096 (p.chunk - 4096 * k))

/-- The phases of reducer `r` of a bucket, in order. [DEDUCED, log entry 94] -/
def State.phases (s : State) (x : Slot) (r : Nat) : List Phase :=
  let sub := s.extent x / 2 ^ x.rlog
  let pA := s.ringSize x.ringA
  let qA := s.ringPos x.ringA
  let a : Phase := ⟨0, false, false, pA, qA, r * sub, sub⟩
  if x.topo = 2 then
    let b : Phase := ⟨1, true, false, s.ringSize x.ringB, s.ringPos x.ringB, r * sub + (qA + 1) % pA * (sub / pA), sub / pA⟩
    [a, b, { b with code := 2, gather := true }, { a with code := 3, gather := true }]
  else [a, { a with code := 3, gather := true }]

/-- Pieces that a phase receives. -/
def Phase.total (p : Phase) : Nat := (p.size - 1) * p.pieces

/-- The phase (by number), step and piece that is received as the `n`th of all. -/
def findPos : List Phase → Nat → Nat → Option (Nat × Phase × Nat × Nat)
  | [], _, _ => none
  | p :: ps, i, n => if n < p.total then some (i, p, n / p.pieces, n % p.pieces) else findPos ps (i + 1) (n - p.total)

/-! ### Bucket memory: bytes from E_ready on are zero, neither read nor written (R376) -/

def State.readBucket (s : State) (x : Slot) (off len : Nat) : List Byte := padBytes len (s.bytes (x.base + off) (min len (x.eReady - off)))

def State.writeBucket (s : State) (x : Slot) (off : Nat) (bs : List Byte) : State := s.store (x.base + off) (bs.take (x.eReady - off))

/-! ### Sending (R378, R383, R384, R388) -/

def State.setRed (s : State) (r : Reducer) : State :=
  { s with bkt := { s.bkt with reds := s.bkt.reds.map fun x => if x.slot == r.slot && x.idx == r.idx then r else x } }

def State.red (s : State) (b i : Nat) : Option Reducer := s.bkt.reds.find? fun r => r.slot == b && r.idx == i

/-- Bits 31:0 of STEP_NUMBER. -/
def State.step32 (s : State) : Word := word s.job.step.toNat

/-- Key of a reducer's credits on a ring in a step. -/
def creditKey (step : Word) (b i : Nat) (ringB : Bool) : Nat := step.toNat * 2 ^ 13 + b * 128 + i * 2 + b2n ringB

def State.credits (s : State) (b i : Nat) (ringB : Bool) : Nat := Sparse.get 0 s.bkt.credits (creditKey s.step32 b i ringB)

def State.addCredits (s : State) (step : Word) (b i : Nat) (ringB : Bool) (n : Nat) : State :=
  let k := creditKey step b i ringB
  { s with bkt := { s.bkt with credits := Sparse.put 0 s.bkt.credits k (Sparse.get 0 s.bkt.credits k + n) } }

def State.takeCredit (s : State) (b i : Nat) (ringB : Bool) : State :=
  let k := creditKey s.step32 b i ringB
  { s with bkt := { s.bkt with credits := Sparse.put 0 s.bkt.credits k (Sparse.get 0 s.bkt.credits k - 1) } }

/-- The ring entry of a bucket. -/
def Slot.ring (x : Slot) (ringB : Bool) : Nat := if ringB then x.ringB else x.ringA

/-- R384: credits granted to the matching reducer of the previous member, over VC1. [DESIGN CHOICE, log entry 72; DEDUCED, log entry 94] -/
def State.grant (s : State) (b i : Nat) (ringB : Bool) (n : Nat) : State :=
  s.originate { kind := K.pieceCredit, dst := s.ringPrevDev ((s.bucket b).ring ringB), vc := 1, bucket := BitVec.ofNat 6 b
                reducer := Fin.ofNat 64 i, phase := Fin.ofNat 4 (b2n ringB), len := n, pstep := s.step32, pstepC := ~~~s.step32 }

/-- The packet of a piece (Table 10.5). -/
def State.pieceOf (s : State) (r : Reducer) (o : OutPiece) : Pkt :=
  let x := s.bucket r.slot
  let data := o.data.getD (s.readBucket x o.off o.len)
  { kind := K.piece, flits := Fin.ofNat 128 (o.len / 64), dst := s.ringNextDev (x.ring o.ringB), vc := 1, len := o.len, op := r.own.core
    bucket := BitVec.ofNat 6 r.slot, bucketC := ~~~(BitVec.ofNat 6 r.slot), phase := Fin.ofNat 4 o.phase, reducer := Fin.ofNat 64 r.idx
    offset := BitVec.ofNat 26 o.off, nonfin := r.f, nonfinC := !r.f, extent := BitVec.ofNat 27 x.eReady
    pstep := s.step32, pstepC := ~~~s.step32, data
    here := { ring := some (x.ring o.ringB), turn := o.num + r.idx, tag := s.tagOf r.own } }

/-- R378: the piece leaves on the link that its number and its reducer select among NEXT_LINKS in service, or else by routing. [DEDUCED, log entry 76; DEDUCED, log entry 95] -/
def State.sendPiece (s : State) (r : Reducer) (o : OutPiece) : State :=
  let x := s.bucket r.slot
  let s := if o.data.isNone then s.meetRead (x.base + o.off) (min o.len (x.eReady - o.off)) else s
  let p := s.pieceOf r o
  let s := (s.count R.piecesSent).originate p
  match o.credit with
  | some ring => s.grant r.slot r.idx ring 1
  | none => s

/-- Pieces of a ring go out in order while credit lasts; `n` bounds them. -/
def State.sendPieces (s : State) (b i : Nat) (ringB : Bool) : Nat → State
  | 0 => s
  | n + 1 =>
    match s.red b i with
    | none => s
    | some r =>
      match r.out.find? (·.ringB == ringB) with
      | none => s
      | some o =>
        if s.credits b i ringB = 0 then s
        else if s.devId.isNone then s.checkId
        else
          let r := { r with out := r.out.erase o }
          (((s.takeCredit b i ringB).setRed r).sendPiece r o).sendPieces b i ringB n

/-! ### Handling a piece (R382, R385) -/

/-- Words added lane by lane, to nearest even. -/
def addWords (a b : List Word) : List Word := (a.zip b).map fun x => fadd .even x.1 x.2

/-- The step-0 pieces of a phase, read from bucket memory. -/
def firstChunk (p : Phase) : List OutPiece :=
  (List.range p.pieces).map fun k => let q := p.piece (p.sends 0) k; ⟨p.ringB, p.code, q.1, q.2, k, none, none⟩

/-- The reducer enters a phase: a reduce-scatter sends its first chunk from bucket memory (R382); an all-gather sends its own as it is written. -/
def enterPhase (ps : List Phase) (i : Nat) : List OutPiece :=
  match ps[i]? with
  | none => []
  | some p => if p.gather then [] else firstChunk p

/-- Bytes `off` to `off` + `len` - 1 from ranges that hold them, when they hold them all. -/
def gathered (chunk : List (Nat × List Byte)) (off len : Nat) : Option (List Byte) :=
  let es := (chunk.filter fun e => decide (off < e.1 + e.2.length ∧ e.1 < off + len)).mergeSort fun a b => decide (a.1 ≤ b.1)
  let bs := es.flatMap fun e => (e.2.drop (off - e.1)).take (off + len - max e.1 off)
  if bs.length = len then some bs else none

/-- Step 0 of ring A's all-gather under TORUS2 (R382): the pieces of the chunk that ring B completes leave in ascending offset, each once its bytes have
been written; `n` bounds them. [DEDUCED, log entry 94] -/
def Reducer.sendGathered (r : Reducer) (p : Phase) : Nat → Reducer
  | 0 => r
  | n + 1 =>
    let q := p.piece (p.sends 0) r.gone
    match decide (r.gone < p.pieces), gathered r.chunk q.1 q.2 with
    | true, some bs => Reducer.sendGathered { r with gone := r.gone + 1, out := r.out ++ [⟨false, p.code, q.1, q.2, r.gone, some bs, none⟩] } p n
    | _, _ => r

/-- What ring B completes is kept for ring A's all-gather, the last phase of `ps`. -/
def Reducer.keep (r : Reducer) (ps : List Phase) (p : Phase) (off : Nat) (bs : List Byte) : Reducer :=
  match p.ringB, ps.getLast? with
  | true, some a => { r with chunk := r.chunk ++ [(off, bs)] }.sendGathered a a.pieces
  | _, _ => r

/-- The piece that comes `pos`th is handled with its data: the reducer, the state, and the pieces it sends on. -/
def State.handle (s : State) (r : Reducer) (ps : List Phase) (i : Nat) (p : Phase) (j k : Nat) (data : List Byte) : State :=
  let x := s.bucket r.slot
  let q := p.piece (p.receives j) k
  let s := if p.gather then s else s.meetRead (x.base + q.1) (min q.2 (x.eReady - q.1))
  let lastStep := j + 2 == p.size
  let sum := addWords (wordsOf (padBytes q.2 data)) (wordsOf (s.readBucket x q.1 q.2))
  let bad := if p.gather then 0 else (sum.filter nonFinite).length
  let bs := if p.gather then padBytes q.2 data else bytesOf sum
  let s := s.count R.nonfinValues bad
  let s := if p.gather || lastStep then s.writeBucket x q.1 bs else s
  -- the matching piece of the next step, or of step 0 of the all-gather on the same ring
  let next : Option Nat := if lastStep then (if p.gather then none else (ps[i + 1]?).bind fun n => if n.ringB == p.ringB then some n.code else none)
    else some p.code
  let sent : List OutPiece := match next with
    | some code => [⟨p.ringB, code, q.1, q.2, k, some bs, some p.ringB⟩]
    | none => []
  let ended := lastStep && k + 1 == p.pieces
  let r := if p.gather || lastStep then r.keep ps p q.1 bs else r
  let r := { r with f := r.f || decide (0 < bad), pos := r.pos + 1, out := r.out ++ sent ++ (if ended then enterPhase ps (i + 1) else []) }
  let s := s.setRed r
  if next.isNone then s.grant r.slot r.idx p.ringB 1 else s

/-- Pieces are handled in the order of the reducer's steps; one that comes early keeps its receive slot. `n` bounds them. -/
def State.handleAll (s : State) (b i : Nat) : Nat → State
  | 0 => s
  | n + 1 =>
    match s.red b i with
    | none => s
    | some r =>
      let ps := s.phases (s.bucket b) i
      match findPos ps 0 r.pos with
      | none => s
      | some (ph, p, j, k) =>
        let off := (p.piece (p.receives j) k).1
        match r.got.find? fun q => q.phase.val == p.code && q.offset.toNat == off with
        | none => s
        | some q => ((s.setRed { r with got := r.got.erase q }).handle { r with got := r.got.erase q } ps ph p j k q.data).handleAll b i n

/-- The spec does not say which bytes of its two areas a reducer leaves behind (R384). [DEDUCED, log entry 95] -/
def State.scratch (s : State) (core rx work : Nat) : State :=
  let a := s.drawBytes 65536
  let b := a.2.drawBytes 65536
  (b.2.store (lsAddr core rx) a.1).store (lsAddr core work) b.1

/-- R388: a reducer that has written its last piece, and sent all it has to send, completes; with the last of them the bucket is DONE. -/
def State.redEnd (s : State) (b i : Nat) : State :=
  match s.red b i with
  | none => s
  | some r =>
    let x := s.bucket b
    if (findPos (s.phases x i) 0 r.pos).isNone && r.out.isEmpty then
      let s := { s with bkt := { s.bkt with reds := s.bkt.reds.filter fun y => !(y.slot == b && y.idx == i) } }
      let x := { x with fin := x.fin ++ [(i, r.f)], tags := x.tags ++ [(i, s.tagOf r.own)] }
      let s := ((s.setBucket b x).scratch r.own.core r.rx r.work).drain r.own
      if x.fin.length = 2 ^ x.rlog then s.bucketDone b (x.fin.any (·.2)) else s
    else s

/-- A reducer does what it can. [DEDUCED, log entry 94] -/
def State.redGo (s : State) (b i : Nat) : State :=
  match s.red b i with
  | none => s
  | some r =>
    let s := s.handleAll b i r.got.length
    let n := ((s.red b i).map fun r => r.out.length).getD 0
    ((s.sendPieces b i false n).sendPieces b i true n).redEnd b i

/-! ### REDUCE and DECIDE -/

/-- A reducer starts (R380, R384): 16 credits go to the previous member of each ring, and its first chunk is to be sent. -/
def State.startReducer (s : State) (own : DescRef) (d : Desc) : State :=
  let b := bBucket d
  let i := bRIndex d
  let x := s.bucket b
  let r : Reducer := { own, slot := b, idx := i, rx := bRxAddr d, work := bWorkAddr d, f := s.bucketFlag b, out := enterPhase (s.phases x i) 0 }
  let s := s.scratch own.core r.rx r.work
  let s := { s with bkt := { s.bkt with reds := s.bkt.reds ++ [r] } }
  let s := s.grant b i false 16
  (if x.topo = 2 then s.grant b i true 16 else s).redGo b i

/-- R380: R_INDEX and the core agree with the OPEN in effect. -/
def Slot.reduceOk (x : Slot) (core i : Nat) : Bool := decide (i < 2 ^ x.rlog) && x.rbase + i == core

/-- REDUCE (R380, R384): it waits until its bucket has launched; `cycles` is what it waits for credit (R384). -/
def execBktReduce (core : Fin 256) (list : Fin 8) (s : State) : Outcome :=
  match s.nextBkt core.val list.val 2 with
  | none => .next s
  | some (l, d) =>
    let b := bBucket d
    let x := s.bucket b
    let st := s.bucketState b
    if !bktPairsOk d then .next (s.descFault core)
    else if st = Bk.idle then .next s
    else if !x.reduceOk core.val (bRIndex d) then .next (s.bktErrAt l d 3)
    else if st ≠ Bk.reducing ∨ (s.red b (bRIndex d)).isSome ∨ x.fin.any (·.1 == bRIndex d) then .next s
    else .next ((s.issue l).startReducer l.ref d)

/-- R391: the gate is set from the flags of the DONE buckets. -/
def State.setGate (s : State) : State :=
  let s := { s with bkt := { s.bkt with decided := true } }
  if s.doneBuckets.any s.bucketFlag then (s.setField R.gate 0 2 2).orReg R.bktStatus 4 else s.setField R.gate 0 2 1

/-- DECIDE (R391): it waits until NBUCKETS buckets are DONE; a second in one step raises BKT_STATE. -/
def execDecideGate (core : Fin 256) (list : Fin 8) (s : State) : Outcome :=
  match s.nextBkt core.val list.val 3 with
  | none => .next s
  | some (l, d) =>
    if !bktPairsOk d then .next (s.descFault core)
    else if s.doneBuckets.length < bNBuckets d then .next s
    else if s.bkt.decided then .next (s.bktErrAt l d 3)
    else .next (s.bktDo l State.setGate)

/-! ### PIECE and PIECE_CREDIT -/

/-- R390: what is wrong with a piece's header, by code of Table 10.9; 0 when nothing is. -/
def State.pieceFault (s : State) (p : Pkt) : Nat :=
  if p.pstepC ≠ ~~~p.pstep ∨ p.bucketC ≠ ~~~p.bucket ∨ p.nonfinC = p.nonfin then 1
  else if p.pstep ≠ s.step32 then 2
  else if (s.bucketState p.bucket.toNat = Bk.reducing ∨ s.bucketState p.bucket.toNat = Bk.done) ∧ p.extent.toNat ≠ (s.bucket p.bucket.toNat).eReady then 8
  else 0

/-- A piece for a reducer of this device (R382, R388, R390). [DEDUCED, log entry 95] -/
def State.takePiece (s : State) (p : Pkt) : State :=
  let b := p.bucket.toNat
  let i := p.reducer.val
  let s := s.count R.piecesReceived
  let f := s.pieceFault p
  let tag := ((s.red b i).map fun r => s.tagOf r.own).getD noHalf
  if f ≠ 0 then s.bktError f b ((s.bucket b).rbase + i) tag p.src.toNat
  else match s.red b i with
    | some r => (s.setRed { r with f := r.f || p.nonfin, got := r.got ++ [p] }).redGo b i
    | none => s

/-- PIECE (R382). -/
def execPiece (l : Fin 64) (resent : Bool) (p : Pkt) (s : State) : Outcome := .next (s.arrive l resent p K.piece [] fun s p => s.takePiece p)

/-- A credit for a receive slot of the next member (R384); `cycles` is how long the reducer has waited for it. -/
def State.takeCredits (s : State) (cycles : Word) (p : Pkt) : State :=
  let b := p.bucket.toNat
  let i := p.reducer.val
  let ringB := p.phase.val == 1
  let waited := (s.red b i).any (fun r => r.out.any (·.ringB == ringB)) && s.credits b i ringB == 0 && p.pstep == s.step32
  let s := if waited then s.count R.creditWaitCycles cycles.toNat else s
  (s.addCredits p.pstep b i ringB p.len).redGo b i

/-- PIECE_CREDIT (R384). -/
def execPieceCredit (l : Fin 64) (resent : Bool) (p : Pkt) (cycles : Word) (s : State) : Outcome :=
  .next (s.arrive l resent p K.pieceCredit [] fun s p => s.takeCredits cycles p)

/-! ### Step advance (R371) -/

/-- Every slot returns to IDLE; one that is neither IDLE nor DONE raises BKT_STATE. Credits of other steps than the new one are void. -/
def State.resetBuckets (s : State) (newStep : Word) : State :=
  let s := ((List.range 64).filter fun b => s.bucketState b == Bk.opened || s.bucketState b == Bk.reducing).foldl
    (fun s b => s.bktError 3 b (s.bucket b).core (s.bucket b).tag 0xFFFF) s
  let s := (List.range 4).foldl (fun s i => s.setReg (R.bktState i) 0) s
  let s := (s.setReg R.bktFlagsLo 0).setReg R.bktFlagsHi 0
  { s with bkt := { s.bkt with slots := [], reds := [], decided := false
                               credits := s.bkt.credits.filter fun e => decide (e.1 / 2 ^ 13 = newStep.toNat) } }

end Sys2Proof.Machine
end

