-- ==== Sys2Proof/Machine/CheckArr.lean ====
section
/-!
DEFINITION. Descriptor checks at admission (R50, ADM_DESCRIPTOR): what every kind shares, and SLD, APD and VOD (R126, R127, R141 to R145, R157,
R160 to R163, R167, R239, R281, R285, R287, R339, R350, R355).
-/
namespace Sys2Proof.Machine

/-! ### A list under judgement -/

/-- A descriptor list of an image: its engine, the tide in which its cost entry opens, SPAN_TIDES, its number, its offset in the image. -/
structure LList where
  core : Nat
  tide : Nat
  span : Nat
  num : Nat
  off : Nat
  ds : List Desc
  deriving DecidableEq, Repr

/-- A descriptor where it stands: its list, its position, itself, and the earlier descriptors of its cost entry with the list of each. -/
structure Spot where
  l : LList
  i : Nat
  d : Desc
  before : List (Nat × Desc)
  deriving DecidableEq, Repr

/-- Descriptors before it in its own list, and the one just before it. -/
def Spot.earlier (p : Spot) : List Desc := p.l.ds.take p.i
def Spot.prev (p : Spot) : Option Desc := if p.i = 0 then none else p.l.ds[p.i - 1]?

/-- Every bit of the fields (lowest bit, length) is 0 (R17). -/
def zeroFields {w : Nat} (d : BitVec w) (fs : List (Nat × Nat)) : Bool := fs.all fun f => bits d f.1 f.2 == 0

/-- Reserved fields of each kind (Tables 2.6, 2.7, 4.14 to 4.16, 5.9, 6.12, 8.9, 10.6). -/
def reservedOf (op : Nat) : List (Nat × Nat) :=
  (18, 14) :: (match op with
    | 1 => [(480, 32), (64, 251)]
    | 2 => [(64, 245)]
    | 3 => [(64, 188)]
    | 4 => [(64, 141), (215, 1)]
    | 5 => [(64, 205)]
    | 6 => [(64, 92)]
    | 7 => [(64, 233)]
    | _ => [(452, 60), (176, 16), (68, 4)])

/-- R163: `n` pieces of `size` bytes at `stride` from local-store offset `a` stay within 512 KiB. -/
def lsFits (a n stride size : Nat) : Bool := n == 0 || decide (a + (n - 1) * stride + size ≤ 2 ^ 19)

/-- R155: positions of the leaders in a bay. -/
def leaderPos (core : Nat) : Bool := [0, 2, 8, 10].contains (core % 16)

/-- SLD or APD. -/
def arrayDesc (d : Desc) : Bool := dOpcode d == Op.sld || dOpcode d == Op.apd

/-- QUAD of an SLD or APD. -/
def quadOf (d : Desc) : Bool := if dOpcode d = Op.sld then lQuad d else aQuad d

/-- R239 and R157 in one list: SLD and APD in one list of the entry, with one QUAD, which only a leader sets. -/
def arrayPlaceOk (p : Spot) : Bool :=
  (p.before.filter fun x => arrayDesc x.2).all (fun x => x.1 == p.l.num && quadOf x.2 == quadOf p.d)
    && (!quadOf p.d || leaderPos p.l.core)

/-! ### Scales (R163, R281) -/

/-- Record `r` of the scale table that tide `t` runs under. -/
def State.recIn (s : State) (t r : Nat) : ScaleRec := s.scaleRecAt (s.regAt R.scaleBaseLo t + 2 ^ 32 * s.regAt R.scaleBaseHi t) r

/-- R281, R285: a reference to record `r` is legal: below SCALE_COUNT, not EMPTY, KIND A or G, or RESID where it may be. -/
def State.refOk (s : State) (t r : Nat) (resid : Bool) : Bool :=
  let v : ScaleRec := s.recIn t r
  decide (r < s.regAt R.scaleCount t) && v.state != 0 && (v.kind == 1 || v.kind == 2 || (resid && v.kind == 3))

/-- R163, R281: a SCALE or W_SCALE field of FMT `f`. -/
def State.scaleOk (s : State) (t f : Nat) (w : Word) : Bool :=
  if f = 0 ∨ f = 1 ∨ f = 9 then
    if 0x7FE00000 ≤ w.toNat ∧ w.toNat ≤ 0x7FE003FF then s.refOk t (w.toNat - 0x7FE00000) false
    else !bit w 31 && decide (0 < bits w 23 8 ∧ bits w 23 8 < 255)
  else w == f32one

/-! ### SLD (Table 4.17) -/

/-- Convolution parameters within R160 and R161 (Tables 4.12, 4.13). [DEDUCED, log entry 42] -/
def State.convOk (s : State) (core : Nat) (d : Desc) : Bool :=
  let g := s.convField core d
  let kt := tileDepth (lFmt d)
  let (c, cg) := (g 276 20, g 256 20)
  let dims := g 171 2
  -- extent in, extent out, kernel, stride, dilation, padding: W, H, D
  let w := (g 328 16, g 376 16, g 219 5, g 205 4, g 193 4, g 181 4)
  let h := (g 312 16, g 360 16, g 214 5, g 201 4, g 189 4, g 177 4)
  let e := (g 296 16, g 344 16, g 209 5, g 197 4, g 185 4, g 173 4)
  let one : Nat × Nat × Nat × Nat × Nat × Nat := (1, 1, 1, 1, 1, 0)
  let used := fun (x : Nat × Nat × Nat × Nat × Nat × Nat) => x.1 != 0 && x.2.1 != 0 && x.2.2.1 != 0 && x.2.2.2.1 != 0 && x.2.2.2.2.1 != 0
  g 448 64 == 0 && g 224 12 == 0 && g 0 171 == 0 && dims != 0
    && used w && used h && used e && (dims == 3 || e == one) && (dims != 1 || h == one)
    && cg != 0 && (cg % kt == 0 || (decide (cg ≤ kt / 2) && (1 <<< cg.log2) == cg)) && (!isMx (lFmt d) || cg % 32 == 0)
    && c != 0 && c % cg == 0 && decide (g 236 20 < c / cg)
    && (decide (kt ≤ cg) || (g 193 4 == 1 && g 219 5 % (kt / cg) == 0))

/-- The source of an SLD, with its scale plane, stays in local store (R163). -/
def State.sldExtentOk (s : State) (core : Nat) (d : Desc) : Bool :=
  let f := lFmt d
  let bytes := fun n => cdiv (n * elemBits f) 8
  let depth := vecElems f (lQuad d)
  match lMode d with
  | 1 => (List.range (lRows d)).all fun r => (List.range (lCols d)).all fun i =>
      (s.convAt core d r i).all fun e =>
        decide (lSrc d + bytes (e + 1) ≤ 2 ^ 19) && (!isMx f || decide (lMxs d + e / 32 < 2 ^ 19))
  | 2 => lsFits (lSrc d) 1 0 (bytes (lRows d)) && (!isMx f || lsFits (lMxs d) 1 0 (cdiv (lRows d) 32))
  | _ =>
    (if lTrans d then lsFits (lSrc d) (lCols d) (lStride d) (bytes (lRows d)) else lsFits (lSrc d) (lRows d) (lStride d) (bytes (lCols d)))
      && (!isMx f || lsFits (lMxs d) (lRows d) (depth / 32) (cdiv (lCols d) 32))

/-- [DEDUCED, log entry 42] -/
def State.sldOk (s : State) (p : Spot) : Bool :=
  let d := p.d
  let q := b2n (lQuad d)
  decide (lFmt d < 10) && decide (lMode d < 3)
    && decide (1 ≤ lRows d ∧ lRows d ≤ 64 <<< q) && decide (1 ≤ lCols d ∧ lCols d ≤ tileDepth (lFmt d) <<< q)
    && (lMode d != 2 || lRows d == lCols d) && (!lTrans d || lMode d == 0) && (!lQuad d || lMode d == 0)
    && lSrc d % 32 == 0 && lStride d % 32 == 0 && s.scaleOk p.l.tide (lFmt d) (lScale d)
    && (lMode d != 1 || s.convOk p.l.core d) && s.sldExtentOk p.l.core d && arrayPlaceOk p

/-! ### APD (Table 4.17) -/

/-- The tile in place at an APD: that of the last SLD before it in the list. -/
def Spot.tile (p : Spot) : Option Desc := p.earlier.reverse.find? fun x => dOpcode x == Op.sld

/-- R165, Table 5.10: the vectors of an APD come from an ARRAY RLD earlier in the list, or from local store. -/
def Spot.vectorsOk (p : Spot) : Bool :=
  let d := p.d
  if aLocal d then lsFits (aVaddr d) (aN d) (32 * aVstride d) (vecSize (aFmt d) (aQuad d) + vecScales (aFmt d) (aQuad d))
  else (p.earlier[aRldSeq d]?).any fun r => dOpcode r == Op.rld && (rRole r == 1 || rRole r == 5)

/-- [DEDUCED, log entry 41] -/
def State.apdOk (s : State) (p : Spot) : Bool :=
  let d := p.d
  let q := b2n (aQuad d)
  decide (aFmt d < 10) && decide (aM d ≤ 64 <<< q) && decide (aK d ≤ tileDepth (aFmt d) <<< q)
    && s.scaleOk p.l.tide (aFmt d) (aScale d) && (aMode d == 3 || decide (aBase d + aN d ≤ 512))
    && (!aInit d || lsFits (aBias d) (aN d) 4 4) && p.vectorsOk
    && (aM d == 0 || aN d == 0 || aK d == 0
        || p.tile.any fun t => lRows t == aM d && lCols t == aK d && lQuad t == aQuad d && fmtClass (lFmt t) == fmtClass (aFmt d))
    && arrayPlaceOk p

/-! ### VOD (Tables 4.17, 9.5) -/

/-- An operand in local store or the accumulator file stays inside it (R144, R163), with every vector of it.
[DESIGN CHOICE, log entry 123] -/
def operandOk (sp addr n stride size : Nat) : Bool :=
  match sp with
  | 0 => addr % 32 == 0 && lsFits addr n (32 * stride) size
  | 1 => decide (addr < 512) && (n == 0 || decide (addr + (n - 1) * stride < 512))
  | _ => true

/-- R285: the record that a bind mark earlier in the list binds to accumulator `a`. -/
def Spot.bound (p : Spot) (a : Nat) : Option Nat :=
  (p.earlier.reverse.find? fun x => dOpcode x == Op.tmk && tOp x == 0 && bit (word (tMarkId x)) 15 && tMarkId x / 1024 % 32 == a).map
    fun x => tMarkId x % 1024

/-- R285, R287: AMAX has its bind mark, and the formats agree. -/
def State.amaxOk (s : State) (p : Spot) : Bool :=
  !vAmax p.d || match p.bound (vAmaxIdx p.d) with
    | none => false
    | some r =>
      let v : ScaleRec := s.recIn p.l.tide r
      (!([0, 1, 9].contains (vDfmt p.d)) && v.kind != 3) || v.fmt == vDfmt p.d

/-- R143: a fused VOD. -/
def Spot.fusedOk (p : Spot) : Bool :=
  p.prev.any (fun a => dOpcode a == Op.apd && decide (2 ≤ aMode a) && aN a == vCount p.d) && [0, 1, 3, 4, 15].contains (vOp p.d)

/-- An ordinary VOD (Table 4.7). -/
def State.plainVodOk (s : State) (p : Spot) : Bool :=
  let d := p.d
  let (n, sz) := (vCount d, lanesSize (vSfmt d))
  let ar := opArity d
  let fused := vASp d == 3
  (!fused || p.fusedOk)
    && (vFunc d != 2 || (vASp d != 2 && vBSp d != 2 && vCSp d != 2)) && (!isMx (vDfmt d) || decide (ar < 3))
    && operandOk (vDstSp d) (vDst d) n (vDstStride d) (lanesSize (vDfmt d))
    && (fused || ar == 0 || operandOk (vASp d) (vSrcA d) n (vAStride d) sz)
    && (decide (ar < 2) || operandOk (vBSp d) (vSrcB d) n (vBStride d) sz)
    && (decide (ar < 3) || operandOk (vCSp d) (vSrcC d) n (vCStride d) sz)
    && (3 ≤ ar || !(isMx (vDfmt d) && vDstSp d == 0 || isMx (vSfmt d)) || lsFits (vSrcC d) n 2 2)
    && s.amaxOk p

/-- An operand field that Table 9.5 leaves unused. -/
def unusedDst (d : Desc) : Bool := vDst d == 0 && vDstStride d == 0 && vDstSp d == 0
def unusedA (d : Desc) : Bool := vSrcA d == 0 && vAStride d == 0 && vASp d == 0
def unusedB (d : Desc) : Bool := vSrcB d == 0 && vBStride d == 0 && vBSp d == 0
def unusedC (d : Desc) : Bool := vSrcC d == 0 && vCStride d == 0 && vCSp d == 0

/-- The operand spaces and formats that Table 9.5 gives an update operation on record `u`: SFMT is a format of one of its sources. -/
def updShape (d : Desc) (u : UpdRec) : Bool :=
  let n := vCount d
  let ls := fun (sp a stride size : Nat) => sp == 0 && operandOk 0 a n stride size
  let acc := fun (sp a stride : Nat) => sp == 1 && operandOk 1 a n stride 0
  let grad := decide (vASp d < 2) && operandOk (vASp d) (vSrcA d) n (vAStride d) 256
  let m := u.mfmt
  match vOp d with
  | 0x20 => acc (vDstSp d) (vDst d) (vDstStride d) && grad && ls (vBSp d) (vSrcB d) (vBStride d) (lanesSize m)
      && ls (vCSp d) (vSrcC d) (vCStride d) 128 && vDfmt d == 10 && [10, 7].contains (vSfmt d) && u.opt == 0
  | 0x21 => acc (vDstSp d) (vDst d) (vDstStride d) && grad && ls (vBSp d) (vSrcB d) (vBStride d) (lanesSize m)
      && ls (vCSp d) (vSrcC d) (vCStride d) (lanesSize m) && vDfmt d == 10 && [10, m].contains (vSfmt d) && u.opt == 1
  | 0x22 => ls (vDstSp d) (vDst d) (vDstStride d) 128 && acc (vASp d) (vSrcA d) (vAStride d)
      && ls (vBSp d) (vSrcB d) (vBStride d) 128 && (if u.split32 then ls (vCSp d) (vSrcC d) (vCStride d) 128 else unusedC d)
      && vDfmt d == 7 && [10, 7].contains (vSfmt d)
  | 0x23 => ls (vDstSp d) (vDst d) (vDstStride d) 256 && (if u.hasBias then ls (vASp d) (vSrcA d) (vAStride d) 256 else unusedA d)
      && ls (vBSp d) (vSrcB d) (vBStride d) 256 && vCSp d == 0 && vSrcC d % 32 == 0 && vDfmt d == 10 && [10, 7].contains (vSfmt d)
      && u.cfmt != 0
  | 0x24 => ls (vDstSp d) (vDst d) (vDstStride d) 64 && ls (vASp d) (vSrcA d) (vAStride d) 128 && unusedB d && unusedC d
      && u.cfmt != 0 && vDfmt d == u.copyFmt && vSfmt d == 7
  | 0x25 => operandOk (vDstSp d) (vDst d) n (vDstStride d) (lanesSize (vDfmt d)) && vASp d != 3
      && operandOk (vASp d) (vSrcA d) n (vAStride d) (lanesSize (vSfmt d)) && unusedB d && unusedC d
  | _ => unusedDst d && unusedA d && unusedB d && unusedC d && vDfmt d == 0 && vSfmt d == 0

/-- R330, R339: the layer and matrix of a record take updates. -/
def State.trains (s : State) (u : UpdRec) : Bool :=
  let m := s.trainMode u.layer
  m != 2 && (if u.mat = 0 then m != 1 else m == 1)

/-- R339, R350, R355: an update operation. [DEDUCED, log entry 44] -/
def State.updOpOk (s : State) (p : Spot) : Bool :=
  let d := p.d
  let op := vOp d
  let u := s.updRec (uRec d)
  [0x20, 0x21, 0x22, 0x23, 0x24, 0x25, 0x26, 0x28, 0x29, 0x2A].contains op
    && bits d 460 4 == 0 && bits d 469 11 == 0 && ([0x28, 0x29].contains op || uShelf d == 0)
    && vFunc d == 0 && !vGated d && !vSr d && !vAmax d && vAmaxIdx d == 0
    && decide (uRec d < s.regAt R.updCount p.l.tide) && s.trains u
    && (!([0x23, 0x26, 0x28, 0x29, 0x2A].contains op) || vCount d == 1) && updShape d u

/-- [DEDUCED, log entry 44] -/
def State.vodOk (s : State) (p : Spot) : Bool :=
  let d := p.d
  decide (vFunc d < 9) && decide (vDfmt d ≤ 10) && decide (vSfmt d ≤ 10) && decide (vDstSp d < 2) && vBSp d != 3 && vCSp d != 3
    && (if vOp d < 0x15 then s.plainVodOk p else s.updOpOk p)

end Sys2Proof.Machine
end

