-- ==== Sys2Proof/Machine/CheckMem.lean ====
section
/-!
DEFINITION. Descriptor checks at admission (R50, ADM_DESCRIPTOR): SD (Table 6.14), RLD (Table 5.10), SHF (Table 8.10), BKT (Table 10.8)
and TMK (R75, R285, R345, R392).
-/
namespace Sys2Proof.Machine

/-- R315: a range of `n` bytes from `a` keeps clear of the Shelf top region in use in tide `t`. -/
def State.clearOfTop (s : State) (t a n : Nat) : Bool :=
  let lo := sliceBase + s.regAt R.shelfTopBase t % 32 * 2 ^ 23
  let hi := lo + s.regAt R.shelfCtrl t % 64 * 2 ^ 23
  n == 0 || lo == hi || decide (a + n ≤ lo ∨ hi ≤ a)

/-- R241: FEED_SEQ names a later descriptor of the list and FREE_SEQ an earlier one, or none. -/
def Spot.seqsOk (p : Spot) (feed free : Nat) : Bool :=
  (feed == noSeq || decide (p.i < feed ∧ feed < p.l.ds.length)) && (free == noSeq || decide (free < p.i))

/-! ### SD -/

/-- R251: a range of another device: in its HBM window or its DDR5 range (Table 12.1). -/
def remoteOk (a n : Nat) : Bool :=
  let e := a + max n 1
  decide (e ≤ 504 * 2 ^ 30) || decide (ddrBase ≤ a ∧ e ≤ 2 * ddrBase)

/-- One side of an SD: `rows` rows of `len` bytes at `pitch` from `a`, on device `dev` when remote. -/
def State.sideOk (s : State) (t : Nat) (remote : Bool) (dev : Half) (a len rows pitch : Nat) : Bool :=
  let n := if len = 0 then 0 else (rows - 1) * pitch + len
  a % 32 == 0 && pitch % 32 == 0
    && (if remote then remoteOk a n && dev.toNat != s.field R.devId 0 16 else s.rangeOk allTiers a n && s.clearOfTop t a n)

/-- [DEDUCED, log entry 45] -/
def State.sdOk (s : State) (p : Spot) : Bool :=
  let d := p.d
  decide (2 ≤ sdVc d) && sdRows d != 0 && bits d 205 3 != 7 && decide (sdLen d ≤ 2 ^ 28) && sdLen d % 32 == 0
    && (sdRows d == 1 || decide (sdLen d ≤ sdDstPitch d)) && !(sdSrcRemote d && (sdDstRemote d || sdRa d))
    && s.sideOk p.l.tide (sdSrcRemote d) (sdSrcDev d) (sdSrc d) (sdLen d) (sdRows d) (sdSrcPitch d)
    && s.sideOk p.l.tide (sdDstRemote d) (sdDstDev d) (sdDst d) (sdLen d) (sdRows d) (sdDstPitch d)
    && p.seqsOk (sdFeed d) (sdFree d)
    && (!p.l.ds.any arrayDesc || p.before.all fun x => !arrayDesc x.2 || x.1 == p.l.num)

/-! ### RLD -/

/-- The extent of the source of an RLD, in bytes from SRC (Table 5.9): whole tiles when it is turned (R198). -/
def rExtent (d : Desc) : Nat :=
  let k := turnDepth d
  let n := headUnits d
  let bytes := if rTurn d then k * elemBits (rFmt d) / 8 else rSize d
  let group := if rTurn d then k else 64
  let last := n - 1
  if n = 0 then 0
  else max (last / group * rTile d + last % group * rVec d) (if group ≤ last then (last / group - 1) * rTile d + (group - 1) * rVec d else 0) + bytes

/-- Table 5.10: an ARRAY role is named by exactly one APD of the list, with its N, FMT and QUAD. -/
def Spot.namedOnce (p : Spot) : Bool :=
  match p.l.ds.filter fun a => dOpcode a == Op.apd && !aLocal a && aRldSeq a == p.i with
  | [a] => aN a == rCount p.d && aFmt a == rFmt p.d && aQuad a == rQuad p.d
  | _ => false

/-- R190: LAND writes with their scale plane stay in local store. -/
def landOk (d : Desc) : Bool :=
  let n := rCount d
  rLand d % 32 == 0 && lsFits (rLand d) n (32 * rLandStride d) (rSize d)
    && (!isMx (rFmt d) || n == 0 || decide (rLand d + n * 32 * rLandStride d + n * rScales d ≤ 2 ^ 19))

/-- A range that a head reads lies in HBM, DDR5, the shared slices or the head's own local store (Table 5.10, R315, R437). -/
def State.headRangeOk (s : State) (p : Spot) (a n : Nat) : Bool :=
  (s.rangeOk [.hbm, .ddr, .slice] a n || (decide (lsAddr p.l.core 0 ≤ a) && decide (a + max n 1 ≤ lsAddr p.l.core 0 + 2 ^ 19)))
    && s.clearOfTop p.l.tide a n

/-- SRC of a head, with its extent, and of an MX stream the plane at MXS_SRC. -/
def State.rSourceOk (s : State) (p : Spot) : Bool :=
  s.headRangeOk p (rSrc p.d) (rExtent p.d) && (!isMx (rFmt p.d) || s.headRangeOk p (rMxs p.d) (headUnits p.d * rScales p.d))

/-- [DEDUCED, log entry 45] -/
def State.rldOk (s : State) (p : Spot) : Bool :=
  let d := p.d
  let n := 2 ^ rSetSize d
  rInterval d != 0 && decide (rFmt d ≤ 10) && rRole d % 4 != 3 && decide (rSetSize d ≤ 4) && rSetBase d % n == 0
    && (!rTurn d || !(isMx (rFmt d) || rFmt d == 10)) && rVec d % 16 == 0 && (!rQuad d || leaderPos p.l.core)
    && (!rArray d || (decide (vecCycles (rFmt d) ≤ rInterval d) && p.namedOnce)) && (!rLands d || landOk d)
    && (!rHead d || s.rSourceOk p)

/-! ### SHF -/

/-- R324: a fused push, just behind an APD or its fused VOD. -/
def Spot.pushOk (p : Spot) : Bool :=
  let apd := match p.prev with
    | some x => if dOpcode x = Op.vod ∧ vASp x = 3 then p.l.ds[p.i - 2]? else some x
    | none => none
  apd.any (fun a => dOpcode a == Op.apd && decide (2 ≤ aMode a) && aN a == hCount p.d) && hSfmt p.d == 10 && decide (hNarrow p.d < 2)

/-- Table 8.10: the core's SHFs that name one Shelf lie in one list, and its pops there do not rise in DEPTH. -/
def Spot.shelfOrder (p : Spot) : Bool :=
  let same := p.before.filter fun x => dOpcode x.2 == Op.shf && hShelf x.2 == hShelf p.d
  same.all (·.1 == p.l.num) && (!hPop p.d || same.all fun x => !hPop x.2 || decide (hDepth p.d ≤ hDepth x.2))

/-- Data and scales of an SHF stay in local store; a pop with DERIV or VALUE counts at 256 B a vector. -/
def shfStoreOk (d : Desc) : Bool :=
  let plain := hDmode d == 0
  hLsAddr d % 32 == 0 && lsFits (hLsAddr d) (hCount d) (32 * hLsStride d) (if plain then shelfData (hSfmt d) else 256)
    && (!plain || !isMx (hSfmt d) || lsFits (hMxs d) (hCount d) (shelfScales (hSfmt d)) (shelfScales (hSfmt d)))

/-- [DEDUCED, log entry 44] -/
def State.shfOk (s : State) (k0 : Nat) (p : Spot) : Bool :=
  let d := p.d
  let scaled := hSfmt d == 0 || hSfmt d == 1 || hSfmt d == 9
  decide (bits d 204 2 < 2) && decide (hDmode d < 3) && decide (hNarrow d < 3) && hParties d != 0 && decide (hParties d ≤ 256)
    && decide (hDfunc d < 9) && decide (hSfmt d ≤ 10) && hFrameVecs d != 0
    && decide (hShelf d < s.regAt R.shelfCtrl k0 % 64) && decide (hLayer d < s.regAt R.layerCount p.l.tide)
    && hFrameOff d % 4096 == 0 && decide (hFrameOff d + frameSize (storedFmt (hSfmt d) (hNarrow d)) (hFrameVecs d) ≤ 2 ^ 36)
    && decide (hVecOff d + hCount d ≤ hFrameVecs d)
    && (hNarrow d != 1 || hSfmt d == 10) && (hNarrow d != 2 || hSfmt d == 7)
    && hScaleEn d == scaled && (!hScaleEn d || s.refOk p.l.tide (hScaleRec d) false)
    && (if hPop d then !bit d 208 else hDmode d == 0) && (if bit d 208 then p.pushOk else shfStoreOk d)
    && p.shelfOrder && p.seqsOk (shfFeed d) (shfFree d)

/-! ### BKT -/

/-- Fields that each OP leaves unused (Table 10.6): lowest bit and length; TOPO_C is no field but a complement. -/
def bktUnused (op : Nat) : List (Nat × Nat) :=
  let opened := [(434, 19), (455, 57)]
  let contrib := [(368, 66)]
  let reduce := [(324, 44)]
  let decide_ := [(317, 7)]
  match op with
  | 0 => contrib ++ reduce ++ decide_
  | 1 => opened ++ reduce ++ decide_
  | 2 => opened ++ contrib ++ decide_
  | _ => opened ++ contrib ++ reduce ++ [(305, 6)]

/-- An OPEN (R372, R380, Table 10.8). -/
def State.openOk (s : State) (p : Spot) : Bool :=
  let d := p.d
  let t := p.l.tide
  let n := (if bSizeMb d = 0 then s.regAt R.bktCtrl t % 128 else bSizeMb d) * 2 ^ 20
  let cores := 2 ^ bRcoresLog2 d
  (bSizeMb d == 0 || decide (4 ≤ bSizeMb d ∧ bSizeMb d ≤ 64)) && bTopo d != 3 && bRcoresLog2 d != 7
    && bBase d % 4096 == 0 && s.rangeOk [.hbm, .slice] (bBase d) n && s.clearOfTop t (bBase d) n
    && (ringsOf (bTopo d) (bRingA d) (bRingB d)).all (fun r => bit (word (s.regAt (R.ringCfg r) t)) 31)
    && (bTopo d != 2 || bRingA d != bRingB d)
    && bRcoreBase d % cores == 0 && decide (bRcoreBase d + cores ≤ 256)
    && (bTopo d != 0 || (bRcoreBase d == 0 && bRcoresLog2 d == 0))

def State.bktOk (s : State) (replayable : Bool) (p : Spot) : Bool :=
  let d := p.d
  decide (bOp d < 4) && zeroFields d (bktUnused (bOp d)) && (match bOp d with
    | 0 => s.openOk p
    | 1 => bOffset d % 256 == 0 && bLen d % 256 == 0 && decide (256 ≤ bLen d ∧ bLen d ≤ 2 ^ 26)
        && decide (bRec d < s.regAt R.updCount p.l.tide)
        && (let u := s.updRec (bRec d); let m := s.trainMode u.layer; m != 2 && !(u.mat == 0 && m == 1))
    | 2 => bRxAddr d % 4096 == 0 && bWorkAddr d % 4096 == 0 && decide (bRxAddr d + 2 ^ 16 ≤ 2 ^ 19) && decide (bWorkAddr d + 2 ^ 16 ≤ 2 ^ 19)
        && decide (bRxAddr d + 2 ^ 16 ≤ bWorkAddr d ∨ bWorkAddr d + 2 ^ 16 ≤ bRxAddr d) && !replayable
    | _ => decide (1 ≤ bNBuckets d ∧ bNBuckets d ≤ 64))

/-! ### TMK -/

/-- A step mark (R345). -/
def stepMark (d : Desc) : Bool := dOpcode d == Op.tmk && tOp d == 0 && (tMarkId d == 0x7FFE || tMarkId d == 0x7FFF)

/-- A bind mark (R285). -/
def isBind (d : Desc) : Bool := dOpcode d == Op.tmk && tOp d == 0 && bit (word (tMarkId d)) 15

/-- P − S − W of tide `t` (R47). -/
def State.tideBudget (s : State) (minSlack t : Nat) : Int :=
  let p := s.regAt R.tidePeriod t
  budget p (slackBeats p (max (s.regAt R.tideSlack t) minSlack)) (s.regAt R.holdWindow t) 1

def State.tmkOk (s : State) (minSlack : Nat) (p : Spot) : Bool :=
  let d := p.d
  let single := p.l.span == 1
  decide (tOp d ≤ 4) && decide (tEvt d ≤ 15) && (tOp d != 1 || decide ((tBeatOff d : Int) ≤ s.tideBudget minSlack p.l.tide))
    && (!stepMark d || single)
    && (!isBind d || (s.refOk p.l.tide (tMarkId d % 1024) true
        && p.before.all fun x => !(isBind x.2 && tMarkId x.2 / 1024 % 32 == tMarkId d / 1024 % 32)))
    && (tOp d != 4 || (single && p.earlier.all fun x => !(dOpcode x == Op.tmk && tOp x == 4 && tBarrier x == tBarrier d)))

/-! ### Every kind -/

/-- The descriptor passes the checks of its owning chapter (R50, check 0x0B), for an image that opens at `k0`. [DEDUCED, log entry 40] -/
def State.descOk (s : State) (k0 minSlack : Nat) (replayable : Bool) (p : Spot) : Bool :=
  let op := dOpcode p.d
  zeroFields p.d (reservedOf op) && (match op with
    | 1 => s.sldOk p
    | 2 => s.apdOk p
    | 3 => s.vodOk p
    | 4 => s.sdOk p
    | 5 => s.rldOk p
    | 6 => s.shfOk k0 p
    | 7 => s.bktOk replayable p
    | 8 => s.tmkOk minSlack p
    | _ => false)

/-- R12: the complement pairs of a descriptor; of one with a reserved OPCODE, that of the header. -/
def pairsOk (d : Desc) : Bool :=
  match dOpcode d with
  | 1 => sldPairsOk d
  | 2 => apdPairsOk d
  | 3 => vodPairsOk d
  | 4 => sdPairsOk d
  | 5 => rldPairsOk d
  | 6 => shfPairsOk d
  | 7 => bktPairsOk d
  | 8 => tmkPairsOk d
  | _ => hdrOk d

end Sys2Proof.Machine
end

