-- ==== Sys2Proof/Machine/CheckCross.lean ====
section
/-!
DEFINITION. The descriptor checks of admission that look across cores and images: Reel sets (R179, R181, R183, Table 5.10), quadrilles
(R157), the OPEN that serves a REDUCE (R380), and the replay of versions (R364).
-/
namespace Sys2Proof.Machine

/-! ### Lists of images -/

/-- The descriptor lists of an image's cost entry `c`, read from memory (R71, R81). -/
def State.listsOf (s : State) (addr k0 : Nat) (c : Cost) : List LList :=
  c.lists.map fun x => { core := c.engine, tide := k0 + c.tide, span := c.span, num := x.1, off := x.2.1
                         ds := (List.range x.2.2).map fun i => BitVec.ofNat 512 (s.num (addr + x.2.1 + 64 * i) 64) }

/-- The descriptors of one cost entry's lists, each where it stands. -/
def spotsOf : List (Nat × Desc) → List LList → List Spot
  | _, [] => []
  | before, l :: ls =>
    let own := l.ds.map fun d => (l.num, d)
    (l.ds.zipIdx.map fun (d, i) => { l, i, d, before := before ++ own.take i : Spot }) ++ spotsOf (before ++ own) ls

/-- Every descriptor of an image, in cost-table order. -/
def State.spots (s : State) (i : Image) : List Spot := i.costs.flatMap fun c => spotsOf [] (s.listsOf i.addr i.k0 c)

/-- Lists of the entries of admitted images that run. -/
def State.admittedLists (s : State) : List LList :=
  s.images.flatMap fun i => (i.costs.filter i.runs).flatMap (s.listsOf i.addr i.k0)

/-- R179: the entry covers tide `t`. -/
def LList.covers (l : LList) (t : Nat) : Bool := decide (l.tide ≤ t ∧ t < l.tide + l.span)

/-- What a check across images looks at: the lists of the image under test, and those of admitted images. -/
structure Bench where
  mine : List LList
  others : List LList
  mask : Nat := 0
  deriving DecidableEq, Repr

def Bench.all (b : Bench) : List LList := b.mine ++ b.others

/-! ### Quadrilles (R157) -/

/-- Core `c` runs QUAD in tide `t`. -/
def runsQuad (ls : List LList) (t c : Nat) : Bool :=
  ls.any fun l => l.core == c && l.covers t && l.ds.any fun d => arrayDesc d && quadOf d

/-- An SLD or APD at `p` keeps R157 in tide `t`: its core is no member of a quadrille in use, and, as a leader's, finds the members free. [DEDUCED, log entry 47] -/
def Bench.quadOk (b : Bench) (p : Spot) (t : Nat) : Bool :=
  let c := p.l.core
  ([1, 4, 5].all fun m => !(decide (m ≤ c) && leaderPos (c - m) && runsQuad b.all t (c - m)))
    && (!quadOf p.d || [1, 4, 5].all fun m => !(b.others.any fun l => l.core == c + m && l.covers t && l.ds.any arrayDesc))

/-! ### Reel sets -/

/-- A core's RLDs in tide `t`. -/
def rldsAt (ls : List LList) (t c : Nat) : List Desc :=
  (ls.filter fun l => l.core == c && l.covers t).flatMap fun l => l.ds.filter fun d => dOpcode d == Op.rld

/-- The set an RLD names. -/
def setOf (d : Desc) : Nat × Nat := (rSetSize d, rSetBase d)

/-- Cores of the stops of a set (R174). -/
def stopsOf (d : Desc) : List Nat :=
  (List.range (2 ^ rSetSize d)).flatMap fun b =>
    (if rQuad d then [0, 2, 8, 10] else List.range 16).map fun p => 16 * (rSetBase d + b) + p

/-- R183: what the members' RLDs of a stream have in common. -/
def seqKey (d : Desc) : List Nat :=
  [rCount d, rFmt d, rInterval d, b2n (rTurn d), b2n (rRa d), b2n (rQuad d), rSrc d, rTile d, rVec d, rMxs d]

/-- Two sets share a bay. -/
def setsMeet (a d : Desc) : Bool :=
  decide (rSetBase a < rSetBase d + 2 ^ rSetSize d ∧ rSetBase d < rSetBase a + 2 ^ rSetSize a)

/-- R181 for one vector of each stream: half-slots over INTERVAL. -/
def loadOk (a d : Desc) : Bool :=
  decide (cdiv (rSize a) 64 * rInterval d + cdiv (rSize d) 64 * rInterval a ≤ 2 * rInterval a * rInterval d)

/-- The RLD at `p` keeps R179, R181, R183 and Table 5.10 in tide `t`; a member's RLDs are compared with the head's, one by one. [DEDUCED, log entry 41; DEDUCED, log entry 46] -/
def Bench.setOk (b : Bench) (p : Spot) (t : Nat) : Bool :=
  let d := p.d
  let stops := stopsOf d
  let members := stops.map fun c => rldsAt b.mine t c
  let rlds := members.flatten
  let stream := fun (n : Nat) => rlds.filter fun x => rStream x == n
  let own := stream (rStream d)
  let heads := stops.filter fun c => (rldsAt b.mine t c).any fun x => rStream x == rStream d && rHead x
  let keys := fun (c : Nat) => ((rldsAt b.mine t c).filter fun x => rStream x == rStream d).map seqKey
  let place := (p.before.filter fun x => dOpcode x.2 == Op.rld && rStream x.2 == rStream d).length
  (rldsAt b.all t p.l.core).all (fun x => setOf x == setOf d)
    && b.all.all (fun l => !l.covers t || l.ds.all fun x => !(dOpcode x == Op.rld) || setOf x == setOf d || !setsMeet x d)
    && members.all (fun m => m.any fun x => setOf x == setOf d && rQuad x == rQuad d)
    && (List.range (2 ^ rSetSize d)).all (fun k => [0, 2, 8, 10].all fun q => runsQuad b.all t (16 * (rSetBase d + k) + q) == rQuad d)
    && stops.all (fun c => (keys c).length == (keys p.l.core).length)
    && (!rQuad d || (List.range (16 * 2 ^ rSetSize d)).all fun k => b.mask.testBit (16 * rSetBase d + k))
    && heads.length == 1 && heads.all (fun c => (rldsAt b.mine t c).all fun x => rStream x != rStream d || rHead x)
    && heads.all (fun c => (keys c)[place]? == some (seqKey d))
    && !(own.any (fun x => rFmt x == 10) && own.any rArray)
    && decide (cdiv (rSize d) 64 ≤ 2 * rInterval d) && (stream (1 - rStream d)).all (loadOk d)

/-! ### The OPEN that serves a REDUCE (R380) -/

/-- The OPENs of slot `b` in the image at or before tide `t` with no step mark from their tide up to `t`, with their tides. -/
def servingOpens (mine : List LList) (b t : Nat) : List (Nat × Desc) :=
  let steps := (mine.filter fun l => l.ds.any stepMark).map (·.tide)
  mine.flatMap fun l => (l.ds.filter fun d => dOpcode d == Op.bkt && bOp d == 0 && bBucket d == b && decide (l.tide ≤ t)
    && steps.all fun k => !decide (l.tide ≤ k ∧ k < t)).map fun d => (l.tide, d)

/-- The OPEN in the latest tide. -/
def latestOpen (os : List (Nat × Desc)) : Option Desc :=
  (os.foldl (fun (m : Option (Nat × Desc)) o => match m with
    | some x => if x.1 ≤ o.1 then some o else some x
    | none => some o) none).map (·.2)

/-- R_INDEX of a REDUCE agrees with the OPEN that serves it in the image. -/
def Bench.reduceOk (b : Bench) (p : Spot) : Bool :=
  (latestOpen (servingOpens b.mine (bBucket p.d) p.l.tide)).all fun o =>
    bTopo o != 0 && decide (bRIndex p.d < 2 ^ bRcoresLog2 o) && bRcoreBase o + bRIndex p.d == p.l.core

/-! ### Versions (R364) -/

/-- VER_PIN and VER_UNPIN on a record (R360). -/
def UpdRec.pinShelf (r : UpdRec) (shelf : Nat) : UpdRec :=
  { r.setRef r.current (r.ref r.current + 1) with pins := setBits r.pins (2 * shelf) 2 (2 + r.current) }
def UpdRec.unpinShelf (r : UpdRec) (shelf : Nat) : UpdRec :=
  let slot := r.pin shelf - 2
  { r.setRef slot (r.ref slot - 1) with pins := setBits r.pins (2 * shelf) 2 0 }

/-- The update operations `op` on record `u` in the lists that `at_` selects. -/
def verOps (ls : List LList) (at_ : LList → Bool) (op u : Nat) : List Desc :=
  (ls.filter at_).flatMap fun l => l.ds.filter fun d => dOpcode d == Op.vod && vOp d == op && uRec d == u

/-- Pins taken in tide `t`. -/
def pinsIn (ls : List LList) (u t : Nat) (r : UpdRec) : UpdRec :=
  (verOps ls (·.tide == t) 0x28 u).foldl (fun r d => if r.pin (uShelf d) = 0 then r.pinShelf (uShelf d) else r) r

/-- One tide of the replay: pins, commits, and the unpins of the lists that close with it. -/
def verTide (ls : List LList) (u : Nat) (r : UpdRec) (t : Nat) : UpdRec :=
  let r := pinsIn ls u t r
  let r := { r with version := r.version + word (verOps ls (·.tide == t) 0x2A u).length }
  (verOps ls (fun l => l.tide + l.span == t + 1) 0x29 u).foldl (fun r d => if r.pin (uShelf d) = 0 then r else r.unpinShelf (uShelf d)) r

/-- Lists whose descriptors are still to issue: what is left of the released lists, the lists of admitted images that are not yet released, and
those of the image under test. -/
def State.verLists (s : State) (b : Bench) : List LList :=
  (s.lists.map fun l => { core := l.core, tide := l.tide, span := l.close - l.tide, num := l.num, off := 0, ds := l.descs.drop l.issued : LList })
    ++ b.others.filter (fun l => decide (s.tide.next ≤ l.tide)) ++ b.mine

/-- R364: an operation of tide `k` that waits on pins finds none on its target slot when the versions of its STASH record `u` are replayed up to that
tide. [DEDUCED, log entry 40; DEDUCED, log entry 49] -/
def State.freeAt (s : State) (b : Bench) (u k : Nat) : Bool :=
  let r := s.updRec u
  if !r.stash then true
  else
    let ls := s.verLists b
    let tides := (sortDedup (ls.flatMap fun l => [l.tide, l.tide + l.span - 1])).filter (· < k)
    let r := pinsIn ls u k (tides.foldl (verTide ls u) r)
    r.ref r.target == 0

/-- An operation that waits on pins: APPLY, REQUANT, CH_SCALES (R361). -/
def waitsPins (d : Desc) : Bool := dOpcode d == Op.vod && [0x22, 0x23, 0x24].contains (vOp d)

/-- R364 over every admitted image: a waiting operation of the image at `p` finds its slot free, and so do the waiting operations still to issue of
other images on a record that an operation at `p` pins or commits. [DEDUCED, log entry 40] -/
def State.versionsOk (s : State) (b : Bench) (p : Spot) : Bool :=
  let u := uRec p.d
  if vOp p.d = 0x28 ∨ vOp p.d = 0x2A then
    (s.verLists { b with mine := [] }).all fun l => l.ds.all fun d => !(waitsPins d && uRec d == u) || s.freeAt b u l.tide
  else s.freeAt b u p.l.tide

/-! ### Together -/

/-- The tide in which a descriptor fails a check that looks beyond its own core's lists: the first of its span, or else its list's. -/
def State.crossFault (s : State) (b : Bench) (p : Spot) : Option Nat :=
  let d := p.d
  let tides := (List.range p.l.span).map (p.l.tide + ·)
  if arrayDesc d then tides.find? fun t => !b.quadOk p t
  else if dOpcode d = Op.rld then tides.find? fun t => !b.setOk p t
  else if (dOpcode d = Op.bkt ∧ bOp d = 2 ∧ !b.reduceOk p) ∨ ((waitsPins d ∨ (dOpcode d = Op.vod ∧ (vOp d = 0x28 ∨ vOp d = 0x2A))) ∧ !s.versionsOk b p) then
    some p.l.tide
  else none

end Sys2Proof.Machine
end

