-- ==== Sys2Proof/Machine/TideCmd.lean ====
section
/-!
DEFINITION. The TIDE_* commands but TIDE_ARM (R40 to R42, R55, R77, R80, R81).
-/
namespace Sys2Proof.Machine

/-- The handle that a TIDE_LOAD gets: the lowest free one. [DESIGN CHOICE, log entry 121] -/
def State.freeHandle (s : State) : Option Nat := s.images.findIdx? (·.st == .free)

/-- R81, R616: an image lies in HBM, DDR5 or the shared slices, and its MAGIC, VERSION and length are right. -/
def State.loadOk (s : State) (a n : Nat) : Bool :=
  a % 64 == 0 && n % 64 == 0 && decide (256 ≤ n) && s.rangeOk [.hbm, .ddr, .slice] a n
    && s.num a 4 == 0x0154544B && s.num (a + 4) 2 == 0x0100 && s.num (a + 96) 4 == n

def cmdTideLoad : Cmd where
  op := 0x0201
  len := lenIs 12
  param s r := s.loadOk (r.at 0 8) (r.at 8 4)
  state s _ := s.freeHandle.isSome
  act s r :=
    let h := s.freeHandle.getD 0
    (s.setImage h { st := .loaded, addr := r.at 0 8, len := r.at 8 4 }, some (.ok (leBytes 1 h)))

/-- The image that a one-byte payload names. -/
def State.reqImage (s : State) (r : Req) : Image := s.image (r.at 0 1)

def cmdTideDisarm : Cmd where
  op := 0x0203
  len := lenIs 1
  param _ r := decide (r.at 0 1 < 16)
  state s r := (s.reqImage r).st == .admitted
  act s r :=
    let i := s.reqImage r
    (s.setImage (r.at 0 1) { st := .loaded, addr := i.addr, len := i.len }, some .ok)

def cmdTideUnload : Cmd where
  op := 0x0204
  len := lenIs 1
  param _ r := decide (r.at 0 1 < 16)
  state s r := (s.reqImage r).st == .loaded || (s.reqImage r).st == .finished
  act s r := (s.setImage (r.at 0 1) {}, some .ok)

/-- A group beat as a payload carries it. -/
def reqBeat (r : Req) : Int := (BitVec.ofNat 64 (r.at 0 8)).toInt

/-- R40, R81: a beat at least 12,500 beats on; an accepted one whose boundary has not fallen, which stands until
step 3 of that boundary has run, is replaced. [DESIGN CHOICE, log entry 121] -/
def cmdTideRun : Cmd where
  op := 0x0205
  len := lenIs 8
  state s r := !s.tide.running && !s.tide.past3 && decide (s.groupBeat + 12500 ≤ reqBeat r)
  act s r := ({ s with tide := { s.tide with runAt := some (reqBeat r), fallen := false, causes := 0 } }, some .ok)

/-- Boundary `k` lies strictly inside a multi-tide span of an admitted image. -/
def State.splitsSpan (s : State) (k : Nat) : Bool :=
  s.images.any fun i => i.costs.any fun c => i.runs c && decide (i.k0 + c.tide < k ∧ k < i.k0 + c.tide + c.span)

/-- [DEDUCED, log entry 52] -/
def cmdTideStop : Cmd where
  op := 0x0206
  len := lenIs 8
  state s r := s.tide.running && !s.splitsSpan (r.at 0 8) && !s.group.member
  act s r :=
    if s.late (r.at 0 8) then (s, some (.refused 0x21 noEngine (r.at 0 8)))
    else ({ s with tide := { s.tide with stops := sortDedup (r.at 0 8 :: s.tide.stops) } }, some .ok)

/-- R55: the boundary lies beyond the current one, and its step 3 has not begun. [DEDUCED, log entry 52] -/
def cmdTideHold : Cmd where
  op := 0x0207
  len := lenIs 8
  state s r := decide (s.tide.count.toNat < r.at 0 8) && decide (s.nextStep3 ≤ r.at 0 8)
  act s r :=
    let k := r.at 0 8
    let s := { s with tide := { s.tide with hostHolds := sortDedup (k :: s.tide.hostHolds)
                                            hostReleased := s.tide.hostReleased.filter (·.1 != k) } }
    (s.lateHold k, some .ok)

def cmdTideRelease : Cmd where
  op := 0x0208
  len := lenIs 8
  state s r := s.tide.hostHolds.contains (r.at 0 8)
  act s r :=
    let k := r.at 0 8
    let s := { s with tide := { s.tide with hostHolds := s.tide.hostHolds.filter (· != k)
                                            hostReleased := s.tide.hostReleased ++ [(k, s.groupBeat)] } }
    (s.ownDone, some .ok)

/-- A field of TIDE_CONFIG is 0, or a value its register may hold (R77). -/
def configOk (k v : Nat) : Bool := v == 0 || regLegal k v

def cmdTideConfig : Cmd where
  op := 0x0209
  len := lenIs 12
  param _ r := r.at 6 2 == 0 && configOk R.tidePeriod (r.at 0 4) && configOk R.tideSlack (r.at 4 2) && configOk R.holdLimit (r.at 8 4)
  act s r :=
    let s := if r.at 0 4 = 0 then s else s.queueBasic R.tidePeriod (r.at 0 4)
    let s := if r.at 4 2 = 0 then s else s.queueBasic R.tideSlack (r.at 4 2)
    (if r.at 8 4 = 0 then s else (s.setReg R.holdLimit (word (r.at 8 4))).basic R.holdLimit, some .ok)

/-- State byte of a handle (Table 2.12). -/
def ImgState.code : ImgState → Nat
  | .free => 0
  | .loaded => 1
  | .admitted => 2
  | .running => 3
  | .finished => 4

/-- Handle entry of TIDE_STATUS. -/
def Image.entry (i : Image) : List Byte := leBytes 1 i.st.code ++ leBytes 3 0 ++ leBytes 8 (if i.active then i.k0 else noTide)

def cmdTideStatus : Cmd where
  op := 0x020A
  len := lenIs 0
  act s _ := (s, some (.ok (leBytes 8 s.tide.count.toNat ++ leBytes 8 s.beat.toNat ++ leBytes 8 s.tide.offset.toNat
    ++ leBytes 4 (s.regN R.tideStatus) ++ leBytes 4 (s.regN R.heldTides) ++ leBytes 4 (s.regN R.lastHoldBeats)
    ++ leBytes 1 (b2n s.tide.running + 2 * b2n s.group.member) ++ leBytes 3 0 ++ s.images.flatMap Image.entry)))

/-- TIDE_LOAD (R81). -/
def execTideLoad (r : Req) (s : State) : Outcome := cmdTideLoad.serve r s
/-- TIDE_DISARM (R81). -/
def execTideDisarm (r : Req) (s : State) : Outcome := cmdTideDisarm.serve r s
/-- TIDE_UNLOAD (R81). -/
def execTideUnload (r : Req) (s : State) : Outcome := cmdTideUnload.serve r s
/-- TIDE_RUN (R40, R81). -/
def execTideRun (r : Req) (s : State) : Outcome := cmdTideRun.serve r s
/-- TIDE_STOP (R42, R65). -/
def execTideStop (r : Req) (s : State) : Outcome := cmdTideStop.serve r s
/-- TIDE_HOLD (R55, R64). -/
def execTideHold (r : Req) (s : State) : Outcome := cmdTideHold.serve r s
/-- TIDE_RELEASE (R55, R63, R81). -/
def execTideRelease (r : Req) (s : State) : Outcome := cmdTideRelease.serve r s
/-- TIDE_CONFIG (R77). -/
def execTideConfig (r : Req) (s : State) : Outcome := cmdTideConfig.serve r s
/-- TIDE_STATUS (R80). -/
def execTideStatus (r : Req) (s : State) : Outcome := cmdTideStatus.serve r s

end Sys2Proof.Machine
end

