-- ==== Sys2Proof/Machine/Admit.lean ====
section
/-!
DEFINITION. TIDE_ARM: the checks of Table 2.1 in their order (R46 to R50, R68 to R71, R113, R204, R616), what an admission leaves (R578), and the
second judgement of an admitted image (R50).
-/
namespace Sys2Proof.Machine

/-! ### The header (Table 2.3) -/

/-- The 256 bytes of a KTT header, as a number. -/
def State.header (s : State) (a : Nat) : Nat := s.num a 256

def kSpan (h : Nat) : Nat := nbits h 96 16
def kPeriod (h : Nat) : Nat := nbits h 128 32
def kBeatCost (h : Nat) : Nat := nbits h 192 32
def kMask (h : Nat) : Nat := nbits h 256 256
def kLen (h : Nat) : Nat := nbits h 768 32
def kCostOff (h : Nat) : Nat := nbits h 800 32
def kListOff (h : Nat) : Nat := nbits h 832 32
def kMinSlack (h : Nat) : Nat := nbits h 896 16
def kReplayable (h : Nat) : Bool := h.testBit 64
def kCrossStrait (h : Nat) : Bool := h.testBit 65
/-- Engines of ENGINE_MASK, ascending. -/
def kEngines (h : Nat) : List Nat := setBitsOf 256 (kMask h)
/-- Entries of the cost table and of the directory (R69, R71). -/
def kEntries (h : Nat) : Nat := kSpan h * (kEngines h).length

/-- R12: the pairs of the header. -/
def headerPairsOk (h : Nat) : Bool :=
  [(16, 64), (16, 32), (16, 96), (32, 128), (32, 192), (256, 256), (16, 896)].all fun x => pairOk x.1 (nbits h x.2 x.1) (nbits h (x.2 + x.1) x.1)

/-! ### Cost table and directory (R69 to R71, Table 2.4) -/

/-- A raw entry: its tide from k0, its engine, its 128 bits, and the eight pairs of its directory entry (offset, count). -/
structure RawCost where
  tide : Nat
  engine : Nat
  bits_ : Nat
  lists : List (Nat × Nat)
  deriving DecidableEq, Repr

def RawCost.cycles (c : RawCost) : Nat := nbits c.bits_ 0 32
def RawCost.fixedBeats (c : RawCost) : Nat := nbits c.bits_ 32 32
def RawCost.span (c : RawCost) : Nat := nbits c.bits_ 64 8
def RawCost.mb (c : RawCost) : Nat := nbits c.bits_ 80 16

/-- Entry `j` of the table of the image at `a`. -/
def State.rawCost (s : State) (a h j : Nat) : RawCost :=
  let es := kEngines h
  let dir := s.num (a + kListOff h + 64 * j) 64
  { tide := j / es.length, engine := es.getD (j % es.length) 0, bits_ := s.num (a + kCostOff h + 16 * j) 16
    lists := (List.range 8).map fun n => (nbits dir (64 * n) 32, nbits dir (64 * n + 32) 32) }

def State.rawCosts (s : State) (a h : Nat) : List RawCost := (List.range (kEntries h)).map (s.rawCost a h)

/-- A cost entry that opens, with its non-empty lists. -/
def RawCost.cost (c : RawCost) : Cost :=
  { tide := c.tide, engine := c.engine, cycles := c.cycles, fixedBeats := c.fixedBeats, span := c.span, mb := c.mb
    lists := (c.lists.zipIdx.filter fun x => x.1.2 != 0).map fun x => (x.2, x.1.1, x.1.2) }

/-! ### Layout (R616) -/

/-- Ranges (offset, length) of which no two share a byte. -/
def rangesApart (rs : List (Nat × Nat)) : Bool :=
  rs.zipIdx.all fun (x, i) => (rs.drop (i + 1)).all fun y => decide (x.1 + x.2 ≤ y.1 ∨ y.1 + y.2 ≤ x.1)

/-- R616. [DEDUCED, log entry 43] -/
def State.imageLayoutOk (s : State) (a h : Nat) : Bool :=
  let n := kEntries h
  let dirEnd := kListOff h + 64 * n
  kLen h % 64 == 0 && decide (256 ≤ kLen h) && kCostOff h % 64 == 0 && decide (256 ≤ kCostOff h)
    && decide (kCostOff h + 16 * n ≤ kListOff h) && kListOff h % 64 == 0 && decide (dirEnd ≤ kLen h)
    && (let ls := (s.rawCosts a h).flatMap fun c => c.lists.filter fun x => x.2 != 0
        ls.all (fun x => x.1 % 64 == 0 && decide (dirEnd ≤ x.1) && decide (x.1 + 64 * x.2 ≤ kLen h))
          && rangesApart (ls.map fun x => (x.1, 64 * x.2)))

/-! ### Reserved bits and encodings (R17, R70) -/

/-- The entries of one engine in order, `left` of them due as continuations. A continuation with a list count that is not 0 (R71) is refused like one with
cycles or beats. [DESIGN CHOICE, log entry 43] -/
def continuesOk : Nat → List RawCost → Bool
  | left, [] => left == 0
  | 0, c :: cs => c.span != 0 && continuesOk (c.span - 1) cs
  | left + 1, c :: cs => c.span == 0 && c.cycles == 0 && c.fixedBeats == 0 && c.lists.all (·.2 == 0) && continuesOk left cs

/-- Header, cost table and directory hold no reserved bit or encoding. -/
def reservedOk (h : Nat) (cs : List RawCost) : Bool :=
  nbits h 928 608 == 0 && nbits h 864 32 == 0 && nbits h 66 14 == 0 && kSpan h != 0
    && (kMinSlack h == 0 || decide (30 ≤ kMinSlack h ∧ kMinSlack h ≤ 500))
    && cs.all (fun c => nbits c.bits_ 96 32 == 0 && nbits c.bits_ 72 8 == 0)
    && (kEngines h).all fun e => continuesOk 0 (cs.filter (·.engine == e))

/-! ### The image under test -/

/-- Register writes that admission counts when they are pending (R50). [DEDUCED, log entry 50] -/
def judged : List Nat :=
  [R.tidePeriod, R.tideSlack, R.holdWindow, R.scaleBaseLo, R.scaleBaseHi, R.scaleCount, R.layerCount, R.layerBaseLo, R.layerBaseHi, R.updCount,
    R.updBaseLo, R.updBaseHi, R.updDefaults, R.shelfCtrl, R.shelfTopBase, R.bktCtrl] ++ (List.range 16).map R.ringCfg

/-- The image as it would stand admitted. -/
def State.candidate (s : State) (i : Image) (k0 : Nat) : Image :=
  let h := s.header i.addr
  { i with k0, span := kSpan h, period := kPeriod h, minSlack := kMinSlack h, mask := kMask h, replayable := kReplayable h
           crossStrait := kCrossStrait h, costs := ((s.rawCosts i.addr h).filter (·.span != 0)).map RawCost.cost
           counted := judged.filterMap fun k => (s.pendingReg k).map fun v => (k, v) }

/-- Tides of the image. -/
def Image.tides (i : Image) : List Nat := (List.range i.span).map (i.k0 + ·)

/-- The image has work of engine `e` in tide `t`: until it is withdrawn, in every tide of its span for every engine of its mask (R69). -/
def Image.holds (i : Image) (e t : Nat) : Bool :=
  i.active && match i.withdrawn with
    | none => i.mask.testBit e && decide (i.k0 ≤ t ∧ t < i.k0 + i.span)
    | some _ => i.costs.any fun c => c.engine == e && i.runs c && decide (i.k0 + c.tide ≤ t ∧ t < i.k0 + c.tide + c.span)

/-- Check 0x09: the earliest of the tides `ts`, and in it the lowest engine, in which admitted work overlaps. -/
def State.overlaps (s : State) (i : Image) (ts : List Nat) : Option (Nat × Nat) :=
  let others := s.images.filter fun o => o.active && o.mask &&& i.mask != 0
  if others.isEmpty then none
  else ts.findSome? fun t => (setBitsOf 256 i.mask).findSome? fun e => if others.any (·.holds e t) then some (e, t) else none

/-- Check 0x0A (R204) over the tides `ts`: engine and tide. -/
def State.straitFault (s : State) (i : Image) (ts : List Nat) (ps : List Spot) : Option (Nat × Nat) :=
  if i.crossStrait then (ts.find? fun t => (s.profAt t).split).map fun t => (noEngine, t)
  else (ps.find? fun p => dOpcode p.d == Op.rld && rSetSize p.d == 4).map fun p => (p.l.core, p.l.tide)

/-- The lists that checks across images look at. -/
def State.bench (s : State) (i : Image) : Bench := ⟨i.costs.flatMap (s.listsOf i.addr i.k0), s.admittedLists, i.mask⟩

/-- Check 0x0B: the first descriptor, in cost-table order, that its owning chapter refuses, and the tide. `ps` are the descriptors of `i` that are
judged, and `whole` is the image with every entry that covers a tide, whenever it opened (R179). -/
def State.descFaultAt (s : State) (i whole : Image) (ps : List Spot) : Option (Spot × Nat) :=
  let b := s.bench whole
  ps.findSome? fun p => (if s.descOk i.k0 i.minSlack i.replayable p then s.crossFault b p else some p.l.tide).map fun t => (p, t)

/-- R292: a bind mark binds a RESID record whose FMT is BF16. -/
def State.bindsBf16 (s : State) (ps : List Spot) : Bool :=
  ps.any fun p => isBind p.d && (let v : ScaleRec := s.recIn p.l.tide (tMarkId p.d % 1024); v.kind == 3 && v.fmt == 7)

/-! ### The checks in order (Table 2.1) -/

/-- A refusal: code, engine, tide, offset. -/
structure Refused where
  code : Nat
  engine : Nat := noEngine
  tide : Nat := noTide
  offset : Nat := noOffset
  deriving DecidableEq, Repr

/-- Checks 0x01 to 0x04, of the image as bytes. [DEDUCED, log entry 43] -/
def State.formFault (s : State) (i : Image) (k0 : Nat) : Option Refused :=
  let h := s.header i.addr
  let sound := s.imageLayoutOk i.addr h
  let ps := if sound then s.spots (s.candidate i k0) else []
  if nbits h 0 32 ≠ 0x0154544B ∨ nbits h 32 16 ≠ 0x0100 then some { code := 1 }
  else if !headerPairsOk h then some { code := 2 }
  else match ps.find? fun p => !pairsOk p.d with
    | some p => some { code := 2, engine := p.l.core, tide := p.l.tide }
    | none =>
      if s.bytes (i.addr + 192) 64 != sha512 (s.bytes i.addr 192 ++ List.replicate 64 0 ++ s.bytes (i.addr + 256) (i.len - 256)) then some { code := 3 }
      else if !sound then some { code := 0x0E }
      else if !reservedOk h (s.rawCosts i.addr h) then some { code := 4 }
      else none

/-- Checks 0x05 to 0x08, of period and costs. [DEDUCED, log entry 48] -/
def State.costFault (s : State) (i : Image) : Option Refused :=
  if i.tides.any fun t => s.regAt R.tidePeriod t != i.period then some { code := 5 }
  else if i.tides.any fun t => !s.periodLong i.minSlack t then some { code := 6 }
  else if i.costs.foldl (fun m c => max m (costBeats c.cycles c.fixedBeats 25)) 0 ≠ kBeatCost (s.header i.addr) then some { code := 7 }
  else (i.costs.find? fun c => !s.fits s.profAt i.minSlack c (i.k0 + c.tide)).map fun c => { code := 8, engine := c.engine, tide := i.k0 + c.tide }

/-- Checks 0x09 to 0x0D, of the image among the others. [DEDUCED, log entry 48] -/
def State.placeFault (s : State) (i : Image) : Option Refused :=
  let ps := s.spots i
  match s.overlaps i i.tides with
  | some (e, t) => some { code := 9, engine := e, tide := t }
  | none =>
    match s.straitFault i i.tides ps with
    | some (e, t) => some { code := 0x0A, engine := e, tide := t }
    | none =>
      match s.descFaultAt i i ps with
      | some (p, t) => some { code := 0x0B, engine := p.l.core, tide := t, offset := p.l.off + 64 * p.i }
      | none =>
        if 8 ≤ (s.images.filter Image.active).length then some { code := 0x0C }
        else if i.k0 < s.nextStep3 then some { code := 0x0D, tide := i.k0 }
        else none

/-- The first check of Table 2.1 that fails. [DEDUCED, log entry 43; DEDUCED, log entry 48] -/
def State.admission (s : State) (i : Image) (k0 : Nat) : Option Refused :=
  match s.formFault i k0 with
  | some x => some x
  | none =>
    let c := s.candidate i k0
    match s.costFault c with
    | some x => some x
    | none => s.placeFault c

/-! ### TIDE_ARM -/

/-- R578: the header is measured. -/
def State.measureImage (s : State) (a k0 : Nat) : State :=
  let h := sha512 (s.bytes a 256)
  { s with lys := { s.lys with tideDigest := sha512 (s.lys.tideDigest ++ h ++ leBytes 8 k0), tideMeasures := s.lys.tideMeasures + 1
                               measures := ((BitVec.ofNat 64 k0, h) :: s.lys.measures).take 1024 } }

/-- R50: the refusal, in the response and in the log. -/
def State.armRefused (s : State) (r : Req) (x : Refused) : State × Option Reply :=
  let pay := refusedPay x.code x.engine x.tide x.offset
  (s.logFull (srcOf 0x08 0) 0x03 (BitVec.ofNat 16 x.engine) r.tag pay [], some ⟨St.refused, pay⟩)

/-- R113: the image, laid out so that it can be read, stores the residual stream in BF16, and the session has no expert privilege. [DEDUCED, log entry 43; DEDUCED, log entry 51] -/
def State.armPrivilege (s : State) (r : Req) (i : Image) (k0 : Nat) : Bool :=
  !s.expertReq r.mb && s.imageLayoutOk i.addr (s.header i.addr) && s.bindsBf16 (s.spots (s.candidate i k0))

/-- R50, R81: an admitted image. -/
def State.admitImage (s : State) (n : Nat) (i : Image) : State :=
  (s.setImage n { i with st := .admitted, resid := s.bindsBf16 (s.spots i) }).measureImage i.addr i.k0

def cmdTideArm : Cmd where
  op := 0x0202
  len := lenIs 16
  param _ r := decide (r.at 0 1 < 16) && r.at 1 7 == 0
  state s r := (s.reqImage r).st == .loaded
  act s r :=
    let i := s.reqImage r
    let k0 := r.at 8 8
    if s.armPrivilege r i k0 then (s, some (.err St.privilege))
    else match s.admission i k0 with
      | some x => s.armRefused r x
      | none => (s.admitImage (r.at 0 1) (s.candidate i k0), some .ok)

/-- TIDE_ARM (R50, R81, R113). -/
def execTideArm (r : Req) (s : State) : Outcome := cmdTideArm.serve r s

/-! ### Judged again (R50) -/

/-- The admitted image with handle `h` still passes the checks 0x05 to 0x0B that read a value in effect, beside the other images, for its entries that
open at or after boundary `b`. [DEDUCED, log entry 50] -/
def State.stillFits (s : State) (h : Nat) (i : Image) (b : Nat) : Bool :=
  let s := s.setImage h {}
  let whole := { i with costs := i.costs.filter i.runs }
  let i := { i with costs := whole.costs.filter fun c => decide (b ≤ i.k0 + c.tide) }
  let ts := i.tides.filter fun t => decide (b ≤ t) && i.costs.any fun c => decide (i.k0 + c.tide ≤ t ∧ t < i.k0 + c.tide + c.span)
  let ps := s.spots i
  ts.all (fun t => s.regAt R.tidePeriod t == i.period && s.periodLong i.minSlack t)
    && i.costs.all (fun c => s.fits s.profAt i.minSlack c (i.k0 + c.tide))
    && (s.overlaps i ts).isNone && (s.straitFault i ts ps).isNone && (s.descFaultAt i whole ps).isNone

end Sys2Proof.Machine
end

