-- ==== Sys2Proof/Machine/MailboxEvents.lean ====
section
/-!
DEFINITION. Mailbox doorbells, releases, responses and events, and the failure of an Enmora core (R87 to R108).
-/
namespace Sys2Proof.Machine

/-! ### Enmora cores -/

/-- R89: a response to a message that was no command (Table 3.6, checks 1 and 2). -/
def Msg.noCommand (m : Msg) : Bool := m.status == 1 || m.status == 3

/-- R89: the Command role's core has failed: every command taken whose response is not posted is to be executed again from its start, under the same
tag; what the failed core held of its execution is gone. -/
def State.reexecute (s : State) : State :=
  let keep := s.enm.responses.filter Msg.noCommand
  { s with
    enm := { s.enm with
      responses := keep
      polls := []
      taken := s.enm.taken.map fun t => if keep.any (·.mb == t.mb) then t else { t with phase := .waiting } }
    link := { s.link with measures := [] }
    pwr := { s.pwr with waking := none } }

/-- R87, R89, R90: core `c` is held in reset; the spare takes its role and ENMORA_SWITCH is logged, once for each role that `c` ran; with no spare
left the roles share cores and the job restarts with code 0x0A. With no core left no role moves, and nothing is logged. [DEDUCED, log entry 21] -/
def State.enmoraFail (s : State) (c : Nat) : State :=
  let roles := (List.range 3).filter fun r => s.enm.roleCore.getD r 4 == c
  let s1 := { s with kept := { s.kept with failedEnmora := s.kept.failedEnmora ++ [c] }, enm := s.enm.lose c }
  let s2 := match roles, s.enm.successor c with
    | _ :: _, some x => s1.spareUsed srcFirmware 8 c x
    | _, _ => s1
  let s3 := if 2 ≤ s1.enm.failed.length ∧ s1.enm.failed.length < 4 then s2.restart 0x0A else s2
  let s4 := if s.enm.roleCore.getD 0 4 = c then s3.reexecute else s3
  if 4 ≤ s1.enm.failed.length then s4
  else roles.foldl (fun s r => s.log_ srcFirmware 0x25 (leBytes 1 c ++ leBytes 1 r)) s4

/-- ENMORA_CORE_FAIL (R87 to R90). A core that has failed already is held in reset and does not fail again. -/
def execEnmoraCoreFail (core : Fin 4) (s : State) : Outcome :=
  .next (if s.enm.running && !s.enm.failed.contains core.val then s.enmoraFail core else s)

/-! ### Posting and releasing -/

/-- R99: an interrupt to the Command role when bit `i` of MBX_IRQ_EN is set. -/
def State.mbxIrq (s : State) (i : Nat) : State :=
  if bit (s.reg R.mbxIrqEn) i then { s with enm := { s.enm with irq := true } } else s

/-- R92, R93, R96, R98: a ring of E2H mailbox `n`: rejected while FULL is set; else FULL sets, and a NOTIFY frame is the wake event. -/
def State.ringE2h (s : State) (n : Nat) : State :=
  if s.mbit R.e2hFull n then s.orReg R.e2hReject (2 ^ n) else (s.orReg R.e2hFull (2 ^ n)).notify n (s.posterOf n)

/-- R92, R93: Enmora's stores to a slot: rejected while FULL is set. -/
def State.storeSlot (s : State) (full reject slot n : Nat) (msg : List Byte) : State :=
  if s.mbit full n then s.orReg reject (2 ^ n) else s.setSlot slot (padBytes 256 msg)

/-- E2H_DOORBELL (R92, R93, R96, R98): Enmora fills E2H mailbox `n` and rings it. -/
def execE2hDoorbell (n : Fin 16) (msg : List Byte) (s : State) : Outcome :=
  .next ((s.storeSlot R.e2hFull R.e2hReject (R.e2hSlot n) n msg).ringE2h n)

/-- R96, R517: a doorbell wakes bay `b`: a gated bay is ungated after its half's crossbar and mesh; a bay powered off is powered up, and comes
out of reset once its clock is valid. -/
def State.wakeBay (s : State) (b : Nat) : State :=
  if s.regionMode b = 2 then (if s.rst.tripped then s else s.setRegionMode b 3) else s.ungateBay b

/-- R92, R93, R96, R97: a ring of bay `b`'s mailbox: rejected while FULL is set; else FULL sets, the bay wakes, and the message waits for it. -/
def State.ringE2b (s : State) (b : Nat) : State :=
  if s.mbit R.e2bFull b then s.orReg R.e2bReject (2 ^ b)
  else
    let s := s.orReg R.e2bFull (2 ^ b)
    { s with bay := { s.bay with waiting := s.bay.waiting ++ [b] } }.wakeBay b

/-- E2B_DOORBELL (R92, R93, R96): Enmora fills bay `b`'s mailbox and rings it. -/
def execE2bDoorbell (b : Fin 16) (msg : List Byte) (s : State) : Outcome :=
  .next ((s.storeSlot R.e2bFull R.e2bReject (R.e2bSlot b) b msg).ringE2b b)

/-- R94: the mailboxes of a set that a write of `v` to its FULL register releases. -/
def State.releases (s : State) (full : Nat) (v : BitVec 16) : List Nat := (List.range 16).filter fun n => bit v n && s.mbit full n

/-- FULL register of a set (Table 3.2): 0 H2E, 1 E2H, 2 E2B. -/
def fullReg (set : Nat) : Nat := if set = 0 then R.h2eFull else if set = 1 then R.e2hFull else R.e2bFull

/-- R94, R99: a release clears FULL where it is set; a release of an E2H or E2B mailbox may interrupt the Command role. -/
def State.release (s : State) (set : Nat) (v : BitVec 16) : State :=
  let ns := s.releases (fullReg set) v
  let s' := s.andNotReg (fullReg set) v.toNat
  let s' := if set = 2 then { s' with bay := { s'.bay with waiting := s'.bay.waiting.filter fun b => !ns.contains b } } else s'
  if ns.isEmpty ∨ set = 0 then s' else s'.mbxIrq set

/-- MAILBOX_RELEASE (R94, R95, R99): a write of 1s to the FULL register of a set. -/
def execMailboxRelease (set : Fin 3) (v : BitVec 16) (s : State) : Outcome := .next (s.release set v)

/-! ### Enmora's own writes to the mailbox block (Table 3.4) -/

/-- The set (1 E2H, 2 E2B) and the number of the mailbox whose slot holds key `k`, when some slot that Enmora fills does. -/
def slotAt (k : Nat) : Option (Nat × Nat) :=
  if R.e2hSlot 0 ≤ k ∧ k < R.e2hSlot 0 + 0x1000 then some (1, (k - R.e2hSlot 0) / 0x100)
  else if R.e2bSlot 0 ≤ k ∧ k < R.e2bSlot 0 + 0x1000 then some (2, (k - R.e2bSlot 0) / 0x100)
  else none

/-- REJECT register of a set (Table 3.2). -/
def rejectReg (set : Nat) : Nat := if set = 0 then R.h2eReject else if set = 1 then R.e2hReject else R.e2bReject

/-- R92 to R94, R100: a write of Enmora's to a register of the mailbox block that is more than a store of its value: a doorbell rings, a write to a
full slot is rejected, and a write to a FULL register releases; none for any other register. -/
def State.mailboxWrite (s : State) (k : Nat) (v : Word) : Option State :=
  if k = R.e2hDoorbell then some ((setBitsOf 16 v.toNat).foldl State.ringE2h s)
  else if k = R.e2bDoorbell then some ((setBitsOf 16 v.toNat).foldl State.ringE2b s)
  else if k = R.h2eFull then some (s.release 0 (v.setWidth 16))
  else if k = R.e2hFull then some (s.release 1 (v.setWidth 16))
  else if k = R.e2bFull then some (s.release 2 (v.setWidth 16))
  else match slotAt k with
    | some (set, n) => if s.mbit (fullReg set) n then some (s.orReg (rejectReg set) (2 ^ n)) else none
    | none => none

/-! ### Taking commands -/

/-- H2E_NEXT_READ (R104, R590) by a requester. [DEDUCED, log entry 22; DEDUCED, log entry 109] -/
def execH2eNextRead (q : Fin 9) (s : State) : Outcome := .next (s.readEffect q R.h2eNext)

/-! ### Responses and events -/

/-- The message of a response (R101): OPCODE and TAG of the command, STATUS, and RESP. -/
def Msg.bytes (m : Msg) : List Byte := msgBytes m.opcode.toNat m.tag.toNat m.status.toNat 1 m.pay

/-- R513: after a thermal trip only the response of DEV_RESET_CAUSE is posted. -/
def State.mayAnswer (s : State) (m : Msg) : Bool := !s.rst.tripped || m.opcode == 0x0104

/-- Table 3.3: with nothing left in hand the Enmora cores of a stepping that gates them are idle. [DESIGN CHOICE, log entry 122] -/
def State.enmoraIdle (s : State) : State :=
  { s with enm := { s.enm with gated := s.part.enmoraGated && s.enm.order.isEmpty && s.enm.taken.isEmpty && s.enm.responses.isEmpty } }

/-- R104, R105: the response is posted on E2H `mb`, then H2E `mb` is released, and a NOTIFY goes to the posting session. -/
def State.postResponse (s : State) (m : Msg) : State :=
  let s := { s with enm := { s.enm with responses := s.enm.responses.erase m, taken := s.enm.taken.filter (·.mb != m.mb) } }.enmoraIdle
  let s := (s.setSlot (R.e2hSlot m.mb) m.bytes).orReg R.e2hFull (2 ^ m.mb)
  (s.andNotReg R.h2eFull (2 ^ m.mb)).notify m.mb (s.posterOf m.mb)

/-- RESPONSE_POST (R89, R104, R105): once E2H mailbox `mb` is free, the response that waits for it is posted, once. -/
def execResponsePost (mb : Fin 16) (s : State) : Outcome :=
  .next (match s.enm.responses.find? (·.mb == mb.val) with
    | some m => if s.commandRuns && s.mayAnswer m && !s.mbit R.e2hFull mb then s.postResponse m else s
    | none => s)

/-- The message of an event (R101, R108): EVENT, TAG bits 15:0 of the sequence number, and a payload that begins with it. -/
def Evt.bytes (e : Evt) : List Byte := msgBytes e.code.toNat (e.seq.toNat % 65536) 0 2 (leBytes 4 e.seq.toNat ++ e.more)

/-- EVENT_POST (R107, R108): the oldest waiting event is posted on E2H 15 once that is free; R513: none after a thermal trip. -/
def execEventPost (s : State) : Outcome :=
  .next (match s.enm.events with
    | e :: rest =>
      if s.commandRuns && !s.rst.tripped && !s.mbit R.e2hFull 15 then
        let s := { s with enm := { s.enm with events := rest } }
        ((s.setSlot (R.e2hSlot 15) e.bytes).orReg R.e2hFull (2 ^ 15)).notify 15 none
      else s
    | [] => s)

/-- E2B_TIMEOUT (R97): 10 ms have passed since the message of bay `b` was posted and it has not been released: logged and posted once; the
message stays where it is. -/
def execE2bTimeout (b : Fin 16) (s : State) : Outcome :=
  .next (if s.enm.running && s.bay.waiting.contains b.val then
      ({ s with bay := { s.bay with waiting := s.bay.waiting.filter (· != b.val) } }).log_ srcFirmware 0x26
        (leBytes 1 b ++ [0] ++ leBytes 2 (bytesAt (s.slot (R.e2bSlot b)) 0 2))
    else s)

end Sys2Proof.Machine
end

