-- ==== Sys2Proof/Machine/Lysholt.lean ====
section
/-!
DEFINITION. Sessions and frames (R558 to R572): HELLO and AUTH, sequence and acknowledgement, and what each request frame does.
-/
namespace Sys2Proof.Machine

/-- The port is UP (Table 16.2). -/
def State.portUp (s : State) (p : Nat) : Bool := s.field (R.portState p) 0 2 == 3

/-! ### Receiving a frame (R561, R563) -/

/-- Table 16.12: the codewords that port `p` has corrected, or could not correct, since the frame before. [DESIGN CHOICE, log entry 120] -/
def State.codewords (s : State) (p : Nat) (fixed uncorr : Word) : State :=
  if s.portUp p then (s.count (R.portFecCorrected p) fixed.toNat).count (R.portFecUncorr p) uncorr.toNat else s

/-- A frame whose tag fails is discarded and counted; 16 in a row close the session (R563, Table 16.6). -/
def State.tagFail (s : State) (n : Nat) (x : Session) : State :=
  let s := (s.count (R.tagFails (portOf n))).orReg (R.portStatus (portOf n)) 2
  let s := s.setSession n (some { x with tagRun := x.tagRun + 1 })
  if 16 ≤ x.tagRun + 1 then s.closeSession n 3 else s

/-- A frame of type `type` arrives: accepted only when its tag verifies and its SEQ is the next expected, then acknowledged; a frame that
breaks Table 16.4 receives BAD_FRAME when it is a request of an open session, and is discarded otherwise; else it acts. -/
def State.receive (s : State) (f : Frm) (legal : Session → Bool) (lenOk request : Bool) (act : State → State) : State :=
  let s := s.codewords (portOf f.session) f.fixed f.uncorr
  match s.session f.session with
  | none => s
  | some x =>
    if !s.portUp (portOf f.session) then s
    else if !f.tagOk then s.tagFail f.session x
    else if f.seq.toNat ≠ x.rx then
      (s.count (R.seqDiscards (portOf f.session))).setSession f.session (some { x with tagRun := 0 })
    else
      let s := s.setSession f.session (some { x with rx := x.rx + 1, tagRun := 0 })
      let s := (s.count (R.framesRx (portOf f.session))).sendAck f.session
      let s := if legal x && lenOk && f.resv == 0 then act s
        else if request && x.isOpen then s.complete f.session f.ftag 0x07 else s
      s.seqLimit f.session

def runSession (x : Session) : Bool := x.isOpen && !x.boot
def bootSession (x : Session) : Bool := x.isOpen && x.boot

/-! ### Opening a session (R565, R566) -/

/-- The HELLO has the length of Table 16.4; and it is one of those that may be accepted, by its KIND and its version. -/
def helloOk (pay : List Byte) : Bool := pay.length == 168
def helloKnown (pay : List Byte) : Bool := decide (bytesAt pay 0 1 ≤ 1) && bytesAt pay 1 2 == 0x0100

/-- R565, R576: a BOOT HELLO is accepted only in PORT and RECOVERY, a RUN HELLO only from ENMORA on, and none while the Lighthouse is in its error
state. -/
def State.helloStage (s : State) (boot : Bool) : Bool :=
  if boot then (s.bootStage == 3 || s.bootStage == 6) && !s.lys.error
  else (s.bootStage == 7 || s.bootStage == 8 || s.bootStage == 9 || s.bootFailed) && !s.lys.error

/-- HELLO_REPLY with a refusal status: no session opens. -/
def State.helloRefuse (s : State) (p status : Nat) : State :=
  ((s.count (R.sessionsRefused p)).count (R.framesTx p)).emit (.frame 0xFF 0x02 0 [] 0 (padBytes 299 (leBytes 1 0xFF ++ leBytes 1 status)))

/-- R567: the two-step derivation of NIST SP 800-56C with HMAC-SHA-512: the key-derivation key from the salt N_c ‖ N_d and Z, then 72 bytes in counter
mode. [PRESUMED, log entry 13; DESIGN CHOICE, log entry 12] -/
def deriveKeys (nc nd z : List Byte) : SecKeys :=
  let kdk := hmac512 (nc ++ nd) z
  let out := hmac512 kdk (beBytes 4 1 ++ Config.fixedInfo) ++ hmac512 kdk (beBytes 4 2 ++ Config.fixedInfo)
  ⟨out.take 32, (out.drop 32).take 32, (out.drop 64).take 4, (out.drop 68).take 4⟩

/-- A request of CTR_DRBG (R574): its state moves on, and at the first request and after each 2^20 it is seeded from the entropy source. [PRESUMED, log entry 12] -/
def State.drbgRequest (s : State) : State :=
  let (st, s) := s.drawBytes 48
  let s : State := { s with lys := { s.lys with drbg := st, drbgRequests := s.lys.drbgRequests + 1 } }
  if s.lys.drbgRequests = 1 ∨ 2 ^ 20 < s.lys.drbgRequests then
    let (en, s) := s.drawBytes 48
    { s with lys := { s.lys with entropy := en, drbgRequests := 1 } }
  else s

/-- The requests for a session's nonce, its ephemeral key and the number of its signature. -/
def State.drbgUsed (s : State) : State := s.drbgRequest.drbgRequest.drbgRequest

/-- IMG_STATUS to the boot session concerned (R547, R569). -/
def State.imgStatus (s : State) : State :=
  match s.lys.imageBy with
  | some n => if (s.session n).any (fun x => x.boot && x.isOpen) then (s.sendFrame n 0x42 0 (leBytes 1 (s.field R.bootState 8 4))).seqLimit n else s
  | none => s

/-- R542: the first boot session leaves the other port idle until Enmora runs. -/
def State.idleOther (s : State) (p : Nat) : State := if s.bootsel = 2 then s.setField (R.portState (1 - p)) 0 2 0 else s

/-- The nonce, the ephemeral key and the signature of HELLO_REPLY, which are random (R566); the keys are derived, and Z is not kept (R567). -/
def State.helloAccept (s : State) (p n : Nat) (boot : Bool) (pay : List Byte) : State :=
  let nd := s.drawBytes 32
  let qd := nd.2.drawBytes 133
  let sg := qd.2.drawBytes 132
  let body := leBytes 1 n ++ [0] ++ nd.1 ++ qd.1
  let keys := deriveKeys ((pay.drop 3).take 32) nd.1 (Config.ecdh qd.1 (pay.drop 35))
  let s := sg.2.drbgUsed.setSession n (some { boot := boot, isOpen := boot, th := sha512 (pay ++ body), sec := some keys })
  let s := (s.count (R.framesTx p)).emit (.frame n 0x02 0 [] 0 (body ++ sg.1))
  if boot then
    let s := (s.count (R.sessionsOpened p)).syncPort p
    let s := s.setField R.straps 4 2 p
    let s := { s with lys := { s.lys with image := [], imageBlocks := [], imageBy := some n } }.idleOther p
    if s.bootStage = 3 then s.setField R.bootState 0 4 4 else s.imgStatus
  else s

/-- HELLO (R565, R566) on port `p`. [DESIGN CHOICE, log entry 110] -/
def execHello (p : Fin 2) (pay : List Byte) (s : State) : Outcome :=
  .next (
    if !s.portUp p || !helloOk pay then s
    else
      let boot := bytesAt pay 0 1 == 0
      match ([4 * p.val, 4 * p.val + 1, 4 * p.val + 2, 4 * p.val + 3].filter fun n => (s.session n).isNone).head? with
      | none => s.helloRefuse p 0x09
      | some n => if helloKnown pay && s.helloStage boot then s.helloAccept p n boot pay else s.helloRefuse p 0x08)

/-- R98: a session that opens while E2H mailboxes are full receives one NOTIFY for each of them. -/
def State.notifyFull (s : State) (n : Nat) : State :=
  (List.range 16).foldl (fun s mb => if s.mbit R.e2hFull mb then s.sendFrame n 0x13 0 (leBytes 1 mb) else s) s

/-- AUTH (R566): when the basic operator key's signature over SHA-512(TH, 0x42) verifies, OPEN is sent and the RUN session is open with basic
privilege; otherwise it closes with AUTH_FAIL. [DESIGN CHOICE, log entry 12] -/
def execAuth (f : Frm) (s : State) : Outcome :=
  .next (s.receive f (fun x => !x.boot && !x.isOpen) (f.pay.length == 132) true fun s =>
    match s.session f.session with
    | none => s
    | some x =>
      let p := portOf f.session
      if Config.ecdsaVerifies s.lys.qb (sha512 (x.th ++ [0x42])) f.pay then
        let s := s.setSession f.session (some { x with isOpen := true })
        (((s.count (R.sessionsOpened p)).syncPort p).sendFrame f.session 0x04 f.ftag []).notifyFull f.session
      else ((s.orReg (R.portStatus p) 2).count (R.sessionsRefused p)).closeSession f.session 3)

/-! ### Acknowledgement and resending (R563) -/

/-- Frames that waited for room are sent while fewer than 64 are unacknowledged. -/
def State.sendWaiting (s : State) (n : Nat) : Nat → State
  | 0 => s
  | k + 1 =>
    match s.session n with
    | none => s
    | some x =>
      match x.waiting with
      | [] => s
      | t :: rest =>
        if x.unacked.length < 64 then
          let s := s.setSession n (some { x with unacked := x.unacked ++ [{ t with sends := 1 }], waiting := rest })
          ((s.count (R.framesTx (portOf n))).emit (.frame n t.type t.seq (x.nonce t.seq) t.ftag t.pay)).sendWaiting n k
        else s

/-- FRAME_ACK (R563): an ACK frame is accepted when its counter exceeds the last one accepted; frames below the SEQ it names are
acknowledged. -/
def execFrameAck (f : Frm) (s : State) : Outcome :=
  .next (
    let s := s.codewords (portOf f.session) f.fixed f.uncorr
    match s.session f.session with
    | none => s
    | some x =>
      let p := portOf f.session
      let ctr := f.seq.toNat % 2 ^ 63
      if !s.portUp p then s
      else if !f.tagOk then s.tagFail f.session x
      else if !bit f.seq 63 || decide (ctr ≤ x.ackRx) then (s.count (R.seqDiscards p)).setSession f.session (some { x with tagRun := 0 })
      else if f.pay.length ≠ 8 ∨ f.resv ≠ 0 ∨ !x.isOpen then (s.count (R.framesRx p)).setSession f.session (some { x with ackRx := ctr, tagRun := 0 })
      else
        let next := bytesAt f.pay 0 8
        let x' := { x with ackRx := ctr, tagRun := 0, unacked := x.unacked.filter fun t => decide (next ≤ t.seq) }
        ((s.count (R.framesRx p)).setSession f.session (some x')).sendWaiting f.session 64)

/-- A frame is sent again unchanged (R563); one sent 16 times closes the session (Table 16.6). -/
def State.resend (s : State) (n : Nat) (x : Session) (t : TxFrame) : State :=
  if 16 ≤ t.sends then s.closeSession n 2
  else
    let x' := { x with unacked := x.unacked.map fun u => if u.seq = t.seq then { u with sends := u.sends + 1 } else u }
    let s := ((s.setSession n (some x')).count (R.framesTx (portOf n))).count (R.resends (portOf n))
    s.emit (.frame n t.type t.seq (x.nonce t.seq) t.ftag t.pay)

/-- FRAME_RESEND (R563): 200 µs have passed since the frame `seq` of the session was last sent, and it is not acknowledged. -/
def execFrameResend (session : Fin 8) (seq : BitVec 64) (s : State) : Outcome :=
  .next (match s.session session with
    | none => s
    | some x => match x.unacked.find? fun t => t.seq == seq.toNat with
      | some t => s.resend session x t
      | none => s)

/-- CLOSE from the host (R568). -/
def execCloseFrame (f : Frm) (s : State) : Outcome :=
  .next (s.receive f (·.isOpen) (f.pay.length == 1) false fun s => s.closeSession f.session 0)

/-! ### Mailbox frames (R92 to R95) -/

/-- A message is posted on H2E mailbox `mb` by session `n`: the slot, FULL, the poster (R98), the doorbell order (R104), the interrupt (R99),
and the wake of power-gated Enmora cores (R96). -/
def State.h2ePost (s : State) (n mb : Nat) (msg : List Byte) : State :=
  let s := (s.setSlot (R.h2eSlot mb) msg).orReg R.h2eFull (2 ^ mb)
  let s := { s with enm := { s.enm with poster := s.enm.poster.filter (fun (e : Nat × Nat) => e.1 != mb) ++ [(mb, n)], order := s.enm.order ++ [mb], gated := false } }
  s.mbxIrq 0

/-- MBX_POST (R92, R93, R102). -/
def execMbxPost (f : Frm) (s : State) : Outcome :=
  .next (s.receive f runSession (f.pay.length == 257 && decide (bytesAt f.pay 0 1 < 16)) true fun s =>
    let mb := bytesAt f.pay 0 1
    if s.mbit R.h2eFull mb then (s.orReg R.h2eReject (2 ^ mb)).complete f.session f.ftag 0x01
    else (s.h2ePost f.session mb (f.pay.drop 1)).complete f.session f.ftag 0x00)

/-- MBX_READ of an E2H mailbox (R94, Table 16.5). -/
def execMbxRead (f : Frm) (s : State) : Outcome :=
  .next (s.receive f runSession (f.pay.length == 1 && decide (bytesAt f.pay 0 1 < 16)) true fun s =>
    let mb := bytesAt f.pay 0 1
    if s.mbit R.e2hFull mb then s.complete f.session f.ftag 0x00 (s.slot (R.e2hSlot mb)) else s.complete f.session f.ftag 0x02)

/-- MBX_RELEASE of an E2H mailbox, accepted from any open session (R94, R99). -/
def execMbxRelease (f : Frm) (s : State) : Outcome :=
  .next (s.receive f runSession (f.pay.length == 1 && decide (bytesAt f.pay 0 1 < 16)) true fun s =>
    (s.release 1 (BitVec.ofNat 16 (2 ^ bytesAt f.pay 0 1))).complete f.session f.ftag 0x00)

/-! ### Bulk windows (R572) -/

def State.window (s : State) (w : Nat) : Option Window := (s.lys.windows[w]?).join

/-- The window is open, was opened by this session, allows the direction, and the range lies within it (Table 16.5). -/
def State.winOk (s : State) (w n off len : Nat) (write : Bool) : Bool :=
  (s.window w).any fun x => x.session == n && decide (off + len ≤ x.len) && (if write then x.wr else x.rd)

/-- The lengths of WIN_READ and WIN_WRITE: an offset that is a multiple of 64, and 64 to 4,096 bytes in multiples of 64 (Table 16.4). -/
def winFieldsOk (pay : List Byte) : Bool :=
  let len := bytesAt pay 16 4
  bytesAt pay 1 7 == 0 && bytesAt pay 8 8 % 64 == 0 && decide (64 ≤ len ∧ len ≤ 4096) && len % 64 == 0

/-- WIN_READ (R572): the errors that it meets are corrected, or reported and handled (R442, R443, R447, R473). [DEDUCED, log entry 101] -/
def execWinRead (f : Frm) (s : State) : Outcome :=
  .next (s.receive f runSession (f.pay.length == 20 && winFieldsOk f.pay) true fun s =>
    let w := bytesAt f.pay 0 1
    let off := bytesAt f.pay 8 8
    let len := bytesAt f.pay 16 4
    if s.asleep then s.complete f.session f.ftag 0x08
    else if !s.winOk w f.session off len false then s.complete f.session f.ftag 0x03
    else
      let a := ((s.window w).map (·.base)).getD 0 + off
      (s.meetRead a len).complete f.session f.ftag 0x00 (s.bytes a len))

/-- WIN_WRITE (R572). -/
def execWinWrite (f : Frm) (s : State) : Outcome :=
  .next (s.receive f runSession (f.pay.length == 20 + bytesAt f.pay 16 4 && winFieldsOk f.pay) true fun s =>
    let w := bytesAt f.pay 0 1
    let off := bytesAt f.pay 8 8
    let len := bytesAt f.pay 16 4
    if s.asleep then s.complete f.session f.ftag 0x08
    else if !s.winOk w f.session off len true then s.complete f.session f.ftag 0x03
    else (s.store (((s.window w).map (·.base)).getD 0 + off) (f.pay.drop 20)).complete f.session f.ftag 0x00)

/-! ### The expert register window (R571) -/

/-- The status a register frame is refused with (Table 16.5), in the order privilege, address, Lighthouse, powered-off block, R588. -/
def State.regFrameStatus (s : State) (n addr count : Nat) (write : Bool) : Option Nat :=
  if !(s.session n).any (·.expert) then some 0x04
  else match regKey addr count with
    | none => some 0x06
    | some k =>
      if blockOf k = 0x02 then some 0x05
      else if s.blockOff k then some 0x08
      else if write && s.rangeRefused k count then some 0x08
      else none

/-- REG_RD (R571, R589). [DEDUCED, log entry 32] -/
def execRegRd (f : Frm) (s : State) : Outcome :=
  .next (s.receive f runSession (f.pay.length == 12 && decide (1 ≤ bytesAt f.pay 8 4 ∧ bytesAt f.pay 8 4 ≤ 1024)) true fun s =>
    let addr := bytesAt f.pay 0 8
    let count := bytesAt f.pay 8 4
    match s.regFrameStatus f.session addr count false with
    | some st => s.complete f.session f.ftag st
    | none =>
      let x := s.readRegs f.session (addr - windowBase) count
      x.2.complete f.session f.ftag 0x00 (wordBytes x.1))

/-- REG_WR (R112, R571, R588). [DEDUCED, log entry 32] -/
def execRegWr (f : Frm) (s : State) : Outcome :=
  .next (s.receive f runSession
    (f.pay.length == 12 + 4 * bytesAt f.pay 8 4 && decide (1 ≤ bytesAt f.pay 8 4 ∧ bytesAt f.pay 8 4 ≤ 1024)) true fun s =>
    let addr := bytesAt f.pay 0 8
    let count := bytesAt f.pay 8 4
    match s.regFrameStatus f.session addr count true with
    | some st => s.complete f.session f.ftag st
    | none => (s.writeRegs f.session .frame true (addr - windowBase) (wordsFrom f.pay 12 count)).complete f.session f.ftag 0x00)

/-! ### The boot session (R543 to R547, R569) -/

/-- KEYS (R569): the operator keys and OPERATOR_DIGEST. -/
def execKeys (f : Frm) (s : State) : Outcome :=
  .next (s.receive f bootSession (f.pay.length == 266) true fun s =>
    let s := match s.session f.session with
      | some x => s.setSession f.session (some { x with keys := true })
      | none => s
    { s with lys := { s.lys with qb := f.pay.take 133, qe := (f.pay.drop 133).take 133, operatorDigest := sha512 f.pay } })

/-- A byte of the image held in Enmora private SRAM. -/
def State.imgByte (s : State) (a : Nat) : Byte := Sparse.get 0 s.lys.image a

/-- `n` image bytes from offset `a`. -/
def State.imgBytes (s : State) (a n : Nat) : List Byte := (List.range n).map fun i => s.imgByte (a + i)

/-- BODY_LEN and the range Table 15.5 allows it. -/
def State.imgBodyLen (s : State) : Nat := leNat (s.imgBytes 12 4)
def bodyLenOk (n : Nat) : Bool := n % 64 == 0 && decide (64 ≤ n ∧ n ≤ 1572864)

/-- The first `n` 64-byte blocks of the image have all been written. -/
def State.imgHas (s : State) (n : Nat) : Bool := (List.range n).all fun b => Sparse.get false s.lys.imageBlocks b

/-- Image data stored at its offset, and the blocks it fills (R543). -/
def State.imgStore (s : State) (off : Nat) (data : List Byte) : State :=
  { s with lys := { s.lys with
      image := (data.zipIdx).foldl (fun m (b, i) => Sparse.put 0 m (off + i) b) s.lys.image
      imageBlocks := (List.range (data.length / 64)).foldl (fun m i => Sparse.put false m (off / 64 + i) true) s.lys.imageBlocks } }

/-- R543, R569: the fetch is complete once bytes 0 to 255 + BODY_LEN have been written; a BODY_LEN out of range ends it. Either way the image
goes to VERIFY, whose checks judge it. -/
def State.imgFetched (s : State) : Bool :=
  s.imgHas 4 && (!bodyLenOk s.imgBodyLen || s.imgHas (4 + s.imgBodyLen / 64))

/-- IMAGE (R543, R569). [DEDUCED, log entry 31] -/
def execImageFrame (f : Frm) (s : State) : Outcome :=
  .next (s.receive f bootSession (decide (68 ≤ f.pay.length ∧ f.pay.length ≤ 4100) && bytesAt f.pay 0 4 % 4096 == 0) true fun s =>
    if s.bootStage ≠ 4 ∧ s.bootStage ≠ 6 then s.complete f.session f.ftag 0x08
    else if !(s.session f.session).any (·.keys) then { s.imageFail 1 with lys := { (s.imageFail 1).lys with imageBy := some f.session.val } }.imgStatus
    else
      let s := { s with lys := { s.lys with imageBy := some f.session.val } }
      let s := s.imgStore (bytesAt f.pay 0 4) (f.pay.drop 4)
      if s.imgFetched then s.setField R.bootState 0 4 5 else s)

/-- The first check of Table 15.6 that the image fails (R545). [DESIGN CHOICE, log entry 12; DEDUCED, log entry 31] -/
def State.imgCheck (s : State) : Option Nat :=
  let hd := s.imgBytes 0 256
  let body := s.imgBytes 256 s.imgBodyLen
  if bytesAt hd 0 4 ≠ 0x0146574B ∨ bytesAt hd 10 2 ≠ 0 ∨ bytesAt hd 20 104 ≠ 0 then some 2
  else if !bodyLenOk s.imgBodyLen ∨ bytesAt hd 16 4 % 4 ≠ 0 ∨ s.imgBodyLen ≤ bytesAt hd 16 4 then some 3
  else if bytesAt hd 8 2 < s.part.secVersionMin.toNat then some 4
  else if !Config.ecdsaVerifies Config.firmwareKey (sha512 (hd.take 124 ++ body)) (hd.drop 124) then some 5
  else none

/-- R545, R578: an image that passes is measured; its versions are shown, the boot session closes with BOOT_DONE and the ROM enters ENMORA. [DEDUCED, log entry 31] -/
def State.imgAccept (s : State) : State :=
  let hd := s.imgBytes 0 256
  let s := { s with lys := { s.lys with fwDigest := sha512 (hd.take 124 ++ s.imgBytes 256 s.imgBodyLen)
                                        secVersion := BitVec.ofNat 16 (bytesAt hd 8 2) } }
  let s := s.setReg R.fwVersion (word (bytesAt hd 4 4))
  (s.closeSessions ((List.range 8).filter fun n => (s.session n).any bootSession) 1).enterEnmora

/-- IMAGE_VERIFY (R545, R569): the ROM checks the image that it holds. -/
def execImageVerify (s : State) : Outcome :=
  .next (if s.bootStage ≠ 5 then s
    else match s.imgCheck with
      | some code => (s.imageFail code).imgStatus
      | none => s.imgAccept)

end Sys2Proof.Machine
end

