-- ==== Sys2Proof/Machine/Boot.lean ====
section
/-!
DEFINITION. Reset, power-on, the release of clock domains, the boot stages, Lysholt port states, and waking from Sleep (R527 to
R551, R558, R559, R575, R576).
-/
namespace Sys2Proof.Machine

/-! ### Reset (R527 to R535, R551, R553) -/

/-- RESET_CAUSE of a pin reset (Table 15.8). [DEDUCED, log entry 37] -/
def State.pinCause (s : State) : Word :=
  word (2 + 16 * b2n s.rst.tripped + 32 * b2n s.rst.pllFault + 64 * b2n (s.bootStage != 9) + 2 ^ 12 * s.bootStage)

/-- The registers that a pin reset keeps (R171, R450, Table 15.7): MAPPED_ROW and SPARE_USED of ROW_MAP; PC_MAP and SPARE_USED of a stack
whose spare is in use, since a copy still running is abandoned; PORT_SLOT of a core that spare slot 16 serves. -/
def State.keptRegs (s : State) : List (Nat × Word) :=
  let s0 : State := { State.reset with regs := [] }
  let s1 := (List.range 256).foldl (fun t n =>
    (t.setField (R.rowMap n) 0 7 (s.field (R.rowMap n) 0 7)).setField (R.rowMap n) 31 1 (s.field (R.rowMap n) 31 1)) s0
  let s2 := (List.range 8).foldl (fun t k =>
    if bit (s.reg (R.hbmState k)) 8 then (t.setReg (R.pcMap k) (s.reg (R.pcMap k))).setField (R.hbmState k) 8 1 1 else t) s1
  (s.kept.spareSlotOf.foldl (fun t x => t.setReg (R.portSlot (16 * x.1 + x.2)) 16) s2).regs

/-- DEV_SPARES counts that start again at each reset: link lanes and links, whose mapping is that of power-on, and the SRAM-bit and
DDR5-device events absorbed since reset (R555, Table 15.7). -/
def resetSpares (xs : List Nat) : List Nat := (((xs.set 0 0).set 1 0).set 6 0).set 7 0

/-- Every domain outside the always-on domain in reset (R534, R551): all state at its reset value. The queue of commands, what the device put
out before, and the model's count of free values lie outside the device. [DESIGN CHOICE, log entry 39] -/
def State.inReset (s : State) (kept : Kept) (regs : List (Nat × Word)) (rst : ResetLogic) : State :=
  { State.reset with pending := s.pending, part := s.part, kept := kept, rst := rst, regs := regs, free := s.free
                     lys := { State.reset.lys with sent := s.lys.sent } }

/-- A reset honoured from the RESET_N pin (R531, R533, R553). -/
def State.pinReset (s : State) : State :=
  (s.inReset { s.kept with spares := resetSpares s.kept.spares } s.keptRegs
    { asserted := true, powerOn := false, pinLow := true }).setReg R.resetCause s.pinCause

/-- RESET_N_ASSERT (R531, R533): a low that has lasted the filter time. While reset is held already it only holds it longer. -/
def execResetNAssert (s : State) : Outcome :=
  .next (if s.rst.asserted then { s with rst := { s.rst with pinLow := true } } else s.pinReset)

/-- POWER_ON_ASSERT (R528, R533, R551): the always-on domain loses its contents, and the cause is POWER_ON. -/
def execPowerOnAssert (s : State) : Outcome :=
  .next ((s.inReset {} [] { asserted := true, powerOn := true, pinLow := s.rst.pinLow }).setReg R.resetCause 1)

/-- R538, R539, R541: release begins once power-on detection and RESET_N have both released. The straps are sampled; under CLKMODE 0b10 the
boot port's receiver begins to acquire. [DEDUCED, log entry 37] -/
def State.beginRelease (s : State) (bootsel clkmode : BitVec 2) : State :=
  if s.rst.powerOn ∨ s.rst.pinLow ∨ !s.rst.asserted then s
  else
    let s := { s with rst := { s.rst with asserted := false } }
    let s := s.setReg R.straps (word (bootsel.toNat + 4 * clkmode.toNat + 16 * 3))
    let s := s.setField R.bootState 0 4 1
    if clkmode = 2 then s.setField (R.portState (if bootsel = 1 then 1 else 0)) 0 2 1 else s

/-- RESET_N_RELEASE (R532, R538) with the levels of the straps. -/
def execResetNRelease (bootsel clkmode : BitVec 2) (s : State) : Outcome :=
  .next (({ s with rst := { s.rst with pinLow := false } }).beginRelease bootsel clkmode)

/-- POWER_ON_RELEASE (R528, R538, R553) with the levels of the straps. -/
def execPowerOnRelease (bootsel clkmode : BitVec 2) (s : State) : Outcome :=
  let s := if s.rst.powerOn then s.setReg R.resetCause 1 else s
  .next (({ s with rst := { s.rst with powerOn := false } }).beginRelease bootsel clkmode)

/-! ### Domains (R536, R537) -/

/-- The order in which regions 0 to 37 are powered (R519, R548): memory controllers, crossbar and mesh regions, bays, link blocks. -/
def powerRank (r : Nat) : Nat := if 28 ≤ r then 0 else if r < 16 then 2 else if r < 20 then 1 else 3

/-- Every region that is powered before `d` has been released, or has failed. [DEDUCED, log entry 23] -/
def State.turnOf (s : State) (d : Nat) : Bool :=
  (List.range 38).all fun r => decide (powerRank d ≤ powerRank r) || s.regionMode r != 3 || s.domainFailed r

/-- A region that waits for its clock: in reset, its generator enabled in its turn and not named as failed (R537). -/
def State.waitsForClock (s : State) (d : Nat) : Bool :=
  if s.rst.asserted || s.clkmode == 3 then false
  else if d = 40 then !s.beatOn && s.bootStage != 0xF && (s.clkmode != 2 || s.rst.refLocked)
  else if d = 38 then s.beatOn && s.regionMode 38 == 3 && !s.domainFailed 38 && !s.genFailed 76
  else if d = 39 then s.regionMode 38 == 0 && s.regionMode 39 == 3 && !s.domainFailed 39
  else s.enm.running && s.regionMode d == 3 && !s.domainFailed d && s.turnOf d

/-- REGION_STATE of a region as it is released (Table 14.8): running, ARRAY_CLOCK, and STANDBY_OK unless a generator of it has failed. -/
def State.releaseRegion (s : State) (r : Nat) : State :=
  let arr := decide (r < 20)
  let ok := arr && !s.genFailed (2 * r) && !s.genFailed (2 * r + 1)
  s.setReg (R.regionState r) (word (4 * b2n arr + 8 * bits (s.reg (R.regionState r)) 3 1 + 16 * b2n ok))

/-- R536: domain `d` is released (40: the beat PLL's). -/
def State.domainValid (s : State) (d : Nat) : State :=
  if d = 40 then { s with beat := 0, beatOn := true }
  else
    let s := s.releaseRegion d
    if d = 38 then (s.setField R.bootState 0 4 2).startGen 39
    else if d = 39 then s.trainPorts
    else s.centre (· == d)

/-- DOMAIN_CLOCK_VALID (R536, R541): the Lighthouse ROM starts when region 38 is released. [DESIGN CHOICE, log entry 2] -/
def execDomainClockValid (d : Fin 41) (s : State) : Outcome := .next (if s.waitsForClock d then s.domainValid d else s)

/-- The device is still booting. -/
def State.booting (s : State) : Bool := decide (s.bootStage < 9)

/-- Table 15.2: where boot stops when domain `d` has no valid clock; a device past READY goes on without the region. -/
def State.clockless (s : State) (d : Nat) : State :=
  let s := s.domainFail d
  if !s.booting then s
  else if d = 38 ∨ d = 40 then s.bootStop 1
  else if d = 39 then
    if s.bootsel = 1 then (if 3 ≤ s.bootStage then s.bootStop 3 else s) else if s.bootStage = 7 then s.bootStop 7 else s
  else s.bootStop 7

/-- R537: the running generator of array-clock region `r` is marked failed and its standby enabled. -/
def State.standbyAtBoot (s : State) (r : Nat) : State :=
  let s := (s.recordGen (2 * r)).setField (R.regionState r) 3 1 1
  let s := s.orReg R.domainSpared (2 ^ r)
  if s.bootStage ≠ 9 then
    { s with kept := { s.kept with spares := s.kept.spares.modify 9 (· + 1) }
             pwr := { s.pwr with sparedAtBoot := s.pwr.sparedAtBoot ++ [r] } }
  else s.spareUsed (srcOf 0x01 r) 9 (2 * r) (2 * r + 1)

/-- DOMAIN_CLOCK_FAIL (R537, Table 15.2): the generator of domain `d` has run for 2 ms without a valid clock. -/
def execDomainClockFail (d : Fin 41) (s : State) : Outcome :=
  .next (
    if !s.waitsForClock d then s
    else if d.val < 20 then
      if bit (s.reg (R.regionState d)) 3 then (s.recordGen (2 * d + 1)).clockless d
      else if s.genFailed (2 * d + 1) then (s.recordGen (2 * d)).clockless d
      else s.standbyAtBoot d
    else if d.val < 40 then (s.recordGen (2 * d)).clockless d
    else s.clockless d)

/-! ### Stages (R540 to R550) -/

/-- ROM_SELFTEST_DONE (R540, R541, R575, R576). In manufacturing test mode the ROM fetches no firmware. -/
def execRomSelftestDone (ok : Bool) (s : State) : Outcome :=
  .next (
    if s.bootStage ≠ 2 then s
    else if !ok then s.bootStop 2
    else if s.bootsel = 3 then s
    else
      let s := (s.setField R.bootState 0 4 3).trainPorts
      if s.bootsel = 1 ∧ s.domainFailed 39 then s.bootStop 3 else s)

/-- Every region is released. -/
def State.allReleased (s : State) : Bool := (List.range 40).all fun r => s.regionMode r ≠ 3

/-- ENMORA_STAGE_DONE (R541, R548). -/
def execEnmoraStageDone (s : State) : Outcome := .next (if s.bootStage = 7 ∧ s.allReleased then s.setField R.bootState 0 4 8 else s)

/-- R452: all eight channels hold modules of one capacity, one type and one rank organisation, and all eight train. -/
def fillOk (ds : List (Option Dimm)) : Bool :=
  match ds with
  | some d :: _ => ds.length == 8 && ds.all fun x => x.any fun m => m.trains && m.cap == d.cap && m.mrdimm == d.mrdimm && m.ranks == d.ranks
  | _ => false

/-- The highest rate that every module supports. -/
def fillRate (ds : List (Option Dimm)) : Nat := ds.foldl (fun r x => match x with | some m => min r m.rate.val | none => r) 4

/-- DDR_STATE of a channel (Table 12.7). -/
def ddrState (rate : Nat) (m : Option Dimm) : Nat :=
  match m with
  | some d => rate + 8 * b2n d.mrdimm + 16 * d.cap.val + 64 * d.ranks.val + 256 * b2n d.dense
  | none => 7

/-- The capacity of a module in MiB (Table 12.7). -/
def Dimm.mib (d : Dimm) : Nat := 32768 * 2 ^ d.cap.val

/-- R452: the DDR5 tier as its fill and its training leave it. -/
def State.ddrTrained (s : State) (ds : List (Option Dimm)) : State :=
  let ok := fillOk ds
  let s := (List.range 8).foldl (fun s c => s.setReg (R.ddrState c) (word (ddrState (if ok then fillRate ds else 7) (ds.getD c none)))) s
  if ok then s.setReg R.ddrCapacity (word (8 * ((ds.head?.join.map Dimm.mib).getD 0)))
  else (s.setReg R.ddrCapacity 0).orReg R.memStatus 8

/-- R438: the stacks at their recorded rate, and their capacity (Table 12.7). -/
def State.hbmTrained (s : State) : State :=
  let s := (List.range 8).foldl (fun s k => (s.setField (R.hbmState k) 0 4 4).setField (R.hbmState k) 4 1 (b2n (!s.part.high12))) s
  s.setReg R.hbmCapacity (word (if s.part.high12 then 387072 else 516096))

/-- R548: a standby generator brought into use at boot is reported once the device is READY. -/
def State.reportSpared (s : State) : State :=
  let s := s.pwr.sparedAtBoot.foldl (fun s r =>
    s.trouble.log_ (srcOf 0x01 r) 0x1B (leBytes 1 9 ++ [0] ++ leBytes 2 (2 * r) ++ leBytes 2 (2 * r + 1))) s
  { s with pwr := { s.pwr with sparedAtBoot := [] } }

/-- R549: READY, in Idle: every array-clock region is gated. -/
def State.ready (s : State) (us : Word) : State :=
  let s := s.setField R.bootState 0 4 9
  let s := s.setReg R.bootTimeUs us
  ((List.range 20).foldl State.gate s).reportSpared

/-- MEMORY_TRAINED (R438, R452, R549, R550): whether HBM4 trained, the modules found, and the µs from the start of release. -/
def execMemoryTrained (hbm : Bool) (dimms : List (Option Dimm)) (us : Word) (s : State) : Outcome :=
  .next (
    if s.bootStage ≠ 8 then s
    else if !hbm then s.bootStop 8
    else ((s.hbmTrained).ddrTrained dimms).ready us)

/-! ### Ports (R539, R558, R559) -/

/-- PORT_ACQUIRE_DONE (R539, R558): under CLKMODE 0b10 the boot port locks before its region is released, and stays in ACQUIRE. -/
def execPortAcquireDone (p : Fin 2) (s : State) : Outcome :=
  .next (
    if s.field (R.portState p) 0 2 ≠ 1 then s
    else if s.regionMode (portRegion p) = 0 then s.setField (R.portState p) 0 2 2
    else ({ s with rst := { s.rst with refLocked := true } }).setField (R.portState p) 8 1 1)

/-- PORT_ALIGN_DONE (R558). -/
def execPortAlignDone (p : Fin 2) (s : State) : Outcome :=
  .next (if s.field (R.portState p) 0 2 = 2 then s.setField (R.portState p) 0 2 3 else s)

/-- R559: port `p` leaves UP: its sessions close and DOWN sets. -/
def State.portDown (s : State) (p : Nat) : State :=
  let s := s.setField (R.portState p) 0 2 1
  (s.closeSessions [4 * p, 4 * p + 1, 4 * p + 2, 4 * p + 3] 6).orReg (R.portStatus p) 1

/-- PORT_LIGHT_LOSS (R543, R558, R559). -/
def execPortLightLoss (p : Fin 2) (s : State) : Outcome := .next (if s.portUp p then s.portDown p else s)

/-- PORT_FEC_LOSS (R558, R559): FEC lock lost for 1 ms. -/
def execPortFecLoss (x : PortLoss) (s : State) : Outcome :=
  .next (if s.portUp x.port then (s.codewords x.port 0 x.uncorr).portDown x.port else s)

/-- LIGHTHOUSE_ERROR (R576): a self-test fails after power-up. -/
def execLighthouseError (test : Byte) (s : State) : Outcome :=
  .next (if decide (3 ≤ s.bootStage) && !s.lys.error && s.stopStage != 2 then s.lighthouseFail test.toNat else s)

/-! ### Wake from Sleep (R519) -/

/-- Every region that the wake powers has been released, or has failed. -/
def State.wakeReleased (s : State) : Bool := (List.range 38).all fun r => s.regionMode r ≠ 3 || s.domainFailed r

/-- R519, R456: Idle again: the array regions gated, the queues centred, the error windows started again, and DEV_WAKE answered. -/
def State.wake (s : State) (mb : Nat) (tag : Half) : State :=
  let s := (List.range 20).foldl State.gate s
  let s := s.centre fun _ => true
  let s := { s with pwr := { s.pwr with sleep := false, waking := none, retain := false }, memc := { s.memc with pcCe := [], pcUe := [], pcFailed := [], sliceCe := [], sliceFailed := [] } }
  s.respond mb 0x0107 tag .ok

/-- WAKE_DONE (R456, R519). [DEDUCED, log entry 23] -/
def execWakeDone (s : State) : Outcome :=
  .next (match s.pwr.waking with
    | some (mb, tag) => if s.asleep && s.wakeReleased then s.wake mb tag else s
    | none => s)

end Sys2Proof.Machine
end

