-- ==== Sys2Proof/Machine/Restore.lean ====
section
/-!
DEFINITION. Restore from a tideline snapshot (R485 to R489), the RESTORE_* commands (R491), and the end of a freeze's copies (R481).
-/
namespace Sys2Proof.Machine

/-! ### The restore map (R487) -/

/-- An entry: lost device, ENTRY_ID, reserved bytes, offset, length, destination. -/
structure MapEnt where
  dev : Nat
  id : Nat
  reserved : Nat
  off : Nat
  len : Nat
  dst : Nat
  deriving DecidableEq, Repr

def State.mapEnt (s : State) (base i : Nat) : MapEnt :=
  let a := base + 32 * i
  { dev := s.num a 2, id := s.num (a + 2) 2, reserved := s.num (a + 4) 4, off := s.num (a + 8) 8, len := s.num (a + 16) 8, dst := s.num (a + 24) 8 }

def State.mapOk (s : State) (base count : Nat) : Bool :=
  s.rangeOk allTiers base (32 * count)
    && (List.range count).all fun i => let e := s.mapEnt base i; e.reserved == 0 && s.rangeOk allTiers e.dst e.len

/-! ### What comes back (R486) -/

/-- The bytes of `[base, base + len)` become those of `cells`, by offset, and 0 elsewhere. -/
def State.fill (s : State) (base len : Nat) (cells : List Host.Cell) : State :=
  let mem := Sparse.dropKeys (fun a => decide (base ≤ a ∧ a < base + len)) s.mem
  let mem := cells.foldl (fun m c => if c.1 < len then Memory.put m (base + c.1) c.2 else m) mem
  (({ s with mem }).freshCheck base len).markDirty base len

/-- Steps 2 and 3: an entry of this device, from staging under Mirror and from the base copy under Parity. -/
def State.restoreEnt (s : State) (c : SnapCopy) : State :=
  let len := c.ent.lenMb * mib
  let at_ := c.ent.parOff * mib
  let cells := if c.method = 1 then c.cells else (s.snap.base.filter fun x => decide (at_ ≤ x.1 ∧ x.1 < at_ + len)).map fun x => (x.1 - at_, x.2)
  s.fill c.ent.base len cells

/-- Step 4: what a lost device held comes from the other survivors; its contents are free. [DEDUCED, log entry 105] -/
def State.restoreMap (s : State) (e : MapEnt) : State :=
  let (bs, s) := s.drawBytes e.len
  s.store e.dst bs

/-- Step 1: every Shelf frame is discarded and every bucket slot returns to IDLE. -/
def State.clearUnits (s : State) : State :=
  let s := replayRegs.foldl (fun t k => t.setReg k 0) s
  { s with shelf := { advance := s.shelf.advance }, bkt := { s.bkt with slots := [], reds := [], credits := [], decided := false } }.countChunks

/-- R489: a stored counter that differs from the derived one, which is 0 below STEP_NUMBER. -/
def State.skew (s : State) (x : Nat × Nat) : State :=
  ((s.orReg R.snapStatus 0x10).count R.restoreSkews).log_ (srcOf 0x0C 0) 0x1F (leBytes 2 x.1 ++ List.replicate 6 0 ++ leBytes 8 x.2)

/-- The layer table and the update table are legal (R329, R337). -/
def State.tablesOk (s : State) : Bool :=
  ((List.range (s.regN R.layerCount)).all fun l => layerOk (s.layerAt (s.reg64 R.layerBaseLo R.layerBaseHi) l))
    && (List.range (s.regN R.updCount)).all fun u => updRowOk (s.updAt (s.reg64 R.updBaseLo R.updBaseHi) u)

/-- An update record with the VERSION of the snapshot. -/
def versioned (b : JobBlock) (x : Nat × UpdRec) : Nat × UpdRec := (x.1, { x.2 with version := word (b.versions.getD x.1 0) })

/-- Step 5: STEP_NUMBER, the cursor, the scale table, every VERSION and the random streams; Enmora reads the layer and update tables again (R329,
R337), which a table that is not legal does not change, and the step's gate opens. [DEDUCED, log entry 105] -/
def State.restoreJob (s : State) (b : JobBlock) : State :=
  let s := s.store s.scaleBase b.scales
  let recs := if s.tablesOk then s.readRecs (s.reg R.updDefaults) (s.reg64 R.updBaseLo R.updBaseHi) (s.regN R.updCount) else s.upd.recs
  let s := { s with
    job := { s.job with step := b.step, epoch := b.epoch, shard := b.shard, sample := b.sample, seed := b.seed }
    upd := { s.upd with recs := recs.map (versioned b) }
    nums := { s.nums with modes := if s.tablesOk then s.readLayers (s.reg64 R.layerBaseLo R.layerBaseHi) (s.regN R.layerCount) else s.nums.modes }
    cores := s.cores.map rewind
    snap := { s.snap with block := some b } }
  (b.streams.foldl State.skew (s.setField R.gate 0 2 0)).countJit s.scaleBase (s.regN R.scaleCount)

/-- RESTORE_APPLY (R486), at step 3 of the boundary that RESTORE_RUN named. [DEDUCED, log entry 105] -/
def State.restoreApply (s : State) : State :=
  match s.snap.committed with
  | some x =>
    let s := s.clearUnits
    let s := x.copies.foldl State.restoreEnt s
    let es := (List.range s.snap.mapCount).map (s.mapEnt s.snap.mapAddr)
    let s := (es.foldl State.restoreMap s).restoreJob x.block
    let n := x.copies.foldl (fun n c => n + c.ent.lenMb * mib) 0 + es.foldl (fun n e => n + e.len) 0 + x.block.bytes.length
    { s with snap := { s.snap with restore := .running, restoreAt := none, restored := n } }
  | none => s

/-! ### Commands -/

/-- Lost ids of RESTORE_PREPARE. -/
def lostIds (r : Req) : List Half := (List.range (r.at 16 2)).map fun i => BitVec.ofNat 16 (r.at (20 + 2 * i) 2)

/-- R485: both devices of this member's buddy pair, or more than two members of its parity group, are lost. [DEDUCED, log entry 105] -/
def State.tooManyLost (s : State) (lost : List Half) : Bool :=
  (lost.contains s.snap.buddy && s.devId.any lost.contains)
    || (s.snap.parPos != 0xFF && decide (2 < (s.snap.members.filter lost.contains).length))

def cmdRestorePrepare : Cmd where
  op := 0x0801
  len p := decide (20 ≤ p.length) && p.length == 20 + 2 * bytesAt p 16 2
  param s r := decide (r.at 16 2 ≤ 64) && r.at 18 2 == 0 && s.mapOk (r.at 4 8) (r.at 12 4)
  state s r := !s.job.lost && (s.snap.committed.any fun x => x.block.seq == word (r.at 0 4)) && !s.tooManyLost (lostIds r)
  act s r :=
    let s := if s.job.restart.isNone then s.restart 0x0B else s
    ({ s with snap := { s.snap with restore := .prepared, restoreSeq := word (r.at 0 4), mapAddr := r.at 4 8, mapCount := r.at 12 4
                                    lost := lostIds r, restoreAt := none, restored := 0 } }, some .ok)

def cmdRestoreRun : Cmd where
  op := 0x0802
  len := lenIs 8
  param s _ := s.tablesOk
  state s _ := s.snap.restore == .prepared
  act s r :=
    if s.late (r.at 0 8) then (s, some (.refused 0x21 noEngine (r.at 0 8)))
    else ({ s with snap := { s.snap with restoreAt := some (match s.snap.restoreAt with
      -- of two that name different boundaries the earlier acts (R65)
      | some b => if s.tide.running then min b (r.at 0 8) else r.at 0 8
      | none => r.at 0 8) } }, some .ok)

/-- State that RESTORE_STATUS reports. -/
def RestoreState.code : RestoreState → Nat
  | .none => 0
  | .prepared => 1
  | .running => 2
  | .done => 3

/-- [DESIGN CHOICE, log entry 104] -/
def cmdRestoreStatus : Cmd where
  op := 0x0803
  len := lenIs 0
  act s _ := (s, some (.ok (leBytes 1 s.snap.restore.code ++ leBytes 8 s.snap.restored ++ leBytes 4 (s.regN R.restoreSkews))))

/-- The SHA-512 that the restored job state block holds, and the one over the rest of it. -/
def cmdRestoreVerify : Cmd where
  op := 0x0804
  len := lenIs 0
  state s _ := s.snap.block.isSome
  act s _ :=
    let stored := (s.snap.block.map (·.digest)).getD []
    let again := (s.snap.block.map fun b => sha512 b.body).getD []
    (s, some (.ok (stored ++ again ++ [if stored = again then 1 else 0])))

/-- RESTORE_PREPARE (R472, R485, R487, R491). -/
def execRestorePrepare (r : Req) (s : State) : Outcome := cmdRestorePrepare.serve r s
/-- RESTORE_RUN (R41, R65, R486, R491). -/
def execRestoreRun (r : Req) (s : State) : Outcome := cmdRestoreRun.serve r s
/-- RESTORE_STATUS (R491). -/
def execRestoreStatus (r : Req) (s : State) : Outcome := cmdRestoreStatus.serve r s
/-- RESTORE_VERIFY (R475, R491). -/
def execRestoreVerify (r : Req) (s : State) : Outcome := cmdRestoreVerify.serve r s

/-- R486, R296: DONE; records that the snapshot did not hold take just-in-time scaling, and the job goes on. -/
def State.restoreDone (s : State) : State :=
  let held := (s.snap.block.map fun b => b.scales.length / 128).getD 0
  let base := s.scaleBase
  let n := s.regN R.scaleCount
  let entered := (List.range n).any fun r => let v := s.scaleRecAt base r; decide (held ≤ r) && v.state != 0 && v.ok && v.kind != 3
  let s := { s with snap := { s.snap with restore := .done }, job := { s.job with restart := none }, tide := { s.tide with issueStop := s.job.lost } }
  let s := (s.eachRec base n fun r v => if held ≤ r then v.toJit else v).countJit base n
  if entered then s.orReg R.numStatus 2 else s

/-- RESTORE_DONE (R486). -/
def execRestoreDone (s : State) : Outcome := .next (if s.snap.restore == .running then s.restoreDone else s)

end Sys2Proof.Machine
end

