-- ==== Sys2Proof/Machine/Close.lean ====
section
/-!
DEFINITION. Steps 1 and 2 of a boundary (R31): when it opens (R51, R55, R63), its hold (R52, R53), the alarms (R302), and the telemetry record with
its TIDE_CLOSE entry (R34, R122, R123, R299, R300).
-/
namespace Sys2Proof.Machine

/-! ### When the boundary opens (R51, R53, R63) -/

/-- A condition of a boundary once it is met: its group beat, its place in the list of R53, and the cause that it gives. -/
structure Cond where
  beat : Int
  rank : Nat
  cause : Nat
  deriving DecidableEq, Repr

/-- The conditions of the next boundary that have been met: its last report, the releases of its TIDE_HOLDs, and those of its remote holders. [DEDUCED, log entry 54] -/
def State.conds (s : State) : List Cond :=
  let k := s.tide.next
  let step1 : List Cond := match s.lastReport with
    | some r => [{ beat := r.beat, rank := 0, cause := r.cause }]
    | none => []
  step1 ++ (s.tide.hostReleased.filter (·.1 == k)).map (fun (x : Nat × Int) => ({ beat := x.2, rank := 1, cause := 7 } : Cond))
    ++ s.tide.holders.filterMap fun h => if h.boundary = k then h.release.map fun b => ({ beat := b, rank := 2, cause := h.cause } : Cond) else none

/-- The next boundary is held no more: step 1 is satisfied, no TIDE_HOLD and no remote holder holds it, and the release beat that this device
announced has come. -/
def State.unheld (s : State) : Bool :=
  let k := s.tide.next
  s.step1 && !s.tide.hostHolds.contains k && (s.remoteHolds s.groupBeat).isEmpty && !s.tide.selfHolds.contains k
    && s.tide.selfReleases.all fun r => r.1 != k || decide (r.2 ≤ s.groupBeat)

/-- The nominal beat of the boundary that is next to open. -/
def State.nominalBeat (s : State) : Int := if s.tide.running then s.nominal else s.tide.runAt.getD 0

/-- The group beat at which the next boundary opens: `n`, its nominal beat, or the latest beat at which a condition of it was met, or the latest
release beat. [DEDUCED, log entry 54] -/
def State.openingBeat (s : State) (n : Int) : Int :=
  let m := s.conds.foldl (fun m c => max m c.beat) n
  s.tide.selfReleases.foldl (fun m r => if r.1 = s.tide.next then max m r.2 else m) m

/-- R53: the cause of the condition met last; of several in one beat, of the first in the list. -/
def lastCause (cs : List Cond) : Nat :=
  ((cs.foldl (fun (m : Option Cond) c => match m with
    | none => some c
    | some x => if x.beat < c.beat ∨ (x.beat = c.beat ∧ c.rank < x.rank) then some c else some x) none).map (·.cause)).getD 0

/-- R53: the mask: what was unmet at the nominal beat `n`, and the cause of every engine that reported after it. -/
def State.causeMask (s : State) (n : Int) : Nat := s.reported.foldl (fun m r => if n < r.beat then addCause m r.cause else m) s.tide.causes

/-- R52: the hold of a boundary whose nominal beat was `n` and that opens at `g`. -/
def State.heldEntry (s : State) (n g : Int) : State :=
  let hold := (g - n).toNat
  let last := s.lastReport
  let e := (last.map (·.core)).getD 0xFFFF
  let s := s.logCore (srcOf 0x08 0) 0x02 e (leBytes 8 hold ++ leBytes 1 (lastCause s.conds) ++ [0] ++ leBytes 2 (s.causeMask n) ++ leBytes 2 e
    ++ leBytes 2 ((last.map (·.mb)).getD 0xFFFF))
  ((s.orReg R.tideStatus 1).count R.heldTides).setReg R.lastHoldBeats (word (min hold 0xFFFFFFFF))

/-! ### Counts of the closing tide (R299, R300) -/

/-- Counts summed over the cores, which keys hold `w` apart, but those that boundary `b` finds inside a multi-tide span. -/
def State.closedCounts (s : State) (w b : Nat) (m : List (Nat × Word)) : List (Nat × Word) :=
  m.foldl (fun acc e => if s.inSpan (e.1 / w) b then acc else Sparse.put 0 acc (e.1 % w) (satAdd (Sparse.get 0 acc (e.1 % w)) e.2.toNat)) []

/-- What the numerics section reports. -/
structure NumSum where
  fmt : List (Nat × Word)
  recs : List (Nat × Word)
  /-- The closing boundary is a step advance, and its step is skipped. -/
  stepEnd : Bool
  skipped : Bool
  deriving DecidableEq, Repr

/-- The gate has decided SKIP (R294). -/
def State.gateSkips (s : State) : Bool := s.field R.gate 0 2 == 2

def State.numSum (s : State) : NumSum :=
  let b := s.tide.next
  { fmt := s.closedCounts 64 b s.nums.fmt, recs := s.closedCounts 4096 b s.nums.recs, stepEnd := s.tide.stepMark
    skipped := s.tide.stepMark && s.gateSkips }

/-- The counts reported start again; those of cores inside a span go on (R300). -/
def State.clearCounts (s : State) : State :=
  let b := s.tide.next
  { s with nums := { s.nums with fmt := s.nums.fmt.filter fun e => s.inSpan (e.1 / 64) b
                                 recs := s.nums.recs.filter fun e => s.inSpan (e.1 / 4096) b
                                 amax := [] } }

def State.layerSumOf (s : State) (layer kind : Nat) : Word := Sparse.get 0 s.nums.layers (4 * layer + kind)

/-- R301: RATIO of a layer. -/
def State.layerRatio (s : State) (n : NumSum) (layer : Nat) : Word :=
  let w := s.layerSumOf layer 0
  if n.skipped || (wval w).isZero then 0 else fsqrt (fdiv (s.layerSumOf layer 1) w)

/-! ### Alarms (R302) -/

/-- An alarm: its type, target and value. -/
structure Alarm where
  type : Nat
  target : Nat
  value : Word
  deriving DecidableEq, Repr

/-- ALARM_HI and ALARM_LO of a layer. -/
def State.layerHi (s : State) (n : NumSum) (l : Nat) : Bool :=
  let t := Sparse.get 0 s.alarmHi (1024 + l)
  n.stepEnd && !n.skipped && t != 0 && fgt (s.layerRatio n l) t
def State.layerLo (s : State) (n : NumSum) (l : Nat) : Bool :=
  let t := Sparse.get 0 s.alarmLo (1024 + l)
  n.stepEnd && !n.skipped && t != 0 && fgt t (s.layerRatio n l)

/-- The alarm of type `t` of a record, for the count of kind `t` - 2. -/
def State.recAlarm (s : State) (n : NumSum) (r t : Nat) : List Alarm :=
  let v := Sparse.get 0 n.recs (3 * r + (t - 2))
  let hi := Sparse.get 0 s.alarmHi (1024 * t + r)
  if hi ≠ 0 ∧ hi.toNat < v.toNat then [{ type := t, target := r, value := v }] else []

/-- [DEDUCED, log entry 56] -/
def State.alarms (s : State) (n : NumSum) : List Alarm :=
  ((List.range (s.regN R.layerCount)).flatMap fun l =>
      let a : Alarm := { type := 1, target := l, value := s.layerRatio n l }
      (if s.layerHi n l then [a] else []) ++ (if s.layerLo n l then [a] else []))
    ++ (List.range (s.regN R.scaleCount)).flatMap fun r => s.recAlarm n r 2 ++ s.recAlarm n r 3

def State.raiseAlarm (s : State) (a : Alarm) : State :=
  let s := s.log_ (srcOf 0x09 0) 0x09 (leBytes 2 a.target ++ leBytes 1 a.type ++ [0] ++ leBytes 4 a.value.toNat)
  (s.orReg R.numStatus 4).count R.numAlarms

/-! ### The telemetry record (R122, Tables 3.17, 3.18, 7.10, 7.11) -/

/-- The core runs QUAD in the closing tide, as a leader or a member of a quadrille. -/
def State.quadCore (s : State) (c : Nat) : Bool :=
  [0, 1, 4, 5].any fun m => decide (m ≤ c) && leaderPos (c - m) && s.lists.any fun l => l.core == c - m && l.descs.any fun d => arrayDesc d && quadOf d

/-- A core entry. [DEDUCED, log entry 47; DEDUCED, log entry 56] -/
def State.coreEntry (s : State) (c : Nat) : List Byte :=
  let r := s.reported.find? (·.core == c)
  let unchecked := !bit (s.reg (R.arrayCtrl c)) 0 || bit (s.reg (R.rowMap c)) 31
  let spared := s.field (R.portSlot c) 0 5 == 16
  let last := s.lastReport.any (·.core == c)
  leBytes 4 ((r.map (·.working.toNat)).getD 0) ++ leBytes 3 (min ((r.map (·.stall.toNat)).getD 0) 0xFFFFFF)
    ++ leBytes 1 (b2n unchecked + 2 * b2n spared + 4 * b2n (s.quadCore c) + 8 * b2n last)

def Mark.bytes (m : Mark) : List Byte := leBytes 8 m.beat.toNat ++ leBytes 2 m.id ++ leBytes 1 m.core ++ List.replicate 5 0

def NumSum.words (n : List (Nat × Word)) (base : Nat) : List Byte := (List.range 3).flatMap fun k => leBytes 4 (Sparse.get 0 n (base + k)).toNat

/-- A record entry and a layer entry (Table 7.11). -/
def State.recEntry (s : State) (n : NumSum) (r : Nat) : List Byte := NumSum.words n.recs (3 * r) ++ leBytes 4 (Sparse.get 0 s.nums.amax r).toNat

def State.layerEntry (s : State) (n : NumSum) (l : Nat) : List Byte :=
  leBytes 4 (s.layerSumOf l 0).toNat ++ leBytes 4 (s.layerSumOf l 1).toNat ++ leBytes 4 (s.layerRatio n l).toNat
    ++ leBytes 4 (b2n (s.layerHi n l) + 2 * b2n (s.layerLo n l) + 4 * b2n n.skipped)
    ++ leBytes 4 (s.layerSumOf l 2).toNat ++ leBytes 4 (s.layerSumOf l 3).toNat ++ List.replicate 8 0

/-- The numerics section. -/
def State.numSection (s : State) (n : NumSum) (alarm : Bool) : List Byte :=
  let recs := s.regN R.scaleCount
  let layers := if n.stepEnd then s.regN R.layerCount else 0
  let flags := b2n n.stepEnd + 2 * b2n n.skipped + 4 * b2n (s.regN R.jitRecords != 0) + 8 * b2n s.tide.residBf16 + 16 * b2n alarm
  let head := leBytes 4 recs ++ leBytes 4 layers ++ leBytes 4 flags ++ leBytes 4 s.job.step.toNat ++ List.replicate 48 0
  padBytes 256 (head ++ (List.range 16).flatMap fun f => NumSum.words n.fmt (3 * f))
    ++ (List.range recs).flatMap (s.recEntry n) ++ (List.range layers).flatMap (s.layerEntry n)

/-- FLAGS of the record's header. [DEDUCED, log entry 56] -/
def State.recordFlags (s : State) (hold : Nat) : Nat :=
  b2n (!s.overrides.isEmpty) + 2 * b2n s.tide.residBf16 + 4 * b2n s.tide.replayed + 8 * b2n s.profView.split + 16 * b2n (hold != 0)
    + 32 * b2n s.tide.marksLost

/-- The record: `done` is the beat at which step 1 was satisfied, and not before the nominal boundary. [DEDUCED, log entry 56] -/
def State.tideRecord (s : State) (n : NumSum) (alarm : Bool) (done : Int) (hold mask : Nat) : List Byte :=
  let nums := s.numSection n alarm
  let length := cdiv (0x1000 + nums.length) 4096 * 4096
  let head := leBytes 4 0x01524354 ++ leBytes 4 length ++ leBytes 8 s.tide.count.toNat ++ leBytes 8 (BitVec.ofInt 64 s.tide.openBeat).toNat
    ++ leBytes 8 (BitVec.ofInt 64 done).toNat ++ leBytes 4 (min hold 0xFFFFFFFF) ++ leBytes 2 mask ++ leBytes 1 s.profView.pack ++ [0]
    ++ leBytes 4 (s.recordFlags hold) ++ leBytes 4 s.tide.marks.length ++ leBytes 8 s.job.step.toNat
  let cores := (List.range 256).flatMap s.coreEntry
  padBytes length (padBytes 256 head ++ cores ++ padBytes 1792 (s.tide.marks.flatMap Mark.bytes) ++ nums)

/-- R123: the record is written to the telemetry area, and where it lies is answered. -/
def State.putRecord (s : State) (bs : List Byte) : Nat × State :=
  if s.log.areaMiB = 0 then (noTide, s)
  else
    let a := s.log.areaNext.getD s.log.areaBase
    let a := if s.log.areaBase + s.log.areaMiB * 2 ^ 20 < a + bs.length then s.log.areaBase else a
    (a, { s.store a bs with log := { s.log with areaNext := some (a + bs.length) } })

/-! ### Step 2 -/

/-- A freeze holds this boundary (R480, R481): it is a quiescent step advance, the tideline of a request held, and no snapshot is under way. [DEDUCED, log entry 55] -/
def State.freezeDue (s : State) : Bool :=
  s.tide.stepMark && s.tide.quiescent && s.tidelineDue s.job.step.toNat && s.snap.staged.isNone

/-- Step 2 of a boundary that closes a tide and, but for a freeze, opens at `g`. [DEDUCED, log entry 54] -/
def State.closeTide (s : State) (g : Int) : State :=
  let n := s.nominal
  let hold := (g - n).toNat
  let mask := if hold = 0 then 0 else s.causeMask n
  let s := if hold = 0 || s.freezeDue then s else s.heldEntry n g
  let s := s.foldAll s.tide.next
  let sum := s.numSum
  let as_ := s.alarms sum
  let s := as_.foldl State.raiseAlarm s
  let done := s.reported.foldl (fun m r => max m r.beat) n
  let (a, s) := s.putRecord (if s.log.areaMiB = 0 then [] else s.tideRecord sum (!as_.isEmpty) done hold mask)
  (s.log_ (srcOf 0x08 0) 0x01 (leBytes 8 a ++ leBytes 4 (min hold 0xFFFFFFFF) ++ leBytes 2 mask)).clearCounts

/-- Step 2 of a boundary that TIDE_RUN opens (R40): only its hold is recorded. -/
def State.closeNone (s : State) (g : Int) : State :=
  let n := s.nominalBeat
  if g ≤ n then s else s.heldEntry n g

end Sys2Proof.Machine
end

