-- ==== Sys2Proof/Machine/Advance.lean ====
section
/-!
DEFINITION. The step advance (R345, R349): scale records (R290, R294 to R297), update records, the leftovers of the Shelf (R327), bucket slots (R371), and
the tideline (R480, R481).
-/
namespace Sys2Proof.Machine

/-! ### Scale records -/

/-- R284, R297: at step 3 of every boundary the records in state JIT are rescaled, and the cores' copies are those of the table in effect. -/
def State.rescale (s : State) : State :=
  let n := s.regN R.scaleCount
  ((s.eachRec s.scaleBase n fun _ v => v.jitScale).countJit s.scaleBase n).refreshCopies

/-- R290, R294, R295: every record at the advance that finishes `step`. [DEDUCED, log entry 61] -/
def State.advanceScales (s : State) (step : Nat) (skipped : Bool) : State :=
  let n := s.regN R.scaleCount
  ((s.eachRec s.scaleBase n fun _ v => v.advance step skipped).countJit s.scaleBase n).refreshCopies

/-- R294: a skipped step counts, and its entry carries the step number. -/
def State.noteSkipped (s : State) : State :=
  ((s.count R.skippedSteps).orReg R.numStatus 1).log_ (srcOf 0x0B 0) 0x08 (leBytes 8 s.job.step.toNat)

/-! ### Update records (R345, R349) -/

/-- An update error that concerns record `u` and no descriptor. -/
def State.recError (s : State) (code u : Nat) : State := s.updError code u 1 (code + 16 * u + 65536 * 0xFF) 0xFFFF noHalf

/-- UPD_PIN at a quiescent advance, and UPD_COMMIT. [DEDUCED, log entry 61] -/
def State.checkRecs (s : State) (quiescent : Bool) : State :=
  let s' := if quiescent then (s.upd.recs.filter fun x => x.2.pins != 0).foldl (fun s x => s.recError 1 x.1) s else s
  (s.upd.recs.filter fun x => x.2.updating).foldl (fun s x => s.recError 3 x.1) s'

/-- The dynamic fields of every record are written to the table. -/
def State.writeBack (s : State) : State :=
  (List.range (s.regN R.updCount)).foldl (fun s u => s.writeDynamic (s.reg64 R.updBaseLo R.updBaseHi) u) s

/-- A record with COMMITTED clear. -/
def uncommitted (x : Nat × UpdRec) : Nat × UpdRec := (x.1, { x.2 with committed := false })

/-- Records as they are kept: one that is as at reset is not listed. -/
def keepRecs (rs : List (Nat × UpdRec)) : List (Nat × UpdRec) := rs.foldl (fun m x => Sparse.put {} m x.1 x.2) []

/-- Step 4 of R349: STEP_NUMBER increments, the data cursor moves on (R489), every COMMITTED bit clears, the hyperparameter sets are latched, and the
gate returns to OPEN; the random streams stand at micro-batch, layer and draw index 0 (R488). -/
def State.nextStep (s : State) : State :=
  let s := { s with job := { s.job with step := s.job.step + 1, sample := s.job.sample + s.job.perStep }
                    upd := { s.upd with recs := keepRecs (s.upd.recs.map uncommitted) }, cores := s.cores.map rewind }
  (s.latchHp (s.reg64 R.hpBaseLo R.hpBaseHi)).setField R.gate 0 2 0

/-! ### Leftovers (R327) -/

/-- A leftover frame, by Shelf and depth, is discarded and logged. -/
def State.dropFrame (s : State) (shelf depth : Nat) : State :=
  let r := s.frame shelf depth
  let s := s.log_ (srcOf 0x0A 0) 0x0E ([0] ++ leBytes 1 shelf ++ leBytes 2 depth ++ leBytes 2 (fTag r))
  ((s.count R.leftoverFrames).orReg R.shelfStatus 4).releaseFrame 0 shelf depth

/-- The advance at group beat `g` discards every frame created before the previous advance; a quiescent one, every frame. -/
def State.leftovers (s : State) (quiescent : Bool) (g : Int) : State :=
  let old := s.shelf.frames.filter fun e => fState e.2 != 0 && (quiescent || decide (fCreateBeat e.2 < s.shelf.advance))
  let s := old.foldl (fun s e => s.dropFrame (e.1 / 1024) (e.1 % 1024)) s
  { s with shelf := { s.shelf with advance := g } }

/-! ### The advance -/

/-- R349, step 1: a gate that is still OPEN. -/
def State.gateNone (s : State) : State :=
  if s.field R.gate 0 2 = 0 then (s.orReg R.updStatus 4).count R.gateNoneSteps else s

/-- The step advance at a boundary whose steps run at group beat `g` (R345, R349). [DEDUCED, log entry 61; DEDUCED, log entry 63] -/
def State.stepAdvance (s : State) (g : Int) : State :=
  let skipped := s.gateSkips
  let quiescent := s.tide.quiescent
  let s := s.gateNone.advanceScales s.job.step.toNat skipped
  let s := if skipped then s.noteSkipped else s
  let s := ((s.checkRecs quiescent).writeBack.nextStep.leftovers quiescent g)
  let s := s.resetBuckets s.step32
  let s := { s with nums := { s.nums with layers := [] } }
  -- R480, R484: the request that the interval made due
  if s.snap.due && s.job.exists_ && s.job.restart.isNone then { s with snap := { s.snap with due := false } }.snapRequest else s

/-! ### The tideline (R480, R481) -/

/-- The freeze that `due` names (freezeDue, as step 2 found it), of the advance that closed step `closed`, holds the boundary from its nominal beat
`n` on, and HOLD goes to the group (R55). A fault that restarts the job at this advance leaves no tideline, as does one that the freeze's reads meet and that is not repaired (R473). Otherwise the boundary, held until `g`, has
its entry (R52). A tideline that falls before the previous snapshot has committed is deferred. [DEDUCED, log entry 63] -/
def State.tideline (s : State) (due : Bool) (closed : Nat) (n g : Int) : State :=
  if due then
    let s := s.snap.entries.foldl (fun s e => s.meetRead e.base (e.lenMb * mib)) s
    if s.job.restart.isNone then
      let s := s.freeze closed
      let s := { s with tide := { s.tide with heldFrom := some n, causes := addCause s.tide.causes 7 } }
      if s.group.member then s.selfHold s.tide.next else s
    else if n < g then s.heldEntry n g
    else s
  else if s.tide.stepMark && s.tide.quiescent && s.tidelineDue closed && s.snap.staged.isSome && !s.snap.deferred then
    { (s.orReg R.snapStatus 4).count R.snapDeferred with snap := { s.snap with deferred := true } }
  else s

end Sys2Proof.Machine
end

