-- ==== Sys2Proof/Machine/Device.lean ====
section
/-!
DEFINITION. The DEV_* commands (R518 to R520, R555).
-/
namespace Sys2Proof.Machine

/-- The ordering code in ASCII (Table 18.1), padded with 0x00 to 16 bytes. -/
def Part.ordering (p : Part) : List Byte :=
  padBytes 16 ([0x4B, 0x5A, 0x37, 0x36, 0x34, 0x30, 0x2D, 0x41, 0x31, 0x2D, 0x32] ++ (if p.fast then [0x38, 0x30] else [0x35, 0x30])
    ++ (if p.high12 then [0x2D, 0x34, 0x38] else []))

/-- Stepping A1 as a number (R555). -/
def stepping : Nat := 0x00A1

/-- The power state as DEV_STATUS reports it (R516, R517): 0 Active, 1 Idle (every array-clock region gated), 2 Sleep. -/
def State.powerState (s : State) : Nat :=
  if s.asleep then 2 else if (List.range 20).all fun r => s.regionMode r ≠ 0 then 1 else 0

def cmdDevIdentify : Cmd where
  op := 0x0101
  len := lenIs 0
  inSleep := true
  act s _ := (s, some (.ok (s.part.ordering ++ leBytes 2 stepping ++ padBytes 16 s.part.serial ++ leBytes 4 (s.regN R.fwVersion)
    ++ leBytes 4 s.part.romVersion.toNat ++ leBytes 2 s.part.secVersionMin.toNat)))

/-- DEV_STATUS byte 4 (Table 15.10). [DEDUCED, log entry 24] -/
def State.statusBits (s : State) : Nat :=
  b2n s.degraded + 2 * b2n (!s.overrides.isEmpty) + 4 * b2n s.job.lost + 8 * b2n s.bootFailed
    + 16 * b2n (bit (s.reg R.snapStatus) 6) + 32 * b2n (decide (s.profView.capW < 2) || decide (s.profView.capE < 2))

def cmdDevStatus : Cmd where
  op := 0x0102
  len := lenIs 0
  inSleep := true
  act s _ := (s, some (.ok (leBytes 1 s.powerState ++ leBytes 2 (s.regN R.profState) ++ leBytes 1 s.bootStage ++ leBytes 1 s.statusBits
    ++ leBytes 4 s.enm.evtLost.toNat)))

def cmdDevCaps : Cmd where
  op := 0x0103
  len := lenIs 0
  inSleep := true
  act s _ := (s, some (.ok (leBytes 4 (s.regN R.hbmCapacity) ++ leBytes 4 (s.regN R.ddrCapacity) ++ leBytes 1 (if s.part.high12 then 12 else 16)
    ++ leBytes 2 (s.regN (R.ddrState 0)) ++ leBytes 1 64 ++ leBytes 2 256)))

def cmdDevResetCause : Cmd where
  op := 0x0104
  len := lenIs 0
  inSleep := true
  inTrip := true
  act s _ := (s, some (.ok (leBytes 4 (s.regN R.resetCause))))

/-- Spares fitted, by row of Table 13.1; 0xFFFF for the whole-link, SRAM-bit and DDR5-device classes (R555). -/
def sparesFitted : List Nat := [128, 0xFFFF, 272, 16, 2, 8, 0xFFFF, 0xFFFF, 1, 16]

def cmdDevSpares : Cmd where
  op := 0x0105
  len := lenIs 0
  inSleep := true
  act s _ := (s, some (.ok ((sparesFitted.zip s.kept.spares).flatMap fun (f, u) =>
    leBytes 2 f ++ leBytes 2 (min u 0xFFFF) ++ leBytes 1 (b2n (f ≠ 0xFFFF && decide (f ≤ u))) ++ [0])))

/-- A spare copy is running (R450, R464). -/
def State.copyRunning (s : State) : Bool :=
  ((List.range 8).any fun k => bit (s.reg (R.hbmState k)) 7) || !s.memc.sliceCopy.isEmpty

/-- The boundary a command names, or the next boundary while the sequencer is stopped (R41). -/
def State.namedBoundary (s : State) (b : Nat) : Nat := if s.tide.running then b else s.nextStep3

/-- R65, R41: the boundary at which the device is to sleep once a DEV_SLEEP names `b`: it replaces one that names the same boundary, and of two
that name different boundaries the earlier acts. -/
def State.sleepNamed (s : State) (b : Nat) (retain : Bool) : Option (Option Nat × Bool) :=
  if !s.tide.running then some (none, retain)
  else match s.pwr.sleepAt with
    | some (some b0, r0) => if b0 < b then some (some b0, r0) else some (some b, retain)
    | _ => some (some b, retain)

/-- [DEDUCED, log entry 23; DESIGN CHOICE, log entry 121] -/
def cmdDevSleep : Cmd where
  op := 0x0106
  len := lenIs 9
  inSleep := true
  param _ r := r.at 0 1 / 2 == 0
  state s r := !s.asleep && !s.group.member && !s.copyRunning && !(s.images.any fun i => i.reaches (s.namedBoundary (r.at 1 8)))
  act s r :=
    if s.late (r.at 1 8) then (s, some (.refused 0x21 noEngine (r.at 1 8)))
    else ({ s with pwr := { s.pwr with sleepAt := s.sleepNamed (r.at 1 8) (r.at 0 1 % 2 == 1) } }, some .ok)

/-- [DEDUCED, log entry 23] -/
def cmdDevWake : Cmd where
  op := 0x0107
  len := lenIs 0
  inSleep := true
  state s _ := s.asleep && s.pwr.waking.isNone
  act s r :=
    -- R519: every region that Sleep powered off is powered, and waits for its clock
    let s := (List.range 38).foldl (fun s i => if s.regionMode i = 2 then s.setField (R.regionState i) 0 2 3 else s) s
    ({ s with pwr := { s.pwr with waking := some (r.mb, r.tag) } }, none)

def cmdDevEcho : Cmd where
  op := 0x0108
  len p := decide (p.length ≤ 240)
  inSleep := true
  act s r := (s, some (.ok r.pay))

/-- A field of ARRAY_CTRL of each core of a mask takes a value, shadowed (R30). -/
def State.queueArrayCtrl (s : State) (mask lo len v : Nat) : State :=
  (setBitsOf 256 mask).foldl (fun s n => s.queueField (R.arrayCtrl n) lo len v) s

/-- R112, R173: the override `name` of each core of a mask begins (`on`) or ends. -/
def State.overrideMask (s : State) (mask : Nat) (name : Nat → Nat) (on : Bool) : State :=
  (setBitsOf 256 mask).foldl (fun s n => if on then s.override (name (R.arrayCtrl n)) else s.basic (name (R.arrayCtrl n))) s

def cmdDevArrayCheck : Cmd where
  op := 0x0109
  len := lenIs 33
  inSleep := true
  param _ r := r.at 0 1 / 2 == 0
  act s r := ((s.queueArrayCtrl (r.at 1 32) 0 1 (r.at 0 1)).overrideMask (r.at 1 32) checkEnName false, some .ok)

/-- DEV_IDENTIFY (R555). -/
def execDevIdentify (r : Req) (s : State) : Outcome := cmdDevIdentify.serve r s
/-- DEV_STATUS (R555). -/
def execDevStatus (r : Req) (s : State) : Outcome := cmdDevStatus.serve r s
/-- DEV_CAPS (R555). -/
def execDevCaps (r : Req) (s : State) : Outcome := cmdDevCaps.serve r s
/-- DEV_RESET_CAUSE (R552, R555): answered even after a thermal trip (R513). -/
def execDevResetCause (r : Req) (s : State) : Outcome := cmdDevResetCause.serve r s
/-- DEV_SPARES (R463, R555). -/
def execDevSpares (r : Req) (s : State) : Outcome := cmdDevSpares.serve r s
/-- DEV_SLEEP (R65, R518). -/
def execDevSleep (r : Req) (s : State) : Outcome := cmdDevSleep.serve r s
/-- DEV_WAKE (R519): the response is due when the device has left Sleep. -/
def execDevWake (r : Req) (s : State) : Outcome := cmdDevWake.serve r s
/-- DEV_ECHO (R555). -/
def execDevEcho (r : Req) (s : State) : Outcome := cmdDevEcho.serve r s
/-- DEV_ARRAY_CHECK (R173, R555). -/
def execDevArrayCheck (r : Req) (s : State) : Outcome := cmdDevArrayCheck.serve r s

end Sys2Proof.Machine
end

