-- ==== Sys2Proof/Machine/Prof.lean ====
section
/-!
DEFINITION. The PROF_* commands (R65, R66, R508, R520).
-/
namespace Sys2Proof.Machine

def cmdProfSet : Cmd where
  op := 0x0301
  len := lenIs 9
  param _ r := r.at 0 1 < 3
  act s r :=
    match s.judgeProf (r.at 0 1) (r.at 1 8) with
    | some (code, e, t) => (s, some (.refused code e t))
    | none => ((((s.acceptProf (r.at 0 1) (r.at 1 8)).basic R.profTarget).basic R.profBoundaryLo).basic R.profBoundaryHi, some .ok)

/-- The earliest boundary of a list; a change that waits for a stopped apply has none to show. -/
def earliest (bs : List Nat) : Option Nat := bs.foldl (fun m b => some (min b (m.getD b))) none

/-- A change forced by throttling, not a rise (R506, Table 14.6). -/
def ProfForced.lowers (f : ProfForced) : Bool := decide (f.dW < 0) || decide (f.dE < 0) || f.split

/-- PROF_GET's response (Table 14.6). [DEDUCED, log entry 26] -/
def State.profReport (s : State) : List Byte :=
  let v := s.profView
  let cb := if s.tide.running then earliest (s.pwr.cmds.filterMap (·.boundary)) else none
  let forced := s.pwr.forced.filter (·.lowers)
  let fb := earliest (forced.filterMap (·.boundary))
  let first : Option ProfCmd := match earliest (s.pwr.cmds.filterMap (·.boundary)) with
    | some b => s.pwr.cmds.find? (·.boundary == some b)
    | none => s.pwr.cmds.head?
  [v.effW, v.effE, v.cmd, s.field R.profState 6 2, s.field R.profState 8 2,
    b2n v.split + 2 * b2n (!s.pwr.cmds.isEmpty) + 4 * b2n (!forced.isEmpty)].flatMap (leBytes 1)
    ++ leBytes 8 (cb.getD noTide) ++ leBytes 1 ((first.map (·.profile)).getD v.cmd) ++ leBytes 8 (fb.getD noTide)

/-- [DEDUCED, log entry 27] -/
def cmdProfGet : Cmd where
  op := 0x0302
  len := lenIs 0
  inSleep := true
  act s _ := (s, some (.ok s.profReport))

def cmdProfLimits : Cmd where
  op := 0x0303
  len := lenIs 0
  act s _ := (s, some (.ok ([s.field R.thermCtrl 0 8, s.field R.thermCtrl 8 8, 110, s.field R.tjWest 0 8, s.field R.tjEast 0 8].flatMap (leBytes 1)
    ++ leBytes 2 (s.regN R.pkgPower) ++ leBytes 2 (profLimit s.part.fast s.profView.higher) ++ leBytes 1 (s.field R.thermCtrl 16 2))))

/-- RAMP_LEN 0b11 is reserved (Table 4.4). -/
def cmdProfRamp : Cmd where
  op := 0x0304
  len := lenIs 33
  expert := true
  param _ r := decide (r.at 0 1 < 3)
  act s r := ((s.queueArrayCtrl (r.at 1 32) 1 2 (r.at 0 1)).overrideMask (r.at 1 32) rampLenName true, some .ok)

def ProfHist.bytes (h : ProfHist) : List Byte := leBytes 8 h.tide.toNat ++ leBytes 1 h.old ++ leBytes 1 h.new ++ leBytes 1 h.cause ++ [0, 0, 0]

def cmdProfHistory : Cmd where
  op := 0x0305
  len := lenIs 0
  act s _ := (s, some (.ok (padBytes 224 (s.pwr.history.flatMap ProfHist.bytes))))

/-- PROF_SET (R65, R66, R520). -/
def execProfSet (r : Req) (s : State) : Outcome := cmdProfSet.serve r s
/-- PROF_GET (R508, R520). -/
def execProfGet (r : Req) (s : State) : Outcome := cmdProfGet.serve r s
/-- PROF_LIMITS (R520). -/
def execProfLimits (r : Req) (s : State) : Outcome := cmdProfLimits.serve r s
/-- PROF_RAMP (R520). -/
def execProfRamp (r : Req) (s : State) : Outcome := cmdProfRamp.serve r s
/-- PROF_HISTORY (R512, R520). -/
def execProfHistory (r : Req) (s : State) : Outcome := cmdProfHistory.serve r s

end Sys2Proof.Machine
end

