-- ==== Sys2Proof/Machine/Change.lean ====
section
/-!
DEFINITION. Step 3 of a boundary (R31): pending writes (R30, R70, R77, R335, R369, R401), images judged again (R50), profile changes (R504 to R515), set
configurations (R179), leaving a group (R84), and the entry to Sleep (R518).
-/
namespace Sys2Proof.Machine

/-! ### Pending writes -/

/-- Registers that only change while every Shelf frame is EMPTY (R335): SHELF_CTRL, SHELF_TOP_BASE and the base registers. -/
def shelfConfig (k : Nat) : Bool :=
  [R.shelfCtrl, R.shelfTopBase, R.shelfBodyBaseLo, R.shelfBodyBaseHi, R.shelfSpillBaseLo, R.shelfSpillBaseHi, R.layerBaseLo, R.layerBaseHi].contains k

/-- Registers that only change while no record is pinned or being updated (R369). -/
def updConfig (k : Nat) : Bool := [R.updBaseLo, R.updBaseHi, R.updCount, R.hpBaseLo, R.hpBaseHi].contains k

/-- Registers of the ring entries (R401). -/
def ringConfig (k : Nat) : Bool := decide (R.ringCfg 0 ≤ k ∧ k < R.ringCfg 16)

/-- R77: a TIDE_PERIOD that an admitted image with a tide at or after boundary `b` does not declare. -/
def State.periodConflict (s : State) (b : Nat) (v : Word) : Bool :=
  s.images.any fun i => i.active && decide (b < i.k0 + i.span) && i.period != v.toNat

/-- The status register and flag of a pending write that boundary `b` discards. [DEDUCED, log entry 48; DEDUCED, log entry 57] -/
def State.conflict (s : State) (b k : Nat) (v : Word) : Option (Nat × Nat) :=
  if shelfConfig k && s.shelf.frames.any fun e => fState e.2 != 0 then some (R.shelfStatus, 0x10)
  else if updConfig k && s.upd.recs.any fun x => x.2.pins != 0 || x.2.updating then some (R.updStatus, 0x10)
  else if ringConfig k && (List.range 64).any fun x => s.bucketState x != Bk.idle then some (R.bktStatus, 8)
  else if k = R.tidePeriod ∧ s.periodConflict b v then some (R.tideStatus, 0x20)
  else none

/-- The core whose register a key names, for the shadowed registers that cores have. -/
def coreOfReg (k : Nat) : Option Nat := (List.range 256).find? fun n => k == R.arrayCtrl n || k == R.streamCtrl n

/-- R70: a write to a core's register waits for the end of the span that boundary `b` finds the core in. -/
def State.defers (s : State) (b k : Nat) : Bool := s.tide.running && (coreOfReg k).any fun c => s.inSpan c b

/-- One pending write at boundary `b`. -/
def State.applyShadow (b : Nat) (s : State) (x : Shadow) : State :=
  match x with
  | .route d v => (s.setRoute d v).storedAt d (.route d)
  | .reg k v =>
    if s.defers b k then { s with shadow := s.shadow ++ [x] }
    else match s.conflict b k v with
      | some (status, flag) => s.orReg status flag
      | none => s.setReg k v

/-- Every pending write, in order of acceptance (R30, R41). [DEDUCED, log entry 57] -/
def State.applyShadows (s : State) (b : Nat) : State := s.shadow.foldl (State.applyShadow b) { s with shadow := [] }

/-! ### Images judged again (R50) -/

/-- The image with handle `h`: what its admission counted and is pending no more has the value counted, or the image is judged again. -/
def State.recheckImage (b : Nat) (s : State) (h : Nat) : State :=
  let i := s.image h
  let gone := i.counted.filter fun x => (s.pendingReg x.1).isNone
  if !i.active || gone.isEmpty then s
  else
    let i' := { i with counted := i.counted.filter fun x => (s.pendingReg x.1).isSome }
    let s := s.setImage h i'
    if gone.all (fun x => s.reg x.1 == x.2) || s.stillFits h i' b then s else s.withdraw h b

/-- [DEDUCED, log entry 50] -/
def State.recheck (s : State) (b : Nat) : State := (List.range 16).foldl (State.recheckImage b) s

/-! ### Profiles -/

/-- PROF_STATE follows the profile values. -/
def State.setProf (s : State) (v : ProfView) : State :=
  (((((s.setField R.profState 0 2 v.effW).setField R.profState 2 2 v.effE).setField R.profState 6 2 v.capW).setField R.profState 8 2 v.capE).setField
    R.profState 10 2 v.cmd).setField R.profState 12 1 (b2n v.split)

/-- R512: a change: its PROF_CHANGE entry, its event, and its place in the history; `t` is the tide count. -/
def State.profChange (s : State) (t cause old new : Nat) : State :=
  let s := s.log_ (srcOf 0x01 0) 0x20 (leBytes 1 cause ++ leBytes 1 old ++ leBytes 1 new)
  { s with pwr := { s.pwr with history := (({ tide := BitVec.ofNat 64 t, old, new, cause } : ProfHist) :: s.pwr.history).take 16 } }

/-- The entry and the event of Strait-split mode entered or left (R514, R515). -/
def State.splitEvent (s : State) (entered : Bool) : State :=
  s.logFull (srcOf 0x01 0) 0x21 noHalf noHalf (leBytes 1 (b2n entered)) (leBytes 1 (b2n entered))

/-- R67: an image that crosses the Strait and has an entry that opens at or after boundary `b` is withdrawn. -/
def State.splitWithdraw (b : Nat) (s : State) (h : Nat) : State :=
  let i := s.image h
  if i.active && i.crossStrait && i.costs.any fun c => i.runs c && decide (b ≤ i.k0 + c.tide) then s.withdraw h b else s

/-- R205: a whole-die set runs in a span that goes on past boundary `b`. -/
def State.wholeDie (s : State) (b : Nat) : Bool :=
  s.lists.any fun l => decide (b < l.close) && l.descs.any fun d => dOpcode d == Op.rld && rSetSize d == 4

/-- Strait-split mode is entered at boundary `b` (R67, R205, R514). [DEDUCED, log entry 58] -/
def State.splitEntry (s : State) (b : Nat) : State :=
  let s := ((s.setReg R.fabricMode 1).orReg R.clkStatus 2).splitEvent true
  let s := if s.wholeDie b then s.orReg R.reelStatus 4 else s
  (List.range 16).foldl (State.splitWithdraw b) s.dropStrait

/-- Strait-split mode ends (R515): the crossings of the Strait are mesochronous again, and are centred with the change. -/
def State.splitExit (s : State) : State := (s.setReg R.fabricMode 0).splitEvent false

/-- 1 ms in beats. [DEDUCED, log entry 16] -/
def msBeats : Nat := 2500000

/-- A half whose ceiling a forced change lowers is not free for 1 ms (R509). -/
def State.busyHalf (s : State) (h : Nat) (lowered : Bool) : State :=
  if lowered then { s with pwr := { s.pwr with busy := s.pwr.busy.set h (some (s.beat.toNat + msBeats)) } } else s

/-- A forced change or a rise takes effect (R509, R511, R512). [DEDUCED, log entry 58] -/
def State.forceOne (t : Nat) (s : State) (f : ProfForced) : State :=
  let v := s.profView
  let v' := v.force f
  let s := (s.setProf v').profChange t f.cause v.pack v'.pack
  let s := s.count R.throttles (b2n (decide (f.dW < 0)) + b2n (decide (f.dE < 0)))
  (s.busyHalf 0 (decide (f.dW < 0))).busyHalf 1 (decide (f.dE < 0))

/-- A commanded change takes effect; it writes an entry only when an effective profile alters (R512). -/
def State.commandOne (s : State) (t p : Nat) : State :=
  let v := s.profView
  let v' := { v with cmd := p }
  let s := s.setProf v'
  if v.pack = v'.pack then s else s.profChange t 0 v.pack v'.pack

/-- The forced changes of one boundary, in order of decision, the rises last (R512). [DEDUCED, log entry 58] -/
def risesLast (fs : List ProfForced) : List ProfForced := fs.filter (·.lowers) ++ fs.filter fun f => !f.lowers

/-- The changes that key `k` names, at boundary `b`: the forced ones in order of decision, then the commanded one. Strait-split mode is entered if they
leave the halves at unlike profiles, or ends (R508, R514, R515). -/
def State.profKey (b t : Nat) (s : State) (k : Nat) : State :=
  let cmd := s.cmdFor k
  let fs := risesLast (s.forcedFor k)
  let was := s.profView.split
  let v := s.profView.advance cmd fs
  let s := if v.split && !was then s.splitEntry b else s
  let s := fs.foldl (State.forceOne t) s
  let s := match cmd with
    | some p => s.commandOne t p
    | none => s
  let s := s.setProf v
  if was && !v.split then s.splitExit else s

/-- Tenths of the array clock of a half (R46). -/
def State.halfM (s : State) (h : Nat) : Nat := profM s.part.fast (s.profView.eff h)

/-- Every change due at boundary `b` (R506 to R515). A change of frequency, or of Strait-split mode, makes step 4 wait 512 beats, and centres the
queues of the regions concerned (R507), every mesochronous one where Strait-split mode begins or ends (R498). R53: tide `b` runs under a forced change while a ceiling holds a half below the commanded profile, and in Strait-split
mode. [DEDUCED, log entry 58] -/
def State.applyProfiles (s : State) (b t : Nat) : State :=
  let keys := s.changeKeys.filter fun k => decide (k ≤ b)
  let later := fun (x : Option Nat) => decide (b < s.changeAt x)
  let forced := s.pwr.forced.any fun f => f.lowers && !later f.boundary
  let cmds := s.pwr.cmds.filter fun c => later c.boundary
  let fs := s.pwr.forced.filter fun f => later f.boundary
  let s' := keys.foldl (State.profKey b t) s
  let s' := { s' with pwr := { s'.pwr with cmds, forced := fs } }
  let moved := fun (h : Nat) => s'.halfM h != s.halfM h
  let turned := s'.profView.split != s.profView.split
  let step := moved 0 || moved 1 || turned
  let s' := if step then s'.centrePairs fun a b => moved (halfOfRegion a) || moved (halfOfRegion b) || turned else s'
  let v : ProfView := s'.profView
  let lowered : Bool := forced || v.split || decide (v.effW < v.cmd) || decide (v.effE < v.cmd)
  let s' := { s' with pwr := { s'.pwr with settling := s'.pwr.settling || step, stepped := [0, 1].foldl (fun l h => if moved h then (h, s'.groupBeat) :: l.filter (·.1 != h) else l) s'.pwr.stepped }
                      tide := { s'.tide with clockTide := if lowered || step then some b else s'.tide.clockTide } }
  s'.syncProf.holdThrottled

/-- R601: after a fall the set point is that of the higher effective profile, or of one that an accepted change names for later. -/
def State.settlePoint (s : State) : State :=
  let top := s.changeKeys.foldl (fun m k => max m (s.profAt k).higher) s.profView.higher
  { s with pwr := { s.pwr with setPoint := min s.pwr.setPoint top } }

/-! ### Set configuration (R179) -/

/-- SET_CFG of bay `b` in a tide with the RLDs `ds`. -/
def bayCfgOf (ds : List Desc) (b : Nat) : Nat :=
  match ds.find? fun d => decide (rSetBase d ≤ b ∧ b < rSetBase d + 2 ^ rSetSize d) with
  | some d => rSetSize d + 8 * b2n (rQuad d)
  | none => 15

/-- The cut switches are set for tide `k` from the RLDs of every entry that covers it. [DEDUCED, log entry 64] -/
def State.setConfig (s : State) (k : Nat) : State :=
  let ds := (s.admittedLists.filter (·.covers k)).flatMap fun l => l.ds.filter fun d => dOpcode d == Op.rld
  let half := fun (b0 : Nat) => (List.range 8).foldl (fun n i => n + bayCfgOf ds (b0 + i) * 16 ^ i) 0
  (s.setReg R.setCfgLo (word (half 0))).setReg R.setCfgHi (word (half 8))

/-! ### Leaving a group, restarts, and Sleep -/

/-- A boundary that a command named has come; one that waits for a stopped apply has none (R41). -/
def State.dueAt (s : State) (b : Nat) (named : Option Nat) : Bool := !s.tide.running || named.all fun k => decide (k ≤ b)

/-- R84: the member leaves its group, keeps GROUP_OFFSET, and sets HOLD_WINDOW to 0, which ends an override of it (R76). -/
def State.leaveGroup (s : State) (b : Nat) : State :=
  match s.group.leaveAt with
  | some x =>
    if s.dueAt b x then
      let s := (s.setReg R.holdWindow 0).basic R.holdWindow
      { s with group := { s.group with member := false, leaveAt := none, lossRaised := false }
               tide := { s.tide with holders := [], selfHolds := [], selfReleases := [] } }
    else s
  | none => s

/-- R60: the restart that a loss of alignment brings at the next boundary. -/
def State.stopLost (s : State) : State :=
  if s.tide.stopNext then { s with tide := { s.tide with stopNext := false } }.restart 0x08 else s

/-- What Sleep leaves of a link: its lane mapping, and the firmware's count (R419, R432, R463). -/
def LinkSt.kept (x : LinkSt) : LinkSt := { rxMap := x.rxMap, rxSpare := x.rxSpare, rxBad := x.rxBad, badPackets := x.badPackets }

/-- R518, steps 2 and 4: the array-clock regions are powered off, with what Table 14.5 says is lost, and every link is DISABLED. -/
def State.powerDown (s : State) (retain : Bool) : State :=
  let s := (List.range 20).foldl (fun s r => s.setRegionMode r 2) s
  let s := (List.range 16).foldl State.loseBay s
  let s := if retain then s else { s with mem := Sparse.dropKeys (fun a => decide (sliceBase ≤ a ∧ a < localBase)) s.mem }
  let s := (List.range 64).foldl (fun s l => (s.setLink l (s.linkSt l).kept).setLstate l 0) s
  { s with nums := { s.nums with copies := [] } }

/-- R518: at step 3 of the boundary that DEV_SLEEP named, the sequencer stops and entry to Sleep begins. [DEDUCED, log entry 65] -/
def State.enterSleep (s : State) (b : Nat) : State :=
  match s.pwr.sleepAt with
  | some (x, retain) =>
    if s.dueAt b x then
      let s := s.powerDown retain
      { s with pwr := { s.pwr with sleepAt := none, entering := true, retain }, tide := { s.tide with stopping := s.tide.past3 } }
    else s
  | none => s

/-! ### Step 3 -/

/-- What step 3 of a boundary and a stopped apply share (R31, R41), at boundary `b`; `t` is the tide count for the history. [DEDUCED, log entry 57] -/
def State.applyChanges (s : State) (b t : Nat) : State :=
  let s := ((s.applyShadows b).recheck b).applyProfiles b t
  let s := ((s.applyOrders b).applyRows).rowsDue b
  let s := s.leaveGroup b
  let s := ((List.range 64).foldl (fun s l => (s.reroute l).pump l) s).retryPaths
  s.rescale

/-- Step 3 of a boundary whose steps run at group beat `g`; `due`: a freeze follows. `n` is its nominal beat. [DEDUCED, log entry 55; DEDUCED, log entry 57] -/
def State.step3 (s : State) (due : Bool) (n g : Int) : State :=
  let b := s.tide.next
  let closed := s.job.step.toNat
  let s := s.applyChanges b b
  let s := { s with tide := { s.tide with past3 := true, openBeat := g, stopping := s.tide.stops.contains b }, evts := [] }
  let s := (s.setConfig b).gateBays b
  let s := if s.tide.stepMark then s.stepAdvance g else s
  let s := (s.startPcCopies (if due && s.job.restart.isNone then some closed else none)).startSliceCopies.returnChunks
  let s := if s.snap.restoreAt.any fun k => decide (k ≤ b) then s.restoreApply else s
  ((s.stopLost.enterSleep b).tideline due closed n g)

end Sys2Proof.Machine
end

