-- ==== Sys2Proof/Machine/Boundary.lean ====
section
/-!
DEFINITION. Step 4 of a boundary (R31, R39, R42), the whole boundary, and its rows: TIDE_BOUNDARY (R31, R40, R42), FREQ_SETTLE_END (R507),
STOPPED_APPLY (R41), SLEEP_ENTRY_DONE (R518) and SNAP_FREEZE_DONE (R481).
-/
namespace Sys2Proof.Machine

/-! ### What step 4 releases -/

/-- The lists of an image's entry as they are released: the device reads them again (R81). -/
def State.listsOfEntry (s : State) (h : Nat) (i : Image) (c : Cost) : List DList :=
  (s.listsOf i.addr i.k0 c).map fun l =>
    { handle := h, core := l.core, num := l.num, tide := l.tide, close := l.tide + l.span, mb := c.mb, descs := l.ds }

/-- The lists that open with tide `k`. -/
def State.openingLists (s : State) (k : Nat) : List DList :=
  (List.range 16).flatMap fun h => let i := s.image h; (i.costs.filter fun c => i.runs c && i.k0 + c.tide == k).flatMap (s.listsOfEntry h i)

/-- An image at step 4 of boundary `k`, which opens tide `k` unless the sequencer stops (Table 2.12, R67, R81): its
last tide has closed when this step is taken. [DESIGN CHOICE, log entry 121] -/
def Image.atOpening (k : Nat) (opens : Bool) (i : Image) : Image :=
  if !i.active then i
  else if i.k0 + i.span ≤ k || (i.withdrawn.isSome && !i.reaches k) then { i with st := .finished }
  else if opens && decide (i.k0 ≤ k) then { i with st := .running }
  else i

/-- A core's engines as tide `k` opens: the scale copies that a multi-tide span keeps (R284), and the channel counter (R356). -/
def ArrCore.atOpening (copies : List (Nat × Word)) (spans : Bool) (a : ArrCore) : ArrCore :=
  { a with passes := [], chCount := [], chMax := [], scales := if spans then some copies else none }

/-- The cores' engines, streams and Reel ports of which no list goes on begin anew with the lists `new`, their queues empty; `kept` are the cores in a span. [DEDUCED, log entry 66] -/
def State.startCores (s : State) (kept : List Nat) (new : List DList) (k : Nat) : State :=
  let opens := sortDedup (new.map (·.core))
  let spans := fun (c : Nat) => new.any fun l => l.core == c && decide (k + 1 < l.close)
  let cores := (sortDedup (s.cores.map (·.1) ++ opens)).foldl (fun m c =>
    Sparse.put {} m c (if kept.contains c then { s.arr c with chCount := [] } else (s.arr c).atOpening s.nums.copies (spans c))) []
  { s with
    cores
    regs := Sparse.dropKeys (fun k => (List.range 256).any fun c => !kept.contains c && (k == R.queueOwnLo c || k == R.queueOwnHi c)) s.regs
    shelf := { s.shelf with runs := s.shelf.runs.filter fun x => kept.contains x.own.core }
    str := { s.str with sds := s.str.sds.filter fun x => kept.contains x.own.core
                        heads := s.str.heads.filter fun x => kept.contains x.own.core
                        ports := Sparse.dropKeys (fun p => !kept.contains (p / 2)) s.str.ports } }

/-- What the tide leaves behind as boundary `k` opens: its holds, reports and marks. -/
def Tide.clear (t : Tide) (k : Nat) : Tide :=
  { t with
    runAt := none, stops := t.stops.filter fun b => decide (k < b)
    hostHolds := t.hostHolds.filter fun b => decide (k < b)
    hostReleased := t.hostReleased.filter fun x => decide (k < x.1)
    selfHolds := t.selfHolds.filter fun b => decide (k < b)
    selfReleases := t.selfReleases.filter fun x => decide (k < x.1)
    holders := t.holders.filter fun h => decide (k < h.boundary)
    fallen := false, causes := 0, reports := t.reports.filter fun r => decide (k < r.close), hangFrom := none, hangCount := 0
    past3 := false, settleAt := none, freezing := false, heldFrom := none, stopping := false
    replayed := false, marks := [], marksLost := false, residBf16 := false, stepMark := false, quiescent := false }

/-- R292: an image that stores the residual stream in BF16 runs in tide `k`. -/
def State.residRuns (s : State) (k : Nat) : Bool := (s.workOf k).any fun x => x.1.resid

/-- Step 4 that opens tide `k` (R39): TIDE_COUNT takes k, and the lists are released. [DEDUCED, log entry 55] -/
def State.openTide (s : State) (k : Nat) : State :=
  let kept := s.lists.filter fun l => decide (k < l.close)
  let new := s.openingLists k
  let s := s.startCores (sortDedup (kept.map (·.core))) new k
  let s := { s with
    lists := kept ++ new, images := s.images.map (Image.atOpening k true)
    bkt := { s.bkt with released := [] }
    tide := { s.tide.clear k with running := true, count := BitVec.ofNat 64 k, next := k + 1 } }
  let s := if s.residRuns k then { s.orReg R.numStatus 16 with tide := { s.tide with residBf16 := true } } else s
  s.keepOpening.barriersGo.ownDone

/-- Step 4 at which the sequencer stops (R42): no list is released, and TIDE_COUNT stays. [DEDUCED, log entry 65] -/
def State.stopTide (s : State) (k : Nat) : State :=
  let s := s.startCores [] [] k
  { s with
    lists := [], images := s.images.map (Image.atOpening k false)
    bkt := { s.bkt with released := [] }
    tide := { s.tide.clear k with running := false, next := k } }

/-- A boundary whose step 4 waited opens at the beat at which the last release came (R52, R63, R481); one that was not held before it waited has its entry
now. [DEDUCED, log entry 54] -/
def State.endWait (s : State) : State :=
  match s.tide.heldFrom with
  | some n => let g := s.openingBeat n; { (if n < g then s.heldEntry n g else s) with tide := { s.tide with openBeat := g } }
  | none => { s with tide := { s.tide with openBeat := s.openingBeat s.tide.openBeat } }

/-- Step 4 (R31); R601: the set point falls. -/
def State.step4 (s : State) : State :=
  let k := s.tide.next
  let s := s.endWait
  (if s.tide.stopping then s.stopTide k else s.openTide k).settlePoint

/-- Step 4 waits for nothing more: the 512 beats of R507, the freeze (R481), and, of the holders of a boundary that a freeze holds, the last release. -/
def State.mayOpen (s : State) : Bool := s.tide.past3 && !s.tide.freezing && s.tide.settleAt.isNone && s.unheld

/-- [DEDUCED, log entry 66] -/
def State.tryOpen (s : State) : State := if s.mayOpen then s.step4 else s

/-! ### The whole boundary -/

/-- Steps 2 and 3, and step 4 unless it waits (R31, R40). -/
def State.runBoundary (s : State) : State :=
  let n := s.nominalBeat
  let g := s.openingBeat n
  let due := s.tide.running && s.freezeDue
  let s := (if s.tide.running then s.closeTide g else s.closeNone g).step3 due n g
  let held := if s.pwr.settling ∧ s.tide.heldFrom.isNone ∧ g ≤ n then some n else s.tide.heldFrom
  { s with tide := { s.tide with settleAt := if s.pwr.settling then some (g + 512) else none, heldFrom := held } }.tryOpen

/-- TIDE_BOUNDARY (R31, R40, R42): once its last condition is met, the boundary that is next runs its steps; a step 4 that waited for the release of
every holder runs. -/
def execTideBoundary (s : State) : Outcome :=
  .next (if s.tide.past3 then s.tryOpen else if s.tide.fallen && s.tide.settleAt.isNone && s.unheld then s.runBoundary else s)

/-- FREQ_SETTLE_END (R507): the 512 beats of a frequency step are over; after a stopped apply the profile change is complete (R41). -/
def execFreqSettleEnd (s : State) : Outcome :=
  .next (match s.tide.settleAt with
    | some g =>
      if g ≤ s.groupBeat then
        let s := { s with tide := { s.tide with settleAt := none }, pwr := { s.pwr with settling := false } }
        if s.tide.past3 then s.tryOpen else s.settlePoint
      else s
    | none => s)

/-- A change waits for step 3 (R41). -/
def State.changesWait (s : State) : Bool :=
  !s.shadow.isEmpty || !s.pwr.cmds.isEmpty || !s.pwr.forced.isEmpty || !s.bay.scheduled.isEmpty || s.group.leaveAt.isSome || s.pwr.sleepAt.isSome

/-- A change of frequency at a stopped apply settles for 512 beats; one of none is settled (R41, R507). `last`: the tide that the clock's cause stood for. -/
def State.stoppedSettle (s : State) (last : Option Nat) : State :=
  let s := { s with tide := { s.tide with clockTide := last } }
  if s.pwr.settling then { s with tide := { s.tide with settleAt := some (s.groupBeat + 512) } } else s.settlePoint

/-- A stopped apply (R41): step 3 on its own, without a change of TIDE_COUNT. A change of frequency completes after the 512 beats of R507. [DEDUCED, log entry 59] -/
def State.stoppedApply (s : State) : State :=
  ((s.applyChanges s.tide.next s.tide.count.toNat).enterSleep s.tide.next).stoppedSettle s.tide.clockTide

/-- STOPPED_APPLY (R41). -/
def execStoppedApply (s : State) : Outcome :=
  .next (if s.beatOn && !s.tide.running && !s.tide.past3 && s.tide.settleAt.isNone && s.changesWait then s.stoppedApply else s)

/-- SLEEP_ENTRY_DONE (R518): the link blocks and the memory controller logic are off, and the device is asleep. -/
def execSleepEntryDone (s : State) : Outcome :=
  .next (if s.pwr.entering then
      let s := (List.range 18).foldl (fun s r => s.setRegionMode (20 + r) 2) s
      { s with pwr := { s.pwr with entering := false, sleep := true } }
    else s)

/-- R63, R481: the freeze's part in the hold ends now, and a member of a group sends RELEASE. -/
def State.releaseFreeze (s : State) : State :=
  let k := s.tide.next
  let s := { s with tide := { s.tide with freezing := false, hostReleased := s.tide.hostReleased ++ [(k, s.groupBeat)] } }
  if s.tide.selfHolds.contains k then
    let g := max (s.tide.heldFrom.getD s.groupBeat) (s.groupBeat + s.regN R.holdWindow)
    let s := { s with tide := { s.tide with selfHolds := s.tide.selfHolds.filter (· != k), selfReleases := s.tide.selfReleases ++ [(k, g)] } }
    s.broadcast { tidePkt T.release with tide := BitVec.ofInt 64 ((k : Int) - 1), beat := BitVec.ofInt 64 g }
  else s

/-- SNAP_FREEZE_DONE (R481): every copy has completed; the length of the freeze is the snapshot's cost, and its transfer begins. [DEDUCED, log entry 55] -/
def execSnapFreezeDone (s : State) : Outcome :=
  .next (if s.tide.freezing then
      let s := s.setReg R.snapCostUs (word (min 0xFFFFFFFF ((s.beat.toNat - s.snap.freezeBeat) / 2500)))
      let s := { s with snap := { s.snap with costed := true } }
      let s := if s.snap.state == .freeze then s.startTransfer else s
      s.releaseFreeze.tryOpen
    else s)

end Sys2Proof.Machine
end

