-- ==== Sys2Proof/Machine/MemEvents.lean ====
section
/-!
DEFINITION. SDs and heads as their operations end (R231 to R238, R249), remote memory operations (R410, R411, R425), and what the memory
controllers find on their own (R447, R455, R464).
-/
namespace Sys2Proof.Machine

/-! ### Errors that a read finds -/

/-- What a read of memory finds: 0 nothing, 1 a correctable error, 2 an uncorrectable one, 3 a failed address check. -/
def readErr (o : Fin 4) : ReadErr :=
  match o with
  | 0 => .none_
  | 1 => .correctable
  | 2 => .uncorrectable false
  | 3 => .uncorrectable true

/-- What the read of a range comes to: what the row brings, and what memory holds. -/
def State.found (s : State) (a n : Nat) (o : Fin 4) : ReadErr :=
  match readErr o with
  | .uncorrectable k => .uncorrectable k
  | e =>
    match (s.metUnits a n).map (·.2) with
    | [] => e
    | x :: xs => match (x :: xs).find? (· != 0) with
      | some k => .uncorrectable (k == 2)
      | none => .correctable

/-- MEM_READ (R457): the errors that it meets are corrected, or reported and handled (R442, R443, R447, R473). [DEDUCED, log entry 101] -/
def cmdMemRead : Cmd where
  op := 0x0403
  len := lenIs 12
  param := memRangeOk
  act s r :=
    (s.meetRead (r.at 0 8) (r.at 8 4), some (.ok (s.bytes (r.at 0 8) (r.at 8 4))))

/-- MEM_READ (R457). -/
def execMemRead (r : Req) (s : State) : Outcome := cmdMemRead.serve r s

/-- An error's address with its kind above it. -/
def ueCode (a : Nat) (k : Bool) : Nat := a + 2 ^ 48 * b2n k

/-- R443, R473: an uncorrectable error in data that a core's tide read. -/
def badRead (core a : Nat) (s : State) : State := (s.recordUe (a % 2 ^ 48) (decide (2 ^ 48 ≤ a))).ueHandle (some core) (a % 2 ^ 48)

/-! ### RLD and SD -/

/-- RLD (R184 to R186, R249). -/
def execRld (core : Fin 256) (list : Fin 8) (s : State) : Outcome := .next (s.rld core.val list.val badRead)

/-- The next descriptor of a list is an SD, whose arm has been rejected or not. -/
def State.sdTurn (s : State) (core num : Nat) (again : Bool) : State :=
  if s.retrying core num != again then s
  else match s.nextDesc core num fun d => dOpcode d == Op.sd with
    | some (l, d) => (s.tryArm l d badRead).settle core
    | none => s

/-- SD (R235, R236, R245, R250). -/
def execSd (core : Fin 256) (list : Fin 8) (s : State) : Outcome := .next (s.sdTurn core.val list.val false)

/-- SD_ARM_RETRY (R236). -/
def execSdArmRetry (core : Fin 256) (list : Fin 8) (s : State) : Outcome := .next (s.sdTurn core.val list.val true)

/-- SD_COMPLETE (R235, R237): the SD armed in an entry of a queue. -/
def execSdComplete (core : Fin 256) (queue : Fin 4) (entry : Fin 16) (s : State) : Outcome :=
  .next (match s.str.sds.find? fun r => r.own.core == core.val && r.entry == some entry.val && sdQueue r.desc == queue.val with
    | some r => (s.sdComplete r).settle core.val
    | none => s)

/-! ### The end of an operation -/

/-- The head that an operation reads for. -/
def State.headOf (s : State) (o : MemOp) : Option HeadRun := s.str.heads.find? fun h => h.own == o.own && h.reads.any (·.1 == o.id)

/-- A read of a head ends well: its data joins the stream in order. -/
def State.headEnds (s : State) (o : MemOp) (h : HeadRun) : State :=
  let reads := h.reads.map fun x => if x.1 == o.id then (x.1, x.2.1, some o.data) else x
  ((s.endOp o.id).setHead ({ h with reads } : HeadRun).collect)

/-- A read of a head fails (R249): held while provisional; handled when committed. -/
def State.headFails (s : State) (o : MemOp) (h : HeadRun) (a : Nat) : State :=
  let s := (s.endOp o.id).setHead { h with errs := h.errs ++ [a] }
  if h.prov then s else badRead o.own.core a (if h.errs.isEmpty then s.streamErr o.own a else s)

/-- An operation ends well. -/
def State.opDone (s : State) (o : MemOp) (data : List Byte) : State :=
  ((match s.headOf o with
    | some h => s.headEnds { o with data } h
    | none => s.opEnds o data).settle o.own.core).settle (o.eng.getD o.own.core)

/-- A read of this device's memory ends with an uncorrectable error. -/
def State.opBad (s : State) (o : MemOp) (k : Bool) : State :=
  let a := ueCode (s.metAt o.addr o.len true) k
  match s.headOf o with
  | some h => s.headFails o h a
  | none => s.opFails o a (badRead o.own.core a)

/-- The last data of a read, or the acknowledgement of a write, of this device's memory. -/
def State.opComplete (s : State) (o : MemOp) (e : ReadErr) : State :=
  if o.write then
    match e with
    | .uncorrectable _ => s.opFails o o.addr fun s => s.ueHandle (some o.own.core) o.addr
    | _ => s.opDone o []
  else match e with
    | .none_ => s.opDone o o.data
    | .correctable => (s.correctable (s.metAt o.addr o.len false)).opDone o o.data
    | .uncorrectable k => s.opBad o k

/-- MEM_OP_COMPLETE (R231, R238, R442, R443): the operation with number `op` ends; `outcome`: for a read, what it finds; for a write, 2 and 3 that
the target reports it as failed. -/
def execMemOpComplete (op : Nat) (outcome : Fin 4) (s : State) : Outcome :=
  .next (match s.opById op with
    | some o =>
      if o.dev.isSome then s
      else s.opComplete o (if o.write then readErr outcome else s.found o.addr o.len outcome)
    | none => s)

/-! ### Remote operations (R411) -/

/-- A request of 1 to 4,096 bytes in a backed range. -/
def State.reqOk (s : State) (p : Pkt) : Bool := decide (1 ≤ p.len ∧ p.len ≤ 4096) && s.rangeOk allTiers p.addr.toNat p.len

/-- A response to a request: on its channel, with its address and number. -/
def responseTo (p : Pkt) (kind : Fin 16) (fail : Bool) : Pkt :=
  { kind, dst := p.src, vc := p.vc, addr := p.addr, len := p.len, op := p.op, fail }

/-- What a read request for this device does: the data goes back, marked as failed after an uncorrectable error (R443). -/
def State.serveRead (s : State) (p : Pkt) (outcome : Fin 4) : State :=
  let a := p.addr.toNat
  let n := max 1 (min 4096 p.len)
  let send := fun (s : State) (fail : Bool) (bs : List Byte) =>
    s.originate { responseTo p K.readData fail with flits := Fin.ofNat 128 (cdiv n 64), data := padBytes (64 * cdiv n 64) bs }
  if !s.reqOk p then send s true []
  else match s.found a n outcome with
    | .none_ => send s false (s.bytes a n)
    | .correctable => send (s.correctable (s.metAt a n false)) false (s.bytes a n)
    | .uncorrectable k => ((send s true (s.bytes a n)).recordUe (s.metAt a n true) k).ueHandle none (s.metAt a n true)

/-- READ_REQ (R411, R425). -/
def execReadReq (l : Fin 64) (resent : Bool) (p : Pkt) (outcome : Fin 4) (s : State) : Outcome :=
  .next (s.arrive l resent p K.readReq [] fun s p => s.serveRead p outcome)

/-- The remote operation that a response ends. -/
def State.remoteOp (s : State) (p : Pkt) (write : Bool) : Option MemOp :=
  (s.opById p.op).bind fun o => if o.dev == some p.src && o.write == write then some o else none

/-- A remote target reports a failure (R238): an uncorrectable error, which no row of Table 13.4 but the last names. -/
def State.remoteFails (s : State) (o : MemOp) : State := s.opFails o o.addr fun s => s.restart 0x04

/-- READ_DATA (R231, R238, R411). -/
def execReadData (l : Fin 64) (resent : Bool) (p : Pkt) (s : State) : Outcome :=
  .next (s.arrive l resent p K.readData [] fun s p =>
    match s.remoteOp p false with
    | some o => if p.fail then s.remoteFails o else s.opDone o (p.data.take o.len)
    | none => s)

/-- WRITE (R411): applied, and acknowledged. -/
def execWritePkt (l : Fin 64) (resent : Bool) (p : Pkt) (s : State) : Outcome :=
  .next (s.arrive l resent p K.write [] fun s p =>
    if s.reqOk p then (s.store p.addr.toNat (p.data.take p.len)).originate (responseTo p K.writeAck false)
    else s.originate (responseTo p K.writeAck true))

/-- WRITE_ACK (R231, R238, R411). -/
def execWriteAck (l : Fin 64) (resent : Bool) (p : Pkt) (s : State) : Outcome :=
  .next (s.arrive l resent p K.writeAck [] fun s p =>
    match s.remoteOp p true with
    | some o => if p.fail then s.remoteFails o else s.opDone o []
    | none => s)

/-- What this device does with an UNREACH: its TTYPE names the kind of the packet that failed; only a request or a piece has an originating operation. [DESIGN CHOICE, log entry 72] -/
def State.takeUnreach (s : State) (p : Pkt) : State :=
  if p.ttype = 5 then
    let red := s.bkt.reds.find? fun r => r.slot == p.bucket.toNat && r.idx == p.reducer.val
    let tag := match red with
      | some r => some (s.tagOf r.own)
      | none => (s.bucket p.bucket.toNat).tags.lookup p.reducer.val
    s.bktError 7 p.bucket.toNat p.op (tag.getD noHalf) 0xFFFF
  else if p.ttype = 1 ∨ p.ttype = 3 then
    match s.opById p.op with
    | some o => if o.dev.isSome then s.opUnreachable o else s
    | none => s
  else s

/-- UNREACH (R238, R425). -/
def execUnreach (l : Fin 64) (resent : Bool) (p : Pkt) (s : State) : Outcome :=
  .next (s.arrive l resent p K.unreach [] fun s p => s.takeUnreach p)

/-! ### Copies and scrub -/

/-- A line of the slice copy of half `h`: errors it finds are treated as R447 gives (R464). -/
def State.sliceLine (s : State) (h : Nat) (e : ReadErr) : State :=
  match s.memc.sliceCopy.find? fun x => halfOfSlice x.1 == h && decide (x.2 < 32768) with
  | some x =>
    let a := sliceBase + x.1 * 2 ^ 21 + 64 * x.2
    let s := match e with
      | .none_ => s
      | .correctable => s.correctable a
      | .uncorrectable _ => { s with memc := { s.memc with poison := s.memc.poison ++ [a / 32, a / 32 + 1] } }
    s.lineCopied h
  | none => s

/-- BLOCK_COPY_DONE (R447, R464): one block of the copy in a stack (0-7), or one line of the slice copy in a half (8, 9). -/
def execBlockCopyDone (target : Fin 10) (outcome : Fin 4) (s : State) : Outcome :=
  .next (if target.val < 8 then s.blockCopied target.val (readErr outcome) else s.sliceLine (target.val - 8) (readErr outcome))

/-- PATROL_SCRUB (R454, R455, R473) of a DDR5 channel. -/
def execPatrolScrub (channel : Fin 8) (outcome : Fin 4) (s : State) : Outcome :=
  .next (
    if !s.scrubs then s
    else
      let a := s.scrubAddr channel.val
      let e := s.found a 64 outcome
      let s := s.scrub channel.val e
      match e with
      | .uncorrectable _ => s.ueHandle none a
      | _ => s)

end Sys2Proof.Machine
end

