-- ==== Sys2Proof/Machine/RegCmd.lean ====
section
/-!
DEFINITION. The REG_* commands (R110, R111, R587 to R590) and the single register accesses that have rows of their own.
-/
namespace Sys2Proof.Machine

/-- The key a REG_* payload names for `n` words (R110, R587). -/
def regReqKey (r : Req) : Option Nat := regKey (r.at 0 8) (r.at 8 4)

/-- R110, R587: the address is legal, the count lies in 1-56 and the reserved bytes are 0. -/
def regReqOk (r : Req) (one : Bool) : Bool :=
  (regReqKey r).isSome && decide (1 ≤ r.at 8 4 ∧ r.at 8 4 ≤ 56) && (!one || r.at 8 4 == 1) && r.at 12 4 == 0

/-- The key of a legal REG_* payload. -/
def regReqK (r : Req) : Nat := (regReqKey r).getD 0

/-- Block 0x02 lies inside the Lighthouse module boundary (R110, R587). -/
def regReqDenied (r : Req) : Bool := blockOf (regReqK r) == 0x02

def cmdRegRead : Cmd where
  op := 0x0B01
  len := lenIs 16
  expert := true
  param _ r := regReqOk r false
  denied _ r := regReqDenied r
  act s r :=
    let x := s.readRegs (s.requester r.mb) (regReqK r) (r.at 8 4)
    (x.2, some (.ok (wordBytes x.1)))

def cmdRegWrite : Cmd where
  op := 0x0B02
  len p := p.length == 16 + 4 * bytesAt p 8 4
  expert := true
  param _ r := regReqOk r false
  state s r := !s.rangeRefused (regReqK r) (r.at 8 4)
  denied _ r := regReqDenied r
  act s r := (s.writeRegs (s.requester r.mb) .command true (regReqK r) (wordsFrom r.pay 16 (r.at 8 4)), some .ok)

/-- R110: (old AND NOT MASK) OR (VALUE AND MASK). -/
def regModified (old mask value : Word) : Word := (old &&& ~~~mask) ||| (value &&& mask)

def cmdRegModify : Cmd where
  op := 0x0B03
  len := lenIs 24
  expert := true
  param _ r := regReqOk r true
  state s r := !s.rangeRefused (regReqK r) 1
  denied _ r := regReqDenied r
  act s r :=
    let q := s.requester r.mb
    let k := regReqK r
    let old := s.look q k
    let new := regModified old (word (r.at 16 4)) (word (r.at 20 4))
    ((s.readEffect q k).writeReg q .command true k new, some (.ok (wordBytes [old, new])))

/-- R110: REG_POLL's response: a match flag in byte 0 and the last value read in bytes 7:4. -/
def pollReply (hit : Bool) (v : Word) : Reply := .ok (leBytes 4 (b2n hit) ++ leBytes 4 v.toNat)

/-- R110: the masked value matches. -/
def pollHit (v mask value : Word) : Bool := (v &&& mask) == (value &&& mask)

def cmdRegPoll : Cmd where
  op := 0x0B04
  len := lenIs 24
  expert := true
  param _ r := regReqOk r true
  denied _ r := regReqDenied r
  act s r :=
    let q := s.requester r.mb
    let k := regReqK r
    let v := s.look q k
    let s := s.readEffect q k
    let mask := word (r.at 16 4)
    let value := word (r.at 20 4)
    if pollHit v mask value then (s, some (pollReply true v))
    else ({ s with enm := { s.enm with polls := s.enm.polls ++ [⟨r.mb, r.tag, k, mask, value⟩] } }, none)

/-- REG_READ (R110). -/
def execRegRead (r : Req) (s : State) : Outcome := cmdRegRead.serve r s
/-- REG_WRITE (R110, R111, R588). -/
def execRegWrite (r : Req) (s : State) : Outcome := cmdRegWrite.serve r s
/-- REG_MODIFY (R110, R111, R588). -/
def execRegModify (r : Req) (s : State) : Outcome := cmdRegModify.serve r s
/-- REG_POLL (R110): the first read; further reads are REG_POLL_END's. -/
def execRegPoll (r : Req) (s : State) : Outcome := cmdRegPoll.serve r s

/-- R110: a later read of the REG_POLL that mailbox `mb` waits on. A match answers 1; 1 ms without one answers 0; otherwise the poll goes on. -/
def State.pollEnd (s : State) (p : Poll) (timedOut : Bool) : State :=
  let q := s.requester p.mb
  let v := s.look q p.key
  let s := s.readEffect q p.key
  if pollHit v p.mask p.value || timedOut then
    { s with enm := { s.enm with polls := s.enm.polls.filter (·.mb != p.mb) } }.respond p.mb 0x0B04 p.tag (pollReply (pollHit v p.mask p.value) v)
  else s

/-- REG_POLL_END (R110). -/
def execRegPollEnd (mb : Fin 16) (timedOut : Bool) (s : State) : Outcome :=
  match s.enm.polls.find? (·.mb == mb.val) with
  | some p => .next (s.pollEnd p timedOut)
  | none => .next s

/-! ### Single accesses -/

/-- R19, R109, R571: who may make a register access: Enmora, and a session that is open with expert privilege. -/
def State.mayAccess (s : State) (q : Nat) : Bool := q == enmoraReq || (s.session q).any fun x => x.isOpen && x.expert

/-- A single register read by a requester; one that may not make it, or that names a block which Sleep has powered off (R571), has
no effect. -/
def State.accessRead (s : State) (q k : Nat) : State := if s.mayAccess q && !s.blockOff k then s.readEffect q k else s

/-- BEAT_COUNT_LO_READ (R78, R589). -/
def execBeatCountLoRead (q : Fin 9) (s : State) : Outcome := .next (s.accessRead q R.beatCountLo)
/-- TIDE_COUNT_LO_READ (R78, R589). -/
def execTideCountLoRead (q : Fin 9) (s : State) : Outcome := .next (s.accessRead q R.tideCountLo)
/-- STEP_NUMBER_LO_READ (R367, R589). -/
def execStepNumberLoRead (q : Fin 9) (s : State) : Outcome := .next (s.accessRead q R.stepNumberLo)
/-- TJ_PEAK_READ (R521, R590). -/
def execTjPeakRead (q : Fin 9) (s : State) : Outcome := .next (s.accessRead q R.tjPeak)
/-- OPS_PEAK_READ of a core (R253, R590). -/
def execOpsPeakRead (q : Fin 9) (core : Fin 256) (s : State) : Outcome := .next (s.accessRead q (R.opsPeak core))
/-- MAX_SLIP_READ of a region (R521, R590). -/
def execMaxSlipRead (q : Fin 9) (region : Fin 40) (s : State) : Outcome := .next (s.accessRead q (R.maxSlip region))
/-- HBM_CHUNKS_PEAK_READ (R333, R590). -/
def execHbmChunksPeakRead (q : Fin 9) (s : State) : Outcome := .next (s.accessRead q R.hbmChunksPeak)

/-- A single register write by a requester: none by a requester that may not make it (R19) or to a block that Sleep has powered off
(R571); refused whole where R588 says so; Enmora's writes to
the mailbox block act as Table 3.4 says. -/
def State.accessWrite (s : State) (q k : Nat) (v : Word) : State :=
  if !s.mayAccess q || s.blockOff k || s.writeRefused k then s
  else if q = enmoraReq then (s.mailboxWrite k v).getD (s.writeReg q .enmora false k v)
  else s.writeReg q .command true k v

/-- PROF_TARGET_WRITE (R521). -/
def execProfTargetWrite (q : Fin 9) (v : Word) (s : State) : Outcome := .next (s.accessWrite q R.profTarget v)
/-- ROUTE_DATA_WRITE (R588): stages the low half for the requester. -/
def execRouteDataWrite (q : Fin 9) (v : Word) (s : State) : Outcome := .next (s.accessWrite q R.routeData v)
/-- ROUTE_DATA_C_WRITE (R432, R588): queues the staged pair for the entry in ROUTE_INDEX. -/
def execRouteDataCWrite (q : Fin 9) (v : Word) (s : State) : Outcome := .next (s.accessWrite q R.routeDataC v)
/-- DEV_ID_WRITE (R588). -/
def execDevIdWrite (q : Fin 9) (v : Word) (s : State) : Outcome := .next (s.accessWrite q R.devId v)
/-- LANE_MAP_WRITE (R435, R588). -/
def execLaneMapWrite (q : Fin 9) (link : Fin 64) (v : Word) (s : State) : Outcome := .next (s.accessWrite q (R.laneMap link) v)
/-- REGISTER_WRITE of the register at `off` in block `block` (R30, R588). -/
def execRegisterWrite (q : Fin 9) (block : Byte) (off : BitVec 22) (v : Word) (s : State) : Outcome :=
  .next (s.accessWrite q (blk block.toNat (4 * off.toNat)) v)

end Sys2Proof.Machine
end

