-- ==== Sys2Proof/Machine/SecCmd.lean ====
section
/-!
DEFINITION. The SEC_* commands (R112, R570, R575, R576, R578 to R580, R582).
-/
namespace Sys2Proof.Machine

/-- Parts of 224 bytes that `n` bytes are returned in. -/
def partsOf (n : Nat) : Nat := cdiv n 224

def State.cert (s : State) (i : Nat) : List Byte := s.part.certs.getD i []

def cmdSecCertGet : Cmd where
  op := 0x0A01
  len := lenIs 3
  inSleep := true
  param s r := decide (r.at 0 1 < 3) && decide (r.at 1 2 < max 1 (partsOf (s.cert (r.at 0 1)).length))
  act s r :=
    let c := s.cert (r.at 0 1)
    (s, some (.ok (leBytes 2 c.length ++ leBytes 2 (partsOf c.length) ++ (c.drop (224 * r.at 1 2)).take 224)))

/-- FLAGS of an attestation report (Table 16.9). [DEDUCED, log entry 30] -/
def State.attestFlags (s : State) : Nat :=
  b2n (!s.overrides.isEmpty) + 2 * b2n s.lys.expertSeen + 4 * s.field R.straps 2 2 + 16 * s.field R.straps 0 2
    + 64 * b2n (s.field R.straps 4 2 == 1)

/-- Bytes 399:0 of an attestation report (Table 16.9). [DESIGN CHOICE, log entry 12; DEDUCED, log entry 30] -/
def State.attestBody (s : State) (session : Nat) (nonce : List Byte) : List Byte :=
  leBytes 4 0x5254414B ++ leBytes 2 0x0100 ++ leBytes 2 session ++ padBytes 64 nonce ++ padBytes 16 s.part.serial ++ s.part.ordering
    ++ leBytes 2 stepping ++ leBytes 2 s.lys.secVersion.toNat ++ leBytes 4 (s.regN R.fwVersion) ++ s.part.romDigest ++ s.lys.fwDigest
    ++ s.lys.operatorDigest ++ s.lys.tideDigest ++ leBytes 8 s.lys.tideMeasures.toNat ++ leBytes 8 s.beat.toNat
    ++ leBytes 8 s.tide.count.toNat ++ leBytes 4 s.attestFlags ++ leBytes 4 0

/-- The session that a mailbox command belongs to, when it still exists. -/
def State.reqSession (s : State) (mb : Nat) : Option (Nat × Session) :=
  (s.posterOf mb).bind fun n => (s.session n).map fun x => (n, x)

/-- R579: PART 0 builds a report, which replaces the session's; PART 1 and 2 return later parts of it. [DESIGN CHOICE, log entry 110] -/
def cmdSecAttest : Cmd where
  op := 0x0A02
  len := lenIs 65
  inSleep := true
  param _ r := decide (r.at 0 1 < 3)
  state s r := (s.reqSession r.mb).any fun x => r.at 0 1 == 0 || x.2.report.isSome
  act s r :=
    match s.reqSession r.mb with
    | none => (s, some (.err St.state))
    | some (n, x) =>
      if r.at 0 1 = 0 then
        let d := s.drawBytes 132
        let rep := s.attestBody n (r.pay.drop 1) ++ d.1
        (d.2.setSession n (some { x with report := some rep }), some (.ok (rep.take 224)))
      else (s, some (.ok (((x.report.getD []).drop (224 * r.at 0 1)).take 224)))

/-- A measurement log entry: its index, k0 and h (R578). -/
def State.measureEntry (s : State) (i : Nat) : Option (List Byte) :=
  let total := s.lys.tideMeasures.toNat
  if i < total ∧ total - 1 - i < s.lys.measures.length then
    (s.lys.measures[total - 1 - i]?).map fun e => leBytes 8 i ++ leBytes 8 e.1.toNat ++ e.2
  else none

/-- R582: an index that has been overwritten or lies beyond TIDE_MEASURES is refused. [DESIGN CHOICE, log entry 120] -/
def cmdSecMeasureLog : Cmd where
  op := 0x0A03
  len := lenIs 8
  inSleep := true
  param s r := decide (r.at 0 8 ≤ s.lys.tideMeasures.toNat) && (r.at 0 8 == s.lys.tideMeasures.toNat || (s.measureEntry (r.at 0 8)).isSome)
  act s r := (s, some (.ok (leBytes 8 s.lys.tideMeasures.toNat
    ++ ((s.measureEntry (r.at 0 8)).toList ++ (s.measureEntry (r.at 0 8 + 1)).toList).flatten)))

/-- R570: a failed SEC_EXPERT is answered ERR_PRIVILEGE, logged and counted; the eighth closes the session. -/
def State.expertFail (s : State) (n : Nat) (x : Session) : State :=
  let s := s.setSession n (some { x with expertFails := x.expertFails + 1 })
  let s := (s.orReg (R.portStatus (portOf n)) 8).log_ (srcOf 0x03 (portOf n)) 0x29 (leBytes 1 n)
  if 8 ≤ x.expertFails + 1 then s.closeSession n 4 else s

/-- [DESIGN CHOICE, log entry 110] -/
def cmdSecExpert : Cmd where
  op := 0x0A04
  len := lenIs 132
  inSleep := true
  act s r :=
    match s.reqSession r.mb with
    | none => (s, some (.err St.privilege))
    | some (n, x) =>
      if Config.ecdsaVerifies s.lys.qe (sha512 (x.th ++ [0x45])) r.pay then
        ({ s.setSession n (some { x with expert := true }) with lys := { (s.setSession n (some { x with expert := true })).lys with expertSeen := true } },
          some .ok)
      else (s.expertFail n x, some (.err St.privilege))

/-- [DESIGN CHOICE, log entry 110] -/
def cmdSecDrop : Cmd where
  op := 0x0A05
  len := lenIs 0
  inSleep := true
  act s r :=
    match s.reqSession r.mb with
    | none => (s, some .ok)
    | some (n, x) => (s.setSession n (some { x with expert := false }), some .ok)

/-- SEC_SELFTEST: `failed` names the self-test that failed, if any; a failure gives R576 and no response (R575, R582). -/
def cmdSecSelftest (failed : Option Byte) : Cmd where
  op := 0x0A06
  len := lenIs 0
  inSleep := true
  act s _ :=
    match failed with
    | none => (s, some (.ok [0]))
    | some t => (s.lighthouseFail t.toNat, none)

/-- SEC_CERT_GET (R580, R582). -/
def execSecCertGet (r : Req) (s : State) : Outcome := cmdSecCertGet.serve r s
/-- SEC_ATTEST (R579, R582). -/
def execSecAttest (r : Req) (s : State) : Outcome := cmdSecAttest.serve r s
/-- SEC_MEASURE_LOG (R578, R582). -/
def execSecMeasureLog (r : Req) (s : State) : Outcome := cmdSecMeasureLog.serve r s
/-- SEC_EXPERT (R112, R570). -/
def execSecExpert (r : Req) (s : State) : Outcome := cmdSecExpert.serve r s
/-- SEC_DROP (R112). -/
def execSecDrop (r : Req) (s : State) : Outcome := cmdSecDrop.serve r s
/-- SEC_SELFTEST (R575, R576). -/
def execSecSelftest (r : Req) (failed : Option Byte) (s : State) : Outcome := (cmdSecSelftest failed).serve r s

end Sys2Proof.Machine
end

