-- ==== Sys2Proof/Machine/TelCmd.lean ====
section
/-!
DEFINITION. The TEL_* commands (R120, R121, R123, R303).
-/
namespace Sys2Proof.Machine

/-- R121: up to `n` entries from the oldest held at or after sequence number `a`, in order. -/
def Log.from_ (l : Log) (a : Word) (n : Nat) : List (Word × LogEntry) := (l.numbered.filter fun e => seqAtOrAfter e.1 a).take n

/-- R121: ADVANCE moves the read pointer to the highest sequence number returned; returning none leaves it. -/
def Log.advance (l : Log) (got : List (Word × LogEntry)) : Log :=
  match got.getLast? with
  | some e => { l with read := e.1 }
  | none => l

def cmdTelLogRead : Cmd where
  op := 0x0901
  len := lenIs 5
  inSleep := true
  param _ r := r.at 4 1 / 2 == 0
  act s r :=
    let got := s.log.from_ (word (r.at 0 4)) 3
    ((if r.at 4 1 = 1 then { s with log := s.log.advance got }.logHigh s.log.unread else s),
      some (.ok (leBytes 4 got.length ++ leBytes 4 s.log.lost.toNat ++ got.flatMap fun e => e.2.bytes e.1)))

def cmdTelLogStatus : Cmd where
  op := 0x0902
  len := lenIs 0
  inSleep := true
  act s _ := (s, some (.ok ([word s.log.unread, s.log.lost, s.log.next - word s.log.entries.length, s.log.next - 1, s.log.read].flatMap
    fun w => leBytes 4 w.toNat)))

def cmdTelAreaSet : Cmd where
  op := 0x0903
  len := lenIs 16
  inSleep := true
  param s r := r.at 12 4 == 0 && r.at 0 8 % 4096 == 0 && (r.at 8 4 == 0 || s.rangeOk [.hbm] (r.at 0 8) (r.at 8 4 * 2 ^ 20))
  act s r := ({ s with log := { s.log with areaBase := r.at 0 8, areaMiB := r.at 8 4, areaNext := none } }, some .ok)

/-- Table 7.12: the types, and LO reserved for types 2 and 3; R303: the target lies below the count of its kind. -/
def alarmSetOk (s : State) (r : Req) : Bool :=
  r.at 3 1 == 0 &&
    (match r.at 2 1 with
     | 1 => decide (r.at 0 2 < s.regN R.layerCount)
     | 2 => decide (r.at 0 2 < s.regN R.scaleCount) && r.at 8 4 == 0
     | 3 => decide (r.at 0 2 < s.regN R.scaleCount) && r.at 8 4 == 0
     | _ => false)

def cmdTelAlarmSet : Cmd where
  op := 0x0904
  len := lenIs 12
  inSleep := true
  param := alarmSetOk
  act s r :=
    let key := r.at 2 1 * 1024 + r.at 0 2
    let s := { s with alarmHi := Sparse.put 0 s.alarmHi key (word (r.at 4 4)), alarmLo := Sparse.put 0 s.alarmLo key (word (r.at 8 4)) }
    (s.basic (alarmName (r.at 2 1) (r.at 0 2)), some .ok)

/-- The counters of a block's device group and of one unit, in offset order (R121; the counter rows of Table 17.3), and its number of units. -/
def counterGroup (block : Nat) : List Nat × Nat × (Nat → List Nat) :=
  let run (k n : Nat) : List Nat := (List.range n).map (k + 4 * ·)
  match block with
  | 0x01 => (run R.throttles 2, 40, fun u => [R.swells u, R.xingHolds u, R.marginRuns u])
  | 0x03 => ([], 2, fun u => run (R.portFecCorrected u) 9)
  | 0x05 => ([], 16, fun _ => [])
  | 0x09 => (run R.skippedSteps 3 ++ [R.numAlarms], 0, fun _ => [])
  | 0x0A => (run R.spillChunks 7, 0, fun _ => [])
  | 0x0B => (run R.gateWaitCycles 5, 0, fun _ => [])
  | 0x0C => (run R.snapshots 5, 0, fun _ => [])
  | 0x10 => ([], 256, fun u => run (R.chkFails u) 8)
  | 0x11 => (run R.reelStalls 2, 256, fun u => run (R.fwdVectors u) 6)
  | 0x12 => ([R.sramCeCount], 256, fun u => run (R.coreStall u) 10)
  | 0x13 => (run R.bucketsDone 7, 16, fun _ => [])
  | 0x18 => ([R.routeErrors], 64, fun u => run (R.crcErrors u) 7)
  | 0x20 => ([], 16, fun u => if u < 8 then run (R.copyPtr u) 3 else run (R.chCeCount (u - 8)) 4)
  | _ => ([], 0, fun _ => [])

/-- R121: a listed block that is not 0x02, and a unit within it or 0xFF for its device group. -/
def countersOk (r : Req) : Bool :=
  blockListed (r.at 0 1) && r.at 0 1 != 0x02 && (r.at 1 1 == 0xFF || decide (r.at 1 1 < (counterGroup (r.at 0 1)).2.1))

def cmdTelCounters : Cmd where
  op := 0x0905
  len := lenIs 2
  inSleep := true
  param _ r := countersOk r
  act s r :=
    let g := counterGroup (r.at 0 1)
    let ks := if r.at 1 1 = 0xFF then g.1 else g.2.2 (r.at 1 1)
    (s, some (.ok ((ks.take 56).flatMap fun k => leBytes 4 (s.look enmoraReq k).toNat)))

def cmdTelEventMask : Cmd where
  op := 0x0906
  len := lenIs 2
  inSleep := true
  param _ r := r.at 0 2 / 1024 == 0
  act s r := ({ s with enm := { s.enm with eventMask := BitVec.ofNat 10 (r.at 0 2) } }, some .ok)

/-- TEL_LOG_READ (R120, R121). -/
def execTelLogRead (r : Req) (s : State) : Outcome := cmdTelLogRead.serve r s
/-- TEL_LOG_STATUS (R120, R121). -/
def execTelLogStatus (r : Req) (s : State) : Outcome := cmdTelLogStatus.serve r s
/-- TEL_AREA_SET (R120, R121, R123): the next record begins at the base. -/
def execTelAreaSet (r : Req) (s : State) : Outcome := cmdTelAreaSet.serve r s
/-- TEL_ALARM_SET (R303). -/
def execTelAlarmSet (r : Req) (s : State) : Outcome := cmdTelAlarmSet.serve r s
/-- TEL_COUNTERS (R120, R121). -/
def execTelCounters (r : Req) (s : State) : Outcome := cmdTelCounters.serve r s
/-- TEL_EVENT_MASK (R121). -/
def execTelEventMask (r : Req) (s : State) : Outcome := cmdTelEventMask.serve r s

end Sys2Proof.Machine
end

