-- ==== Sys2Proof/Machine/VodCmd.lean ====
section
/-!
DEFINITION. The vector operations (R142, Table 4.7): the next descriptor of list `list` of core `core` is a VOD of the operation, which runs.
-/
namespace Sys2Proof.Machine

/-- VOD_MOV (Table 4.7, OP 0x00). -/
def execVodMov (core : Fin 256) (list : Fin 8) (s : State) : Outcome := .next (s.vod core.val list.val 0x00)

/-- VOD_ADD (Table 4.7, OP 0x01). -/
def execVodAdd (core : Fin 256) (list : Fin 8) (s : State) : Outcome := .next (s.vod core.val list.val 0x01)

/-- VOD_SUB (Table 4.7, OP 0x02). -/
def execVodSub (core : Fin 256) (list : Fin 8) (s : State) : Outcome := .next (s.vod core.val list.val 0x02)

/-- VOD_MUL (Table 4.7, OP 0x03). -/
def execVodMul (core : Fin 256) (list : Fin 8) (s : State) : Outcome := .next (s.vod core.val list.val 0x03)

/-- VOD_FMA (Table 4.7, OP 0x04). -/
def execVodFma (core : Fin 256) (list : Fin 8) (s : State) : Outcome := .next (s.vod core.val list.val 0x04)

/-- VOD_MAX (Table 4.7, OP 0x05). -/
def execVodMax (core : Fin 256) (list : Fin 8) (s : State) : Outcome := .next (s.vod core.val list.val 0x05)

/-- VOD_MIN (Table 4.7, OP 0x06). -/
def execVodMin (core : Fin 256) (list : Fin 8) (s : State) : Outcome := .next (s.vod core.val list.val 0x06)

/-- VOD_ABS (Table 4.7, OP 0x07). -/
def execVodAbs (core : Fin 256) (list : Fin 8) (s : State) : Outcome := .next (s.vod core.val list.val 0x07)

/-- VOD_SEL (Table 4.7, OP 0x08). -/
def execVodSel (core : Fin 256) (list : Fin 8) (s : State) : Outcome := .next (s.vod core.val list.val 0x08)

/-- VOD_RCP (Table 4.7, OP 0x09). -/
def execVodRcp (core : Fin 256) (list : Fin 8) (s : State) : Outcome := .next (s.vod core.val list.val 0x09)

/-- VOD_RSQRT (Table 4.7, OP 0x0A). -/
def execVodRsqrt (core : Fin 256) (list : Fin 8) (s : State) : Outcome := .next (s.vod core.val list.val 0x0A)

/-- VOD_SQRT (Table 4.7, OP 0x0B). -/
def execVodSqrt (core : Fin 256) (list : Fin 8) (s : State) : Outcome := .next (s.vod core.val list.val 0x0B)

/-- VOD_EXP (Table 4.7, OP 0x0C). -/
def execVodExp (core : Fin 256) (list : Fin 8) (s : State) : Outcome := .next (s.vod core.val list.val 0x0C)

/-- VOD_LOG (Table 4.7, OP 0x0D). -/
def execVodLog (core : Fin 256) (list : Fin 8) (s : State) : Outcome := .next (s.vod core.val list.val 0x0D)

/-- VOD_DIV (Table 4.7, OP 0x0E). -/
def execVodDiv (core : Fin 256) (list : Fin 8) (s : State) : Outcome := .next (s.vod core.val list.val 0x0E)

/-- VOD_ACT (Table 4.7, OP 0x0F). -/
def execVodAct (core : Fin 256) (list : Fin 8) (s : State) : Outcome := .next (s.vod core.val list.val 0x0F)

/-- VOD_RSUM (Table 4.7, OP 0x10). -/
def execVodRsum (core : Fin 256) (list : Fin 8) (s : State) : Outcome := .next (s.vod core.val list.val 0x10)

/-- VOD_RMAX (Table 4.7, OP 0x11). -/
def execVodRmax (core : Fin 256) (list : Fin 8) (s : State) : Outcome := .next (s.vod core.val list.val 0x11)

/-- VOD_RAMAX (Table 4.7, OP 0x12). -/
def execVodRamax (core : Fin 256) (list : Fin 8) (s : State) : Outcome := .next (s.vod core.val list.val 0x12)

/-- VOD_RSSQ (Table 4.7, OP 0x13). -/
def execVodRssq (core : Fin 256) (list : Fin 8) (s : State) : Outcome := .next (s.vod core.val list.val 0x13)

/-- VOD_RNG (Table 4.7, OP 0x14). -/
def execVodRng (core : Fin 256) (list : Fin 8) (s : State) : Outcome := .next (s.vod core.val list.val 0x14)

end Sys2Proof.Machine
end

