-- ==== Sys2Proof/Machine/Dispatch.lean ====
section
/-!
DEFINITION. The dispatch: one arm per command, each one direct call of that command's meaning.
-/
namespace Sys2Proof.Machine

def exec (i : Instr) (s : State) : Host.Outcome State Fault Refusal :=
  match i with
  | .devIdentify r => Sys2Proof.Machine.execDevIdentify r s
  | .devStatus r => Sys2Proof.Machine.execDevStatus r s
  | .devCaps r => Sys2Proof.Machine.execDevCaps r s
  | .devResetCause r => Sys2Proof.Machine.execDevResetCause r s
  | .devSpares r => Sys2Proof.Machine.execDevSpares r s
  | .devSleep r => Sys2Proof.Machine.execDevSleep r s
  | .devWake r => Sys2Proof.Machine.execDevWake r s
  | .devEcho r => Sys2Proof.Machine.execDevEcho r s
  | .devArrayCheck r => Sys2Proof.Machine.execDevArrayCheck r s
  | .tideLoad r => Sys2Proof.Machine.execTideLoad r s
  | .tideArm r => Sys2Proof.Machine.execTideArm r s
  | .tideDisarm r => Sys2Proof.Machine.execTideDisarm r s
  | .tideUnload r => Sys2Proof.Machine.execTideUnload r s
  | .tideRun r => Sys2Proof.Machine.execTideRun r s
  | .tideStop r => Sys2Proof.Machine.execTideStop r s
  | .tideHold r => Sys2Proof.Machine.execTideHold r s
  | .tideRelease r => Sys2Proof.Machine.execTideRelease r s
  | .tideConfig r => Sys2Proof.Machine.execTideConfig r s
  | .tideStatus r => Sys2Proof.Machine.execTideStatus r s
  | .profSet r => Sys2Proof.Machine.execProfSet r s
  | .profGet r => Sys2Proof.Machine.execProfGet r s
  | .profLimits r => Sys2Proof.Machine.execProfLimits r s
  | .profRamp r => Sys2Proof.Machine.execProfRamp r s
  | .profHistory r => Sys2Proof.Machine.execProfHistory r s
  | .memWindowOpen r => Sys2Proof.Machine.execMemWindowOpen r s
  | .memWindowClose r => Sys2Proof.Machine.execMemWindowClose r s
  | .memRead r => Sys2Proof.Machine.execMemRead r s
  | .memWrite r => Sys2Proof.Machine.execMemWrite r s
  | .memFill r => Sys2Proof.Machine.execMemFill r s
  | .memInfo r => Sys2Proof.Machine.execMemInfo r s
  | .memScrub r => Sys2Proof.Machine.execMemScrub r s
  | .memShelfLimit r => Sys2Proof.Machine.execMemShelfLimit r s
  | .linkStatus r => Sys2Proof.Machine.execLinkStatus r s
  | .linkTrain r => Sys2Proof.Machine.execLinkTrain r s
  | .linkMargin r => Sys2Proof.Machine.execLinkMargin r s
  | .linkDisable r => Sys2Proof.Machine.execLinkDisable r s
  | .linkEnable r => Sys2Proof.Machine.execLinkEnable r s
  | .linkCounters r => Sys2Proof.Machine.execLinkCounters r s
  | .linkLoopback r => Sys2Proof.Machine.execLinkLoopback r s
  | .jobCreate r => Sys2Proof.Machine.execJobCreate r s
  | .jobSetId r => Sys2Proof.Machine.execJobSetId r s
  | .jobRouteSet r => Sys2Proof.Machine.execJobRouteSet r s
  | .jobRouteGet r => Sys2Proof.Machine.execJobRouteGet r s
  | .jobMeasure r => Sys2Proof.Machine.execJobMeasure r s
  | .jobGroupForm r => Sys2Proof.Machine.execJobGroupForm r s
  | .jobGroupLeave r => Sys2Proof.Machine.execJobGroupLeave r s
  | .jobCursor r => Sys2Proof.Machine.execJobCursor r s
  | .jobStatus r => Sys2Proof.Machine.execJobStatus r s
  | .jobEnd r => Sys2Proof.Machine.execJobEnd r s
  | .snapConfig r => Sys2Proof.Machine.execSnapConfig r s
  | .snapPolicy r => Sys2Proof.Machine.execSnapPolicy r s
  | .snapInterval r => Sys2Proof.Machine.execSnapInterval r s
  | .snapNow r => Sys2Proof.Machine.execSnapNow r s
  | .snapStatus r => Sys2Proof.Machine.execSnapStatus r s
  | .restorePrepare r => Sys2Proof.Machine.execRestorePrepare r s
  | .restoreRun r => Sys2Proof.Machine.execRestoreRun r s
  | .restoreStatus r => Sys2Proof.Machine.execRestoreStatus r s
  | .restoreVerify r => Sys2Proof.Machine.execRestoreVerify r s
  | .telLogRead r => Sys2Proof.Machine.execTelLogRead r s
  | .telLogStatus r => Sys2Proof.Machine.execTelLogStatus r s
  | .telAreaSet r => Sys2Proof.Machine.execTelAreaSet r s
  | .telAlarmSet r => Sys2Proof.Machine.execTelAlarmSet r s
  | .telCounters r => Sys2Proof.Machine.execTelCounters r s
  | .telEventMask r => Sys2Proof.Machine.execTelEventMask r s
  | .secCertGet r => Sys2Proof.Machine.execSecCertGet r s
  | .secAttest r => Sys2Proof.Machine.execSecAttest r s
  | .secMeasureLog r => Sys2Proof.Machine.execSecMeasureLog r s
  | .secExpert r => Sys2Proof.Machine.execSecExpert r s
  | .secDrop r => Sys2Proof.Machine.execSecDrop r s
  | .secSelftest r failed => Sys2Proof.Machine.execSecSelftest r failed s
  | .regRead r => Sys2Proof.Machine.execRegRead r s
  | .regWrite r => Sys2Proof.Machine.execRegWrite r s
  | .regModify r => Sys2Proof.Machine.execRegModify r s
  | .regPoll r => Sys2Proof.Machine.execRegPoll r s
  | .regPollEnd mb timedOut => Sys2Proof.Machine.execRegPollEnd mb timedOut s
  | .bayPower b mode => Sys2Proof.Machine.execBayPower b mode s
  | .bayCoreMap b pos boundary => Sys2Proof.Machine.execBayCoreMap b pos boundary s
  | .bayRowMap b pos row boundary => Sys2Proof.Machine.execBayRowMap b pos row boundary s
  | .bayClkgen b => Sys2Proof.Machine.execBayClkgen b s
  | .baySelftest b named faulty => Sys2Proof.Machine.execBaySelftest b named faulty s
  | .sld core list => Sys2Proof.Machine.execSld core list s
  | .apd core list cold bad => Sys2Proof.Machine.execApd core list cold bad s
  | .arrayRetry core lf run1 run2 faulty => Sys2Proof.Machine.execArrayRetry core lf run1 run2 faulty s
  | .vodMov core list => Sys2Proof.Machine.execVodMov core list s
  | .vodAdd core list => Sys2Proof.Machine.execVodAdd core list s
  | .vodSub core list => Sys2Proof.Machine.execVodSub core list s
  | .vodMul core list => Sys2Proof.Machine.execVodMul core list s
  | .vodFma core list => Sys2Proof.Machine.execVodFma core list s
  | .vodMax core list => Sys2Proof.Machine.execVodMax core list s
  | .vodMin core list => Sys2Proof.Machine.execVodMin core list s
  | .vodAbs core list => Sys2Proof.Machine.execVodAbs core list s
  | .vodSel core list => Sys2Proof.Machine.execVodSel core list s
  | .vodRcp core list => Sys2Proof.Machine.execVodRcp core list s
  | .vodRsqrt core list => Sys2Proof.Machine.execVodRsqrt core list s
  | .vodSqrt core list => Sys2Proof.Machine.execVodSqrt core list s
  | .vodExp core list => Sys2Proof.Machine.execVodExp core list s
  | .vodLog core list => Sys2Proof.Machine.execVodLog core list s
  | .vodDiv core list => Sys2Proof.Machine.execVodDiv core list s
  | .vodAct core list => Sys2Proof.Machine.execVodAct core list s
  | .vodRsum core list => Sys2Proof.Machine.execVodRsum core list s
  | .vodRmax core list => Sys2Proof.Machine.execVodRmax core list s
  | .vodRamax core list => Sys2Proof.Machine.execVodRamax core list s
  | .vodRssq core list => Sys2Proof.Machine.execVodRssq core list s
  | .vodRng core list => Sys2Proof.Machine.execVodRng core list s
  | .sgdMom core list gateWait => Sys2Proof.Machine.execSgdMom core list gateWait s
  | .adamMom core list gateWait => Sys2Proof.Machine.execAdamMom core list gateWait s
  | .applyUpd core list gateWait pinWait => Sys2Proof.Machine.execApplyUpd core list gateWait pinWait s
  | .chScales core list gateWait pinWait => Sys2Proof.Machine.execChScales core list gateWait pinWait s
  | .quant core list gateWait pinWait => Sys2Proof.Machine.execQuant core list gateWait pinWait s
  | .gmov core list gateWait => Sys2Proof.Machine.execGmov core list gateWait s
  | .gradPass core list gateWait => Sys2Proof.Machine.execGradPass core list gateWait s
  | .verPin core list wait => Sys2Proof.Machine.execVerPin core list wait s
  | .verUnpin core list => Sys2Proof.Machine.execVerUnpin core list s
  | .verCommit core list gateWait => Sys2Proof.Machine.execVerCommit core list gateWait s
  | .sd core list => Sys2Proof.Machine.execSd core list s
  | .sdArmRetry core list => Sys2Proof.Machine.execSdArmRetry core list s
  | .sdComplete core queue entry => Sys2Proof.Machine.execSdComplete core queue entry s
  | .memOpComplete op outcome => Sys2Proof.Machine.execMemOpComplete op outcome s
  | .runAheadStart core list idx => Sys2Proof.Machine.execRunAheadStart core list idx s
  | .rld core list => Sys2Proof.Machine.execRld core list s
  | .reelVectorLand core stream => Sys2Proof.Machine.execReelVectorLand core stream s
  | .reelCreditReturn core stream => Sys2Proof.Machine.execReelCreditReturn core stream s
  | .commitToken core stream => Sys2Proof.Machine.execCommitToken core stream s
  | .voidToken core stream => Sys2Proof.Machine.execVoidToken core stream s
  | .reelStall core stream cycles stall held => Sys2Proof.Machine.execReelStall core stream cycles stall held s
  | .shfPush core list => Sys2Proof.Machine.execShfPush core list s
  | .shfPop core list => Sys2Proof.Machine.execShfPop core list s
  | .popWaitEnd core list idx cycles => Sys2Proof.Machine.execPopWaitEnd core list idx cycles s
  | .shelfOrder core list idx => Sys2Proof.Machine.execShelfOrder core list idx s
  | .chunkMoveDone shelf idx => Sys2Proof.Machine.execChunkMoveDone shelf idx s
  | .bktOpen core list => Sys2Proof.Machine.execBktOpen core list s
  | .bktContrib core list => Sys2Proof.Machine.execBktContrib core list s
  | .bucketLaunch slot => Sys2Proof.Machine.execBucketLaunch slot s
  | .bktReduce core list => Sys2Proof.Machine.execBktReduce core list s
  | .decideGate core list => Sys2Proof.Machine.execDecideGate core list s
  | .piece l resent p => Sys2Proof.Machine.execPiece l resent p s
  | .pieceCredit l resent p cycles => Sys2Proof.Machine.execPieceCredit l resent p cycles s
  | .localMark core list => Sys2Proof.Machine.execLocalMark core list s
  | .waitBeat core list => Sys2Proof.Machine.execWaitBeat core list s
  | .waitBeatReached core list => Sys2Proof.Machine.execWaitBeatReached core list s
  | .tmkSignal core list => Sys2Proof.Machine.execTmkSignal core list s
  | .evtCounterAdd core k => Sys2Proof.Machine.execEvtCounterAdd core k s
  | .waitEvent core list => Sys2Proof.Machine.execWaitEvent core list s
  | .groupBarrier core list => Sys2Proof.Machine.execGroupBarrier core list s
  | .barrierArrive l resent p => Sys2Proof.Machine.execBarrierArrive l resent p s
  | .barrierRelease l resent p => Sys2Proof.Machine.execBarrierRelease l resent p s
  | .engineReport core working stall => Sys2Proof.Machine.execEngineReport core working stall s
  | .nominalBoundary => Sys2Proof.Machine.execNominalBoundary s
  | .holdDecision => Sys2Proof.Machine.execHoldDecision s
  | .tideBoundary => Sys2Proof.Machine.execTideBoundary s
  | .freqSettleEnd => Sys2Proof.Machine.execFreqSettleEnd s
  | .stoppedApply => Sys2Proof.Machine.execStoppedApply s
  | .tideHang ue => Sys2Proof.Machine.execTideHang ue s
  | .tideMarkEmit => Sys2Proof.Machine.execTideMarkEmit s
  | .tideMark l resent p => Sys2Proof.Machine.execTideMark l resent p s
  | .holdMsg l resent p => Sys2Proof.Machine.execHoldMsg l resent p s
  | .releaseMsg l resent p => Sys2Proof.Machine.execReleaseMsg l resent p s
  | .coreFault core ue => Sys2Proof.Machine.execCoreFault core ue s
  | .enmoraCoreFail core => Sys2Proof.Machine.execEnmoraCoreFail core s
  | .e2bTimeout b => Sys2Proof.Machine.execE2bTimeout b s
  | .responsePost mb => Sys2Proof.Machine.execResponsePost mb s
  | .eventPost => Sys2Proof.Machine.execEventPost s
  | .e2hDoorbell n msg => Sys2Proof.Machine.execE2hDoorbell n msg s
  | .e2bDoorbell b msg => Sys2Proof.Machine.execE2bDoorbell b msg s
  | .mailboxRelease set v => Sys2Proof.Machine.execMailboxRelease set v s
  | .h2eNextRead q => Sys2Proof.Machine.execH2eNextRead q s
  | .beatCountLoRead q => Sys2Proof.Machine.execBeatCountLoRead q s
  | .tideCountLoRead q => Sys2Proof.Machine.execTideCountLoRead q s
  | .stepNumberLoRead q => Sys2Proof.Machine.execStepNumberLoRead q s
  | .tjPeakRead q => Sys2Proof.Machine.execTjPeakRead q s
  | .opsPeakRead q core => Sys2Proof.Machine.execOpsPeakRead q core s
  | .maxSlipRead q region => Sys2Proof.Machine.execMaxSlipRead q region s
  | .hbmChunksPeakRead q => Sys2Proof.Machine.execHbmChunksPeakRead q s
  | .profTargetWrite q v => Sys2Proof.Machine.execProfTargetWrite q v s
  | .routeDataWrite q v => Sys2Proof.Machine.execRouteDataWrite q v s
  | .routeDataCWrite q v => Sys2Proof.Machine.execRouteDataCWrite q v s
  | .devIdWrite q v => Sys2Proof.Machine.execDevIdWrite q v s
  | .laneMapWrite q link v => Sys2Proof.Machine.execLaneMapWrite q link v s
  | .registerWrite q block off v => Sys2Proof.Machine.execRegisterWrite q block off v s
  | .hello p pay => Sys2Proof.Machine.execHello p pay s
  | .auth f => Sys2Proof.Machine.execAuth f s
  | .frameAck f => Sys2Proof.Machine.execFrameAck f s
  | .closeFrame f => Sys2Proof.Machine.execCloseFrame f s
  | .frameResend session seq => Sys2Proof.Machine.execFrameResend session seq s
  | .mbxPost f => Sys2Proof.Machine.execMbxPost f s
  | .mbxRead f => Sys2Proof.Machine.execMbxRead f s
  | .mbxRelease f => Sys2Proof.Machine.execMbxRelease f s
  | .winRead f => Sys2Proof.Machine.execWinRead f s
  | .winWrite f => Sys2Proof.Machine.execWinWrite f s
  | .regRd f => Sys2Proof.Machine.execRegRd f s
  | .regWr f => Sys2Proof.Machine.execRegWr f s
  | .keys f => Sys2Proof.Machine.execKeys f s
  | .imageFrame f => Sys2Proof.Machine.execImageFrame f s
  | .imageVerify => Sys2Proof.Machine.execImageVerify s
  | .readReq l resent p outcome => Sys2Proof.Machine.execReadReq l resent p outcome s
  | .readData l resent p => Sys2Proof.Machine.execReadData l resent p s
  | .writePkt l resent p => Sys2Proof.Machine.execWritePkt l resent p s
  | .writeAck l resent p => Sys2Proof.Machine.execWriteAck l resent p s
  | .unreach l resent p => Sys2Proof.Machine.execUnreach l resent p s
  | .lossReport l resent p => Sys2Proof.Machine.execLossReport l resent p s
  | .lossWaitExpire l => Sys2Proof.Machine.execLossWaitExpire l s
  | .linkAck l seq cr => Sys2Proof.Machine.execLinkAck l seq cr s
  | .linkAckSend l => Sys2Proof.Machine.execLinkAckSend l s
  | .nack l seq cr => Sys2Proof.Machine.execNack l seq cr s
  | .nackRepeat l => Sys2Proof.Machine.execNackRepeat l s
  | .flitCrcError l bad => Sys2Proof.Machine.execFlitCrcError l bad s
  | .rttProbe l => Sys2Proof.Machine.execRttProbe l s
  | .rttEcho l ns => Sys2Proof.Machine.execRttEcho l ns s
  | .linkDetectDone l => Sys2Proof.Machine.execLinkDetectDone l s
  | .linkEqualiseDone l => Sys2Proof.Machine.execLinkEqualiseDone l s
  | .linkFecLockDone l => Sys2Proof.Machine.execLinkFecLockDone l s
  | .linkDeskewDone l => Sys2Proof.Machine.execLinkDeskewDone l s
  | .linkParamDone l partner plink allPass => Sys2Proof.Machine.execLinkParamDone l partner plink allPass s
  | .linkStateTimeout l => Sys2Proof.Machine.execLinkStateTimeout l s
  | .laneFail l lane => Sys2Proof.Machine.execLaneFail l lane s
  | .laneSwap l lane => Sys2Proof.Machine.execLaneSwap l lane s
  | .swapMark l lane => Sys2Proof.Machine.execSwapMark l lane s
  | .swapLockDone l => Sys2Proof.Machine.execSwapLockDone l s
  | .linkDown l partnerStopped => Sys2Proof.Machine.execLinkDown l partnerStopped s
  | .swell r gap => Sys2Proof.Machine.execSwell r gap s
  | .marginLow r => Sys2Proof.Machine.execMarginLow r s
  | .xingHold r o => Sys2Proof.Machine.execXingHold r o s
  | .genFail r => Sys2Proof.Machine.execGenFail r s
  | .genFreqWindow r standby cycles => Sys2Proof.Machine.execGenFreqWindow r standby cycles s
  | .fixedPllLoss d => Sys2Proof.Machine.execFixedPllLoss d s
  | .junctionSample sample => Sys2Proof.Machine.execJunctionSample sample s
  | .ceilingRise half => Sys2Proof.Machine.execCeilingRise half s
  | .thermtrip sensor reading => Sys2Proof.Machine.execThermtrip sensor reading s
  | .pmbusPoll reads => Sys2Proof.Machine.execPmbusPoll reads s
  | .vrFault addr status => Sys2Proof.Machine.execVrFault addr status s
  | .hbmRefresh => Sys2Proof.Machine.execHbmRefresh s
  | .stackTempRead temps => Sys2Proof.Machine.execStackTempRead temps s
  | .pcCeWindow => Sys2Proof.Machine.execPcCeWindow s
  | .pcThreshold st => Sys2Proof.Machine.execPcThreshold st s
  | .pcCopyDone st => Sys2Proof.Machine.execPcCopyDone st s
  | .sliceThreshold n => Sys2Proof.Machine.execSliceThreshold n s
  | .sliceCopyDone h => Sys2Proof.Machine.execSliceCopyDone h s
  | .patrolScrub channel outcome => Sys2Proof.Machine.execPatrolScrub channel outcome s
  | .snapIntervalExpire => Sys2Proof.Machine.execSnapIntervalExpire s
  | .snapReq l resent p => Sys2Proof.Machine.execSnapReq l resent p s
  | .snapFreezeDone => Sys2Proof.Machine.execSnapFreezeDone s
  | .snapTransferDone => Sys2Proof.Machine.execSnapTransferDone s
  | .snapDone l resent p => Sys2Proof.Machine.execSnapDone l resent p s
  | .snapCommit l resent p => Sys2Proof.Machine.execSnapCommit l resent p s
  | .snapFail l resent p => Sys2Proof.Machine.execSnapFail l resent p s
  | .snapAbort l resent p => Sys2Proof.Machine.execSnapAbort l resent p s
  | .restoreDone => Sys2Proof.Machine.execRestoreDone s
  | .resetNAssert => Sys2Proof.Machine.execResetNAssert s
  | .resetNRelease bootsel clkmode => Sys2Proof.Machine.execResetNRelease bootsel clkmode s
  | .powerOnAssert => Sys2Proof.Machine.execPowerOnAssert s
  | .powerOnRelease bootsel clkmode => Sys2Proof.Machine.execPowerOnRelease bootsel clkmode s
  | .domainClockValid d => Sys2Proof.Machine.execDomainClockValid d s
  | .domainClockFail d => Sys2Proof.Machine.execDomainClockFail d s
  | .romSelftestDone ok => Sys2Proof.Machine.execRomSelftestDone ok s
  | .enmoraStageDone => Sys2Proof.Machine.execEnmoraStageDone s
  | .memoryTrained hbm dimms us => Sys2Proof.Machine.execMemoryTrained hbm dimms us s
  | .wakeDone => Sys2Proof.Machine.execWakeDone s
  | .portAcquireDone p => Sys2Proof.Machine.execPortAcquireDone p s
  | .portAlignDone p => Sys2Proof.Machine.execPortAlignDone p s
  | .portLightLoss p => Sys2Proof.Machine.execPortLightLoss p s
  | .portFecLoss p => Sys2Proof.Machine.execPortFecLoss p s
  | .lighthouseError test => Sys2Proof.Machine.execLighthouseError test s
  | .descDone core list idx => Sys2Proof.Machine.execDescDone core list idx s
  | .sleepEntryDone => Sys2Proof.Machine.execSleepEntryDone s
  | .ddr5Refresh => Sys2Proof.Machine.execDdr5Refresh s
  | .blockCopyDone target outcome => Sys2Proof.Machine.execBlockCopyDone target outcome s
  | .measureProbe mb beats => Sys2Proof.Machine.execMeasureProbe mb beats s

end Sys2Proof.Machine
end

