-- ==== Sys2Proof/Safety.lean ====
section
/-!
DEFINITION. What counts as a safe run of the block, and the conditions in which the claims about it are stated.
-/
namespace Sys2Proof

open Sys2Proof.Machine

/-- An outcome that is a next state. -/
def Safety.isNext {σ φ ρ : Type} : Host.Outcome σ φ ρ → Bool
  | .next _ => true
  | _ => false

/-- The run of `n` steps from `s` stops at no fault and no refusal. -/
def Safety.runs (n : Nat) (s : State) : Bool := Safety.isNext (core.run n s)

/-- The canonical form of memory and of the register file, which every step keeps. -/
def Safety.canonical (s : State) : Bool := Memory.wf s.mem && Sparse.wf regReset s.regs

/-- Enmora begins the command `r` of opcode `op`: the Command role runs (R86, R549), no thermal trip silences it (R513), and it has taken the command from its
mailbox, with no serialised command before it still to be answered where `op` is serialised (R104, R106). -/
def Safety.begins (op : Nat) (r : Req) (s : State) : Bool := s.commandRuns && !s.rst.tripped && mayBegin op r s.enm.taken

/-- Enmora begins the command, and serves its family in the present state (R90, R550). -/
def Safety.serves (op : Nat) (r : Req) (s : State) : Bool := Safety.begins op r s && s.servesFamily op

/-- Enmora begins and serves the command, and the device is not in Sleep (R518). -/
def Safety.ready (op : Nat) (r : Req) (s : State) : Bool := Safety.serves op r s && !s.pwr.sleep

end Sys2Proof
end

