-- ==== Sys2Proof/Certificates/Slice0/Obligations.lean ====
section
/-!
DEFINITION. The statements for the provers, by the block's units: how a step runs, the mailbox commands, the register accesses, the engines and their
descriptors, the links, the tides, and what happens on its own. `s` is any state, `exec c s` the command's effect; a statement's hypotheses are on
the state and the operands alone.
-/
open Sys2Proof Sys2Proof.Machine

/-- A step takes the command at the front of the queue and runs it on the state with the queue's rest; the commands that wait keep their order, first
in, first out. -/
def Obligations.StepRunsTheFront : Prop :=
  ∀ (c : Instr) (rest : List Instr) (s t : State),
    step { s with pending := c :: rest } = exec c { s with pending := rest } ∧ (s.pending = c :: rest → step s = .next t → t.pending = rest)

/-- On an empty queue one beat of the tide reference passes: BEAT_COUNT increments when the tide sequencer's domain is out of reset, and nothing else
changes (R37; that a step with no command is one beat is the model's choice, log entry 3). -/
def Obligations.IdleStepIsOneBeat : Prop :=
  ∀ s : State, s.pending = [] → step s = .next { s with beat := if s.beatOn then s.beat + 1 else s.beat }

/-- Every command completes: no command stops the block, and nothing waits in the queue that the block could not take. -/
def Obligations.EveryCommandCompletes : Prop :=
  ∀ s : State, ∃ t, step s = .next t

/-- Every step keeps the canonical form of memory and of the register file: addresses and keys strictly rising, and no entry equal to what an unlisted
one reads as. -/
def Obligations.EveryStepKeepsCanonicalForm : Prop :=
  ∀ s t : State, Safety.canonical s = true → step s = .next t → Safety.canonical t = true

/-- The state after reset (R40, R86, R527, R551). It is in canonical form, with an empty queue; every register is at its reset value and memory lists
nothing; the Command, Tide and Health roles run on Enmora cores 0, 1 and 2, and core 3 is the spare; the tide sequencer is stopped with boundary 0
next, no image is admitted, no job exists, no session is open. -/
def Obligations.ResetState : Prop :=
  Safety.canonical State.reset = true ∧ State.reset.pending = [] ∧ (∀ k, State.reset.reg k = regReset k) ∧ State.reset.mem = [] ∧
  State.reset.enm.roleCore = [0, 1, 2] ∧ State.reset.enm.failed = [] ∧ State.reset.enm.spares = [3] ∧
  State.reset.tide.running = false ∧ State.reset.tide.count = 0 ∧ State.reset.tide.next = 0 ∧ State.reset.tide.offset = 0 ∧
  (∀ h, (State.reset.image h).active = false) ∧ State.reset.job.exists_ = false ∧ State.reset.group.member = false ∧
  (∀ n, State.reset.session n = none) ∧ State.reset.log.entries = [] ∧ State.reset.rst.asserted = true ∧ State.reset.beatOn = false

/-- R463: a spare stays in use until power-on: every step but POWER_ON_ASSERT keeps every substitution of the spare map (core slots, slices,
generators, Enmora cores), and none changes what the part is. -/
def Obligations.SparesStayInUse : Prop :=
  ∀ s t : State, s.pending.head? ≠ some .powerOnAssert → step s = .next t →
    (∀ x ∈ s.kept.failedSlots, x ∈ t.kept.failedSlots) ∧ (∀ x ∈ s.kept.spareSlotOf, x ∈ t.kept.spareSlotOf)
      ∧ (∀ x ∈ s.kept.spareSlice, x ∈ t.kept.spareSlice) ∧ (∀ x ∈ s.kept.failedGens, x ∈ t.kept.failedGens)
      ∧ (∀ x ∈ s.kept.failedEnmora, x ∈ t.kept.failedEnmora) ∧ t.part = s.part

/-- Only time counts BEAT_COUNT: no command changes it, or the reset pins' state, but those of reset and boot. -/
def Obligations.OnlyResetMovesTheBeat : Prop :=
  ∀ (c : Instr) (s t : State), c ≠ .resetNAssert → c ≠ .powerOnAssert → (∀ b k, c ≠ .resetNRelease b k) → (∀ b k, c ≠ .powerOnRelease b k)
    → (∀ d, c ≠ .domainClockValid d) → exec c s = .next t →
      t.beat = s.beat ∧ t.beatOn = s.beatOn ∧ t.rst.asserted = s.rst.asserted ∧ t.rst.powerOn = s.rst.powerOn ∧ t.rst.pinLow = s.rst.pinLow

/-- R423: routing entries change only at boundaries: no command but TIDE_BOUNDARY and STOPPED_APPLY, at whose step 3 shadowed writes apply, and the
two resets, which restore it, changes the routing table; and no command but those that form or leave a tide group, the master's marks and boundaries
changes what the device knows of its group. -/
def Obligations.RoutesChangeAtBoundaries : Prop :=
  ∀ (c : Instr) (s t : State), c ≠ .tideBoundary → c ≠ .stoppedApply → c ≠ .resetNAssert → c ≠ .powerOnAssert → exec c s = .next t →
    t.routes = s.routes ∧ ((∀ r, c ≠ .jobGroupForm r) → (∀ r, c ≠ .jobGroupLeave r) → (∀ l b p, c ≠ .tideMark l b p) → c ≠ .tideMarkEmit → t.group = s.group)

/-- R33 and the log's order (R32): each entry takes the next sequence number. While the ring holds fewer than 4,096 entries nothing is lost; a new
entry in a full ring overwrites the oldest, and the lost-entry counter, which saturates, increments when that one was unread. An entry is placed
newest unless one of its own beat has a higher source. Writing an entry changes nothing but the log and the events that wait. -/
def Obligations.LogKeepsTheNewest : Prop :=
  (∀ (l : Log) (e : LogEntry),
    (l.add e).next = l.next + 1 ∧ (l.add e).read = l.read ∧
    (l.entries.length < 4096 → (l.add e).entries = Log.place e l.entries ∧ (l.add e).entries.length = l.entries.length + 1 ∧ (l.add e).lost = l.lost) ∧
    (l.entries.length = 4096 → (l.add e).entries = (Log.place e l.entries).take 4096 ∧ (l.add e).entries.length = 4096
      ∧ (l.add e).lost = if seqAfter (l.next - 4096) l.read then satAdd l.lost 1 else l.lost) ∧
    ((∀ x ∈ l.entries.head?, x.beat = e.beat → x.source.toNat ≤ e.source.toNat) → Log.place e l.entries = e :: l.entries) ∧
    (∀ x, x ∈ Log.place e l.entries ↔ x = e ∨ x ∈ l.entries)) ∧
  (∀ (source : Half) (code : Nat) (detail : List Byte) (s : State), s.log_ source code detail =
    { s with log := (s.log_ source code detail).log, enm := (s.log_ source code detail).enm })

/-- A mailbox command begins, or is refused, in the order of Table 3.6 (R97, R102, R104, R106, R112, R513, R518, R549, R550). One that Enmora may not
begin (the Command role does not run, a thermal trip silences it, it has not been taken from its mailbox, or a serialised command before it is not
answered) waits, and nothing changes. A LENGTH above 240, or other than the opcode requires, is answered ERR_LENGTH before anything else of the
payload is judged; next, an expert command from a session without the privilege ERR_PRIVILEGE; and a command without a payload that is not served in
the present state (Sleep, R518; one core left or a failed boot, R90, R550) ERR_STATE. Of commands with a payload, a field out of its range is answered
ERR_PARAM, before the state is judged, and a legal one that the state does not allow ERR_STATE; JOB_ROUTE_SET of another length than its kind requires
ERR_LENGTH; and an expert read of the Lighthouse block ERR_DENIED, last. A refused command changes nothing but its response. -/
def Obligations.CommandChecksInOrder : Prop :=
  ∀ (r : Req) (s : State),
    (∀ x : (Req → Instr) × Nat, x ∈
        [(.devIdentify, 0x0101), (.devStatus, 0x0102), (.devCaps, 0x0103), (.devResetCause, 0x0104), (.devSpares, 0x0105), (.devSleep, 0x0106),
        (.devWake, 0x0107), (.devEcho, 0x0108), (.devArrayCheck, 0x0109), (.tideLoad, 0x0201), (.tideArm, 0x0202), (.tideDisarm, 0x0203),
        (.tideUnload, 0x0204), (.tideRun, 0x0205), (.tideStop, 0x0206), (.tideHold, 0x0207), (.tideRelease, 0x0208), (.tideConfig, 0x0209),
        (.tideStatus, 0x020A), (.profSet, 0x0301), (.profGet, 0x0302), (.profLimits, 0x0303), (.profRamp, 0x0304), (.profHistory, 0x0305)] ++
        [(.memWindowOpen, 0x0401), (.memWindowClose, 0x0402), (.memRead, 0x0403), (.memWrite, 0x0404), (.memFill, 0x0405), (.memInfo, 0x0406),
        (.memScrub, 0x0407), (.memShelfLimit, 0x0408), (.linkStatus, 0x0501), (.linkTrain, 0x0502), (.linkMargin, 0x0503), (.linkDisable, 0x0504),
        (.linkEnable, 0x0505), (.linkCounters, 0x0506), (.linkLoopback, 0x0507), (.jobCreate, 0x0601), (.jobSetId, 0x0602), (.jobRouteSet, 0x0603),
        (.jobRouteGet, 0x0604), (.jobMeasure, 0x0605), (.jobGroupForm, 0x0606), (.jobGroupLeave, 0x0607), (.jobCursor, 0x0608), (.jobStatus, 0x0609)] ++
        [(.jobEnd, 0x060A), (.snapConfig, 0x0701), (.snapPolicy, 0x0702), (.snapInterval, 0x0703), (.snapNow, 0x0704), (.snapStatus, 0x0705),
        (.restorePrepare, 0x0801), (.restoreRun, 0x0802), (.restoreStatus, 0x0803), (.restoreVerify, 0x0804), (.telLogRead, 0x0901),
        (.telLogStatus, 0x0902), (.telAreaSet, 0x0903), (.telAlarmSet, 0x0904), (.telCounters, 0x0905), (.telEventMask, 0x0906), (.secCertGet, 0x0A01),
        (.secAttest, 0x0A02), (.secMeasureLog, 0x0A03), (.secExpert, 0x0A04), (.secDrop, 0x0A05), ((.secSelftest · none), 0x0A06), (.regRead, 0x0B01),
        (.regWrite, 0x0B02)] ++
        [(.regModify, 0x0B03), (.regPoll, 0x0B04)] →
      (Safety.begins x.2 r s = false → (x.2 = 0x0104 → s.rst.tripped = false) → exec (x.1 r) s = .next s)
      ∧ (Safety.begins x.2 r s = true → 240 < r.pay.length → exec (x.1 r) s = .next (s.respond r.mb x.2 r.tag ⟨2, []⟩))) ∧
    (∀ x : (Req → Instr) × Nat × Nat, x ∈
        [(.devIdentify, 0x0101, 0), (.devStatus, 0x0102, 0), (.devCaps, 0x0103, 0), (.devResetCause, 0x0104, 0), (.devSpares, 0x0105, 0),
        (.devSleep, 0x0106, 9), (.devWake, 0x0107, 0), (.devArrayCheck, 0x0109, 33), (.tideLoad, 0x0201, 12), (.tideArm, 0x0202, 16),
        (.tideDisarm, 0x0203, 1), (.tideUnload, 0x0204, 1), (.tideRun, 0x0205, 8), (.tideStop, 0x0206, 8), (.tideHold, 0x0207, 8),
        (.tideRelease, 0x0208, 8), (.tideConfig, 0x0209, 12), (.tideStatus, 0x020A, 0), (.profSet, 0x0301, 9), (.profGet, 0x0302, 0),
        (.profLimits, 0x0303, 0), (.profRamp, 0x0304, 33), (.profHistory, 0x0305, 0), (.memWindowOpen, 0x0401, 20)] ++
        [(.memWindowClose, 0x0402, 1), (.memRead, 0x0403, 12), (.memFill, 0x0405, 24), (.memInfo, 0x0406, 0), (.memScrub, 0x0407, 2),
        (.memShelfLimit, 0x0408, 2), (.linkStatus, 0x0501, 0), (.linkTrain, 0x0502, 16), (.linkMargin, 0x0503, 1), (.linkDisable, 0x0504, 8),
        (.linkEnable, 0x0505, 8), (.linkCounters, 0x0506, 1), (.linkLoopback, 0x0507, 2), (.jobCreate, 0x0601, 96), (.jobSetId, 0x0602, 4),
        (.jobRouteGet, 0x0604, 4), (.jobMeasure, 0x0605, 2), (.jobGroupLeave, 0x0607, 8), (.jobCursor, 0x0608, 0), (.jobStatus, 0x0609, 0),
        (.jobEnd, 0x060A, 0), (.snapConfig, 0x0701, 48), (.snapPolicy, 0x0702, 4), (.snapInterval, 0x0703, 8)] ++
        [(.snapNow, 0x0704, 0), (.snapStatus, 0x0705, 0), (.restoreRun, 0x0802, 8), (.restoreStatus, 0x0803, 0), (.restoreVerify, 0x0804, 0),
        (.telLogRead, 0x0901, 5), (.telLogStatus, 0x0902, 0), (.telAreaSet, 0x0903, 16), (.telAlarmSet, 0x0904, 12), (.telCounters, 0x0905, 2),
        (.telEventMask, 0x0906, 2), (.secCertGet, 0x0A01, 3), (.secAttest, 0x0A02, 65), (.secMeasureLog, 0x0A03, 8), (.secExpert, 0x0A04, 132),
        (.secDrop, 0x0A05, 0), ((.secSelftest · none), 0x0A06, 0), (.regRead, 0x0B01, 16), (.regModify, 0x0B03, 24), (.regPoll, 0x0B04, 24)] →
      Safety.begins x.2.1 r s = true → r.pay.length ≠ x.2.2 → exec (x.1 r) s = .next (s.respond r.mb x.2.1 r.tag ⟨2, []⟩)) ∧
    (∀ x : (Req → Instr) × Nat × Nat, x ∈ ([(.memWrite, 0x0404, 12 + r.at 8 4), (.jobGroupForm, 0x0606, 24 + 2 * r.at 20 2),
        (.restorePrepare, 0x0801, 20 + 2 * r.at 16 2), (.regWrite, 0x0B02, 16 + 4 * r.at 8 4)] : List ((Req → Instr) × Nat × Nat)) →
      Safety.begins x.2.1 r s = true → r.pay.length ≠ x.2.2 → exec (x.1 r) s = .next (s.respond r.mb x.2.1 r.tag ⟨2, []⟩)) ∧
    (∀ x : (Req → Instr) × Nat × Nat, x ∈
        [(.profRamp, 0x0304, 33), (.linkLoopback, 0x0507, 2), (.regRead, 0x0B01, 16), (.regModify, 0x0B03, 24), (.regPoll, 0x0B04, 24)] →
      Safety.begins x.2.1 r s = true → r.pay.length = x.2.2 → s.expertReq r.mb = false →
      exec (x.1 r) s = .next (s.respond r.mb x.2.1 r.tag ⟨4, []⟩)) ∧
    (Safety.begins 0x0B02 r s = true → r.pay.length = 16 + 4 * r.at 8 4 → r.pay.length ≤ 240 → s.expertReq r.mb = false →
      exec (.regWrite r) s = .next (s.respond r.mb 0x0B02 r.tag ⟨4, []⟩)) ∧
    (∀ x : (Req → Instr) × Nat, x ∈
        [(.tideStatus, 0x020A), (.profLimits, 0x0303), (.profHistory, 0x0305), (.memInfo, 0x0406), (.linkStatus, 0x0501), (.jobCursor, 0x0608),
        (.jobStatus, 0x0609), (.jobEnd, 0x060A), (.snapNow, 0x0704), (.snapStatus, 0x0705), (.restoreStatus, 0x0803), (.restoreVerify, 0x0804)] →
      Safety.begins x.2 r s = true → r.pay = [] → s.pwr.sleep = true ∨ s.servesFamily x.2 = false →
      exec (x.1 r) s = .next (s.respond r.mb x.2 r.tag ⟨6, []⟩)) ∧
    (Safety.begins 0x0603 r s = true → routeSetLen r.pay = false → exec (.jobRouteSet r) s = .next (s.respond r.mb 0x0603 r.tag ⟨2, []⟩)) ∧
    (∀ x : (Req → Instr) × Nat × Nat × Bool, x ∈ ([(.tideDisarm, 0x0203, 1, decide (16 ≤ r.at 0 1)), (.tideUnload, 0x0204, 1, decide (16 ≤ r.at 0 1)),
        (.profSet, 0x0301, 9, r.at 0 1 == 3), (.memWindowClose, 0x0402, 1, decide (4 ≤ r.at 0 1)), (.memRead, 0x0403, 12, r.at 8 4 == 0 || decide (224 < r.at 8 4)),
        (.linkMargin, 0x0503, 1, decide (64 ≤ r.at 0 1)), (.snapPolicy, 0x0702, 4, r.at 0 2 == 0 || r.at 2 1 == 0 || decide (100 < r.at 2 1)),
        (.snapInterval, 0x0703, 8, r.at 4 4 != 0), (.devSleep, 0x0106, 9, decide (2 ≤ r.at 0 1)),
        (.regRead, 0x0B01, 16, s.expertReq r.mb && (r.at 8 4 == 0 || decide (56 < r.at 8 4)))] : List ((Req → Instr) × Nat × Nat × Bool)) →
      Safety.begins x.2.1 r s = true → r.pay.length = x.2.2.1 → x.2.2.2 = true → exec (x.1 r) s = .next (s.respond r.mb x.2.1 r.tag ⟨5, []⟩)) ∧
    (∀ x : (Req → Instr) × Nat × Nat × Bool, x ∈ ([(.tideDisarm, 0x0203, 1, decide (r.at 0 1 < 16)), (.tideUnload, 0x0204, 1, decide (r.at 0 1 < 16)),
        (.profSet, 0x0301, 9, decide (r.at 0 1 < 3)), (.memWindowClose, 0x0402, 1, decide (r.at 0 1 < 4)), (.linkMargin, 0x0503, 1, decide (r.at 0 1 < 64)),
        (.snapInterval, 0x0703, 8, r.at 4 4 == 0)] : List ((Req → Instr) × Nat × Nat × Bool)) →
      Safety.begins x.2.1 r s = true → r.pay.length = x.2.2.1 → x.2.2.2 = true → s.pwr.sleep = true ∨ s.servesFamily x.2.1 = false →
      exec (x.1 r) s = .next (s.respond r.mb x.2.1 r.tag ⟨6, []⟩)) ∧
    (∀ k, Safety.ready 0x0B01 r s = true → r.pay.length = 16 → s.expertReq r.mb = true → 1 ≤ r.at 8 4 → r.at 8 4 ≤ 56 → r.at 12 4 = 0 →
      regKey (r.at 0 8) (r.at 8 4) = some k → blockOf k = 2 → exec (.regRead r) s = .next (s.respond r.mb 0x0B01 r.tag ⟨7, []⟩))

/-- The DEV_* commands that report (R555, R102): each answers OK with the payload of Table 15.10 and changes nothing else. They are served in Sleep
too, and DEV_RESET_CAUSE after a thermal trip as well (R513). -/
def Obligations.DeviceQueriesAnswer : Prop :=
  ∀ (r : Req) (s : State),
    (Safety.serves 0x0101 r s = true → r.pay = [] →
      exec (.devIdentify r) s = .next (s.respond r.mb 0x0101 r.tag ⟨0, s.part.ordering ++ leBytes 2 0xA1 ++ padBytes 16 s.part.serial
        ++ leBytes 4 (s.reg R.fwVersion).toNat ++ leBytes 4 s.part.romVersion.toNat ++ leBytes 2 s.part.secVersionMin.toNat⟩)) ∧
    (Safety.serves 0x0102 r s = true → r.pay = [] →
      exec (.devStatus r) s = .next (s.respond r.mb 0x0102 r.tag ⟨0,
        leBytes 1 (if s.pwr.sleep then 2 else if (List.range 20).all fun g => s.regionMode g != 0 then 1 else 0) ++ leBytes 2 (s.reg R.profState).toNat
        ++ leBytes 1 (bits (s.reg R.bootState) 0 4) ++ leBytes 1 s.statusBits ++ leBytes 4 s.enm.evtLost.toNat⟩)) ∧
    (Safety.serves 0x0103 r s = true → r.pay = [] →
      exec (.devCaps r) s = .next (s.respond r.mb 0x0103 r.tag ⟨0, leBytes 4 (s.reg R.hbmCapacity).toNat ++ leBytes 4 (s.reg R.ddrCapacity).toNat
        ++ leBytes 1 (if s.part.high12 then 12 else 16) ++ leBytes 2 (s.reg (R.ddrState 0)).toNat ++ leBytes 1 64 ++ leBytes 2 256⟩)) ∧
    (s.commandRuns = true → mayBegin 0x0104 r s.enm.taken = true → s.servesFamily 0x0104 = true → r.pay = [] →
      exec (.devResetCause r) s = .next (s.respond r.mb 0x0104 r.tag ⟨0, leBytes 4 (s.reg R.resetCause).toNat⟩)) ∧
    (Safety.serves 0x0105 r s = true → r.pay = [] → s.kept.spares.length = 10 →
      ∃ p, p.length = 60 ∧ exec (.devSpares r) s = .next (s.respond r.mb 0x0105 r.tag ⟨0, p⟩)
        ∧ (∀ i < 10, (p.drop (6 * i)).take 4 = leBytes 2 ([128, 0xFFFF, 272, 16, 2, 8, 0xFFFF, 0xFFFF, 1, 16].getD i 0)
            ++ leBytes 2 (min (s.kept.spares.getD i 0) 0xFFFF))) ∧
    (Safety.serves 0x0108 r s = true → r.pay.length ≤ 240 → exec (.devEcho r) s = .next (s.respond r.mb 0x0108 r.tag ⟨0, r.pay⟩))

/-- The DEV_* and PROF_* commands that change state, with all they change. DEV_SLEEP takes a boundary and SLICE_RETAIN (R65, R518), and refuses a late
boundary with PROF_REFUSED_LATE; DEV_WAKE powers the regions that Sleep powered off and answers later (R519), having begun; DEV_ARRAY_CHECK and
PROF_RAMP queue CHECK_EN and RAMP_LEN of ARRAY_CTRL for each core of the mask (R173, R520): DEV_ARRAY_CHECK ends the override of that field alone, and
PROF_RAMP is an expert override of its own (R112). -/
def Obligations.DeviceCommandsAct : Prop :=
  ∀ (r : Req) (s : State),
    (Safety.ready 0x0106 r s = true → r.pay.length = 9 → r.at 0 1 ≤ 1 → s.group.member = false → s.copyRunning = false
      → s.images.any (fun i => i.reaches (s.namedBoundary (r.at 1 8))) = false →
      (s.late (r.at 1 8) = false → ∀ x : Option Nat × Bool,
        (s.tide.running = false → x = (none, r.at 0 1 == 1)) →
        (s.tide.running = true → (∀ b0 r0, s.pwr.sleepAt = some (some b0, r0) → b0 < r.at 1 8 → x = (some b0, r0)) ∧
          ((∀ b0 r0, s.pwr.sleepAt = some (some b0, r0) → r.at 1 8 ≤ b0) → x = (some (r.at 1 8), r.at 0 1 == 1))) →
        exec (.devSleep r) s = .next (({ s with pwr := { s.pwr with sleepAt := some x } } : State).respond r.mb 0x0106 r.tag ⟨0, []⟩)) ∧
      (s.late (r.at 1 8) = true → exec (.devSleep r) s = .next (s.respond r.mb 0x0106 r.tag
        ⟨8, leBytes 1 0x21 ++ [0] ++ leBytes 2 0xFFFF ++ leBytes 8 (r.at 1 8) ++ leBytes 4 0xFFFFFFFF⟩))) ∧
    (Safety.serves 0x0107 r s = true → s.pwr.sleep = true → s.pwr.waking = none → r.pay = [] → Safety.canonical s = true →
      ∃ t : State, exec (.devWake r) s = .next t
        ∧ t = { s with regs := t.regs, pwr := { s.pwr with waking := some (r.mb, r.tag) }, enm := { s.enm with taken := Taken.mark s.enm.taken r.mb .begun } }
        ∧ (∀ i < 38, t.regionMode i = if s.regionMode i = 2 then 3 else s.regionMode i)
        ∧ ∀ k, (∀ i < 38, k ≠ R.regionState i) → t.reg k = s.reg k) ∧
    (Safety.serves 0x0109 r s = true → r.pay.length = 33 → r.at 0 1 ≤ 1 →
      ∃ t : State, exec (.devArrayCheck r) s = .next (t.respond r.mb 0x0109 r.tag ⟨0, []⟩) ∧ t = { s with shadow := t.shadow, overrides := t.overrides }
        ∧ (∀ n < 256, t.latest (R.arrayCtrl n) = if (r.at 1 32).testBit n then setBits (s.latest (R.arrayCtrl n)) 0 1 (r.at 0 1)
            else s.latest (R.arrayCtrl n))
        ∧ (∀ k, (∀ n < 256, k ≠ R.arrayCtrl n) → t.pendingReg k = s.pendingReg k)
        ∧ ∀ k, k ∈ t.overrides ↔ k ∈ s.overrides ∧ ∀ n < 256, (r.at 1 32).testBit n → k ≠ checkEnName (R.arrayCtrl n)) ∧
    (Safety.ready 0x0304 r s = true → r.pay.length = 33 → s.expertReq r.mb = true → r.at 0 1 ≤ 2 →
      ∃ t : State, exec (.profRamp r) s = .next (t.respond r.mb 0x0304 r.tag ⟨0, []⟩) ∧ t = { s with shadow := t.shadow, overrides := t.overrides }
        ∧ (∀ n < 256, t.latest (R.arrayCtrl n) = if (r.at 1 32).testBit n then setBits (s.latest (R.arrayCtrl n)) 1 2 (r.at 0 1)
            else s.latest (R.arrayCtrl n))
        ∧ (∀ k, (∀ n < 256, k ≠ R.arrayCtrl n) → t.pendingReg k = s.pendingReg k)
        ∧ ∀ k, k ∈ t.overrides ↔ k ∈ s.overrides ∨ ∃ n < 256, (r.at 1 32).testBit n ∧ k = rampLenName (R.arrayCtrl n))

/-- The image commands of the tide sequencer (R81). TIDE_LOAD gives the lowest free handle to an image in memory whose MAGIC, VERSION and length are
right; TIDE_DISARM withdraws an admitted image whose first tide has not opened and returns its handle to loaded; TIDE_UNLOAD frees a handle that is
loaded or finished; TIDE_ARM admits an image that passes every check of Table 2.1, measures its header (R578) and gives the handle its first tide, or
refuses it with the code of the first check that fails, in the response and in the log (R50). Nothing else changes. -/
def Obligations.ImageCommandsAct : Prop :=
  ∀ (r : Req) (s : State),
    (Safety.ready 0x0201 r s = true → r.pay.length = 12 → s.loadOk (r.at 0 8) (r.at 8 4) = true →
      ∀ h : Nat, h < s.images.length → (s.image h).st = .free → (∀ i < h, (s.image i).st ≠ .free) →
        exec (.tideLoad r) s = .next (({ s with images := s.images.set h ({ st := .loaded, addr := r.at 0 8, len := r.at 8 4 } : Image) } : State).respond
          r.mb 0x0201 r.tag ⟨0, leBytes 1 h⟩)) ∧
    (Safety.ready 0x0203 r s = true → r.pay.length = 1 → r.at 0 1 < 16 → (s.image (r.at 0 1)).st = .admitted →
      exec (.tideDisarm r) s = .next (
        ({ s with images := s.images.set (r.at 0 1) ({ st := .loaded, addr := (s.image (r.at 0 1)).addr, len := (s.image (r.at 0 1)).len } : Image) } : State).respond r.mb 0x0203 r.tag ⟨0, []⟩)) ∧
    (Safety.ready 0x0204 r s = true → r.pay.length = 1 → r.at 0 1 < 16 → (s.image (r.at 0 1)).st = .loaded ∨ (s.image (r.at 0 1)).st = .finished →
      exec (.tideUnload r) s = .next (({ s with images := s.images.set (r.at 0 1) {} } : State).respond r.mb 0x0204 r.tag ⟨0, []⟩)) ∧
    (Safety.ready 0x0202 r s = true → r.pay.length = 16 → r.at 0 1 < 16 → r.at 1 7 = 0 → (s.image (r.at 0 1)).st = .loaded →
      s.armPrivilege r (s.image (r.at 0 1)) (r.at 8 8) = false →
      (s.admission (s.image (r.at 0 1)) (r.at 8 8) = none →
        ∃ t : State, exec (.tideArm r) s = .next (t.respond r.mb 0x0202 r.tag ⟨0, []⟩) ∧ t = { s with images := t.images, lys := t.lys }
          ∧ (r.at 0 1 < s.images.length → (t.image (r.at 0 1)).st = .admitted ∧ (t.image (r.at 0 1)).k0 = r.at 8 8)
          ∧ (∀ h, h ≠ r.at 0 1 → t.image h = s.image h) ∧ t.lys.tideMeasures = s.lys.tideMeasures + 1
          ∧ t.lys.tideDigest = sha512 (s.lys.tideDigest ++ sha512 (s.bytes (s.image (r.at 0 1)).addr 256) ++ leBytes 8 (r.at 8 8))) ∧
      (∀ x : Refused, s.admission (s.image (r.at 0 1)) (r.at 8 8) = some x →
        let pay := leBytes 1 x.code ++ [0] ++ leBytes 2 x.engine ++ leBytes 8 x.tide ++ leBytes 4 x.offset
        exec (.tideArm r) s = .next ((s.logFull 0x0800 0x0003 (BitVec.ofNat 16 x.engine) r.tag pay []).respond r.mb 0x0202 r.tag ⟨8, pay⟩)))

/-- The other TIDE_* commands (R40, R42, R55, R65, R77, R80, R81). TIDE_RUN names a group beat at least 12,500 beats on while the sequencer is
stopped; TIDE_STOP names a boundary that splits no span, at n + 2 or later; TIDE_HOLD and TIDE_RELEASE hold and release a boundary (stated here for a
device that holds the boundary for no group, where no message goes out); TIDE_CONFIG queues TIDE_PERIOD and TIDE_SLACK for the next boundary, sets
HOLD_LIMIT, and leaves a register whose field is 0; TIDE_STATUS reports and changes nothing. -/
def Obligations.TideCommandsAct : Prop :=
  ∀ (r : Req) (s : State),
    (Safety.ready 0x0205 r s = true → r.pay.length = 8 → s.tide.running = false → s.tide.past3 = false
      → s.groupBeat + 12500 ≤ (BitVec.ofNat 64 (r.at 0 8)).toInt →
      exec (.tideRun r) s = .next (({ s with tide := { s.tide with runAt := some (BitVec.ofNat 64 (r.at 0 8)).toInt, fallen := false, causes := 0 } } : State).respond
        r.mb 0x0205 r.tag ⟨0, []⟩)) ∧
    (Safety.ready 0x0206 r s = true → r.pay.length = 8 → s.tide.running = true → s.splitsSpan (r.at 0 8) = false → s.group.member = false →
      (s.tide.count.toNat + 2 ≤ r.at 0 8 → ∃ l, (∀ k, k ∈ l ↔ k = r.at 0 8 ∨ k ∈ s.tide.stops) ∧
        exec (.tideStop r) s = .next (({ s with tide := { s.tide with stops := l } } : State).respond r.mb 0x0206 r.tag ⟨0, []⟩)) ∧
      (r.at 0 8 < s.tide.count.toNat + 2 → exec (.tideStop r) s = .next (s.respond r.mb 0x0206 r.tag
        ⟨8, leBytes 1 0x21 ++ [0] ++ leBytes 2 0xFFFF ++ leBytes 8 (r.at 0 8) ++ leBytes 4 0xFFFFFFFF⟩))) ∧
    (Safety.ready 0x0207 r s = true → r.pay.length = 8 → s.tide.count.toNat < r.at 0 8 → s.nextStep3 ≤ r.at 0 8 → s.group.member = false →
      ∃ l, (∀ k, k ∈ l ↔ k = r.at 0 8 ∨ k ∈ s.tide.hostHolds) ∧
        exec (.tideHold r) s = .next (
          ({ s with tide := { s.tide with hostHolds := l, hostReleased := s.tide.hostReleased.filter (·.1 != r.at 0 8) } } : State).respond r.mb 0x0207 r.tag ⟨0, []⟩)) ∧
    (Safety.ready 0x0208 r s = true → r.pay.length = 8 → r.at 0 8 ∈ s.tide.hostHolds → s.tide.selfHolds = [] →
      ∃ t : State, exec (.tideRelease r) s = .next (t.respond r.mb 0x0208 r.tag ⟨0, []⟩) ∧ t = { s with tide := t.tide }
        ∧ t.tide = { s.tide with hostHolds := s.tide.hostHolds.filter (· != r.at 0 8)
                                 hostReleased := s.tide.hostReleased ++ [(r.at 0 8, s.groupBeat)] }) ∧
    (Safety.ready 0x0209 r s = true → r.pay.length = 12 → r.at 6 2 = 0 → (r.at 0 4 = 0 ∨ regLegal R.tidePeriod (r.at 0 4) = true)
      → (r.at 4 2 = 0 ∨ regLegal R.tideSlack (r.at 4 2) = true) → (r.at 8 4 = 0 ∨ regLegal R.holdLimit (r.at 8 4) = true) → Safety.canonical s = true →
      ∃ t : State, exec (.tideConfig r) s = .next (t.respond r.mb 0x0209 r.tag ⟨0, []⟩)
        ∧ t = { s with shadow := t.shadow, overrides := t.overrides, regs := t.regs }
        ∧ t.pendingReg R.tidePeriod = (if r.at 0 4 = 0 then s.pendingReg R.tidePeriod else some (word (r.at 0 4)))
        ∧ t.pendingReg R.tideSlack = (if r.at 4 2 = 0 then s.pendingReg R.tideSlack else some (word (r.at 4 2)))
        ∧ t.reg R.holdLimit = (if r.at 8 4 = 0 then s.reg R.holdLimit else word (r.at 8 4))
        ∧ (∀ k, k ≠ R.tidePeriod → k ≠ R.tideSlack → t.pendingReg k = s.pendingReg k) ∧ (∀ k, k ≠ R.holdLimit → t.reg k = s.reg k)) ∧
    (Safety.ready 0x020A r s = true → r.pay = [] →
      exec (.tideStatus r) s = .next (s.respond r.mb 0x020A r.tag ⟨0, leBytes 8 s.tide.count.toNat ++ leBytes 8 s.beat.toNat
        ++ leBytes 8 s.tide.offset.toNat ++ leBytes 4 (s.reg R.tideStatus).toNat ++ leBytes 4 (s.reg R.heldTides).toNat
        ++ leBytes 4 (s.reg R.lastHoldBeats).toNat ++ leBytes 1 (b2n s.tide.running + 2 * b2n s.group.member) ++ leBytes 3 0
        ++ s.images.flatMap fun i => leBytes 1 i.st.code ++ leBytes 3 0 ++ leBytes 8 (if i.active then i.k0 else 2 ^ 64 - 1)⟩))

/-- PROF_SET (R65, R66, R520, R601): a change that names a boundary at n + 2 or later, and under which every admitted entry still fits, is accepted:
it replaces a pending change for the same boundary, the VDD_CORE set point rises at once when the higher effective profile will rise, PROF_STATE shows
PENDING, and a basic setting ends an expert override of PROF_TARGET (R112). A late one is refused with PROF_REFUSED_LATE and one that an admitted
entry does not fit with PROF_REFUSED_ADMITTED, and changes nothing. PROF_GET, PROF_LIMITS and PROF_HISTORY report (R508, R512, R520, Table 14.6) and
change nothing else. PROF_GET is served in Sleep too. -/
def Obligations.ProfileCommandsAct : Prop :=
  (
    ∀ (r : Req) (s : State), Safety.ready 0x0301 r s = true → r.pay.length = 9 → r.at 0 1 < 3 →
      (s.late (r.at 1 8) = true → exec (.profSet r) s = .next (s.respond r.mb 0x0301 r.tag
        ⟨8, leBytes 1 0x21 ++ [0] ++ leBytes 2 0xFFFF ++ leBytes 8 (r.at 1 8) ++ leBytes 4 0xFFFFFFFF⟩)) ∧
      (∀ e k, s.judgeProf (r.at 0 1) (r.at 1 8) = some (0x20, e, k) → exec (.profSet r) s = .next (s.respond r.mb 0x0301 r.tag
        ⟨8, leBytes 1 0x20 ++ [0] ++ leBytes 2 e ++ leBytes 8 k ++ leBytes 4 0xFFFFFFFF⟩)) ∧
      (s.judgeProf (r.at 0 1) (r.at 1 8) = none → Safety.canonical s = true →
        ∃ t : State, exec (.profSet r) s = .next (t.respond r.mb 0x0301 r.tag ⟨0, []⟩)
          ∧ t = { s with pwr := t.pwr, regs := t.regs, overrides := s.overrides.filter (· != R.profTarget) }
          ∧ t.pwr = { s.pwr with cmds := t.pwr.cmds, setPoint := t.pwr.setPoint }
          ∧ (⟨if s.tide.running then some (r.at 1 8) else none, r.at 0 1⟩ : ProfCmd) ∈ t.pwr.cmds
          ∧ (∀ c ∈ t.pwr.cmds, c.boundary = (if s.tide.running then some (r.at 1 8) else none) → c.profile = r.at 0 1)
          ∧ (∀ c : ProfCmd, c.boundary ≠ (if s.tide.running then some (r.at 1 8) else none) → (c ∈ t.pwr.cmds ↔ c ∈ s.pwr.cmds))
          ∧ s.pwr.setPoint ≤ t.pwr.setPoint ∧ bit (t.reg R.profState) 13 = true ∧ (∀ k, k ≠ R.profState → t.reg k = s.reg k)
          ∧ ∀ b < 32, b ≠ 13 → bit (t.reg R.profState) b = bit (s.reg R.profState) b)) ∧
  (
    ∀ (r : Req) (s : State), r.pay = [] →
      (Safety.serves 0x0302 r s = true → exec (.profGet r) s = .next (s.respond r.mb 0x0302 r.tag ⟨0, s.profReport⟩)
        ∧ s.profReport.take 5 = leBytes 1 s.profView.effW ++ leBytes 1 s.profView.effE ++ leBytes 1 (bits (s.reg R.profState) 10 2)
            ++ leBytes 1 (bits (s.reg R.profState) 6 2) ++ leBytes 1 (bits (s.reg R.profState) 8 2)) ∧
      (Safety.ready 0x0303 r s = true → exec (.profLimits r) s = .next (s.respond r.mb 0x0303 r.tag ⟨0,
        leBytes 1 (bits (s.reg R.thermCtrl) 0 8) ++ leBytes 1 (bits (s.reg R.thermCtrl) 8 8) ++ leBytes 1 110 ++ leBytes 1 (bits (s.reg R.tjWest) 0 8)
          ++ leBytes 1 (bits (s.reg R.tjEast) 0 8) ++ leBytes 2 (s.reg R.pkgPower).toNat
          ++ leBytes 2 (profLimit s.part.fast (max s.profView.effW s.profView.effE)) ++ leBytes 1 (bits (s.reg R.thermCtrl) 16 2)⟩)) ∧
      (Safety.ready 0x0305 r s = true → s.pwr.history.length ≤ 16 → ∃ p, p.length = 224 ∧ exec (.profHistory r) s = .next (s.respond r.mb 0x0305 r.tag ⟨0, p⟩)
        ∧ ∀ i (h : i < s.pwr.history.length), (p.drop (14 * i)).take 11 =
            leBytes 8 s.pwr.history[i].tide.toNat ++ leBytes 1 s.pwr.history[i].old ++ leBytes 1 s.pwr.history[i].new ++ leBytes 1 s.pwr.history[i].cause))

/-- The MEM_* commands (R336, R437, R457, R461, R572). MEM_READ returns the bytes of a backed range, and changes nothing but where some of them no
longer fit their check words, which is corrected, or recorded and handled (R441 to R443, R447); MEM_WRITE and MEM_FILL store to exactly the range they name; MEM_WINDOW_OPEN gives
the lowest free window and MEM_WINDOW_CLOSE frees it; MEM_SCRUB sets SCRUB_HOURS at once, which ends the override of that field alone, and
MEM_SHELF_LIMIT queues SHELF_LIMIT for the next boundary. -/
def Obligations.MemoryCommandsAct : Prop :=
  ∀ (r : Req) (s : State),
    (Safety.ready 0x0401 r s = true → r.pay.length = 20 → r.at 0 8 % 4096 = 0 → r.at 8 8 % 4096 = 0 → r.at 16 1 ≤ 2 → r.at 17 3 = 0
      → s.rangeOk allTiers (r.at 0 8) (r.at 8 8) = true → ∀ n, s.posterOf r.mb = some n →
      ∀ w, s.lys.windows[w]? = some none → (∀ i < w, s.lys.windows[i]? ≠ some none) →
        let x : Window := ⟨n, r.at 0 8, r.at 8 8, decide (r.at 16 1 ≠ 1), decide (r.at 16 1 ≠ 0)⟩
        exec (.memWindowOpen r) s = .next (
          ({ s with lys := { s.lys with windows := s.lys.windows.set w (some x) } } : State).respond r.mb 0x0401 r.tag ⟨0, leBytes 1 w⟩)) ∧
    (Safety.ready 0x0402 r s = true → r.pay.length = 1 → r.at 0 1 < 4 → ∀ w, s.lys.windows[r.at 0 1]? = some (some w) →
      exec (.memWindowClose r) s = .next (({ s with lys := { s.lys with windows := s.lys.windows.set (r.at 0 1) none } } : State).respond
        r.mb 0x0402 r.tag ⟨0, []⟩)) ∧
    (Safety.ready 0x0403 r s = true → r.pay.length = 12 → 1 ≤ r.at 8 4 → r.at 8 4 ≤ 224 → s.rangeOk allTiers (r.at 0 8) (r.at 8 4) = true →
      let p : Reply := ⟨0, (List.range (r.at 8 4)).map fun i => s.byte (r.at 0 8 + i)⟩
      let clear : Prop := (∀ u ∈ s.memc.poison, 32 * u + 32 ≤ r.at 0 8 ∨ r.at 0 8 + r.at 8 4 ≤ 32 * u)
        ∧ ∀ x ∈ s.memc.struck, 32 * x.1 + 32 ≤ r.at 0 8 ∨ r.at 0 8 + r.at 8 4 ≤ 32 * x.1
      (clear → exec (.memRead r) s = .next (s.respond r.mb 0x0403 r.tag p)) ∧
      (¬ clear → exec (.memRead r) s = .next ((s.meetRead (r.at 0 8) (r.at 8 4)).respond r.mb 0x0403 r.tag p) ∧ s.metUnits (r.at 0 8) (r.at 8 4) ≠ []) ∧
      (∀ (a n : Nat) (y : Nat × Fin 3), s.metUnits a n = [y] →
        s.meetRead a n = if y.2 = 0 then s.correctable y.1 else (s.recordUe y.1 (y.2 == 2)).ueHandle none y.1)) ∧
    (Safety.ready 0x0404 r s = true → r.pay.length = 12 + r.at 8 4 → 1 ≤ r.at 8 4 → r.at 8 4 ≤ 224 → s.rangeOk allTiers (r.at 0 8) (r.at 8 4) = true
      → Safety.canonical s = true →
      ∃ t : State, exec (.memWrite r) s = .next (t.respond r.mb 0x0404 r.tag ⟨0, []⟩) ∧ t = { s with mem := t.mem, memc := t.memc, dirty := t.dirty }
        ∧ (∀ i < r.at 8 4, t.byte (r.at 0 8 + i) = r.pay.getD (12 + i) 0)
        ∧ ∀ a, a < r.at 0 8 ∨ r.at 0 8 + r.at 8 4 ≤ a → t.byte a = s.byte a) ∧
    (Safety.ready 0x0405 r s = true → r.pay.length = 24 → r.at 0 8 % 64 = 0 → r.at 8 8 % 64 = 0 → s.rangeOk allTiers (r.at 0 8) (r.at 8 8) = true
      → Safety.canonical s = true →
      ∃ t : State, exec (.memFill r) s = .next (t.respond r.mb 0x0405 r.tag ⟨0, []⟩) ∧ t = { s with mem := t.mem, memc := t.memc, dirty := t.dirty }
        ∧ (∀ i < r.at 8 8, t.byte (r.at 0 8 + i) = r.pay.getD (16 + i % 8) 0)
        ∧ ∀ a, a < r.at 0 8 ∨ r.at 0 8 + r.at 8 8 ≤ a → t.byte a = s.byte a) ∧
    (Safety.ready 0x0406 r s = true → r.pay = [] →
      exec (.memInfo r) s = .next (s.respond r.mb 0x0406 r.tag ⟨0,
        ((List.range 8).flatMap fun k => leBytes 4 (s.reg (R.hbmState k)).toNat ++ leBytes 4 (s.reg (R.pcMap k)).toNat)
        ++ ((List.range 8).flatMap fun c => leBytes 4 (s.reg (R.ddrState c)).toNat) ++ leBytes 4 (s.reg R.hbmCapacity).toNat
        ++ leBytes 4 (s.reg R.ddrCapacity).toNat⟩)) ∧
    (Safety.ready 0x0407 r s = true → r.pay.length = 2 → r.at 0 2 ≤ 168 →
      exec (.memScrub r) s = .next ((({ s with overrides := s.overrides.filter (· != scrubName) } : State).setReg R.memCtrl
        (setBits (s.reg R.memCtrl) 16 8 (r.at 0 2))).respond r.mb 0x0407 r.tag ⟨0, []⟩)) ∧
    (Safety.ready 0x0408 r s = true → r.pay.length = 2 → 1 ≤ r.at 0 2 → r.at 0 2 * 1024 ≤ (s.reg R.hbmCapacity).toNat →
      ∃ t : State, exec (.memShelfLimit r) s = .next (t.respond r.mb 0x0408 r.tag ⟨0, []⟩)
        ∧ t = { s with shadow := t.shadow, overrides := s.overrides.filter (· != R.shelfLimit) }
        ∧ t.pendingReg R.shelfLimit = some (word (r.at 0 2)) ∧ ∀ k, k ≠ R.shelfLimit → t.pendingReg k = s.pendingReg k)

/-- The LINK_* commands that report (R408, R430, R432): LINK_STATUS gives one byte for each link (state, IN_SERVICE, a spare in use, SPARE_BAD),
LINK_MARGIN eight bytes for each of the ten lanes, LINK_COUNTERS the seven counters of Table 11.14 and BAD_PACKETS; nothing changes. LINK_LOOPBACK
needs an ACTIVE link out of service and expert privilege; its test leaves no state (the spec gives it no result: log entry 60). The LINK_* commands
that act (R406, R407, R430). LINK_TRAIN takes every link of its mask, each DISABLED or DOWN, to DETECT in the reach its second mask gives (a change of
IN_SERVICE that waits keeps that reach), ends an override of its LANE_MAP, whose mapping is then that of power-on (R431; log entry 73), and leaves the
other links and registers alone; LINK_DISABLE and LINK_ENABLE queue IN_SERVICE of each link of the mask for the next boundary. -/
def Obligations.LinkCommandsAct : Prop :=
  (
    ∀ (r : Req) (s : State),
      (Safety.ready 0x0501 r s = true → r.pay = [] →
        exec (.linkStatus r) s = .next (s.respond r.mb 0x0501 r.tag ⟨0, (List.range 64).map fun l => BitVec.ofNat 8
          (bits (s.reg (R.linkState l)) 0 4 + 16 * bits (s.reg (R.linkCtrl l)) 0 1
            + 32 * b2n (bits (s.reg (R.laneMap l)) 12 3 == 7 || (s.linkSt l).rxSpare.isNone) + 64 * bits (s.reg (R.linkStatus l)) 2 1)⟩)) ∧
      (Safety.ready 0x0503 r s = true → r.pay.length = 1 → r.at 0 1 < 64 →
        exec (.linkMargin r) s = .next (s.respond r.mb 0x0503 r.tag ⟨0, [0, 1, 2, 3, 4, 8, 9, 10, 11, 12].flatMap fun lane =>
          leBytes 4 (s.laneReading (r.at 0 1) lane (R.laneMargin (r.at 0 1))).toNat
            ++ leBytes 4 (s.laneReading (r.at 0 1) lane (R.laneSymErr (r.at 0 1))).toNat⟩)) ∧
      (Safety.ready 0x0506 r s = true → r.pay.length = 1 → r.at 0 1 < 64 →
        exec (.linkCounters r) s = .next (s.respond r.mb 0x0506 r.tag ⟨0,
          ((List.range 7).flatMap fun i => leBytes 4 (s.reg (R.crcErrors (r.at 0 1) + 4 * i)).toNat)
            ++ leBytes 4 (s.linkSt (r.at 0 1)).badPackets.toNat⟩)) ∧
      (Safety.ready 0x0507 r s = true → r.pay.length = 2 → s.expertReq r.mb = true → r.at 0 1 < 64 → r.at 1 1 ≤ 1 → s.lstate (r.at 0 1) = L.active
        → bit (s.reg (R.linkCtrl (r.at 0 1))) 0 = false → exec (.linkLoopback r) s = .next (s.respond r.mb 0x0507 r.tag ⟨0, []⟩))) ∧
  (
    ∀ (r : Req) (s : State),
      (Safety.ready 0x0502 r s = true → r.pay.length = 16 → Safety.canonical s = true
        → (∀ l < 64, (r.at 0 8).testBit l → s.lstate l = L.disabled ∨ s.lstate l = L.down) →
        ∃ t : State, exec (.linkTrain r) s = .next (t.respond r.mb 0x0502 r.tag ⟨0, []⟩)
          ∧ t = { s with regs := t.regs, link := { s.link with links := t.link.links }, shadow := t.shadow, overrides := t.overrides }
          ∧ (∀ l < 64, if (r.at 0 8).testBit l then
                t.lstate l = L.detect ∧ t.reg (R.linkCtrl l) = setBits (s.reg (R.linkCtrl l)) 1 1 (b2n ((r.at 8 8).testBit l))
                ∧ t.pendingReg (R.linkCtrl l) = (s.pendingReg (R.linkCtrl l)).map (setBits · 1 1 (b2n ((r.at 8 8).testBit l)))
                ∧ t.reg (R.laneMap l) = (if R.laneMap l ∈ s.overrides then regReset (R.laneMap l) else s.reg (R.laneMap l))
                ∧ (l < s.link.links.length → t.linkSt l = { s.linkSt l with returns := 0, swap := none })
              else t.lstate l = s.lstate l ∧ t.reg (R.linkCtrl l) = s.reg (R.linkCtrl l) ∧ t.linkSt l = s.linkSt l)
          ∧ (∀ k, (∀ l < 64, (r.at 0 8).testBit l → k ≠ R.linkState l ∧ k ≠ R.linkCtrl l ∧ k ≠ R.laneMap l) →
              t.reg k = s.reg k ∧ t.pendingReg k = s.pendingReg k)
          ∧ ∀ k, k ∈ t.overrides ↔ k ∈ s.overrides ∧ ∀ l < 64, (r.at 0 8).testBit l → k ≠ R.laneMap l) ∧
      (Safety.ready 0x0504 r s = true → r.pay.length = 8 → (∀ l < 64, (r.at 0 8).testBit l → bit (s.reg (R.linkCtrl l)) 0 = true) →
        ∃ t : State, exec (.linkDisable r) s = .next (t.respond r.mb 0x0504 r.tag ⟨0, []⟩) ∧ t = { s with shadow := t.shadow }
          ∧ (∀ l < 64, (r.at 0 8).testBit l → t.pendingReg (R.linkCtrl l) = some (setBits (s.latest (R.linkCtrl l)) 0 1 0))
          ∧ ∀ k, (∀ l < 64, (r.at 0 8).testBit l → k ≠ R.linkCtrl l) → t.pendingReg k = s.pendingReg k) ∧
      (Safety.ready 0x0505 r s = true → r.pay.length = 8 → (∀ l < 64, (r.at 0 8).testBit l → s.lstate l = L.active) →
        ∃ t : State, exec (.linkEnable r) s = .next (t.respond r.mb 0x0505 r.tag ⟨0, []⟩) ∧ t = { s with shadow := t.shadow }
          ∧ (∀ l < 64, (r.at 0 8).testBit l → t.pendingReg (R.linkCtrl l) = some (setBits (s.latest (R.linkCtrl l)) 0 1 1))
          ∧ ∀ k, (∀ l < 64, (r.at 0 8).testBit l → k ≠ R.linkCtrl l) → t.pendingReg k = s.pendingReg k))

/-- JOB_CREATE (R83, Table 2.13): with no job, legal fields and legal tables, the job exists with its id, seed and cursor at step 0, each register
that the payload gives waits for the next boundary with the payload's value, and memory outside the scale table is unchanged. The group and identity
commands (R61, R65, R82, R83, R84, R422). JOB_SET_ID writes DEV_ID outside a group, afresh (R435), and is refused with JOB_ACTIVE in one;
JOB_GROUP_FORM makes the device a member with the tree and timing given, or is refused with JOB_CLKMODE; JOB_GROUP_LEAVE names the boundary at which
it leaves, the earliest named (the model's choice), or is refused with PROF_REFUSED_LATE; JOB_END ends the job. -/
def Obligations.JobCommandsAct : Prop :=
  (
    ∀ (r : Req) (s : State), Safety.ready 0x0601 r s = true → r.pay.length = 96 → s.jobParamOk r = true → s.job.exists_ = false
      → (r.at 52 2 = 0 ∨ s.reg R.ddrCapacity ≠ 0) →
      ∃ t : State, exec (.jobCreate r) s = .next (t.respond r.mb 0x0601 r.tag ⟨0, []⟩)
        ∧ t.job.exists_ = true ∧ t.job.id = word (r.at 0 4) ∧ t.job.seed = BitVec.ofNat 48 (r.at 4 6) ∧ t.job.perStep = BitVec.ofNat 64 (r.at 72 8)
        ∧ t.job.epoch = word (r.at 80 4) ∧ t.job.shard = word (r.at 84 4) ∧ t.job.sample = BitVec.ofNat 64 (r.at 88 8) ∧ t.job.step = 0
        ∧ (∀ w ∈ ([(R.shelfCtrl, 14, 1), (R.shelfTopBase, 15, 1), (R.bktCtrl, 13, 1), (R.scaleBaseLo, 16, 4), (R.scaleBaseHi, 20, 4), (R.scaleCount, 24, 2),
              (R.layerCount, 26, 2), (R.layerBaseLo, 28, 4), (R.layerBaseHi, 32, 4), (R.shelfBodyBaseLo, 36, 4), (R.shelfBodyBaseHi, 40, 4),
              (R.shelfSpillBaseLo, 44, 4), (R.shelfSpillBaseHi, 48, 4), (R.shelfSpillSize, 52, 2), (R.updCount, 54, 2), (R.updBaseLo, 56, 4),
              (R.updBaseHi, 60, 4), (R.hpBaseLo, 64, 4), (R.hpBaseHi, 68, 4)] : List (Nat × Nat × Nat)),
            t.pendingReg w.1 = some (word (r.at w.2.1 w.2.2)))
        ∧ t.pendingReg R.updDefaults = (if (r.at 12 1).testBit 4 then some (word (r.at 12 1 % 16)) else s.pendingReg R.updDefaults)
        ∧ ∀ a, a < r.at 16 8 ∨ r.at 16 8 + 128 * r.at 24 2 ≤ a → t.byte a = s.byte a) ∧
  (
    ∀ (r : Req) (s : State),
      (Safety.ready 0x0602 r s = true → r.pay.length = 4 → pairOk 16 (r.at 0 2) (r.at 2 2) = true →
        (s.group.member = true → exec (.jobSetId r) s = .next (s.respond r.mb 0x0602 r.tag
          ⟨8, leBytes 1 0x23 ++ [0] ++ leBytes 2 0xFFFF ++ leBytes 8 (2 ^ 64 - 1) ++ leBytes 4 0xFFFFFFFF⟩)) ∧
        (s.group.member = false → exec (.jobSetId r) s = .next
          ((({ s with link := { s.link with reported := s.link.reported.filter (· != 65536) }
                      job := { s.job with soft := s.job.soft.filter (· != .devId) } } : State).setReg R.devId (word (r.at 0 4))).respond
            r.mb 0x0602 r.tag ⟨0, []⟩))) ∧
      (Safety.ready 0x0606 r s = true → 24 ≤ r.pay.length → r.pay.length = 24 + 2 * r.at 20 2 → r.pay.length ≤ 240 → s.groupParamOk r = true
        → s.job.exists_ = true → s.group.member = false →
        (1 < r.at 0 4 → s.clkmode = 2 → exec (.jobGroupForm r) s = .next (s.respond r.mb 0x0606 r.tag
          ⟨8, leBytes 1 0x22 ++ [0] ++ leBytes 2 0xFFFF ++ leBytes 8 (2 ^ 64 - 1) ++ leBytes 4 0xFFFFFFFF⟩)) ∧
        (r.at 0 4 = 1 ∨ s.clkmode ≠ 2 →
          ∃ t : State, exec (.jobGroupForm r) s = .next (t.respond r.mb 0x0606 r.tag ⟨0, []⟩)
            ∧ t = { s with group := t.group, shadow := t.shadow, overrides := t.overrides }
            ∧ t.group = { member := true, size := r.at 0 4, master := r.at 4 2, parent := r.at 6 2, pathDelay := r.at 8 4
                          children := (List.range (r.at 20 2)).map fun i => r.at (24 + 2 * i) 2, firstMark := true, lossRaised := false
                          leaveAt := none, lastMark := s.groupBeat }
            ∧ t.pendingReg R.holdWindow = some (word (((r.at 12 2 * (r.at 14 2 + 7) + 350) * 5 + 1) / 2))
            ∧ t.pendingReg R.markInterval = (if r.at 16 4 = 0 then s.pendingReg R.markInterval else some (word (r.at 16 4))))) ∧
      (Safety.ready 0x0607 r s = true → r.pay.length = 8 → s.group.member = true →
        (s.late (r.at 0 8) = true → exec (.jobGroupLeave r) s = .next (s.respond r.mb 0x0607 r.tag
          ⟨8, leBytes 1 0x21 ++ [0] ++ leBytes 2 0xFFFF ++ leBytes 8 (r.at 0 8) ++ leBytes 4 0xFFFFFFFF⟩)) ∧
        (s.late (r.at 0 8) = false → exec (.jobGroupLeave r) s = .next (
          ({ s with group := { s.group with leaveAt := some (if s.tide.running then some (match s.group.leaveAt with
              | some (some b) => min b (r.at 0 8)
              | _ => r.at 0 8) else none) } } : State).respond r.mb 0x0607 r.tag ⟨0, []⟩))) ∧
      (Safety.ready 0x060A r s = true → r.pay = [] → s.job.exists_ = true → s.group.member = false → (∀ i ∈ s.images, i.st ≠ .admitted ∧ i.st ≠ .running) →
        ∃ t : State, exec (.jobEnd r) s = .next (t.respond r.mb 0x060A r.tag ⟨0, []⟩)
          ∧ t = { s with job := { lost := s.job.lost, soft := s.job.soft, firstErr := s.job.firstErr }, tide := { s.tide with issueStop := s.job.lost } }))

/-- The JOB_* commands of routes and reports (R82, R402, R422, R423, R430). JOB_ROUTE_SET queues routing entries or ring entries for the next
boundary; JOB_ROUTE_GET, JOB_CURSOR and JOB_STATUS report; JOB_MEASURE, over a link in service that leads directly to the peer, starts 16 probes, and
the last MEASURE_PROBE answers it with the median (the mean of the middle two: log entry 62) and half of it. -/
def Obligations.JobRoutesAndReports : Prop :=
  ∀ (r : Req) (s : State),
    (Safety.ready 0x0603 r s = true → r.pay.length ≤ 240 → routeSetLen r.pay = true → routeSetOk r = true →
      ∃ t : State, exec (.jobRouteSet r) s = .next (t.respond r.mb 0x0603 r.tag ⟨0, []⟩) ∧ t = { s with shadow := t.shadow, overrides := t.overrides }
        ∧ (r.at 0 1 = 1 → (∀ d v, Shadow.route d v ∈ t.shadow ↔ if r.at 2 2 ≤ d ∧ d < r.at 2 2 + r.at 1 1
              then v = BitVec.ofNat 64 (r.at (16 + 8 * (d - r.at 2 2)) 8) else Shadow.route d v ∈ s.shadow)
            ∧ (∀ k, t.pendingReg k = s.pendingReg k)
            ∧ ∀ k, k ∈ t.overrides ↔ k ∈ s.overrides ∧ ∀ i < r.at 1 1, k ≠ routeName (r.at 2 2 + i))
        ∧ (r.at 0 1 = 2 → (∀ i < r.at 1 1, ∀ j < 5, t.pendingReg (R.ringCfg (r.at 2 2 + i) + 4 * j)
              = some (word (r.at (16 + 20 * i + 4 * j) 4) &&& (if j = 0 then 0x8FFF0FFF else 0xFFFFFFFF)))
            ∧ (∀ k, (∀ i < r.at 1 1, ∀ j < 5, k ≠ R.ringCfg (r.at 2 2 + i) + 4 * j) → t.pendingReg k = s.pendingReg k)
            ∧ (∀ d v, Shadow.route d v ∈ t.shadow ↔ Shadow.route d v ∈ s.shadow)
            ∧ ∀ k, k ∈ t.overrides ↔ k ∈ s.overrides ∧ ∀ i < r.at 1 1, ∀ j < 5, k ≠ R.ringCfg (r.at 2 2 + i) + 4 * j)) ∧
    (Safety.ready 0x0604 r s = true → r.pay.length = 4 → routeRangeOk (r.at 0 1) (r.at 1 1) (r.at 2 2) = true →
      exec (.jobRouteGet r) s = .next (s.respond r.mb 0x0604 r.tag ⟨0,
        if r.at 0 1 = 1 then (List.range (r.at 1 1)).flatMap fun i => leBytes 8 (s.route (r.at 2 2 + i)).toNat
        else (List.range (r.at 1 1)).flatMap fun i => (List.range 5).flatMap fun j => leBytes 4 (s.reg (R.ringCfg (r.at 2 2 + i) + 4 * j)).toNat⟩)) ∧
    (Safety.ready 0x0605 r s = true → r.pay.length = 2 → ∀ l < 64, s.inService l = true → bits (s.reg (R.partner l)) 0 16 = r.at 0 2 →
      exec (.jobMeasure r) s = .next { s with link := { s.link with measures := s.link.measures ++ [⟨r.mb, r.tag, []⟩] }
                                              enm := { s.enm with taken := Taken.mark s.enm.taken r.mb .begun } }) ∧
    (∀ (mb : Fin 16) (tag : Half) (trips : List Nat) (n : Word), s.link.measures = [⟨mb, tag, trips⟩] →
      (trips.length < 15 → exec (.measureProbe mb n) s = .next { s with link := { s.link with measures := [⟨mb, tag, trips ++ [n.toNat]⟩] } }) ∧
      (trips.length = 15 → exec (.measureProbe mb n) s = .next (({ s with link := { s.link with measures := [] } } : State).respond mb 0x0605 tag
        ⟨0, leBytes 4 (medianOf (trips ++ [n.toNat])) ++ leBytes 4 (medianOf (trips ++ [n.toNat]) / 2)⟩))) ∧
    (Safety.ready 0x0608 r s = true → r.pay = [] → s.job.exists_ = true →
      exec (.jobCursor r) s = .next (s.respond r.mb 0x0608 r.tag ⟨0, leBytes 4 s.job.epoch.toNat ++ leBytes 4 s.job.shard.toNat
        ++ leBytes 8 s.job.sample.toNat ++ leBytes 8 s.job.step.toNat⟩)) ∧
    (Safety.ready 0x0609 r s = true → r.pay = [] →
      exec (.jobStatus r) s = .next (s.respond r.mb 0x0609 r.tag ⟨0, leBytes 4 s.job.id.toNat
        ++ leBytes 1 (if !s.job.exists_ then 0 else if s.snap.restore = .running then 4 else if s.job.restart.isSome then 3
            else if s.group.member then 2 else 1)
        ++ leBytes 3 0 ++ leBytes 8 s.job.step.toNat ++ leBytes 4 (s.reg R.skippedSteps).toNat
        ++ leBytes 4 (if s.group.member then s.group.size else 0) ++ leBytes 2 (bits (s.reg R.devId) 0 16)⟩))

/-- The SNAP_* commands (R474, R480, R484, R491, R494). SNAP_CONFIG takes the snapshot table, the buddy and the parity group and writes SNAP_TABLE and
SNAP_COUNT; SNAP_POLICY and SNAP_INTERVAL write SNAP_CTRL and MTBF_S; SNAP_NOW, with a job, a configuration and no restart pending, requests a
tideline for the advance that ends the step in progress, and a group's member sends SNAP_REQ with that step to each tree neighbour; SNAP_STATUS
reports. -/
def Obligations.SnapshotCommandsAct : Prop :=
  ∀ (r : Req) (s : State),
    (Safety.ready 0x0701 r s = true → r.pay.length = 48 → cmdSnapConfig.param s r = true → s.snap.staged = none → 0 < (s.reg R.ddrCapacity).toNat
      → Safety.canonical s = true →
      ∃ t : State, exec (.snapConfig r) s = .next (t.respond r.mb 0x0701 r.tag ⟨0, []⟩)
        ∧ t = { s with regs := t.regs, snap := t.snap, overrides := t.overrides }
        ∧ t.reg R.snapTableLo = word (r.at 24 4) ∧ t.reg R.snapTableHi = word (r.at 28 4) ∧ t.reg R.snapCount = word (r.at 32 4)
        ∧ (∀ k, k ≠ R.snapTableLo → k ≠ R.snapTableHi → k ≠ R.snapCount → t.reg k = s.reg k)
        ∧ t.snap = { s.snap with
            configured := true, buddy := BitVec.ofNat 16 (r.at 0 2), parPos := r.at 2 1
            members := (List.range 10).map fun i => BitVec.ofNat 16 (r.at (4 + 2 * i) 2), area := r.at 36 8, areaGiB := r.at 44 4
            entries := (List.range (r.at 32 4)).map fun i => entOf (s.snapEntAt (r.at 24 8) i), based := [], base := []
            freezeBeat := if s.snap.configured then s.snap.freezeBeat else s.beat.toNat }
        ∧ ∀ k, k ∈ t.overrides ↔ k ∈ s.overrides ∧ k ≠ R.snapTableLo ∧ k ≠ R.snapTableHi ∧ k ≠ R.snapCount) ∧
    (Safety.ready 0x0702 r s = true → r.pay.length = 4 → 1 ≤ r.at 0 2 → 1 ≤ r.at 2 1 → r.at 2 1 ≤ 100 → r.at 3 1 = 0 →
      exec (.snapPolicy r) s = .next ((({ s with overrides := s.overrides.filter (· != R.snapCtrl) } : State).setReg R.snapCtrl
        (word (r.at 0 2 + 65536 * r.at 2 1))).respond r.mb 0x0702 r.tag ⟨0, []⟩)) ∧
    (Safety.ready 0x0703 r s = true → r.pay.length = 8 → r.at 4 4 = 0 →
      exec (.snapInterval r) s = .next ((({ s with overrides := s.overrides.filter (· != R.mtbfS) } : State).setReg R.mtbfS
        (word (r.at 0 4))).respond r.mb 0x0703 r.tag ⟨0, []⟩)) ∧
    (Safety.ready 0x0704 r s = true → r.pay = [] → s.job.exists_ = true → s.snap.configured = true → s.job.restart = none →
      let t : State := { s with snap := { s.snap with requests := if s.job.step.toNat + 1 ∈ s.snap.requests then s.snap.requests
                                                                  else s.snap.requests ++ [s.job.step.toNat + 1] } }
      exec (.snapNow r) s = .next ((if s.group.member then t.neighbours.foldl (fun u d => u.originate { tidePkt T.snapReq with
          step := s.job.step, dst := d }) t else t).respond r.mb 0x0704 r.tag ⟨0, []⟩)) ∧
    (Safety.ready 0x0705 r s = true → r.pay = [] →
      exec (.snapStatus r) s = .next (s.respond r.mb 0x0705 r.tag ⟨0, leBytes 4 (s.reg R.snapSeq).toNat
        ++ leBytes 8 ((s.snap.committed.map fun x => x.block.step.toNat).getD 0) ++ leBytes 4 (s.reg R.snapCostUs).toNat ++ leBytes 4 s.intervalS
        ++ leBytes 1 (if s.snap.requests ≠ [] then 1 else match s.snap.state with | .freeze => 2 | .transfer => 3 | .idle => 0)⟩))

/-- The RESTORE_* commands (R65, R472, R485, R487, R491). RESTORE_PREPARE stops the job for restart with code 0x0B when it runs and records the
restore it names; RESTORE_RUN names the boundary at which it is applied; RESTORE_STATUS and RESTORE_VERIFY report, the latter with both hashes of the
job state block, the one that it holds and the one over the rest of it. -/
def Obligations.RestoreCommandsAct : Prop :=
  ∀ (r : Req) (s : State),
    (Safety.ready 0x0801 r s = true → 20 ≤ r.pay.length → r.pay.length = 20 + 2 * r.at 16 2 → r.at 16 2 ≤ 64 → r.at 18 2 = 0
      → s.mapOk (r.at 4 8) (r.at 12 4) = true → s.job.lost = false → (∃ x, s.snap.committed = some x ∧ x.block.seq = word (r.at 0 4))
      → s.tooManyLost (lostIds r) = false → s.job.restart.isSome = true →
      exec (.restorePrepare r) s = .next (({ s with snap := { s.snap with
        restore := .prepared, restoreSeq := word (r.at 0 4), mapAddr := r.at 4 8, mapCount := r.at 12 4
        lost := (List.range (r.at 16 2)).map fun i => BitVec.ofNat 16 (r.at (20 + 2 * i) 2)
        restoreAt := none, restored := 0 } } : State).respond r.mb 0x0801 r.tag ⟨0, []⟩)) ∧
    (Safety.ready 0x0801 r s = true → 20 ≤ r.pay.length → r.pay.length = 20 + 2 * r.at 16 2 → r.at 16 2 ≤ 64 → r.at 18 2 = 0
      → s.mapOk (r.at 4 8) (r.at 12 4) = true → s.job.lost = false → (∃ x, s.snap.committed = some x ∧ x.block.seq = word (r.at 0 4))
      → s.tooManyLost (lostIds r) = false → s.job.restart = none →
      exec (.restorePrepare r) s = .next (({ s.restart 0x0B with snap := { (s.restart 0x0B).snap with
          restore := .prepared, restoreSeq := word (r.at 0 4), mapAddr := r.at 4 8, mapCount := r.at 12 4
          lost := (List.range (r.at 16 2)).map fun i => BitVec.ofNat 16 (r.at (20 + 2 * i) 2)
          restoreAt := none, restored := 0 } } : State).respond r.mb 0x0801 r.tag ⟨0, []⟩)
        ∧ (s.restart 0x0B).job.restart = some 0x0B ∧ (s.restart 0x0B).tide.issueStop = true) ∧
    (Safety.ready 0x0802 r s = true → r.pay.length = 8 → s.tablesOk = true → s.snap.restore = .prepared →
      (s.late (r.at 0 8) = true → exec (.restoreRun r) s = .next (s.respond r.mb 0x0802 r.tag
        ⟨8, leBytes 1 0x21 ++ [0] ++ leBytes 2 0xFFFF ++ leBytes 8 (r.at 0 8) ++ leBytes 4 0xFFFFFFFF⟩)) ∧
      (s.late (r.at 0 8) = false → exec (.restoreRun r) s = .next
        (({ s with snap := { s.snap with restoreAt := some (if s.tide.running then (s.snap.restoreAt.map (min · (r.at 0 8))).getD (r.at 0 8) else r.at 0 8) } } : State).respond
          r.mb 0x0802 r.tag ⟨0, []⟩))) ∧
    (Safety.ready 0x0803 r s = true → r.pay = [] →
      exec (.restoreStatus r) s = .next (s.respond r.mb 0x0803 r.tag ⟨0, leBytes 1 (match s.snap.restore with
          | .none => 0 | .prepared => 1 | .running => 2 | .done => 3) ++ leBytes 8 s.snap.restored ++ leBytes 4 (s.reg R.restoreSkews).toNat⟩)) ∧
    (Safety.ready 0x0804 r s = true → r.pay = [] → ∀ b, s.snap.block = some b →
      exec (.restoreVerify r) s = .next (s.respond r.mb 0x0804 r.tag ⟨0, b.digest ++ sha512 b.body ++ [if b.digest = sha512 b.body then 1 else 0]⟩))

/-- The TEL_* commands (R118, R120, R121, R303), served in Sleep too (R518). TEL_LOG_READ returns the first three of the held entries, oldest first,
whose sequence number is the one given or comes after it; with ADVANCE the read pointer moves to the last one returned, and a LOG_HIGH entry follows
when that raises the unread entries to 3,072. TEL_LOG_STATUS reports, TEL_AREA_SET sets the telemetry area, TEL_ALARM_SET the thresholds of a layer or
record, which ends an override of them, and TEL_EVENT_MASK the mask. TEL_COUNTERS returns a block's counters of one unit, or of its device group, in
offset order. Nothing else changes. -/
def Obligations.TelemetryCommandsAct : Prop :=
  ∀ (r : Req) (s : State),
    (Safety.serves 0x0901 r s = true → r.pay.length = 5 → r.at 4 1 ≤ 1 →
      let held := (s.log.entries.zipIdx.map fun x => (s.log.next - 1 - word x.2, x.1)).reverse
      let got := (held.filter fun e => decide ((e.1 - word (r.at 0 4)).toNat < 2 ^ 31)).take 3
      let p : Reply := ⟨0, leBytes 4 got.length ++ leBytes 4 s.log.lost.toNat ++ got.flatMap fun e => e.2.bytes e.1⟩
      let t : State := { s with log := { s.log with read := (got.getLast?.map (·.1)).getD s.log.read } }
      (r.at 4 1 = 0 → exec (.telLogRead r) s = .next (s.respond r.mb 0x0901 r.tag p)) ∧
      (r.at 4 1 = 1 → exec (.telLogRead r) s = .next ((if s.log.unread < 3072 ∧ 3072 ≤ t.log.unread
        then t.logRaw (t.entry srcFirmware 0x2A noHalf noHalf (leBytes 4 t.log.unread)) [] else t).respond r.mb 0x0901 r.tag p))) ∧
    (Safety.serves 0x0902 r s = true → r.pay = [] →
      exec (.telLogStatus r) s = .next (s.respond r.mb 0x0902 r.tag ⟨0, leBytes 4 (word s.log.unread).toNat ++ leBytes 4 s.log.lost.toNat
        ++ leBytes 4 (s.log.next - word s.log.entries.length).toNat ++ leBytes 4 (s.log.next - 1).toNat ++ leBytes 4 s.log.read.toNat⟩)) ∧
    (Safety.serves 0x0903 r s = true → r.pay.length = 16 → r.at 12 4 = 0 → r.at 0 8 % 4096 = 0
      → r.at 8 4 = 0 ∨ s.rangeOk [.hbm] (r.at 0 8) (r.at 8 4 * 2 ^ 20) = true →
      exec (.telAreaSet r) s = .next (({ s with log := { s.log with areaBase := r.at 0 8, areaMiB := r.at 8 4, areaNext := none } } : State).respond
        r.mb 0x0903 r.tag ⟨0, []⟩)) ∧
    (Safety.serves 0x0904 r s = true → r.pay.length = 12 → r.at 3 1 = 0
      → (r.at 2 1 = 1 ∧ r.at 0 2 < (s.reg R.layerCount).toNat)
        ∨ ((r.at 2 1 = 2 ∨ r.at 2 1 = 3) ∧ r.at 0 2 < (s.reg R.scaleCount).toNat ∧ r.at 8 4 = 0)
      → Sparse.wf (fun _ => (0 : Word)) s.alarmHi = true → Sparse.wf (fun _ => (0 : Word)) s.alarmLo = true →
      ∃ t : State, exec (.telAlarmSet r) s = .next (t.respond r.mb 0x0904 r.tag ⟨0, []⟩)
        ∧ t = { s with alarmHi := t.alarmHi, alarmLo := t.alarmLo, overrides := s.overrides.filter (· != alarmName (r.at 2 1) (r.at 0 2)) }
        ∧ (∀ k, Sparse.get 0 t.alarmHi k = if k = r.at 2 1 * 1024 + r.at 0 2 then word (r.at 4 4) else Sparse.get 0 s.alarmHi k)
        ∧ (∀ k, Sparse.get 0 t.alarmLo k = if k = r.at 2 1 * 1024 + r.at 0 2 then word (r.at 8 4) else Sparse.get 0 s.alarmLo k)) ∧
    (Safety.serves 0x0905 r s = true → r.pay.length = 2 → blockListed (r.at 0 1) = true → r.at 0 1 ≠ 0x02 →
      let run := fun k n => (List.range n).map fun i => k + 4 * i
      let device : List (Nat × List Nat) := [(0x01, run R.throttles 2), (0x09, run R.skippedSteps 3 ++ [R.numAlarms]), (0x0A, run R.spillChunks 7),
        (0x0B, run R.gateWaitCycles 5), (0x0C, run R.snapshots 5), (0x11, run R.reelStalls 2), (0x12, [R.sramCeCount]), (0x13, run R.bucketsDone 7),
        (0x18, [R.routeErrors])]
      let unit : List (Nat × Nat × (Nat → List Nat)) := [(0x01, 40, fun u => [R.swells u, R.xingHolds u, R.marginRuns u]),
        (0x03, 2, fun u => run (R.portFecCorrected u) 9), (0x05, 16, fun _ => []), (0x10, 256, fun u => run (R.chkFails u) 8),
        (0x11, 256, fun u => run (R.fwdVectors u) 6), (0x12, 256, fun u => run (R.coreStall u) 10), (0x13, 16, fun _ => []),
        (0x18, 64, fun u => run (R.crcErrors u) 7), (0x20, 16, fun u => if u < 8 then run (R.copyPtr u) 3 else run (R.chCeCount (u - 8)) 4)]
      (r.at 1 1 = 0xFF → exec (.telCounters r) s = .next (s.respond r.mb 0x0905 r.tag
        ⟨0, ((device.lookup (r.at 0 1)).getD []).flatMap fun k => leBytes 4 (s.look enmoraReq k).toNat⟩)) ∧
      (r.at 1 1 ≠ 0xFF → ∀ n f, (r.at 0 1, n, f) ∈ unit → r.at 1 1 < n → exec (.telCounters r) s = .next (s.respond r.mb 0x0905 r.tag
        ⟨0, (f (r.at 1 1)).flatMap fun k => leBytes 4 (s.look enmoraReq k).toNat⟩))) ∧
    (Safety.serves 0x0906 r s = true → r.pay.length = 2 → r.at 0 2 < 1024 →
      exec (.telEventMask r) s = .next (({ s with enm := { s.enm with eventMask := BitVec.ofNat 10 (r.at 0 2) } } : State).respond
        r.mb 0x0906 r.tag ⟨0, []⟩))

/-- The SEC_* commands (R112, R570, R575, R576, R578 to R580, R582). SEC_CERT_GET returns 224 bytes of a certificate; SEC_ATTEST builds a report of
the posting session, whose signature is a free value, or returns a later part of it; SEC_MEASURE_LOG returns the entry of the index given and the next
one, as far as they are held; SEC_EXPERT gives the session expert privilege when the signature verifies, and otherwise is answered ERR_PRIVILEGE,
logged and counted, the eighth failure closing the session; SEC_DROP ends it; SEC_SELFTEST answers 0, or silences the device. With no session left,
SEC_EXPERT is answered ERR_PRIVILEGE and SEC_DROP OK (the model's choice: log entry 110). -/
def Obligations.SecurityCommandsAct : Prop :=
  ∀ (r : Req) (s : State),
    (Safety.serves 0x0A01 r s = true → r.pay.length = 3 → ∀ c : List Byte, r.at 0 1 < 3 → s.part.certs.getD (r.at 0 1) [] = c
      → r.at 1 2 < max 1 ((c.length + 223) / 224) →
      exec (.secCertGet r) s = .next (s.respond r.mb 0x0A01 r.tag
        ⟨0, leBytes 2 c.length ++ leBytes 2 ((c.length + 223) / 224) ++ (c.drop (224 * r.at 1 2)).take 224⟩)) ∧
    (Safety.serves 0x0A02 r s = true → r.pay.length = 65 → ∀ n x, s.posterOf r.mb = some n → s.session n = some x →
      (r.at 0 1 = 0 → let rep := s.attestBody n (r.pay.drop 1) ++ padBytes 132 (Config.freeBytes s.free)
        exec (.secAttest r) s = .next ((({ s with free := s.free + 1 } : State).setSession n (some { x with report := some rep })).respond
          r.mb 0x0A02 r.tag ⟨0, rep.take 224⟩)) ∧
      (1 ≤ r.at 0 1 → r.at 0 1 ≤ 2 → ∀ rep, x.report = some rep →
        exec (.secAttest r) s = .next (s.respond r.mb 0x0A02 r.tag ⟨0, (rep.drop (224 * r.at 0 1)).take 224⟩))) ∧
    (Safety.serves 0x0A03 r s = true → r.pay.length = 8 →
      let total := s.lys.tideMeasures.toNat
      let ent := fun i => if i < total then (s.lys.measures[total - 1 - i]?).map fun e => leBytes 8 i ++ leBytes 8 e.1.toNat ++ e.2 else none
      r.at 0 8 = total ∨ (ent (r.at 0 8)).isSome = true →
        exec (.secMeasureLog r) s = .next (s.respond r.mb 0x0A03 r.tag
          ⟨0, leBytes 8 total ++ (ent (r.at 0 8)).getD [] ++ (ent (r.at 0 8 + 1)).getD []⟩)) ∧
    (Safety.serves 0x0A04 r s = true → r.pay.length = 132 → ∀ n x, s.posterOf r.mb = some n → s.session n = some x →
      (Config.ecdsaVerifies s.lys.qe (sha512 (x.th ++ [0x45])) r.pay = true → let u := s.setSession n (some { x with expert := true })
        exec (.secExpert r) s = .next (({ u with lys := { u.lys with expertSeen := true } } : State).respond r.mb 0x0A04 r.tag ⟨0, []⟩)) ∧
      (Config.ecdsaVerifies s.lys.qe (sha512 (x.th ++ [0x45])) r.pay = false →
        let u := ((s.setSession n (some { x with expertFails := x.expertFails + 1 })).orReg (R.portStatus (portOf n)) 8).log_
          (srcOf 0x03 (portOf n)) 0x29 (leBytes 1 n)
        exec (.secExpert r) s = .next ((if x.expertFails < 7 then u else u.closeSession n 4).respond r.mb 0x0A04 r.tag ⟨4, []⟩))) ∧
    (Safety.serves 0x0A04 r s = true → r.pay.length = 132 → (∀ n, s.posterOf r.mb = some n → s.session n = none) →
      exec (.secExpert r) s = .next (s.respond r.mb 0x0A04 r.tag ⟨4, []⟩)) ∧
    (Safety.serves 0x0A05 r s = true → r.pay = [] → ∀ n x, s.posterOf r.mb = some n → s.session n = some x →
      exec (.secDrop r) s = .next ((s.setSession n (some { x with expert := false })).respond r.mb 0x0A05 r.tag ⟨0, []⟩)) ∧
    (Safety.serves 0x0A05 r s = true → r.pay = [] → (∀ n, s.posterOf r.mb = some n → s.session n = none) →
      exec (.secDrop r) s = .next (s.respond r.mb 0x0A05 r.tag ⟨0, []⟩)) ∧
    (Safety.serves 0x0A06 r s = true → r.pay = [] →
      exec (.secSelftest r none) s = .next (s.respond r.mb 0x0A06 r.tag ⟨0, [0]⟩)
        ∧ ∀ f : Byte, let u := s.lighthouseFail f.toNat
          exec (.secSelftest r (some f)) s = .next { u with enm := { u.enm with taken := Taken.mark u.enm.taken r.mb .begun } })

/-- The REG_* commands (R110, R111, R588, R590), for a legal address, expert privilege and no refused register: REG_READ returns the words in address
order, each read after the effects of those before; REG_WRITE writes them in address order as an expert write; REG_MODIFY writes (old AND NOT MASK) OR
(VALUE AND MASK) and returns old and new value; REG_POLL answers at once when the masked value matches and otherwise waits, until a later read matches
or 1 ms has passed. A mailbox that no poll waits on is left as it is. -/
def Obligations.RegisterCommandsAct : Prop :=
  ∀ (r : Req) (s : State) (k : Nat), s.expertReq r.mb = true → regKey (r.at 0 8) (r.at 8 4) = some k → blockOf k ≠ 2 → r.at 12 4 = 0
      → 1 ≤ r.at 8 4 → r.at 8 4 ≤ 56 → ∀ q, s.requester r.mb = q →
    (Safety.ready 0x0B01 r s = true → r.pay.length = 16 →
      let after := fun n => (List.range n).foldl (fun t i => t.readEffect q (k + 4 * i)) s
      exec (.regRead r) s = .next ((after (r.at 8 4)).respond r.mb 0x0B01 r.tag
        ⟨0, (List.range (r.at 8 4)).flatMap fun i => leBytes 4 ((after i).look q (k + 4 * i)).toNat⟩)) ∧
    (Safety.ready 0x0B02 r s = true → r.pay.length = 16 + 4 * r.at 8 4 → r.pay.length ≤ 240 → (∀ i < r.at 8 4, s.writeRefused (k + 4 * i) = false) →
      exec (.regWrite r) s = .next (((List.range (r.at 8 4)).foldl (fun t i => t.writeReg q .command true (k + 4 * i) (word (r.at (16 + 4 * i) 4))) s).respond
        r.mb 0x0B02 r.tag ⟨0, []⟩)) ∧
    (Safety.ready 0x0B03 r s = true → r.pay.length = 24 → r.at 8 4 = 1 → s.writeRefused k = false →
      let new := (s.look q k &&& ~~~ word (r.at 16 4)) ||| (word (r.at 20 4) &&& word (r.at 16 4))
      exec (.regModify r) s = .next (((s.readEffect q k).writeReg q .command true k new).respond r.mb 0x0B03 r.tag
        ⟨0, leBytes 4 (s.look q k).toNat ++ leBytes 4 new.toNat⟩)) ∧
    (Safety.ready 0x0B04 r s = true → r.pay.length = 24 → r.at 8 4 = 1 →
      if s.look q k &&& word (r.at 16 4) = word (r.at 20 4) &&& word (r.at 16 4) then
        exec (.regPoll r) s = .next ((s.readEffect q k).respond r.mb 0x0B04 r.tag ⟨0, leBytes 4 1 ++ leBytes 4 (s.look q k).toNat⟩)
      else let u := s.readEffect q k
        exec (.regPoll r) s = .next { u with enm := { u.enm with
          polls := u.enm.polls ++ [⟨r.mb, r.tag, k, word (r.at 16 4), word (r.at 20 4)⟩], taken := Taken.mark u.enm.taken r.mb .begun } }) ∧
    (∀ (p : Poll) (late : Bool), s.enm.polls.find? (·.mb == r.mb.val) = some p → p.key = k → let u := s.readEffect q k
      exec (.regPollEnd r.mb late) s = .next (if s.look q k &&& p.mask = p.value &&& p.mask ∨ late = true then
          ({ u with enm := { u.enm with polls := u.enm.polls.filter (·.mb != r.mb.val) } } : State).respond r.mb 0x0B04 p.tag ⟨0,
            leBytes 4 (if s.look q k &&& p.mask = p.value &&& p.mask then 1 else 0) ++ leBytes 4 (s.look q k).toNat⟩
        else u)) ∧
    (∀ late : Bool, s.enm.polls.find? (·.mb == r.mb.val) = none → exec (.regPollEnd r.mb late) s = .next s)

/-- Single register reads by a requester (R19, R78, R367, R571, R589, R590): Enmora, or a session that is open with expert privilege, of a block that
Sleep has not powered off; any other read does nothing. A read of BEAT_COUNT_LO, TIDE_COUNT_LO or STEP_NUMBER_LO loads only the reading requester's
latch of the high word, which its reads of the high word then return; a read of TJ_PEAK, OPS_PEAK, MAX_SLIP or HBM_CHUNKS_PEAK clears that register
and nothing else. -/
def Obligations.RegisterReadsAct : Prop :=
  ∀ (q : Fin 9) (s : State), Safety.canonical s = true → Sparse.wf (fun k => regReset (k % 2 ^ 32)) s.reqRegs = true →
    let may := fun k => (q.val = enmoraReq ∨ ∃ x, s.session q.val = some x ∧ x.isOpen = true ∧ x.expert = true) ∧ s.blockOff k = false
    (∀ p ∈ ([(.beatCountLoRead q, R.beatCountLo, R.beatCountHi, s.beat), (.tideCountLoRead q, R.tideCountLo, R.tideCountHi, s.tide.count),
          (.stepNumberLoRead q, R.stepNumberLo, R.stepNumberHi, s.job.step)] : List (Instr × Nat × Nat × Dword)),
      (may p.2.1 → ∃ t : State, exec p.1 s = .next t ∧ t = { s with reqRegs := t.reqRegs }
        ∧ t.look q p.2.2.1 = BitVec.ofNat 32 (p.2.2.2.toNat / 2 ^ 32)
        ∧ ∀ q' k', (q' ≠ q.val ∨ k' ≠ p.2.2.1) → k' < 2 ^ 32 → t.own q' k' = s.own q' k') ∧
      (¬ may p.2.1 → exec p.1 s = .next s)) ∧
    (∀ (core : Fin 256) (region : Fin 40), ∀ p ∈ ([(.tjPeakRead q, R.tjPeak), (.opsPeakRead q core, R.opsPeak core), (.maxSlipRead q region, R.maxSlip region),
          (.hbmChunksPeakRead q, R.hbmChunksPeak)] : List (Instr × Nat)),
      (may p.2 → ∃ t : State, exec p.1 s = .next t ∧ t = { s with regs := t.regs } ∧ t.reg p.2 = 0 ∧ ∀ k, k ≠ p.2 → t.reg k = s.reg k) ∧
      (¬ may p.2 → exec p.1 s = .next s))

/-- Single register writes by a requester (R14, R16, R18, R19, R30, R588, R589): Enmora, or a session that is open with expert privilege, to a block
that Sleep has not powered off; any other write does nothing. A session's write is an expert write, whose override stands (R112). An unlisted offset
and a register that is read-only, cleared by reading or write-only are left as they are, but that Enmora rings E2H and E2B by their doorbells; a W1C
register loses the bits written 1 (THROTTLED and the JIT flag set again while their cause lasts). PWR_CTRL takes its legal fields at once and
NUM_CTRL, which is shadowed, at the next boundary; ROUTE_DATA stages the low half for the requester, and ROUTE_DATA_C queues the pair for the entry in
its ROUTE_INDEX; PROF_TARGET submits a change at PROF_BOUNDARY, which sets PROF_REJECT when it is refused; DEV_ID in a group and LANE_MAP of a link in
service are refused and keep their value. -/
def Obligations.RegisterWritesAct : Prop :=
  ∀ (q : Fin 9) (v : Word) (s : State),
    let may := fun k => (q.val = enmoraReq ∨ ∃ x, s.session q.val = some x ∧ x.isOpen = true ∧ x.expert = true) ∧ s.blockOff k = false
    let ov := fun (u : State) k => if q.val = enmoraReq then u else u.override k
    (∀ link : Fin 64, ∀ p ∈ ([(.routeDataWrite q v, R.routeData), (.routeDataCWrite q v, R.routeDataC), (.devIdWrite q v, R.devId),
          (.laneMapWrite q link v, R.laneMap link), (.profTargetWrite q v, R.profTarget)] : List (Instr × Nat)),
      ¬ may p.2 → exec p.1 s = .next s) ∧
    (∀ (b : Byte) (o : BitVec 22), ¬ may (blk b.toNat (4 * o.toNat)) → exec (.registerWrite q b o v) s = .next s) ∧
    (may R.routeData → exec (.routeDataWrite q v) s = .next (s.setOwn q R.routeData v)) ∧
    (may R.routeDataC → let dev := (s.own q R.routeIndex).toNat
      exec (.routeDataCWrite q v) s = .next (ov { s with shadow := s.shadow.filter (fun x => !x.isRoute dev)
        ++ [.route dev (BitVec.ofNat 64 ((s.own q R.routeData).toNat + 2 ^ 32 * v.toNat))] } (routeName dev))) ∧
    (may R.devId → exec (.devIdWrite q v) s = .next (if s.group.member then s else
      ov (({ s with link := { s.link with reported := s.link.reported.filter (· != 65536) }
                    job := { s.job with soft := s.job.soft.filter (· != .devId) } } : State).setReg R.devId v) R.devId)) ∧
    (∀ link : Fin 64, may (R.laneMap link) →
      (s.inService link = true → exec (.laneMapWrite q link v) s = .next s) ∧
      (s.inService link = false → laneMapOk (bits v 0 15) = true → exec (.laneMapWrite q link v) s = .next
        (ov (s.setReg (R.laneMap link) (setBits (s.reg (R.laneMap link)) 0 15 (bits v 0 15))) (R.laneMap link))) ∧
      (s.inService link = false → laneMapOk (bits v 0 15) = false → exec (.laneMapWrite q link v) s = .next s)) ∧
    (may R.profTarget → let b := s.reg64 R.profBoundaryLo R.profBoundaryHi
      let u := s.setReg R.profTarget (word (bits v 0 2))
      (bits v 0 2 = 3 → exec (.profTargetWrite q v) s = .next s) ∧
      (bits v 0 2 < 3 → s.asleep = true ∨ (s.judgeProf (bits v 0 2) b).isSome = true →
        exec (.profTargetWrite q v) s = .next (ov (u.orReg R.clkStatus 0x10) R.profTarget)) ∧
      (bits v 0 2 < 3 → s.asleep = false → s.judgeProf (bits v 0 2) b = none →
        exec (.profTargetWrite q v) s = .next (ov (u.acceptProf (bits v 0 2) b) R.profTarget)
          ∧ (⟨if s.tide.running then some b else none, bits v 0 2⟩ : ProfCmd) ∈ (u.acceptProf (bits v 0 2) b).pwr.cmds)) ∧
    (∀ (b : Byte) (o : BitVec 22), let k := blk b.toNat (4 * o.toNat)
      (∀ d, regRow k = some d → d.acc = .ro ∨ d.acc = .rc ∨ d.acc = .wo) → q.val ≠ enmoraReq ∨ (k ≠ R.e2hDoorbell ∧ k ≠ R.e2bDoorbell) →
        exec (.registerWrite q b o v) s = .next s) ∧
    (q.val = enmoraReq →
      exec (.registerWrite q 0x04 (BitVec.ofNat 22 ((R.e2hDoorbell - blk 4 0) / 4)) v) s = .next ((setBitsOf 16 v.toNat).foldl State.ringE2h s) ∧
      exec (.registerWrite q 0x04 (BitVec.ofNat 22 ((R.e2bDoorbell - blk 4 0) / 4)) v) s = .next ((setBitsOf 16 v.toNat).foldl State.ringE2b s)) ∧
    (∀ (b : Byte) (o : BitVec 22) (d : RegRow), let k := blk b.toNat (4 * o.toNat)
      may k → regRow k = some d → d.acc = .w1c → b.toNat ≠ 4 → k ≠ R.clkStatus → k ≠ R.numStatus → Safety.canonical s = true →
        ∃ t : State, exec (.registerWrite q b o v) s = .next t ∧ t = { s with regs := t.regs } ∧ t.reg k = s.reg k &&& ~~~v
          ∧ ∀ j, j ≠ k → j ≠ R.clkStatus → t.reg j = s.reg j) ∧
    (may R.pwrCtrl → Safety.canonical s = true →
      ∃ t : State, exec (.registerWrite q 0x01 (BitVec.ofNat 22 ((R.pwrCtrl - blk 1 0) / 4)) v) s = .next t
      ∧ t = { s with regs := t.regs, overrides := t.overrides } ∧ (∀ k, k ≠ R.pwrCtrl → t.reg k = s.reg k)
      ∧ bits (t.reg R.pwrCtrl) 0 8 = (if 1 ≤ bits v 0 8 ∧ bits v 0 8 ≤ 100 then bits v 0 8 else bits (s.reg R.pwrCtrl) 0 8)
      ∧ bits (t.reg R.pwrCtrl) 8 8 = (if 50 ≤ bits v 8 8 ∧ bits v 8 8 ≤ 95 then bits v 8 8 else bits (s.reg R.pwrCtrl) 8 8)) ∧
    (may R.numCtrl → 10 ≤ bits v 0 5 → bits v 0 5 ≤ 20 →
      ∃ t : State, exec (.registerWrite q 0x09 (BitVec.ofNat 22 ((R.numCtrl - blk 9 0) / 4)) v) s = .next t
        ∧ t = { s with shadow := t.shadow, overrides := t.overrides } ∧ bits (t.latest R.numCtrl) 0 5 = bits v 0 5
        ∧ ∀ k, k ≠ R.numCtrl → t.pendingReg k = s.pendingReg k)

/-- Doorbells and releases (R92 to R99, R517). A doorbell on a full mailbox is rejected: REJECT sets and nothing else changes. Otherwise the slot
holds the message padded with zeros and FULL sets; a doorbell on E2H is notified to the session that posted the command (R98), and one on a bay's
mailbox wakes a gated bay and powers a bay that is off. A write of ones to a FULL register clears the bits it names; a release of an E2H or E2B
mailbox interrupts the Command role when MBX_IRQ_EN says so, and only a release of E2B mailboxes ends the wait for them. After 10 ms the first timeout
of a message that still waits is logged once (R97). -/
def Obligations.DoorbellsAndReleasesAct : Prop :=
  ∀ s : State, Safety.canonical s = true →
    (∀ (n : Fin 16) (msg : List Byte),
      (bit (s.reg R.e2hFull) n = true → exec (.e2hDoorbell n msg) s = .next (s.orReg R.e2hReject (2 ^ n.val))) ∧
      (bit (s.reg R.e2hFull) n = false → msg.length ≤ 256 → ∃ t : State, exec (.e2hDoorbell n msg) s = .next (t.notify n (s.posterOf n))
        ∧ t = { s with regs := t.regs } ∧ t.slot (R.e2hSlot n) = padBytes 256 msg ∧ t.reg R.e2hFull = s.reg R.e2hFull ||| word (2 ^ n.val)
        ∧ ∀ k, (∀ i < 64, k ≠ R.e2hSlot n + 4 * i) → k ≠ R.e2hFull → t.reg k = s.reg k)) ∧
    (∀ (b : Fin 16) (msg : List Byte),
      (bit (s.reg R.e2bFull) b = true → exec (.e2bDoorbell b msg) s = .next (s.orReg R.e2bReject (2 ^ b.val))) ∧
      (bit (s.reg R.e2bFull) b = false → msg.length ≤ 256 → ∃ t : State, exec (.e2bDoorbell b msg) s = .next t
        ∧ t = { s with regs := t.regs, bay := { s.bay with waiting := s.bay.waiting ++ [b.val] }, pwr := t.pwr }
        ∧ t.slot (R.e2bSlot b) = padBytes 256 msg ∧ t.reg R.e2bFull = s.reg R.e2bFull ||| word (2 ^ b.val)
        ∧ (s.regionMode b = 0 ∨ s.regionMode b = 1 → t.regionMode b = 0) ∧ (s.regionMode b = 2 ∨ s.regionMode b = 3 → t.regionMode b = 3))) ∧
    (∀ (set : Fin 3) (v : Half), let full := if set.val = 0 then R.h2eFull else if set.val = 1 then R.e2hFull else R.e2bFull
      let freed := fun n => bit v n && bit (s.reg full) n
      ∃ t : State, exec (.mailboxRelease set v) s = .next t
        ∧ t = { s with
          regs := t.regs
          bay := { s.bay with waiting := if set.val = 2 then s.bay.waiting.filter fun b => !freed b else s.bay.waiting }
          enm := { s.enm with irq := s.enm.irq || (decide (set.val ≠ 0) && bit (s.reg R.mbxIrqEn) set && (List.range 16).any freed) } }
        ∧ (∀ k, k ≠ full → t.reg k = s.reg k) ∧ ∀ n < 32, bit (t.reg full) n = (bit (s.reg full) n && !bit v n)) ∧
    (∀ b : Fin 16, exec (.e2bTimeout b) s = .next (if b.val ∈ s.bay.waiting ∧ s.enm.running = true then
      ({ s with bay := { s.bay with waiting := s.bay.waiting.filter (· != b.val) } } : State).logFull 0xFF00 0x26 0xFFFF 0xFFFF
        (leBytes 1 b ++ [0] ++ leBytes 2 (bytesAt (s.slot (R.e2bSlot b)) 0 2)) [] else s))

/-- The Command role's own steps (R89, R101, R102, R104, R105, R107, R108, R513, R590). A read of H2E_NEXT by the Command role takes the oldest
doorbell: Enmora takes into its journal the message of that mailbox, and before it that of H2E 15 when one waits there (log entry 109); a message
whose header fails is then logged and answered ERR_HEADER, and one whose opcode is not listed ERR_OPCODE; a read by any other requester changes
nothing. A response waits until its E2H mailbox is free, is then posted there with the command's opcode and TAG, ends the journal's entry and releases
the H2E mailbox; the oldest event is posted on E2H 15 once that is free. After a thermal trip only the response of DEV_RESET_CAUSE is posted. -/
def Obligations.CommandRoleActs : Prop :=
  ∀ s : State, Safety.canonical s = true →
    (∀ q : Fin 9, q ≠ 8 ∨ s.commandRuns = false ∨ s.enm.order = [] → exec (.h2eNextRead q) s = .next s) ∧
    (∀ mb rest, s.commandRuns = true → s.enm.order = mb :: rest → mb < 16 →
      let take := fun (u : State) (n : Nat) =>
        let m := u.slot (R.h2eSlot n)
        let v : State := { u with enm := { u.enm with
          taken := u.enm.taken ++ [⟨n, BitVec.ofNat 16 (bytesAt m 0 2), headerTag m, msgPayload m, .waiting⟩] } }
        if bit (u.reg R.h2eFull) n = false ∨ ∃ x ∈ u.enm.taken, x.mb = n then u
        else if headerOk m = false then
          (v.logFull 0x0400 0x0028 0xFFFF (headerTag m) (leBytes 1 0 ++ leBytes 1 n) []).respond n (bytesAt m 0 2) (headerTag m) ⟨1, []⟩
        else if opcodeListed (bytesAt m 0 2) = false then v.respond n (bytesAt m 0 2) (headerTag m) ⟨3, []⟩
        else v
      exec (.h2eNextRead 8) s = .next (take (take { s with enm := { s.enm with order := rest } } 15) mb)) ∧
    (∀ mb : Fin 16, s.enm.responses.find? (·.mb == mb.val) = none → exec (.responsePost mb) s = .next s) ∧
    (∀ (mb : Fin 16) (x : Msg), s.enm.responses.find? (·.mb == mb.val) = some x → x.pay.length ≤ 240 →
      (s.commandRuns = false ∨ (s.rst.tripped = true ∧ x.opcode ≠ 0x0104) ∨ bit (s.reg R.e2hFull) mb = true → exec (.responsePost mb) s = .next s) ∧
      (s.commandRuns = true → s.rst.tripped = false ∨ x.opcode = 0x0104 → bit (s.reg R.e2hFull) mb = false →
        ∃ t : State, exec (.responsePost mb) s = .next (t.notify mb (s.posterOf mb))
        ∧ t = { s with regs := t.regs
                       enm := { s.enm with
                         responses := s.enm.responses.erase x, taken := s.enm.taken.filter (·.mb != mb.val)
                         gated := s.part.enmoraGated && s.enm.order.isEmpty && (s.enm.taken.filter (·.mb != mb.val)).isEmpty && (s.enm.responses.erase x).isEmpty } }
        ∧ t.slot (R.e2hSlot mb) = msgBytes x.opcode.toNat x.tag.toNat x.status.toNat 1 x.pay
        ∧ bit (t.reg R.e2hFull) mb = true ∧ bit (t.reg R.h2eFull) mb = false
        ∧ ∀ k, (∀ i < 64, k ≠ R.e2hSlot mb + 4 * i) → k ≠ R.e2hFull → k ≠ R.h2eFull → t.reg k = s.reg k)) ∧
    (s.enm.events = [] ∨ s.commandRuns = false ∨ s.rst.tripped = true ∨ bit (s.reg R.e2hFull) 15 = true → exec .eventPost s = .next s) ∧
    (∀ e rest, s.enm.events = e :: rest → s.commandRuns = true → s.rst.tripped = false → bit (s.reg R.e2hFull) 15 = false → e.more.length ≤ 236 →
      ∃ t : State, exec .eventPost s = .next (t.notify 15 none)
        ∧ t = { s with regs := t.regs, enm := { s.enm with events := rest } }
        ∧ t.slot (R.e2hSlot 15) = msgBytes e.code.toNat (e.seq.toNat % 65536) 0 2 (leBytes 4 e.seq.toNat ++ e.more)
        ∧ bit (t.reg R.e2hFull) 15 = true ∧ ∀ k, (∀ i < 64, k ≠ R.e2hSlot 15 + 4 * i) → k ≠ R.e2hFull → t.reg k = s.reg k)

/-- ENMORA_CORE_FAIL (R87 to R90). The first failure of a core that holds a role moves the role to the spare core, uses the spare and is logged; when
the Command role's core fails, every command taken whose response is not posted is to be executed again from its start, and what the failed core held
of it is gone (a message that was no command keeps its response). A failure of the spare core itself only retires it. With no spare left the roles
share the cores that remain and the job restarts with cause 0x0A; with no core left nothing moves and nothing is logged (the model's choice: log entry
21). A core that has failed does not fail again, and no core fails before the firmware runs. -/
def Obligations.EnmoraCoreFailureActs : Prop :=
  ∀ (c : Fin 4) (s : State),
    let again := fun (u : State) =>
      let keep := u.enm.responses.filter fun m => m.status == 1 || m.status == 3
      ({ u with enm := { u.enm with
                  responses := keep, polls := []
                  taken := u.enm.taken.map fun t => if (keep.any fun m => m.mb == t.mb) = true then t else { t with phase := .waiting } }
                link := { u.link with measures := [] }, pwr := { u.pwr with waking := none } } : State)
    (s.enm.running = false ∨ c.val ∈ s.enm.failed → exec (.enmoraCoreFail c) s = .next s) ∧
    (s.enm.running = true → s.enm.failed = [] → s.enm.roleCore = [0, 1, 2] → c.val < 3 →
      let u := ({ s with
        kept := { s.kept with failedEnmora := s.kept.failedEnmora ++ [c.val] }
        enm := { s.enm with failed := [c.val], roleCore := [0, 1, 2].set c 3 } } : State).spareUsed 0xFF00 8 c 3
      exec (.enmoraCoreFail c) s = .next ((if c.val = 0 then again u else u).log_ 0xFF00 0x25 (leBytes 1 c ++ leBytes 1 c))) ∧
    (s.enm.running = true → s.enm.failed = [] → s.enm.roleCore = [0, 1, 2] → c.val = 3 → exec (.enmoraCoreFail c) s = .next { s with
      kept := { s.kept with failedEnmora := s.kept.failedEnmora ++ [3] }, enm := { s.enm with failed := [3] } }) ∧
    (s.enm.running = true → c.val ∉ s.enm.failed → s.enm.failed.length = 1 ∨ s.enm.failed.length = 2 → ∃ t : State, exec (.enmoraCoreFail c) s = .next t
      ∧ t.job.restart = some 0x0A ∧ t.job.lost = true ∧ t.tide.issueStop = true ∧ t.enm.failed = s.enm.failed ++ [c.val] ∧ t.mem = s.mem
      ∧ t.routes = s.routes) ∧
    (s.enm.running = true → c.val ∉ s.enm.failed → s.enm.failed.length = 3 → ∃ t : State, exec (.enmoraCoreFail c) s = .next t
      ∧ t.enm.failed = s.enm.failed ++ [c.val] ∧ t.commandRuns = false ∧ t.job = s.job ∧ t.regs = s.regs ∧ t.mem = s.mem)

/-- The orders of the bay control units (R116, R153, R206, R207, R466, R517, R591, R592, Table 17.2). A unit takes the order in its mailbox while its
bay is running or gated; it does what the order says or schedules it for its boundary (the next one while the sequencer is stopped), writes BAY_RESULT
with the TAG, opcode and outcome, has the outcome logged, and releases the mailbox. An order that cannot be carried out is REFUSED and changes nothing
else; one whose header fails is logged and answered so (R102). -/
def Obligations.BayOrdersAct : Prop :=
  ∀ (b : Fin 16) (s : State), ∀ m, m = s.slot (R.e2bSlot b) →
    let tag := BitVec.ofNat 16 (bytesAt m 4 2)
    let done (u : State) (op out : Nat) : State := (u.bayOutcome b tag op out).releaseBay b
    let held := fun (op k : Nat) (arg : List Byte) => ({ s with bay := { s.bay with scheduled := s.bay.scheduled ++
      [({ bay := b, tag, opcode := BitVec.ofNat 16 op, boundary := if s.tide.running then k else s.nextStep3, arg } : BayOrder)] } } : State)
    (∀ (mode : Fin 3) (pos : Fin 16) (row : Fin 64) (k : Nat) (named faulty : BitVec 17), ∀ p ∈ ([(.bayPower b mode, 0xC001), (.bayCoreMap b pos k, 0xC002),
        (.bayRowMap b pos row k, 0xC003), (.bayClkgen b, 0xC004), (.baySelftest b named faulty, 0xC005)] : List (Instr × Nat)),
      (bit (s.reg R.e2bFull) b = false ∨ 2 ≤ s.regionMode b ∨ (headerOk m = true ∧ bytesAt m 0 2 ≠ p.2) → exec p.1 s = .next s) ∧
      (bit (s.reg R.e2bFull) b = true → s.regionMode b < 2 → headerOk m = false → exec p.1 s = .next
        ((((s.logFull 0x0400 0x0028 0xFFFF (headerTag m) (leBytes 1 2 ++ leBytes 1 b) []).bayOutcome b (headerTag m) (bytesAt m 0 2) 4).releaseBay b)))) ∧
    (bit (s.reg R.e2bFull) b = true → s.regionMode b < 2 → headerOk m = true →
    (bytesAt m 0 2 = 0xC001 →
      (s.hasWork (inBay b) = true → exec (.bayPower b 0) s = .next (done s 0xC001 3) ∧ exec (.bayPower b 1) s = .next (done s 0xC001 1)) ∧
      (s.hasWork (inBay b) = false → exec (.bayPower b 0) s = .next (done ((s.setRegionMode b 2).loseBay b) 0xC001 1)
        ∧ exec (.bayPower b 1) s = .next (done (s.gate b) 0xC001 1)) ∧
      exec (.bayPower b 2) s = .next (done (s.ungateBay b) 0xC001 1)) ∧
    (bytesAt m 0 2 = 0xC002 → ∀ (pos : Fin 16) (k : Nat),
      ((∃ x ∈ s.kept.spareSlotOf, x.1 = b.val) ∨ (∃ o ∈ s.bay.scheduled, o.bay = b.val ∧ o.opcode = 0xC002) →
        exec (.bayCoreMap b pos k) s = .next (done s 0xC002 3)) ∧
      ((∀ x ∈ s.kept.spareSlotOf, x.1 ≠ b.val) → (∀ o ∈ s.bay.scheduled, o.bay = b.val → o.opcode ≠ 0xC002) →
        exec (.bayCoreMap b pos k) s = .next (done (held 0xC002 k (leBytes 1 pos)) 0xC002 2))) ∧
    (bytesAt m 0 2 = 0xC003 → ∀ (pos : Fin 16) (row : Fin 64) (k : Nat),
      (bit (s.reg (R.rowMap (16 * b.val + pos.val))) 31 = true → exec (.bayRowMap b pos row k) s = .next (done s 0xC003 3)) ∧
      (bit (s.reg (R.rowMap (16 * b.val + pos.val))) 31 = false →
        let u := held 0xC003 k (leBytes 1 pos ++ leBytes 1 row)
        exec (.bayRowMap b pos row k) s = .next (done (if (if s.tide.running then k else s.nextStep3) ≤ s.nextStep3
          then (u.setField (R.rowMap (16 * b.val + pos.val)) 30 1 1).setField (R.rowMap (16 * b.val + pos.val)) 16 7 row.val else u) 0xC003 2))) ∧
    (bytesAt m 0 2 = 0xC004 →
      (bit (s.reg (R.regionState b)) 4 = false → exec (.bayClkgen b) s = .next (done s 0xC004 3)) ∧
      (bit (s.reg (R.regionState b)) 4 = true → exec (.bayClkgen b) s = .next (done
        (((s.setReg (R.regionState b) (setBits (s.reg (R.regionState b)) 3 2 1)).spareUsed (srcOf 0x01 b) 9 (2 * b) (2 * b + 1)).centre (· == b.val))
        0xC004 1))) ∧
    (bytesAt m 0 2 = 0xC005 → ∀ named faulty : BitVec 17,
      ((∃ i < 17, named.toNat.testBit i = true ∧ ∃ c, s.coreAt b i = some c ∧ s.hasWork (· == c) = true) →
        exec (.baySelftest b named faulty) s = .next (done s 0xC005 3)) ∧
      ((∀ i < 17, named.toNat.testBit i = true → ∀ c, s.coreAt b i = some c → s.hasWork (· == c) = false) →
        exec (.baySelftest b named faulty) s = .next (done (s.setReg (R.baySelftestFail b) (word (named &&& faulty).toNat)) 0xC005
          (if named &&& faulty = 0 then 1 else 5)))))

/-- R73, R240 to R242, Table 2.6: the next descriptor of a list, in SEQ order, is available to issue unless issue is stopped on the device, a fault
waits on its core, its FENCE is set while a descriptor of the list has not completed, an SD or SHF that feeds it has not completed, the list is held
at a TMK, a pass on the core's array is flagged (R149), or a list of the core with a lower number is sure to be ready (R240; when a list is sure to be
ready is the model's choice: log entry 114); the issue makes it busy and moves the list on by one. -/
def Obligations.DescriptorsIssueInOrder : Prop :=
  ∀ (s : State) (core num : Nat) (p : BitVec 512 → Bool) (l : DList) (d : BitVec 512), s.dlist core num = some l → l.descs[l.issued]? = some d → p d = true →
    (s.tide.issueStop = true ∨ core ∈ s.tide.faults → s.nextDesc core num p = none) ∧
    (bit d 16 = true → l.busy ≠ [] → s.nextDesc core num p = none) ∧
    (l.fedLate l.issued = true → s.nextDesc core num p = none) ∧
    (l.heldAt = true → s.nextDesc core num p = none) ∧
    ((∃ x ∈ (s.arr core).passes, x.flag ≠ none) ∨ s.firstReady core num = false → s.nextDesc core num p = none) ∧
    (s.tide.issueStop = false → core ∉ s.tide.faults → bit d 16 = false ∨ l.busy = [] → l.fedLate l.issued = false → l.heldAt = false →
      (∀ x ∈ (s.arr core).passes, x.flag = none) → s.firstReady core num = true → s.nextDesc core num p = some (l, d)) ∧
    (s.issue l).dlist core num = some { l with issued := l.issued + 1, busy := l.busy ++ [l.issued] } ∧
    (∀ c n, (c, n) ≠ (l.core, l.num) → (s.issue l).dlist c n = s.dlist c n)

/-- R142, R168, Table 4.7: every vector operation takes the next descriptor of its list when that is a VOD of its operation that no APD has fused; its
vectors run in order and its work drains, where the core's copy of the SCALE it divides by is sound (R306). One of whose complement pairs fails issues
nothing and is a fault of its core. Registers change only in the counts of non-finite values and list switches; the log, routes, images, job and every
mailbox stay as they are. -/
def Obligations.VectorOpsRun : Prop :=
  ∀ (core : Fin 256) (list : Fin 8) (s : State) (l : DList) (d : BitVec 512),
    ∀ x ∈ ([(.vodMov core list, 0x00), (.vodAdd core list, 0x01), (.vodSub core list, 0x02), (.vodMul core list, 0x03), (.vodFma core list, 0x04),
        (.vodMax core list, 0x05), (.vodMin core list, 0x06), (.vodAbs core list, 0x07), (.vodSel core list, 0x08), (.vodRcp core list, 0x09),
        (.vodRsqrt core list, 0x0A), (.vodSqrt core list, 0x0B), (.vodExp core list, 0x0C), (.vodLog core list, 0x0D), (.vodDiv core list, 0x0E),
        (.vodAct core list, 0x0F), (.vodRsum core list, 0x10), (.vodRmax core list, 0x11), (.vodRamax core list, 0x12), (.vodRssq core list, 0x13),
        (.vodRng core list, 0x14)] : List (Instr × Nat)),
      s.nextDesc core list (fun d => bits d 0 8 == 3 && bits d 268 6 == x.2 && !(bits d 304 2 == 3)) = some (l, d) →
      (vodPairsOk d = false → exec x.1 s = .next (s.descFault core)) ∧
      (vodPairsOk d = true → (∀ r, s.divRec core d = some r → s.spoilt (.scale core r) = false) →
        exec x.1 s = .next (((s.issue l).vodVectors core d).drain l.ref)
        ∧ ∃ t : State, exec x.1 s = .next t ∧ t = { s with
            regs := t.regs, mem := t.mem, dirty := t.dirty, lists := t.lists, str := t.str, cores := t.cores, nums := t.nums, memc := t.memc, free := t.free })

/-- The lanes of an elementwise VOD of one vector from accumulator entries to an accumulator entry, without AMAX (Table 4.7, R142, R277, R279): each
is the operation's exact result rounded once to FP32. MAX and MIN of ordered values are the larger and the smaller, and a NaN gives the canonical NaN;
RCP, RSQRT, EXP and LOG are stated where the result is exact, and ACT for the identity, ReLU and leaky ReLU and for every function's limits at the
infinities that are not zeros of either sign, and at NaN (Table 4.9, R279). -/
def Obligations.VectorLanesCompute : Prop :=
  ∀ (core : Fin 256) (list : Fin 8) (s : State) (l : DList) (d : BitVec 512) (i : Nat), i < 64 → bits d 0 8 = 3 → vodPairsOk d = true → vCount d = 1
      → vASp d = 1 → vBSp d = 1 → vCSp d = 1 → vDstSp d = 1 → vAmax d = false → vSr d = false → vGated d = false
      → s.nextDesc core list (fun x => x == d) = some (l, d) → Sparse.wf (fun _ => ({} : ArrCore)) s.cores = true
      → Sparse.wf (fun _ => (0 : Word)) (s.arr core).acc = true →
    let at_ (e : Nat) : Word := ((s.arr core).entry e).getD i 0
    let a := wval (at_ (vSrcA d))
    let b := wval (at_ (vSrcB d))
    let c := wval (at_ (vSrcC d))
    let gives (x : Instr) (v : Val) : Prop := ∃ t : State, exec x s = .next t ∧ ((t.arr core).entry (vDst d)).getD i 0 = w32 .even v
    (vOp d = 0x00 → gives (.vodMov core list) a) ∧ (vOp d = 0x01 → gives (.vodAdd core list) (a.add b)) ∧
    (vOp d = 0x02 → gives (.vodSub core list) (a.add b.neg)) ∧ (vOp d = 0x03 → gives (.vodMul core list) (a.mul b)) ∧
    (vOp d = 0x04 → gives (.vodFma core list) ((a.mul b).add c)) ∧
    (vOp d = 0x05 → (b.lt a = true → gives (.vodMax core list) a) ∧ (a.lt b = true → gives (.vodMax core list) b)
      ∧ (a = .nan ∨ b = .nan → gives (.vodMax core list) .nan)) ∧
    (vOp d = 0x06 → (b.lt a = true → gives (.vodMin core list) b) ∧ (a.lt b = true → gives (.vodMin core list) a)
      ∧ (a = .nan ∨ b = .nan → gives (.vodMin core list) .nan)) ∧
    (vOp d = 0x07 → gives (.vodAbs core list) a.abs) ∧
    (vOp d = 0x08 → gives (.vodSel core list) (if c.isZero then b else a)) ∧
    (vOp d = 0x09 → (a = .nan → gives (.vodRcp core list) .nan) ∧ (∀ n, a = .inf n → gives (.vodRcp core list) (.fin n 0 0))
      ∧ ∀ n e, a = .fin n 0 e → gives (.vodRcp core list) (.inf n)) ∧
    (vOp d = 0x0A → (a = .nan ∨ a = .inf true → gives (.vodRsqrt core list) .nan) ∧ ∀ n e, a = .fin n 0 e → gives (.vodRsqrt core list) (.inf n)) ∧
    (vOp d = 0x0B → gives (.vodSqrt core list) a.sqrt) ∧
    (vOp d = 0x0C → (a = .inf false → gives (.vodExp core list) a) ∧ (a = .inf true → gives (.vodExp core list) (.fin false 0 0))
      ∧ (a = .nan → gives (.vodExp core list) .nan)) ∧
    (vOp d = 0x0D → (a.isZero = true → gives (.vodLog core list) (.inf true)) ∧ (a.lt (.fin false 0 0) = true → gives (.vodLog core list) .nan)) ∧
    (vOp d = 0x0E → gives (.vodDiv core list) (a.div b)) ∧
    (vOp d = 0x0F → (vFunc d = 0 → gives (.vodAct core list) a) ∧
      (vFunc d = 1 → a ≠ .nan → a.isZero = false → gives (.vodAct core list) (if a.lt (.fin false 0 0) then .fin false 0 0 else a)) ∧
      (vFunc d = 2 → gives (.vodAct core list) (if a.lt (.fin false 0 0) then a.mul (wval (vImm d)) else a)) ∧
      (a = .nan → gives (.vodAct core list) .nan) ∧
      (3 ≤ vFunc d → vFunc d ≤ 8 → a = .inf false → gives (.vodAct core list) (if vFunc d = 6 ∨ vFunc d = 7 then .fin false 1 0 else .inf false)) ∧
      (a = .inf true → (vFunc d = 6 ∨ vFunc d = 8 → gives (.vodAct core list) (.fin false 0 0)) ∧
        (vFunc d = 7 → gives (.vodAct core list) (.fin true 1 0))))

/-- The reductions and RNG, of one vector from an accumulator entry to an accumulator entry (Table 4.7, R278): RSUM and RSSQ are the pairwise tree's
sum of the lanes and of their squares, RAMAX the largest magnitude of a lane and RMAX the largest lane, each one that some lane has, and NaN
where a lane is NaN (R279); the other lanes are zero. Each lane
of RNG lies in [0, 1). -/
def Obligations.ReductionsCompute : Prop :=
  ∀ (core : Fin 256) (list : Fin 8) (s : State) (l : DList) (d : BitVec 512), bits d 0 8 = 3 → vodPairsOk d = true → vCount d = 1 → vASp d = 1 → vDstSp d = 1
      → vAmax d = false → vSr d = false → s.nextDesc core list (fun x => x == d) = some (l, d) → Sparse.wf (fun _ => ({} : ArrCore)) s.cores = true
      → Sparse.wf (fun _ => (0 : Word)) (s.arr core).acc = true →
    let a := (s.arr core).entry (vSrcA d)
    let gives (x : Instr) (p : Word → Prop) : Prop := ∃ t : State, exec x s = .next t ∧ p (((t.arr core).entry (vDst d)).getD 0 0)
      ∧ ∀ i < 64, 0 < i → ((t.arr core).entry (vDst d)).getD i 0 = 0
    (vOp d = 0x10 → gives (.vodRsum core list) fun w => w = w32 .even (wval (treeSum a))) ∧
    (vOp d = 0x11 → gives (.vodRmax core list) fun w => if a.any (fun x => (wval x).isNan) then (wval w).isNan = true
      else (∀ x ∈ a, (wval w).lt (wval x) = false) ∧ ∃ x ∈ a, w = x) ∧
    (vOp d = 0x12 → gives (.vodRamax core list) fun w => if a.any (fun x => (wval x).isNan) then (wval w).isNan = true
      else (∀ x ∈ a, (wval w).lt (wval x).abs = false) ∧ ∃ x ∈ a, wval w = (wval x).abs) ∧
    (vOp d = 0x13 → gives (.vodRssq core list) fun w => w = w32 .even (wval (treeSum (a.map fun x => fmul x x)))) ∧
    (vOp d = 0x14 → ∃ t : State, exec (.vodRng core list) s = .next t ∧ ∀ i < 64, ∃ m : Nat, m < 2 ^ 24
      ∧ ((t.arr core).entry (vDst d)).getD i 0 = w32 .even (.fin false m (-24)))

/-- SLD and APD (R128 to R130, R140, R148, R149, Table 4.5). An SLD loads the tile of its descriptor when no pass is on the array, at a cost of 64
cycles (128 in a quadrille, and for a transposed load that nothing could stage), and waits while a pass is. An APD of no rows or no vectors counts as
a no-op and its work drains; any other joins the array's passes and the array goes on. Both wait while a pass of the core is flagged. A descriptor of
whose complement pairs one fails is a fault of its core. Stated where the core's copy of the record that a scale refers to is sound (R306), and of an
APD with no pass before it and nothing fused to it. ARRAY_RETRY (R149 to R151, Table 4.11): once every pass of a core with one flagged pass has taken
its last vector, that pass is retried and the array goes on. A retry whose first segment, the flagged vector fetched again, fails its check again, and
whose self-test finds two faulty rows, is a fault of its core. -/
def Obligations.ArrayActs : Prop :=
  (
    ∀ (core : Fin 256) (list : Fin 8) (s : State) (l : DList) (d : BitVec 512),
      (s.nextDesc core list (fun d => bits d 0 8 == 1) = some (l, d) →
        ((s.arr core).passes ≠ [] → exec (.sld core list) s = .next s) ∧
        ((s.arr core).passes = [] → sldPairsOk d = false → exec (.sld core list) s = .next (s.descFault core)) ∧
        ((s.arr core).passes = [] → sldPairsOk d = true → (∀ r, scaleRef (lScale d) = some r → s.spoilt (.scale core r) = false)
          → Sparse.wf (fun _ => ({} : ArrCore)) s.cores = true → Safety.canonical s = true →
          ∃ t : State, exec (.sld core list) s = .next t ∧ t = { s with regs := t.regs, lists := t.lists, str := t.str, cores := t.cores, nums := t.nums }
            ∧ t.arr core = { s.arr core with tile := some (s.loadTile core d), ran := false } ∧ (∀ c, c ≠ core.val → t.arr c = s.arr c)
            ∧ t.reg (R.loadCycles core) = satAdd (s.reg (R.loadCycles core)) (if lQuad d ∨ (lTrans d ∧ (s.arr core).ran = false) then 128 else 64))) ∧
      (∀ (cold : Bool) (bad : List (Nat × Fin 130 × Word)), s.nextDesc core list (fun d => bits d 0 8 == 2) = some (l, d) →
        ((s.arr core).passes = [] → apdPairsOk d = false → exec (.apd core list cold bad) s = .next (s.descFault core)) ∧
        ((s.arr core).passes = [] → apdPairsOk d = true → l.fused l.issued = (none, none) →
          (∀ r, scaleRef (aScale d) = some r → s.spoilt (.scale core r) = false) →
          ∀ p : PassRun, p = { own := l.ref, desc := d, wscale := s.resolveScale core (aScale d), vod := none, push := none
                               bad := bad.map fun x => (x.1, x.2.1.val, x.2.2), cold := cold && decide (aK d ≠ 0) } →
          (aM d = 0 ∨ aN d = 0 → exec (.apd core list cold bad) s = .next (((s.issue l).count (R.apdNoop core)).endPass core p true)) ∧
          (aM d ≠ 0 → aN d ≠ 0 → exec (.apd core list cold bad) s = .next
            (((s.issue l).setArr core { s.arr core with passes := [p] }).reelGo core)))) ∧
      (∀ (cold : Bool) (bad : List (Nat × Fin 130 × Word)), (∃ p ∈ (s.arr core).passes, p.flag ≠ none) →
        exec (.sld core list) s = .next s ∧ exec (.apd core list cold bad) s = .next s) ∧
      (∀ (lf : List Half) (r1 r2 : List (Fin 4 × Nat × Fin 130 × Word)) (f : List (Fin 130)),
        (∀ p ∈ (s.arr core).passes, p.flag = none) ∨ (∃ p ∈ (s.arr core).passes, p.taken ≠ bits p.desc 416 32) ∨ s.tide.issueStop = true
          ∨ core.val ∈ s.tide.faults → exec (.arrayRetry core lf r1 r2 f) s = .next s)) ∧
  (
    ∀ (core : Fin 256) (lf : List Half) (r1 r2 : List (Fin 4 × Nat × Fin 130 × Word)) (f : List (Fin 130)) (s : State) (p : PassRun) (v0 : Nat),
      (s.arr core).passes = [p] → p.flag = some v0 → p.taken = bits p.desc 416 32 → s.tide.issueStop = false → core.val ∉ s.tide.faults →
        exec (.arrayRetry core lf r1 r2 f) s = .next ((s.retryPass core (lf.headD 0).toNat p (ofPass r1 0) (ofPass r2 0) (sortDedup (f.map (·.val)))).reelGo core)
        ∧ ∀ t, (s.arr core).tile = some t → s.vecFails core t p v0 (s.passVec core p v0).1 (s.passVec core p v0).2 (ofPass r1 0) = true →
            ∀ a b : Fin 130, a < b → f = [a, b] → core.val ∈ (s.retryPass core (lf.headD 0).toNat p (ofPass r1 0) (ofPass r2 0) (sortDedup (f.map (·.val)))).tide.faults)

/-- What the gate does to every gated update operation (R166, R347, R361, R362, R366): with a failed complement pair the descriptor is a fault of its
core; one of no vectors is a no-op; else
the cycles waited since the command was last given count in GATE_WAIT_CYCLES and, of an operation that waits on pins, in VER_WAIT_CYCLES; while the gate
is OPEN the operation is held; under SKIP it completes as a no-op, counted; under PASS it is an error of the update engine when the record's copy is not sound (code 5) or the record has been committed in the
step (code 2), and under either, APPLY, CH_SCALES and QUANT wait while the target slot is pinned, which sets VER_WAIT. -/
def Obligations.UpdateGateDecides : Prop :=
  ∀ (core : Fin 256) (list : Fin 8) (gw pw : Word) (s : State) (l : DList) (d : BitVec 512),
    ∀ x ∈ ([(.sgdMom core list gw, 0x20, false), (.adamMom core list gw, 0x21, false), (.applyUpd core list gw pw, 0x22, true),
        (.chScales core list gw pw, 0x23, true), (.quant core list gw pw, 0x24, true), (.gmov core list gw, 0x25, false),
        (.gradPass core list gw, 0x26, false), (.verCommit core list gw, 0x2A, false)] : List (Instr × Nat × Bool)),
      s.nextDesc core list (fun d => bits d 0 8 == 3 && bits d 268 6 == x.2.1) = some (l, d) →
      let w0 := s.count R.gateWaitCycles gw.toNat
      let w := if x.2.2 = true ∧ pw ≠ 0 then (w0.orReg R.updStatus 2).count R.verWaitCycles pw.toNat else w0
      let r := s.updRec (bits d 448 12)
      let sound := recPairsOk r.stat = true ∧ s.spoilt (.update (bits d 448 12)) = false
      (vodPairsOk d = false → exec x.1 s = .next (s.descFault core)) ∧
      (vodPairsOk d = true → vCount d = 0 → exec x.1 s = .next ((s.issue l).drain l.ref)) ∧
      (vodPairsOk d = true → vCount d ≠ 0 →
        (bits (s.reg R.gate) 0 2 = 0 → exec x.1 s = .next w) ∧
        (bits (s.reg R.gate) 0 2 = 2 → x.2.2 = true → r.ref r.target ≠ 0 → exec x.1 s = .next (w.orReg R.updStatus 2)) ∧
        (bits (s.reg R.gate) 0 2 = 2 → x.2.2 = false ∨ r.ref r.target = 0 →
          exec x.1 s = .next ((((w.issue l).count R.skippedUpdates).noteSkip l.ref).drain l.ref)) ∧
        (bits (s.reg R.gate) 0 2 = 1 → ¬ sound → exec x.1 s = .next ((w.issue l).updErr l.ref d 5)) ∧
        (bits (s.reg R.gate) 0 2 = 1 → sound → r.committed = true → exec x.1 s = .next ((w.issue l).updErr l.ref d 2)) ∧
        (bits (s.reg R.gate) 0 2 = 1 → sound → r.committed = false → x.2.2 = true → r.ref r.target ≠ 0 →
          exec x.1 s = .next (w.orReg R.updStatus 2)))

/-- The gated update operations under PASS (R350 to R357, R361, R362), for a record that is sound and not committed in the step: each runs over its
vectors in order and its work drains. APPLY, CH_SCALES and QUANT set UPDATING, and VER_WAIT where they waited for pins; APPLY ends with an error (code
4) at the first vector whose channel lies beyond the amax file, what it did before standing; CH_SCALES is an error (code 4) unless the record's
channel counter is a whole number of channels; VER_COMMIT without UPDATING is an error (code 3), and otherwise the record's VERSION rises by one and
it is committed. SGD_MOM of one vector with FP32 state (R351): d is GSCALE × g + WD × w; the momentum becomes d at VERSION 0 and otherwise β1 × b + (1
- DAMP) × d; the update is the momentum, or d + β1 × the new momentum under NESTEROV, each step rounded to FP32. It goes to the accumulator entry that
DST names, and no byte of memory outside the 256 bytes of the momentum vector changes. -/
def Obligations.UpdateRulesRun : Prop :=
  (
    ∀ (core : Fin 256) (list : Fin 8) (gw pw : Word) (s : State) (l : DList) (d : BitVec 512) (r : UpdRec), vodPairsOk d = true → vCount d ≠ 0
        → bits (s.reg R.gate) 0 2 = 1 → s.updRec (bits d 448 12) = r → recPairsOk r.stat = true → s.spoilt (.update (bits d 448 12)) = false
        → r.committed = false → ∀ w u : State, w = s.count R.gateWaitCycles gw.toNat → u = w.issue l →
      let next (op : Nat) : Prop := s.nextDesc core list (fun d => bits d 0 8 == 3 && bits d 268 6 == op) = some (l, d)
      let vecs := List.range (vCount d)
      (next 0x20 → exec (.sgdMom core list gw) s = .next ((vecs.foldl (fun s i => s.sgdVec core d r i) u).drain l.ref)) ∧
      (next 0x21 → exec (.adamMom core list gw) s = .next ((vecs.foldl (fun s i => s.adamVec core d r i) u).drain l.ref)) ∧
      (next 0x25 → exec (.gmov core list gw) s = .next ((vecs.foldl (fun s i => s.gmovVec core d i) u).drain l.ref)) ∧
      (next 0x26 → exec (.gradPass core list gw) s = .next (u.drain l.ref)) ∧
      (∀ (v : State) (r' : UpdRec), r.ref r.target = 0 → r' = { r with updating := true }
        → v = ((if pw = 0 then w else (w.orReg R.updStatus 2).count R.verWaitCycles pw.toNat).issue l).setRec (bits d 448 12) r'
        → Sparse.wf (fun _ => ({} : UpdRec)) s.upd.recs = true →
        (next 0x22 →
          let run := vecs.foldl (fun (o : State × Bool) i => if o.2 then (match o.1.applyVec core d r' i with
            | some s' => (s', true)
            | none => (o.1, false)) else o) (v, true)
          exec (.applyUpd core list gw pw) s = .next (if run.2 then run.1.drain l.ref else run.1.updErr l.ref d 4)
          ∧ (r.cfmt = 0 → run.2 = true) ∧ run.1.updRec (bits d 448 12) = r'
          ∧ run.1 = { s with regs := run.1.regs, mem := run.1.mem, dirty := run.1.dirty, lists := run.1.lists, str := run.1.str, cores := run.1.cores
                             nums := run.1.nums, upd := run.1.upd, memc := run.1.memc }) ∧
        (next 0x24 → exec (.quant core list gw pw) s = .next ((vecs.foldl (fun s i => s.quantVec core d r' i) v).drain l.ref)) ∧
        (next 0x23 → ∀ c, Sparse.get 0 (s.arr core).chCount (bits d 448 12) = c →
          (c = 0 ∨ c % max 1 r.chVecs ≠ 0 → exec (.chScales core list gw pw) s = .next (v.updErr l.ref d 4)) ∧
          (c ≠ 0 → c % max 1 r.chVecs = 0 → ∃ t : State, exec (.chScales core list gw pw) s = .next (t.drain l.ref)
            ∧ t = { s with regs := t.regs, mem := t.mem, dirty := t.dirty, lists := t.lists, str := t.str, cores := t.cores, nums := t.nums, upd := t.upd
                           memc := t.memc, free := t.free }
            ∧ (Sparse.wf (fun _ => ({} : ArrCore)) s.cores = true → (t.arr core).quants = 0 ∧ (t.arr core).chMax = []
              ∧ (t.arr core).chCount = [])))) ∧
      (next 0x2A →
        (r.updating = false → exec (.verCommit core list gw) s = .next (u.updErr l.ref d 3)) ∧
        (r.updating = true → exec (.verCommit core list gw) s = .next
          (((u.setRec (bits d 448 12) { r with version := r.version + 1, updating := false, committed := true }).count R.commits).drain l.ref))) ∧
      ∀ (x : State) (i : Nat), x.applyVec core d r i = none ↔
        r.cfmt ≠ 0 ∧ 64 ≤ Sparse.get 0 (x.arr core).chCount (bits d 448 12) / max 1 r.chVecs) ∧
  (
    ∀ (core : Fin 256) (list : Fin 8) (gw : Word) (s : State) (l : DList) (d : BitVec 512) (r : UpdRec), vodPairsOk d = true → bits (s.reg R.gate) 0 2 = 1
        → s.updRec (bits d 448 12) = r → recPairsOk r.stat = true → s.spoilt (.update (bits d 448 12)) = false → r.committed = false → r.bf16Moments = false → vCount d = 1 → vSrcB d + 256 ≤ 2 ^ 19
        → s.nextDesc core list (fun d => bits d 0 8 == 3 && bits d 268 6 == 0x20) = some (l, d)
        → Sparse.wf (fun _ => ({} : ArrCore)) s.cores = true → Sparse.wf (fun _ => (0 : Word)) (s.arr core).acc = true →
      ∃ t : State, exec (.sgdMom core list gw) s = .next t ∧
        (∀ i < 64,
          let g := (s.gradLanes core d 0).getD i 0
          let b := (s.lsLanes core Fm.fp32 (vSrcB d)).getD i 0
          let w := (s.lsLanes core Fm.bf16 (vSrcC d)).getD i 0
          let x := fadd .even (fmul (s.hpGscale r) g) (fmul (s.hpWd r) w)
          let y := if r.version = 0 then x else fadd .even (fmul (s.hpBeta1 r) b) (fmul (fsub f32one (s.hpDamp r)) x)
          ((t.arr core).entry (vDst d)).getD i 0 = if s.hpNesterov r then fadd .even x (fmul (s.hpBeta1 r) y) else y) ∧
        ∀ a, a < lsAddr core (vSrcB d) ∨ lsAddr core (vSrcB d) + 256 ≤ a → t.byte a = s.byte a)

/-- Pins of versions (R359 to R361, R366). VER_PIN pins the current slot of a record for a Shelf, and under FLUSH waits while UPDATING is set, which
sets VER_WAIT and counts the cycles waited since the command was last given; VER_UNPIN releases it. A pin of a Shelf that holds one, an unpin of one
that holds none (code 1) and a record whose copy is not sound (code 5) are errors of the update engine; a failed complement pair is a fault of the
core. -/
def Obligations.VersionPinsAct : Prop :=
  ∀ (core : Fin 256) (list : Fin 8) (wait : Word) (s : State) (l : DList) (d : BitVec 512) (r : UpdRec), s.updRec (bits d 448 12) = r →
    let sound := recPairsOk r.stat = true ∧ s.spoilt (.update (bits d 448 12)) = false
    let w := if wait = 0 then s else (s.orReg R.updStatus 2).count R.verWaitCycles wait.toNat
    (s.nextDesc core list (fun d => bits d 0 8 == 3 && bits d 268 6 == 0x28) = some (l, d) →
      (vodPairsOk d = false → exec (.verPin core list wait) s = .next (s.descFault core)) ∧
      (vodPairsOk d = true → ¬ sound → exec (.verPin core list wait) s = .next ((w.issue l).updErr l.ref d 5)) ∧
      (vodPairsOk d = true → sound → r.stash = false → r.updating = true → exec (.verPin core list wait) s = .next (w.orReg R.updStatus 2)) ∧
      (vodPairsOk d = true → sound → r.stash = true ∨ r.updating = false →
        (r.pin (bits d 464 5) ≠ 0 → exec (.verPin core list wait) s = .next ((w.issue l).updErr l.ref d 1)) ∧
        (r.pin (bits d 464 5) = 0 → exec (.verPin core list wait) s = .next (((w.issue l).setRec (bits d 448 12)
          { r.setRef r.current (r.ref r.current + 1) with pins := setBits r.pins (2 * bits d 464 5) 2 (2 + r.current) }).drain l.ref)))) ∧
    (s.nextDesc core list (fun d => bits d 0 8 == 3 && bits d 268 6 == 0x29) = some (l, d) →
      (vodPairsOk d = false → exec (.verUnpin core list) s = .next (s.descFault core)) ∧
      (vodPairsOk d = true → ¬ sound → exec (.verUnpin core list) s = .next ((s.issue l).updErr l.ref d 5)) ∧
      (vodPairsOk d = true → sound → r.pin (bits d 464 5) = 0 → exec (.verUnpin core list) s = .next ((s.issue l).updErr l.ref d 1)) ∧
      (vodPairsOk d = true → sound → ∀ slot < 2, r.pin (bits d 464 5) = 2 + slot →
        exec (.verUnpin core list) s = .next (((s.issue l).setRec (bits d 448 12)
          { r.setRef slot (r.ref slot - 1) with pins := setBits r.pins (2 * bits d 464 5) 2 0 }).drain l.ref)))

/-- SD, SD_ARM_RETRY and SD_COMPLETE (R235 to R237, R245, R248 to R250, R348, Table 6.12). An SD arms the next entry of its queue: OWN sets and the SD
starts, or its run-ahead is committed; when OWN is set already the arm is rejected: the queue's REARM_EARLY sets, REARM_WAITS rises, and SD_ARM_RETRY
repeats it; an SD with LEN 0 completes at arming; one whose pairs fail is a fault of its core; one whose FREE_SEQ names a gated operation of a skipped
step writes nothing. Once every operation of an armed SD has ended, its OWN bit clears, BYTES_MOVED counts it and it completes; one that failed
writes its DESC_DONE entry, where LOG asks for one, and what it feeds never issues. -/
def Obligations.StreamDescriptorsAct : Prop :=
  (∀ (core : Fin 256) (list : Fin 8) (s : State), ∀ x ∈ ([(.sd core list, false), (.sdArmRetry core list, true)] : List (Instr × Bool)),
    (s.str.retry.contains (core.val, list.val) ≠ x.2 ∨ s.nextDesc core list (fun d => bits d 0 8 == 4) = none → exec x.1 s = .next s) ∧
    (s.str.retry.contains (core.val, list.val) = x.2 → ∀ l d, s.nextDesc core list (fun d => bits d 0 8 == 4) = some (l, d) →
      ∀ q e, q = bits d 213 2 → s.tailOf core q = e →
      (sdPairsOk d = false → exec x.1 s = .next ((s.descFault core).settle core)) ∧
      (sdPairsOk d = true → s.ownBit core q e = true → ∀ u : State, u = (s.orReg (R.streamStatus core) (2 ^ q)).count (R.rearmWaits core) → exec x.1 s = .next
        ((if x.2 then u else ({ u with str := { u.str with retry := u.str.retry ++ [(core.val, list.val)] } } : State)).settle core)) ∧
      (sdPairsOk d = true → s.ownBit core q e = false → ∀ u : State,
        u = State.issue { s with str := { s.str with tail := Sparse.put 0 s.str.tail (4 * core.val + q) ((e + 1) % 16)
                                                     retry := s.str.retry.filter (· != (core.val, list.val)) } } l →
        (bits d 384 32 = 0 → exec x.1 s = .next ((u.descDone l.ref).settle core)) ∧
        (bits d 384 32 ≠ 0 → ∀ v : State, v = u.setField (R.queueOwnLo core + 4 * (q / 2)) (16 * (q % 2) + e) 1 1 →
          (l.complete (bits d 224 16) = true → l.skipFree (bits d 224 16) = true → v.sdRun l.ref = none → exec x.1 s = .next
            ((({ v with str := { v.str with sds := v.str.sds ++ [({ own := l.ref, desc := d, entry := some e, skip := true } : SdRun)] } } : State).pumpCore core).settle core)) ∧
          (l.complete (bits d 224 16) = false ∨ l.skipFree (bits d 224 16) = false →
            (v.sdRun l.ref = none → exec x.1 s = .next
              ((({ v with str := { v.str with sds := v.str.sds ++ [({ own := l.ref, desc := d, entry := some e } : SdRun)] } } : State).pumpCore core).settle core)) ∧
            (∀ ra, v.sdRun l.ref = some ra → ra.errs = [] → ∀ w : State, w = v.count (R.raCommitted core) →
              exec x.1 s = .next ((({ w with str := { w.str with
                sds := w.str.sds.filter (·.own != l.ref) ++ [({ ra with entry := some e, failed := false } : SdRun)]
                ops := w.str.ops.map fun (o : MemOp) => if o.own == l.ref then { o with prov := false } else o } } : State).pumpCore core).settle core))))))) ∧
  (∀ (core : Fin 256) (queue : Fin 4) (entry : Fin 16) (s : State) (f : Option SdRun),
    s.str.sds.find? (fun r => r.own.core == core.val && r.entry == some entry.val && bits r.desc 213 2 == queue.val) = f →
    (f = none → exec (.sdComplete core queue entry) s = .next s) ∧
    (∀ r, f = some r →
      (s.sdFinished r = false → exec (.sdComplete core queue entry) s = .next (s.settle core)) ∧
      (s.sdFinished r = true → ∀ u : State, u = s.setField (R.queueOwnLo core + 4 * (queue / 2)) (16 * (queue % 2) + entry) 1 0 →
        ∀ v : State, v = { u with str := { u.str with sds := u.str.sds.filter (·.own != r.own) } } →
        (r.failed = true → exec (.sdComplete core queue entry) s = .next ((match v.desc r.own with
          | some d => if bit d 17 then v.logFull (srcOf (blockOfKind (dOpcode d)) (unitOfKind (dOpcode d) r.own.core)) 0x07 (BitVec.ofNat 16 r.own.core) (dTag d)
              (leBytes 2 (dSeq d) ++ leBytes 1 (dOpcode d)) [] else v
          | none => v).settle core)) ∧
        (r.failed = false → exec (.sdComplete core queue entry) s = .next ((((if r.skip then v else v.count (R.bytesMoved core)
          ((bits r.desc 384 32 * bits r.desc 368 16 + 63) / 64)).descDone r.own).pumpCore core).settle core)))))

/-- MEM_OP_COMPLETE, RUN_AHEAD_START and DESC_DONE (R73, R231, R238, R243, R245, R247 to R249, R199). An operation of this device that ends well
leaves the data it read staged for its SD, or joins the stream of its head, and the engine goes on; a correctable error is recorded and the operation
ends well; an error of a provisional read is held, one of an armed SD is reported and handled; the data of a cancelled read is discarded and counted.
RUN_AHEAD_START starts an SD or a head that may run ahead, and does nothing to one that may not. A descriptor whose work has drained completes: it is
no longer busy, and what waited for it goes on. -/
def Obligations.StreamEventsAct : Prop :=
  ∀ (s : State),
    (∀ (op : Nat) (f : Fin 4),
      (s.opById op = none ∨ (∃ o, s.opById op = some o ∧ o.dev ≠ none) → exec (.memOpComplete op f) s = .next s) ∧
      (∀ o, s.opById op = some o → o.dev = none → ∀ c e, c = o.own.core → e = o.eng.getD c →
        ∀ got : ReadErr, got = (if o.write then readErr f else s.found o.addr o.len f) →
        ((∀ k, got ≠ .uncorrectable k) → ∀ t : State, t = (if o.write = false ∧ got = .correctable then s.correctable (s.metAt o.addr o.len false) else s) → ∀ u : State, u = t.endOp o.id →
          (∀ h, t.headOf o = some h → o.write = false → exec (.memOpComplete op f) s = .next (((u.setHead
            ({ h with reads := h.reads.map fun x => if x.1 == o.id then (x.1, x.2.1, some o.data) else x } : HeadRun).collect).settle c).settle e)) ∧
          (t.headOf o = none → o.gone = true → exec (.memOpComplete op f) s = .next
            ((((u.count (R.raDiscardBytes c) ((o.len + 63) / 64)).pumpCore c).settle c).settle e)) ∧
          (t.headOf o = none → o.gone = false → (o.write = true ∨ (∀ r, u.sdRun o.own = some r → r.skip = true)) →
            exec (.memOpComplete op f) s = .next (((u.pumpCore c).settle c).settle e)) ∧
          (t.headOf o = none → o.gone = false → o.write = false → ∀ r, u.sdRun o.own = some r → r.skip = false → exec (.memOpComplete op f) s = .next
            ((((u.setSd { r with staged := r.staged ++ [(o.dst, o.data)] }).pumpCore c).settle c).settle e))) ∧
        (∀ k, got = .uncorrectable k → o.write = false → s.headOf o = none → ∀ a, a = s.metAt o.addr o.len true + (if k then 2 ^ 48 else 0) → ∀ u : State, u = s.endOp o.id →
          (o.gone = true → exec (.memOpComplete op f) s = .next ((u.count (R.raErrors c)).pumpCore c)) ∧
          (o.gone = false → ∀ r, u.sdRun o.own = some r → ∀ r' : SdRun, r' = { r with errs := r.errs ++ [a] } →
            (r.entry = none → exec (.memOpComplete op f) s = .next (u.setSd { r' with row := 65536 })) ∧
            (r.entry ≠ none → r.failed = true → exec (.memOpComplete op f) s = .next (badRead c a (u.setSd r'))) ∧
            (r.entry ≠ none → r.failed = false → exec (.memOpComplete op f) s = .next (badRead c a ((u.setSd { r' with failed := true }).streamErr o.own a))))))) ∧
    (∀ (core : Fin 256) (list : Fin 8) (idx : Nat) (l : DList) (d : BitVec 512), s.dlist core list = some l → l.descs[idx]? = some d →
      (s.mayRunAhead l idx = false ∨ s.noneWaits core = false ∨ (bits d 0 8 ≠ 4 ∧ bits d 0 8 ≠ 5) → exec (.runAheadStart core list idx) s = .next s) ∧
      (bits d 0 8 = 4 → bit d 210 = false ∨ bit d 208 = true ∨ bits d 384 32 = 0 → exec (.runAheadStart core list idx) s = .next s) ∧
      (bits d 0 8 = 5 → bit d 291 = false ∨ bits d 286 3 < 4 ∨ bits d 432 32 = 0 → exec (.runAheadStart core list idx) s = .next s) ∧
      (s.mayRunAhead l idx = true → s.noneWaits core = true → ∀ u : State, u = s.count (R.raStarted core) →
        (bits d 0 8 = 4 → bit d 210 = true → bit d 208 = false → bits d 384 32 ≠ 0 → exec (.runAheadStart core list idx) s = .next (({ u with str := { u.str with
          nextRa := u.str.nextRa + 1, sds := u.str.sds ++ [({ own := ⟨core, list, idx⟩, desc := d, entry := none, born := u.str.nextRa } : SdRun)] } } : State).pumpCore core)) ∧
        (bits d 0 8 = 5 → bit d 291 = true → 4 ≤ bits d 286 3 → bits d 432 32 ≠ 0 → exec (.runAheadStart core list idx) s = .next (({ u with str := { u.str with
          nextRa := u.str.nextRa + 1, heads := u.str.heads ++ [({ own := ⟨core, list, idx⟩, desc := d, prov := true, born := u.str.nextRa } : HeadRun)] } } : State).reelGo core)))) ∧
    (∀ (core : Fin 256) (list : Fin 8) (idx : Nat), (s.dlist core list = none → exec (.descDone core list idx) s = .next s) ∧
      (∀ l, s.dlist core list = some l →
        (idx ∉ l.busy ∨ idx ∉ l.drained → exec (.descDone core list idx) s = .next s) ∧
        (idx ∈ l.busy → idx ∈ l.drained → ∀ d, l.descs[idx]? = some d → ∀ u : State, u = s.descDone ⟨core, list, idx⟩ →
          exec (.descDone core list idx) s = .next ((if idx ∈ l.skipped then u.skipWaiters ⟨core, list, idx⟩ else u).settle core)
          ∧ (u.dlist core list).map (·.busy) = some (l.busy.filter (· != idx)) ∧ (bit d 17 = false → u.log = s.log))))

/-- The Reel's rows (R184 to R193, R197, R200, R201, Table 5.9). An RLD issues: with COUNT 0 its work drains; at a head its reads start, and a cold
turn is counted; and the stop goes on. A vector that arrives lands; a returned credit is regained; a commit or void token is taken, does its work at
the port and passes on to the next stop unless that is the head. Where the oldest item of the hop is another, nothing changes. REEL_STALL counts the
stall and held cycles of each port; a head's episode beyond REEL_STALL_THRESH is logged and counted. -/
def Obligations.ReelActs : Prop :=
  ∀ (core : Fin 256) (stream : Fin 2) (s : State),
    (∀ (list : Fin 8), (s.nextDesc core list (fun d => bits d 0 8 == 5) = none → exec (.rld core list) s = .next s) ∧
      (∀ (l : DList) (d : BitVec 512), s.nextDesc core list (fun d => bits d 0 8 == 5) = some (l, d) →
        (rldPairsOk d = false → exec (.rld core list) s = .next (s.descFault core)) ∧
        (rldPairsOk d = true → bits d 432 32 = 0 → exec (.rld core list) s = .next ((s.issue l).drain l.ref)) ∧
        (rldPairsOk d = true → bits d 432 32 ≠ 0 → bits d 286 3 < 4 → exec (.rld core list) s = .next ((s.issue l).reelGo core)) ∧
        (rldPairsOk d = true → bits d 432 32 ≠ 0 → 4 ≤ bits d 286 3 → ∀ u : State, u = s.issue l →
          ∀ v : State, v = (if bit d 292 = true ∧ u.coldTurn l.ref d = true then u.count (R.turnCold l.core) else u) →
          (v.str.heads.find? (·.own == l.ref) = none → exec (.rld core list) s = .next
            (({ v with str := { v.str with heads := v.str.heads ++ [({ own := l.ref, desc := d, prov := false } : HeadRun)] } } : State).reelGo core)) ∧
          (∀ h, v.str.heads.find? (·.own == l.ref) = some h → h.errs = [] → h.sent ≠ bits d 432 32 → ∀ w : State,
            w = ((v.count (R.raCommitted l.core)).commitPort l.core (bits d 289 1)).sendItem l.core (bits d 289 1) .commit →
            exec (.rld core list) s = .next ((State.setHead { w with str := { w.str with ops := w.str.ops.map fun (o : MemOp) =>
              if o.own == l.ref then { o with prov := false } else o } } { h with prov := false }).reelGo core))))) ∧
    (∀ p : RPort, s.port core stream = p →
      ((∀ v rest, p.hop ≠ .vec v :: rest) → exec (.reelVectorLand core stream) s = .next s) ∧
      ((∀ rest, p.hop ≠ .commit :: rest) → exec (.commitToken core stream) s = .next s) ∧
      ((∀ rest, p.hop ≠ .void :: rest) → exec (.voidToken core stream) s = .next s) ∧
      (∀ v rest, p.hop = .vec v :: rest → exec (.reelVectorLand core stream) s = .next
        ((s.setPort core stream { p with hop := rest, landing := p.landing ++ [v] }).reelGo core)) ∧
      (∀ rest u, p.hop = .commit :: rest → u = ((s.setPort core stream
          { p with hop := rest, landing := p.landing.map RVec.commit, prov := none, ahead := 0, skid := p.skid.map fun x => (x.1, x.2.commit) }).count (R.fwdVectors core) p.ahead) →
        exec (.commitToken core stream) s = .next ((if u.isTail core stream then u else u.sendItem core stream .commit).reelGo core)) ∧
      (∀ rest u, p.hop = .void :: rest → u = (s.setPort core stream { p with hop := rest }).voidPort core stream →
        exec (.voidToken core stream) s = .next ((if u.isTail core stream then u else u.sendItem core stream .void).reelGo core)) ∧
      (p.returning = 0 → exec (.reelCreditReturn core stream) s = .next s) ∧
      (0 < p.returning → exec (.reelCreditReturn core stream) s = .next ((s.setPort core stream { p with returning := p.returning - 1 }).reelGo core))) ∧
    (∀ (n : Word) (stall held : List (Fin 256 × Word)) (u : State),
      u = held.foldl (fun s x => s.count (R.heldCycles x.1) x.2.toNat) (stall.foldl (fun s x => s.count (R.stallCycles x.1) x.2.toNat) s) →
      (s.isHead core stream = false ∨ (s.reg R.reelStallThresh).toNat = 0 ∨ n.toNat ≤ (s.reg R.reelStallThresh).toNat →
        exec (.reelStall core stream n stall held) s = .next u) ∧
      (s.isHead core stream = true → (s.reg R.reelStallThresh).toNat ≠ 0 → (s.reg R.reelStallThresh).toNat < n.toNat →
        ∃ origin : Fin 256, (stall = [] → origin = core) ∧ (∀ x ∈ stall, ∃ y ∈ stall, y.1 = origin ∧ x.2.toNat ≤ y.2.toNat) ∧
          exec (.reelStall core stream n stall held) s = .next ((((u.logFull (srcOf 0x11 core) 0x0B (BitVec.ofNat 16 core.val)
            (((u.curRld core stream).map fun x => dTag x.2.2).getD noHalf)
            (leBytes 1 stream.val ++ [0, 0, 0] ++ leBytes 4 n.toNat ++ leBytes 2 origin.val) []).count R.reelStalls).orReg R.reelStatus 1))))

/-- SHF_PUSH and SHF_POP (R306, R318 to R322, Table 8.6). With eight SHFs of the core in progress the descriptor waits; one whose pairs fail is a
fault of its core; the SCALE copy that it uses is checked; one whose record is in error is a Shelf error with the code of the first check that fails;
otherwise it starts: a first push creates the frame record, a first pop with FINAL loads READERS_LEFT, a pop waits for its turn, and the Shelf goes
on. What a pop and a chunk wait for (R313, R319, Table 8.6): POP_WAIT_END lets a waiting pop go on once its frame is SEALED and every deeper frame
EMPTY, and counts its wait, and a record that fails its check ends the pop with a Shelf error (code 9); SHELF_ORDER, while that does not hold, ends the pop with a Shelf error (code 5); CHUNK_MOVE_DONE ends a chunk's move once
all its operations have ended, and what waited for it goes on. -/
def Obligations.ShelfActs : Prop :=
  (
    ∀ (core : Fin 256) (list : Fin 8) (s : State) (pop : Bool), ∀ x : Instr, x = (if pop then .shfPop core list else .shfPush core list) →
      ∀ f, s.nextDesc core list (fun d => bits d 0 8 == 6 && hPop d == pop && !fusedPush d) = f →
      (f = none → exec x s = .next s) ∧
      (∀ (l : DList) (d : BitVec 512), f = some (l, d) →
        (8 ≤ s.shfsOf core → exec x s = .next s) ∧
        (s.shfsOf core < 8 → shfPairsOk d = false → exec x s = .next (s.descFault core)) ∧
        (s.shfsOf core < 8 → shfPairsOk d = true → ∀ t : State, t = (s.issue l).checkCopy core (if hScaleEn d then some (hScaleRec d) else none) →
          (∀ c, (if pop then t.popError core d else t.pushError d) = some c → exec x s = .next (t.shfError l.ref d c)) ∧
          ((if pop then t.popError core d else t.pushError d) = none → ∀ u : State,
            u = (if pop then t.loadReaders d else t.createFrame core d) → exec x s = .next
              (({ u with shelf := { u.shelf with runs := u.shelf.runs ++ [({ own := l.ref, desc := d, waits := pop } : ShfRun)] } } : State).pumpShelf))))) ∧
  (
    ∀ (s : State),
      (∀ (core : Fin 256) (list : Fin 8) (idx : Nat), s.shelf.runs.find? (·.own == ⟨core, list, idx⟩) = none →
        exec (.shelfOrder core list idx) s = .next s ∧ ∀ n : Word, exec (.popWaitEnd core list idx n) s = .next s) ∧
      (∀ (core : Fin 256) (list : Fin 8) (idx : Nat) (x : ShfRun), s.shelf.runs.find? (·.own == ⟨core, list, idx⟩) = some x → ∀ ok,
        ok = (bits (s.frame (hShelf x.desc) (hDepth x.desc)) 72 2 == 2 && (s.liveFrames (hShelf x.desc)).all fun e => decide (e.1 ≤ hDepth x.desc)) →
        (∀ n : Word,
          (x.waits = false ∨ (ok = false ∧ s.recordOk x.desc = true) → exec (.popWaitEnd core list idx n) s = .next s) ∧
          (x.waits = true → s.recordOk x.desc = false → exec (.popWaitEnd core list idx n) s = .next (({ s with shelf := { s.shelf with
            runs := s.shelf.runs.filter (·.own != ⟨core, list, idx⟩) } } : State).shfError ⟨core, list, idx⟩ x.desc 9)) ∧
          (x.waits = true → ok = true → s.recordOk x.desc = true → ∀ u : State, u = s.count R.popWaitCycles n.toNat → exec (.popWaitEnd core list idx n) s = .next
            (({ u with shelf := { u.shelf with runs := u.shelf.runs.map fun (y : ShfRun) => if y.own == ⟨core, list, idx⟩ then { y with waits := false } else y } }
              : State).pumpShelf))) ∧
        (x.waits = false ∨ ok = true → exec (.shelfOrder core list idx) s = .next s) ∧
        (x.waits = true → ok = false → ∀ u : State, u = s.count R.popWaitCycles (2 ^ (s.reg R.shelfWaitLimit).toNat) →
          exec (.shelfOrder core list idx) s = .next (({ u with shelf := { u.shelf with runs := u.shelf.runs.filter (·.own != ⟨core, list, idx⟩) } }
            : State).shfError ⟨core, list, idx⟩ x.desc 5))) ∧
      (∀ (shelf : Fin 32) (i : BitVec 16),
        (s.chunkAt shelf i.toNat = none → exec (.chunkMoveDone shelf i) s = .next s) ∧
        (∀ c, s.chunkAt shelf i.toNat = some c →
          (c.moving = false ∨ c.pieces ≠ [] ∨ (∃ o ∈ s.str.ops, o.own = c.ref) → exec (.chunkMoveDone shelf i) s = .next s) ∧
          (c.moving = true → c.pieces = [] → (∀ o ∈ s.str.ops, o.own ≠ c.ref) → exec (.chunkMoveDone shelf i) s = .next (({ s with shelf := { s.shelf with
            chunks := s.shelf.chunks.map fun y => if y == c then { c with moving := false } else y } } : State).pumpShelf.passesGo)))))

/-- The bucket descriptors and BUCKET_LAUNCH (R371, R372, R374 to R376, R380, R391, R397, R398, R401, Table 10.1, Table 10.9). OPEN makes an IDLE slot
OPEN with its memory, topology and reducers and a clear flag, and finds a ring entry whose pair fails; CONTRIB adds a ready range to an OPEN bucket
and waits while it is IDLE; a full bucket, or one whose LAST contribution has issued, is launched, with an error (code 5) where its ready ranges leave
a gap; REDUCE starts its reducer once the bucket has launched; DECIDE sets the gate to SKIP when a DONE bucket's flag is set and else to PASS, once
enough buckets are DONE. In another state of the slot a descriptor is a bucket error (code 3), as is a range that overlaps or passes beyond the bucket
(code 4); one whose pairs fail is a fault of its core. -/
def Obligations.BucketDescriptorsAct : Prop :=
  (∀ (core : Fin 256) (list : Fin 8) (s : State), ∀ y ∈ ([(.bktOpen core list, 0), (.bktContrib core list, 1), (.bktReduce core list, 2), (.decideGate core list, 3)]
      : List (Instr × Nat)), ∀ f, s.nextDesc core list (fun d => bits d 0 8 == 7 && bits d 297 4 == y.2) = f →
    (f = none → exec y.1 s = .next s) ∧ (∀ l d, f = some (l, d) → bktPairsOk d = false → exec y.1 s = .next (s.descFault core))) ∧
  (∀ (core : Fin 256) (list : Fin 8) (s : State) (l : DList) (d : BitVec 512) (b : Nat) (x : Slot), bits d 305 6 = b → s.bucket b = x → bktPairsOk d = true →
    let next (op : Nat) : Prop := s.nextDesc core list (fun d => bits d 0 8 == 7 && bits d 297 4 == op) = some (l, d)
    (next 0 →
      (s.bucketState b ≠ 0 → exec (.bktOpen core list) s = .next (s.bktErrAt l d 3)) ∧
      (s.bucketState b = 0 → ∀ rings, rings = (if bits d 455 2 = 1 then [bits d 449 4] else if bits d 455 2 = 2 then [bits d 449 4, bits d 445 4] else []) →
        ((∃ n ∈ rings, s.ringOk n = false) → exec (.bktOpen core list) s = .next ((s.issue l).restart 0x04)) ∧
        ((∀ n ∈ rings, s.ringOk n = true) → exec (.bktOpen core list) s = .next (((((s.issue l).setBucket b
          { base := bits d 464 48, topo := bits d 455 2, ringA := bits d 449 4, ringB := bits d 445 4, rbase := bits d 437 8, rlog := bits d 434 3, core := core, tag := BitVec.ofNat 16 (bits d 48 16)
            size := (if bits d 457 7 = 0 then bits ((s.issue l).reg R.bktCtrl) 0 7 else bits d 457 7) * 2 ^ 20 }).setBucketState b 1).setBucketFlag b false).drain l.ref)))) ∧
    (next 1 →
      (s.bucketState b = 0 → exec (.bktContrib core list) s = .next s) ∧
      (s.bucketState b = 2 ∨ s.bucketState b = 3 → exec (.bktContrib core list) s = .next (s.bktErrAt l d 3)) ∧
      (s.bucketState b = 1 → ∀ bad, bad = (decide (x.size < bits d 408 26 + bits d 381 27)
          || x.ranges.any fun e => decide (bits d 408 26 < e.1 + e.2 ∧ e.1 < bits d 408 26 + bits d 381 27)) →
        (bad = true → exec (.bktContrib core list) s = .next (s.bktErrAt l d 4)) ∧
        (bad = false → exec (.bktContrib core list) s = .next (((s.issue l).setBucket b
          { x with ranges := x.ranges ++ [(bits d 408 26, bits d 381 27)], last := x.last || bit d 368, core := core, tag := BitVec.ofNat 16 (bits d 48 16) }).drain l.ref)))) ∧
    (next 2 → ∀ ok, ok = (decide (bits d 362 6 < 2 ^ x.rlog) && x.rbase + bits d 362 6 == core.val) →
      (s.bucketState b = 0 → exec (.bktReduce core list) s = .next s) ∧
      (s.bucketState b ≠ 0 → ok = false → exec (.bktReduce core list) s = .next (s.bktErrAt l d 3)) ∧
      (ok = true → s.bucketState b ≠ 2 ∨ (s.red b (bits d 362 6)).isSome ∨ (∃ e ∈ x.fin, e.1 = bits d 362 6) → exec (.bktReduce core list) s = .next s) ∧
      (s.bucketState b = 2 → ok = true → s.red b (bits d 362 6) = none → (∀ e ∈ x.fin, e.1 ≠ bits d 362 6) →
        exec (.bktReduce core list) s = .next ((s.issue l).startReducer l.ref d))) ∧
    (next 3 → ∀ n, n = ((List.range 64).filter fun k => s.bucketState k == 3).length →
      (n < bits d 317 7 → exec (.decideGate core list) s = .next s) ∧
      (bits d 317 7 ≤ n → s.bkt.decided = true → exec (.decideGate core list) s = .next (s.bktErrAt l d 3)) ∧
      (bits d 317 7 ≤ n → s.bkt.decided = false → ∀ t u : State, t = s.issue l → u = { t with bkt := { t.bkt with decided := true } } →
        ((∃ k < 64, u.bucketState k = 3 ∧ u.bucketFlag k = true) →
          exec (.decideGate core list) s = .next (((u.setField R.gate 0 2 2).orReg R.bktStatus 4).drain l.ref)) ∧
        ((¬ ∃ k < 64, u.bucketState k = 3 ∧ u.bucketFlag k = true) → exec (.decideGate core list) s = .next ((u.setField R.gate 0 2 1).drain l.ref))))) ∧
  (∀ (k : Fin 64) (s : State) (x : Slot), s.bucket k = x → ∀ ready top, ready = x.ranges.foldl (fun n e => n + e.2) 0 → top = x.ranges.foldl (fun n e => max n (e.1 + e.2)) 0 →
    (s.bucketState k ≠ 1 ∨ (ready ≠ x.size ∧ x.last = false) → exec (.bucketLaunch k) s = .next s) ∧
    (s.bucketState k = 1 → ready = x.size ∨ x.last = true → ∀ u v : State, u = (s.setBucket k { x with eReady := top }).setBucketState k 2 →
      v = (if ready = top then u else u.bktError 5 k x.core x.tag 0xFFFF) →
      (x.topo ≠ 0 → exec (.bucketLaunch k) s = .next v) ∧ (x.topo = 0 → exec (.bucketLaunch k) s = .next (v.bucketDone k (v.bucketFlag k)))))

/-- The TMK descriptors (R74, R75, R122, R285, R345, R392, R393, R469, R488, Table 2.7): one whose pairs fail is a fault of its core; LOCAL_MARK
enters its mark in the tide's record, of which the first 112 are kept, has the effect of its kind (it binds an accumulator, asks for the step advance,
sets the position) and completes; WAIT_BEAT and WAIT_EVENT complete at once when their beat or threshold has been reached, and otherwise hold the
list; SIGNAL sends its count to every target, and completes at once without one; GROUP_BARRIER joins the pending instance, but in a replay completes
at once where the instance has been released. What completes a TMK later (R74, R75, R392, R393). WAIT_BEAT_REACHED completes the WAIT_BEAT that holds
a list once its beat has passed; an increment that reaches its core is added to the event counter, saturating, and completes the WAIT_EVENTs it
satisfies and, with the last target, its SIGNAL. On a device in no group, a barrier whose local parties have all issued is released: their TMKs
complete, it is no longer pending, and it is counted. -/
def Obligations.TideMarksAct : Prop :=
  (
    ∀ (core : Fin 256) (list : Fin 8) (s : State),
      (∀ x ∈ ([(.localMark core list, 0), (.waitBeat core list, 1), (.tmkSignal core list, 2), (.waitEvent core list, 3), (.groupBarrier core list, 4)] : List (Instr × Nat)),
        ∀ f, s.nextDesc core list (fun d => bits d 0 8 == 8 && bits d 64 4 == x.2) = f →
        (f = none → exec x.1 s = .next s) ∧ (∀ l d, f = some (l, d) → tmkPairsOk d = false → exec x.1 s = .next (s.descFault core))) ∧
      (∀ (l : DList) (d : BitVec 512), tmkPairsOk d = true → ∀ u : State, u = s.issue l →
        let next (op : Nat) : Prop := s.nextDesc core list (fun d => bits d 0 8 == 8 && bits d 64 4 == op) = some (l, d)
        (next 0 → ∀ id, id = bits d 80 16 → ∀ v w : State,
          v = { u with tide := if u.tide.marks.length < 112 then { u.tide with marks := u.tide.marks ++ [({ beat := BitVec.ofInt 64 u.groupBeat, id, core } : Mark)] }
                               else { u.tide with marksLost := true } } →
          w = (if 0x8000 ≤ id then v.bindMark core id
            else if id = 0x7FFF ∨ id = 0x7FFE then { v with tide := { v.tide with stepMark := true, quiescent := v.tide.quiescent || id == 0x7FFE } } else v) →
          exec (.localMark core list) s = .next ((if bit d 127 then w.setArr core { w.arr core with mb := bits d 106 5, layer := bits d 96 10, draws := [] } else w).completeDesc l.ref)) ∧
        (next 1 →
          (u.tide.openBeat + bits d 128 32 ≤ u.groupBeat ∨ l.tide < u.tide.count.toNat → exec (.waitBeat core list) s = .next (u.completeDesc l.ref)) ∧
          (u.groupBeat < u.tide.openBeat + bits d 128 32 → u.tide.count.toNat ≤ l.tide → exec (.waitBeat core list) s = .next u)) ∧
        (next 2 → ∀ cs, cs = setBitsOf 256 (bits d 192 256) →
          (cs = [] → exec (.tmkSignal core list) s = .next (u.completeDesc l.ref)) ∧
          (cs ≠ [] → ∀ v : State, v = cs.foldl (fun s c => s.emit (.signal c (bits d 72 8) (BitVec.ofNat 32 (bits d 96 32)))) u → exec (.tmkSignal core list) s = .next
            { v with str := { v.str with signals := v.str.signals ++ cs.map fun c => ({ own := l.ref, target := c, evt := bits d 72 8, count := bits d 96 32 } : Signal) } })) ∧
        (next 3 →
          (bits d 96 32 ≤ (u.evt core (bits d 72 8)).toNat → exec (.waitEvent core list) s = .next (u.completeDesc l.ref)) ∧
          ((u.evt core (bits d 72 8)).toNat < bits d 96 32 → exec (.waitEvent core list) s = .next u)) ∧
        (next 4 →
          (u.tide.replayed = true → (bits d 160 16, l.tide) ∈ u.bkt.released → exec (.groupBarrier core list) s = .next (u.completeDesc l.ref)) ∧
          (u.tide.replayed = false ∨ (bits d 160 16, l.tide) ∉ u.bkt.released → exec (.groupBarrier core list) s = .next
            ((u.needBarrier (bits d 160 16) l.tide).barrierGo (bits d 160 16) l.tide))))) ∧
  (
    ∀ (core : Fin 256) (s : State),
      (∀ (list : Fin 8) f, s.heldTmk core list 1 = f →
        (f = none → exec (.waitBeatReached core list) s = .next s) ∧
        (∀ l j d, f = some (l, j, d) →
          (s.tide.openBeat + bits d 128 32 ≤ s.groupBeat ∨ l.tide < s.tide.count.toNat → exec (.waitBeatReached core list) s = .next (s.completeDesc ⟨l.core, l.num, j⟩)) ∧
          (s.groupBeat < s.tide.openBeat + bits d 128 32 → s.tide.count.toNat ≤ l.tide → exec (.waitBeatReached core list) s = .next s))) ∧
      (∀ k : Nat, (s.str.signals.filter (·.target == core.val)).length ≤ k → exec (.evtCounterAdd core k) s = .next s) ∧
      (∀ (k : Nat) (g : Signal), (s.str.signals.filter (·.target == core.val))[k]? = some g → ∀ u : State,
        u = { s with str := { s.str with signals := s.str.signals.erase g }
                     evts := Sparse.put 0 s.evts (16 * core.val + g.evt % 16) (satAdd (Sparse.get 0 s.evts (16 * core.val + g.evt % 16)) g.count) } →
        exec (.evtCounterAdd core k) s = .next
          (if (u.evtWaiters core).str.signals.any (·.own == g.own) then u.evtWaiters core else (u.evtWaiters core).completeDesc g.own)) ∧
      (∀ (id tide : Nat) (b : Barrier), s.group.member = false → s.barrier id tide = some b → b.sent = false → b.arrived ≠ none → ∀ u : State,
        u = (s.parties id tide).foldl (fun s x => s.completeDesc ⟨x.1.core, x.1.num, x.2⟩) s → ∃ n : Word, s.barrierGo id tide = ((({ u with bkt := { u.bkt with
          bars := u.bkt.bars.filter fun x => !(x.id == id && x.tide == tide), released := u.bkt.released ++ [(id, tide)] } } : State).count R.barriersDone).setReg R.barLastBeats n)))

/-- How a packet is received (R407, R411, R413 to R415, R417, R422, R425), for every row of Table 11.5 and Table 11.16. Nothing is accepted while the
link is not ACTIVE, and after an error only resent flits are. A whole packet moves the sequence number on by the flits of it that had not come before,
frees its buffer entries unless it waits to be sent on, ends the discarding, and at every 32nd flit sends an ACK; a bad one is then discarded, counted
and logged; one for another device is forwarded. A packet of another row's kind is not this command's (the model's reading, log entry 4); when the
entries are freed is log entry 71's. -/
def Obligations.PacketsAreTaken : Prop :=
  ∀ (l : Fin 64) (resent : Bool) (p a q : Pkt) (outcome : Fin 4) (cycles : Word) (s : State), a = (if resent then p.age else p) → q = { a with here := { sender := p.here.sender } } →
    (∀ y ∈ ([(.readReq l resent p outcome, K.readReq, []), (.readData l resent p, K.readData, []), (.writePkt l resent p, K.write, []),
        (.writeAck l resent p, K.writeAck, []), (.unreach l resent p, K.unreach, []), (.piece l resent p, K.piece, []),
        (.pieceCredit l resent p cycles, K.pieceCredit, []), (.barrierArrive l resent p, K.barrier, [1]), (.barrierRelease l resent p, K.barrier, [2]),
        (.lossReport l resent p, K.lossReport, []), (.tideMark l resent p, K.tide, [1]), (.holdMsg l resent p, K.tide, [2]),
        (.releaseMsg l resent p, K.tide, [3]), (.snapReq l resent p, K.tide, [4]), (.snapDone l resent p, K.tide, [5]),
        (.snapCommit l resent p, K.tide, [6]), (.snapAbort l resent p, K.tide, [7]), (.snapFail l resent p, K.tide, [8])] : List (Instr × Fin 16 × List Byte)),
      (p.bad = false → p.kind ≠ y.2.1 ∨ (y.2.2 ≠ [] ∧ p.ttype ∉ y.2.2) → exec y.1 s = .next s) ∧
      (s.lstate l ≠ L.active → exec y.1 s = .next s) ∧
      ((s.linkSt l).discarding = true → resent = false → exec y.1 s = .next s) ∧
      (s.lstate l = L.active → (s.linkSt l).discarding = false ∨ resent = true →
        (p.bad = true → ∀ u : State, u = (s.moreFlits l p.here.begun).takeFlits l q false → exec y.1 s = .next
          ((u.setLink l { u.linkSt l with badPackets := satAdd (u.linkSt l).badPackets 1 }).log_ (srcOf 0x18 l) 0x13 (leBytes 1 p.kind ++ [0] ++ leBytes 2 p.src.toNat))) ∧
        (p.bad = false → p.kind = y.2.1 → y.2.2 = [] ∨ p.ttype ∈ y.2.2 → s.devId ≠ some p.dst → ∀ t u : State, t = ((s.moreFlits l p.here.begun).takeFlits l q (!s.noRoute q)).checkId →
          u = t.checkRoute p.dst.toNat → exec y.1 s = .next
            (if t.noRoute { q with here := { via := some (l, q.cls) } } then
              (if p.kind = K.unreach then u else u.originate (unreachFor { q with here := { via := some (l, q.cls) } }))
             else t.routePkt { q with here := { via := some (l, q.cls) } })))) ∧
    (∀ (stays : Bool) (x : LinkSt) (n : Nat), s.linkSt l = x → n = p.size - x.part.getD p.vc 0 → l.val < s.link.links.length →
      s.takeFlits l p stays = (List.range ((x.unacked + n) / 32)).foldl (fun s i => s.sendFlit l 1 ((x.rxSeq + 65536 + 32 * (i + 1) - x.unacked) % 65536) 0)
        (s.setLink l { x with rxSeq := (x.rxSeq + n) % 65536, unacked := (x.unacked + n) % 32, part := x.part.set p.vc 0, lastWhole := (x.rxSeq + n + 65535) % 65536, discarding := false, await := false, nacks := 0,
                              freed := if stays then x.freed else addCredit x.freed p.cls p.size })) ∧
    (∀ (begun : List Nat) (x : LinkSt) (n : Nat), s.linkSt l = x → n = ((List.range 4).map fun v => begun.getD v 0 - x.part.getD v 0).sum → l.val < s.link.links.length →
      (n = 0 → s.moreFlits l begun = s) ∧
      (n ≠ 0 → s.moreFlits l begun = (List.range ((x.unacked + n) / 32)).foldl (fun s i => s.sendFlit l 1 ((x.rxSeq + 65536 + 32 * (i + 1) - x.unacked) % 65536) 0)
        (s.setLink l { x with rxSeq := (x.rxSeq + n) % 65536, unacked := (x.unacked + n) % 32, discarding := false, await := false, nacks := 0,
                              part := (List.range 4).map fun v => max (x.part.getD v 0) (begun.getD v 0) })))

/-- What this device does with a good packet for it (R411, R238, R378, R382, R384, R390, R393, R394, R618, R63, R421, R425, R443). A request in a
backed range is served or applied and answered on its own channel, marked as failed otherwise; a response ends the remote operation whose number it
carries; a barrier message, a hold, a release, a snapshot message is noted, those of the mark tree after they were relayed; at the master of the
group, SNAP_DONE and SNAP_FAIL of the staged snapshot decide it; a stale mark is passed on only. -/
def Obligations.PacketsAct : Prop :=
  ∀ (l : Fin 64) (resent : Bool) (p a q : Pkt) (outcome : Fin 4) (cycles : Word) (s u : State),
    s.lstate l = L.active → (s.linkSt l).discarding = false ∨ resent = true → p.bad = false → s.devId = some p.dst →
    a = (if resent then p.age else p) → q = { a with here := { sender := p.here.sender } } → u = (s.moreFlits l p.here.begun).takeFlits l q false →
    (p.kind = K.readReq → ∀ adr n, adr = q.addr.toNat → n = max 1 (min 4096 q.len) →
      ∀ answer : Bool → List Byte → Pkt, (∀ f bs, answer f bs = { responseTo q K.readData f with flits := Fin.ofNat 128 ((n + 63) / 64), data := padBytes (64 * ((n + 63) / 64)) bs }) →
      (u.reqOk q = false → exec (.readReq l resent p outcome) s = .next (u.originate (answer true []))) ∧
      (u.reqOk q = true → u.found adr n outcome = .none_ → exec (.readReq l resent p outcome) s = .next (u.originate (answer false (u.bytes adr n)))) ∧
      (u.reqOk q = true → u.found adr n outcome = .correctable → exec (.readReq l resent p outcome) s = .next ((u.correctable (u.metAt adr n false)).originate (answer false (u.bytes adr n)))) ∧
      (∀ k, u.reqOk q = true → u.found adr n outcome = .uncorrectable k → exec (.readReq l resent p outcome) s =
        .next (((u.originate (answer true (u.bytes adr n))).recordUe (u.metAt adr n true) k).ueHandle none (u.metAt adr n true)))) ∧
    (p.kind = K.write →
      (u.reqOk q = true → exec (.writePkt l resent p) s = .next ((u.store q.addr.toNat (q.data.take q.len)).originate (responseTo q K.writeAck false))) ∧
      (u.reqOk q = false → exec (.writePkt l resent p) s = .next (u.originate (responseTo q K.writeAck true)))) ∧
    (∀ y ∈ ([(.readData l resent p, K.readData, false), (.writeAck l resent p, K.writeAck, true)] : List (Instr × Fin 16 × Bool)), p.kind = y.2.1 →
      (∀ o : MemOp, u.opById q.op = some o → o.dev = some q.src → o.write = y.2.2 →
        exec y.1 s = .next (if q.fail then u.opFails o o.addr fun v => v.restart 0x04 else u.opDone o (if y.2.2 then [] else q.data.take o.len))) ∧
      ((∀ o, u.opById q.op = some o → o.dev ≠ some q.src ∨ o.write ≠ y.2.2) → exec y.1 s = .next u)) ∧
    (p.kind = K.unreach →
      (q.ttype = 5 → exec (.unreach l resent p) s = .next (u.bktError 7 q.bucket.toNat q.op ((match u.bkt.reds.find? fun (r : Reducer) => r.slot == q.bucket.toNat && r.idx == q.reducer.val with
          | some r => some (u.tagOf r.own)
          | none => (u.bucket q.bucket.toNat).tags.lookup q.reducer.val).getD noHalf) 0xFFFF)) ∧
      (∀ o : MemOp, q.ttype = 1 ∨ q.ttype = 3 → u.opById q.op = some o → o.dev ≠ none → exec (.unreach l resent p) s = .next (u.opUnreachable o)) ∧
      (q.ttype ≠ 5 → (q.ttype ≠ 1 ∧ q.ttype ≠ 3) ∨ (∀ o, u.opById q.op = some o → o.dev = none) → exec (.unreach l resent p) s = .next u)) ∧
    (p.kind = K.piece → ∀ (v : State) (f : Nat) (tag : Half), v = u.count R.piecesReceived → f = v.pieceFault q →
      tag = ((v.red q.bucket.toNat q.reducer).map fun r => v.tagOf r.own).getD noHalf →
      (f ≠ 0 → exec (.piece l resent p) s = .next (v.bktError f q.bucket.toNat ((v.bucket q.bucket.toNat).rbase + q.reducer) tag q.src.toNat)) ∧
      (f = 0 → v.red q.bucket.toNat q.reducer = none → exec (.piece l resent p) s = .next v) ∧
      (∀ r, f = 0 → v.red q.bucket.toNat q.reducer = some r → exec (.piece l resent p) s =
        .next ((v.setRed { r with f := r.f || q.nonfin, got := r.got ++ [q] }).redGo q.bucket.toNat q.reducer))) ∧
    (p.kind = K.pieceCredit → ∀ (b i : Nat) (ringB : Bool), b = q.bucket.toNat → i = q.reducer.val → ringB = (q.phase.val == 1) → ∀ v : State,
      v = (if (u.red b i).any (fun r => r.out.any (·.ringB == ringB)) ∧ u.credits b i ringB = 0 ∧ q.pstep = u.step32 then u.count R.creditWaitCycles cycles.toNat else u) →
      exec (.pieceCredit l resent p cycles) s = .next ((v.addCredits q.pstep b i ringB q.len).redGo b i)) ∧
    (p.kind = K.barrier → p.ttype = 1 → ∀ (id tide : Nat) (kept : Bool), id = q.barrier.toNat → tide = q.tide.toNat → kept = (u.barrier id tide).any (fun b => !b.from_.isEmpty) →
      (kept = false → 256 ≤ u.barsKept → exec (.barrierArrive l resent p) s = .next (u.bktError 9 id 0xFFFF noHalf q.src.toNat)) ∧
      (kept = true ∨ u.barsKept < 256 → ∀ (v : State) (b : Barrier), v = u.needBarrier id tide → v.barrier id tide = some b → exec (.barrierArrive l resent p) s =
        .next ((v.setBarrier { b with from_ := if q.src ∈ b.from_ then b.from_ else b.from_ ++ [q.src] }).barrierGo id tide))) ∧
    (p.kind = K.barrier → p.ttype = 2 → exec (.barrierRelease l resent p) s = .next (u.releaseBarrier q.barrier.toNat q.tide.toNat)) ∧
    (p.kind = K.lossReport → exec (.lossReport l resent p) s = .next ((List.range 64).foldl (fun v k => v.lossReport1 q k) u)) ∧
    (p.kind = K.tide → ∀ y ∈ ([(.holdMsg l resent p, 2), (.releaseMsg l resent p, 3), (.snapReq l resent p, 4), (.snapCommit l resent p, 6), (.snapAbort l resent p, 7)]
        : List (Instr × Byte)), p.ttype = y.2 → u.group.member = false ∨ u.devId = some q.src → exec y.1 s = .next u) ∧
    (p.kind = K.tide → u.group.member = true → u.devId ≠ some q.src → ∀ v : State, v = u.relay l q →
      (p.ttype = 2 → exec (.holdMsg l resent p) s = .next (v.noteHolder q.src.toNat (q.tide.toInt + 1).toNat none)) ∧
      (p.ttype = 3 → exec (.releaseMsg l resent p) s = .next (v.noteHolder q.src.toNat (q.tide.toInt + 1).toNat (some q.beat.toInt))) ∧
      (p.ttype = 4 → exec (.snapReq l resent p) s = .next (v.addRequest q.step.toNat)) ∧
      (p.ttype = 6 → exec (.snapCommit l resent p) s = .next (if v.inTransfer q.snapSeq then v.commit else v)) ∧
      (p.ttype = 7 → exec (.snapAbort l resent p) s = .next (if v.staging q.snapSeq then v.abandon else v))) ∧
    (p.kind = K.tide → p.ttype = 5 →
      (u.isMaster = true → u.staging q.snapSeq = true → exec (.snapDone l resent p) s =
        .next (if (u.noteDone q.src).snap.state == .transfer then (u.noteDone q.src).masterCommit else u.noteDone q.src)) ∧
      (u.isMaster = false ∨ u.staging q.snapSeq = false → exec (.snapDone l resent p) s = .next u)) ∧
    (p.kind = K.tide → p.ttype = 8 →
      (u.isMaster = true → u.staging q.snapSeq = true → exec (.snapFail l resent p) s = .next u.checkTree.masterAbort) ∧
      (u.isMaster = false ∨ u.staging q.snapSeq = false → exec (.snapFail l resent p) s = .next u)) ∧
    (p.kind = K.tide → p.ttype = 1 →
      (u.group.member = true → u.isMaster = false → exec (.tideMark l resent p) s = .next (if q.stale then u.toChildren q else (u.toChildren q).align q)) ∧
      (u.group.member = false ∨ u.isMaster = true → exec (.tideMark l resent p) s = .next u))

/-- Alignment to the master's marks (R59, R60, R84). The error is the mark's beat plus the path delay minus the group beat at arrival, and ALIGN_ERROR
shows it. The first mark after joining shifts the group beat by all of it; later ones by its sign times its size up to 4 beats, when that is more than
1. Above 125 beats TIDE_STATUS sets ALIGN_WARN; above 1,250, ALIGN_LOST, and unless it has been raised already the device is to stop at the next
boundary. -/
def Obligations.MarksAlign : Prop :=
  (∀ (l : Fin 64) (p q : Pkt) (s u : State), q = { p with here := { sender := p.here.sender } } → s.lstate l = L.active → (s.linkSt l).discarding = false → p.bad = false → s.devId = some p.dst → p.kind = K.tide →
    p.ttype = 1 → p.stale = false → u = (s.moreFlits l p.here.begun).takeFlits l q false → u.group.member = true → u.isMaster = false →
    exec (.tideMark l false p) s = .next ((u.toChildren q).align q)) ∧
  (∀ (p : Pkt) (s : State) (e : Int), e = p.beat.toInt + s.group.pathDelay - s.groupBeat →
    ∀ t : State, s.align p = t → Safety.canonical s = true →
      t.reg R.alignError = BitVec.ofInt 32 e ∧
      (s.group.firstMark = true → t.tide = { s.tide with offset := s.tide.offset + BitVec.ofInt 64 e } ∧ t.group = { s.group with firstMark := false }
        ∧ t.reg R.tideStatus = s.reg R.tideStatus) ∧
      (s.group.firstMark = false →
        t.tide.offset = (if e.natAbs ≤ 1 then s.tide.offset else s.tide.offset + BitVec.ofInt 64 (e.sign * (min e.natAbs 4 : Nat))) ∧
        t.reg R.tideStatus = s.reg R.tideStatus ||| word ((if 125 < e.natAbs then 8 else 0) + if 1250 < e.natAbs then 0x10 else 0) ∧
        t.group = { s.group with lossRaised := s.group.lossRaised || decide (1250 < e.natAbs) } ∧
        (t.tide.stopNext = (s.tide.stopNext || (decide (1250 < e.natAbs) && !s.group.lossRaised)))))

/-- Training (R406, R413, R415 to R417, R424, R463). Each training state ends in the next, and PARAM in ACTIVE: DESKEW's end sends this device's id
and link number and begins the measurement of RTT_ACK; then the partner is recorded, sequence numbers, credits and the replay buffer start afresh, and
where every lane has passed the lane mapping returns to that of power-on. A state that reaches its limit goes back to DETECT, at the third return to
DOWN with a LINK_TRAIN_FAIL entry; SWAP goes DOWN. A probe is answered while the link trains its parameters or is up; its echo sets RTT_ACK, and above
163 ns RTT_LIMITED. A second event of a state that has passed does nothing. -/
def Obligations.LinkTrainingActs : Prop :=
  ∀ (l : Fin 64) (s : State),
    (∀ y ∈ ([(.linkDetectDone l, 1, 2), (.linkEqualiseDone l, 2, 3), (.linkFecLockDone l, 3, 4)] : List (Instr × Nat × Nat)),
      (s.lstate l = y.2.1 → exec y.1 s = .next (s.setLstate l y.2.2)) ∧ (s.lstate l ≠ y.2.1 → exec y.1 s = .next s)) ∧
    (s.lstate l = 4 → exec (.linkDeskewDone l) s = .next (((s.setLstate l 5).emit (.param l (s.devId.getD 0xFFFF))).sendFlit l 5 0 0)) ∧
    (s.lstate l ≠ 4 → exec (.linkDeskewDone l) s = .next s) ∧
    (∀ st : Nat, st < 16 → Safety.canonical s = true → (s.setLstate l st).lstate l = st ∧ s.setLstate l st = { s with regs := (s.setLstate l st).regs }) ∧
    (∀ (partner : Half) (plink : Byte) (all : Bool),
      (s.lstate l ≠ L.paramSt → exec (.linkParamDone l partner plink all) s = .next s) ∧
      (s.lstate l = L.paramSt → ∀ n, n = (if bits (s.reg (R.laneMap l)) 12 3 = 7 then 1 else 0) + (if (s.linkSt l).rxSpare = none then 1 else 0) → ∀ r t u : State,
        r = ({ s with kept := { s.kept with spares := s.kept.spares.modify 0 (· - n) } } : State).setReg (R.laneMap l) (regReset (R.laneMap l)) →
        t = (if all then r.setLink l { r.linkSt l with rxMap := [0, 1, 2, 3], rxSpare := some 4, rxBad := false } else s) →
        u = t.setLink l { t.linkSt l with txSeq := 0, rxSeq := 0, replay := [], slot := 0, sent := [0, 0, 0, 0], sentCr := List.replicate 8 0, retCr := List.replicate 8 0,
                                          freed := List.replicate 8 0, unacked := 0, part := [0, 0, 0, 0], lastWhole := 65535, discarding := false, await := false, nacks := 0, returns := 0 } →
        exec (.linkParamDone l partner plink all) s
          = .next (((u.setReg (R.partner l) (word (partner.toNat + 65536 * plink.toNat))).setLstate l L.active).retryPaths))) ∧
    (s.lstate l = L.swap → exec (.linkStateTimeout l) s = .next (s.linkDown l 2)) ∧
    (1 ≤ s.lstate l → s.lstate l ≤ 5 →
      ((s.linkSt l).returns < 2 → exec (.linkStateTimeout l) s =
        .next ((s.setLink l { s.linkSt l with returns := (s.linkSt l).returns + 1 }).setLstate l L.detect)) ∧
      (2 ≤ (s.linkSt l).returns → exec (.linkStateTimeout l) s =
        .next (((s.setLink l { s.linkSt l with returns := 0 }).setLstate l L.down).log_ (srcOf 0x18 l) 0x12 (leBytes 1 (s.lstate l))))) ∧
    (s.lstate l = 0 ∨ s.lstate l = L.active ∨ 8 ≤ s.lstate l → exec (.linkStateTimeout l) s = .next s) ∧
    (s.lstate l = L.paramSt ∨ s.linkUp l = true → exec (.rttProbe l) s = .next (s.sendFlit l 6 0 0)) ∧
    (s.lstate l ≠ L.paramSt → s.linkUp l = false → exec (.rttProbe l) s = .next s) ∧
    (∀ ns : Word,
      (s.lstate l = L.paramSt → ∀ u : State, u = s.setReg (R.rttAck l) ns → exec (.rttEcho l ns) s = .next (if 163 < ns.toNat then u.orReg (R.linkStatus l) 8 else u)) ∧
      (s.lstate l ≠ L.paramSt → exec (.rttEcho l ns) s = .next s))

/-- Acknowledgement and retry, lane swaps, and whole-link loss (R409, R413 to R421, R427 to R429, R432, R463). An ACK frees the packets it covers
whole and returns credits; a NACK ends a swap of this transmitter and sends what follows it again; a CRC error discards what follows and sends one
NACK, repeated seven times before the link goes DOWN. A receive lane fails on loss of signal or lock, on too many symbol errors or on two windows of
too small a margin: that starts a swap to the free spare, and otherwise takes the link DOWN; the swap ends with the lane's new place in the map. A
link that goes DOWN holds its packets for the partner's report, upon which those not delivered are sent again; when the wait ends without one they
fail, LOSS_TIMEOUT is logged and the job restarts. -/
def Obligations.LinkEventsAct : Prop :=
  ∀ (l : Fin 64) (s : State) (x : LinkSt), x = s.linkSt l →
    (∀ (seq : Half) (cr : BitVec 96) (fixed : Word) (u : State) (y : LinkSt), u = s.count (R.linkFecCorrected l) fixed.toNat → y = u.linkSt l →
      (u.linkUp l = true → ∀ done, done = (y.replay.filter fun e => e.num == e.pkt.flits && seqGe seq.toNat ((e.seq + 1) % 65536)).map (·.head) →
        exec (.linkAck l seq ⟨cr, fixed⟩) s = .next ((u.setLink l { y with
          replay := y.replay.filter (fun e => !done.contains e.head), retCr := (List.range 8).map fun i => bits cr (12 * i) 12 }).pump l)) ∧
      (u.linkUp l = false → exec (.linkAck l seq ⟨cr, fixed⟩) s = .next u)) ∧
    (∀ (seq : Half) (cr : BitVec 96),
      (s.linkUp l = false → exec (.nack l seq cr) s = .next s) ∧
      (s.linkUp l = true → l.val < s.link.links.length → ∀ v z : State, v = s.setLink l { x with retCr := (List.range 8).map fun i => bits cr (12 * i) 12 } →
        z = (match x.swap with
          | some w => if w.receive then v else State.swapDone (State.setLstate (State.setLink ((v.setField (R.laneMap l) (3 * w.lane) 3 w.spare).setField (R.laneMap l) 12 3 7) l
              { x with retCr := (List.range 8).map fun i => bits cr (12 * i) 12, swap := none }) l L.active) l 1 w
          | none => v) →
        exec (.nack l seq cr) s = .next (if z.lstate l = L.active then (z.replayFrom l seq.toNat).pump l else z))) ∧
    (∀ (begun : List Nat) (u : State), u = (if s.lstate l = L.active then s.moreFlits l begun else s) →
      (u.linkUp l = true → 0 < (u.linkSt l).unacked →
        exec (.linkAckSend ⟨l, begun⟩) s = .next ((u.setLink l { u.linkSt l with unacked := 0 }).sendFlit l 1 (u.linkSt l).rxSeq 0)) ∧
      (u.linkUp l = false ∨ (u.linkSt l).unacked = 0 → exec (.linkAckSend ⟨l, begun⟩) s = .next u)) ∧
    (∀ (uncorr : Bool) (f : BitVec 544) (good : List Nat) (u v : State), u = s.count (if uncorr then R.linkFecUncorr l else R.crcErrors l) → v = u.moreFlits l good →
      (s.lstate l ≠ L.active ∨ (uncorr = false ∧ flitClass f ≠ none) → exec (.flitCrcError l ⟨uncorr, f, good⟩) s = .next s) ∧
      (s.lstate l = L.active → uncorr = true ∨ flitClass f = none →
        ((v.linkSt l).discarding = true → exec (.flitCrcError l ⟨uncorr, f, good⟩) s = .next v) ∧
        ((v.linkSt l).discarding = false → exec (.flitCrcError l ⟨uncorr, f, good⟩) s = .next
          ((v.setLink l { v.linkSt l with discarding := true, nacks := 1 }).sendNack l)))) ∧
    (s.lstate l = L.active → x.discarding = true ∨ x.await = true →
      (x.nacks < 8 → exec (.nackRepeat l) s = .next ((s.setLink l { x with nacks := x.nacks + 1 }).sendNack l)) ∧
      (8 ≤ x.nacks → exec (.nackRepeat l) s = .next (s.linkDown l 1))) ∧
    (s.lstate l ≠ L.active ∨ (x.discarding = false ∧ x.await = false) → exec (.nackRepeat l) s = .next s) ∧
    (∀ (lane : Fin 5) (lost : Bool) (errors : Word) (margin before : Half) (begun : List Nat) (bad : Bool), bad = (lost || decide (bits (s.reg R.linkThresh) 0 16 < errors.toNat)
        || (decide (margin.toNat < bits (s.reg R.linkThresh) 16 8) && decide (before.toNat < bits (s.reg R.linkThresh) 16 8))) →
      ∀ c, c = Instr.laneFail l ⟨lane, lost, errors, margin, before, begun⟩ →
      (bad = false ∨ s.linkUp l = false → exec c s = .next s) ∧
      (bad = true → s.lstate l = L.swap → exec c s = .next (s.linkDown l 2)) ∧
      (bad = true → s.lstate l = L.active → ∀ (u : State) (y : LinkSt), u = s.moreFlits l begun → y = u.linkSt l →
        (y.rxSpare = some lane.val → exec c s = .next ((u.setLink l { y with rxBad := true }).orReg (R.linkStatus l) 4)) ∧
        (y.rxSpare ≠ some lane.val → ∀ i, y.rxMap.idxOf? lane.val = some i →
          (∀ sp, y.rxSpare = some sp → y.rxBad = false → exec c s = .next (((u.setLink l { y with
            swap := some { receive := true, lane := i, failed := lane, spare := sp }, queue := y.queue.map Pkt.age }).setLstate l L.swap).sendFlit l 3 0 i)) ∧
          (y.rxSpare = none ∨ y.rxBad = true → exec c s = .next (u.linkDown l 2))) ∧
        (y.rxSpare ≠ some lane.val → lane.val ∉ y.rxMap → exec c s = .next u))) ∧
    (∀ lane : Fin 4,
      (s.linkUp l = false → exec (.laneSwap l lane) s = .next s) ∧
      (s.linkUp l = true → s.lstate l ≠ L.active ∨ bits (s.reg (R.laneMap l)) 12 3 = 7 → exec (.laneSwap l lane) s = .next (s.linkDown l 2)) ∧
      (s.lstate l = L.active → bits (s.reg (R.laneMap l)) 12 3 ≠ 7 → exec (.laneSwap l lane) s = .next (((s.setLink l { x with
        swap := some { receive := false, lane, failed := bits (s.reg (R.laneMap l)) (3 * lane) 3, spare := bits (s.reg (R.laneMap l)) 12 3 },
        queue := x.queue.map Pkt.age }).setLstate l L.swap).sendFlit l 4 0 lane))) ∧
    (∀ (lane : Fin 4),
      (∀ w : Swap, x.swap = some w → w.receive = true → w.lane = lane.val → exec (.swapMark l lane) s = .next (s.setLink l { x with swap := some { w with marked := true } })) ∧
      ((∀ w : Swap, x.swap = some w → w.receive = false ∨ w.lane ≠ lane.val) → exec (.swapMark l lane) s = .next s)) ∧
    (∀ w : Swap, x.swap = some w → s.lstate l = L.swap → w.receive = true → w.marked = true → exec (.swapLockDone l) s = .next
      ((((s.setLink l { x with swap := none, rxMap := x.rxMap.set w.lane w.spare, rxSpare := none, rxBad := false, await := true, nacks := 1 }).setLstate l L.active).sendNack l
        |>.swapDone l 0 w).pump l)) ∧
    (s.lstate l ≠ L.swap ∨ (∀ w : Swap, x.swap = some w → w.receive = false ∨ w.marked = false) → exec (.swapLockDone l) s = .next s) ∧
    (∀ stopped : Bool, exec (.linkDown l stopped) s = .next (s.linkDown l (if stopped then 4 else 3))) ∧
    (∀ c : Nat, (s.lstate l ≠ L.active → s.lstate l ≠ L.swap → s.linkDown l c = s) ∧
      (s.linkUp l = true → ∀ (gone : LinkLoss) (t : State),
        gone = ⟨((x.replay.filter fun e => e.num == e.pkt.flits).map fun e => (some e.seq, { e.pkt with here := { e.pkt.here with via := none } })) ++ x.queue.map (fun p => (none, p)), s.partnerDev l, s.partnerLink l⟩ →
        t = ((((s.setLink l { x with replay := [], queue := [], sent := [0, 0, 0, 0], swap := none, discarding := false, await := false, nacks := 0, part := [0, 0, 0, 0]
                                     losses := x.losses ++ [gone] }).setLstate l L.down).count (R.linkDowns l)).orReg (R.linkStatus l) 1).log_ (srcOf 0x18 l) 0x15 (leBytes 1 c) →
        (t.devId = none → s.linkDown l c = t.checkId) ∧
        (∀ me, t.devId = some me → s.linkDown l c = t.routePkt { kind := K.lossReport, src := me, dst := t.partnerDev l, ttype := 1, link := l
                                                                 lastSeq := BitVec.ofNat 16 x.lastWhole } true))) ∧
    (∀ q : Pkt,
      ((∀ y ∈ x.losses, y.dev ≠ q.src ∨ y.link ≠ q.link.val) → s.lossReport1 q l = s) ∧
      (∀ y, x.losses.find? (fun y => y.dev == q.src && y.link == q.link.val) = some y → ∀ u : State,
        u = (s.setLink l { x with losses := x.losses.erase y }).spareUsed (srcOf 0x18 l) 1 l 0xFFFF →
        s.lossReport1 q l = (u.routeAll ((y.held.filter fun e => e.1.all fun k => !seqGe q.lastSeq.toNat k).map fun e => e.2) true).unblock)) ∧
    (x.losses = [] → exec (.lossWaitExpire l) s = .next s) ∧
    (∀ y ys, x.losses = y :: ys → ∀ t u : State, t = s.setLink l { x with losses := ys } → u = (t.orReg (R.linkStatus l) 0x10).log_ (srcOf 0x18 l) 0x16 (leBytes 2 y.dev.toNat) →
      (y.held = [] → exec (.lossWaitExpire l) s = .next t) ∧
      (y.held ≠ [] → exec (.lossWaitExpire l) s = .next (((y.held.map (·.2)).foldl State.failPkt u).unblock.restart 0x09)))

/-- What comes up to a boundary (R31, R51 to R55, R58, R60, R62, R63, R70). ENGINE_REPORT of an engine whose open entry is done records its report and
releases a hold of this member; NOMINAL_BOUNDARY, once, at its beat, notes which holds are unmet and begins the count of R54 while an engine is to
report; at the decision beat HOLD_DECISION holds a boundary for which an engine is to report; the master's TIDE_MARK_EMIT sends a mark to its children
each MARK_INTERVAL. Before its time, none of them changes anything. -/
def Obligations.TideEventsAct : Prop :=
  ∀ s : State,
    (∀ (core : Fin 256) (working stall conflicts : Word),
      (s.openEntry core = none ∨ s.coreDone core = false ∨ s.noIssue core = true → exec (.engineReport core working ⟨stall, conflicts⟩) s = .next s) ∧
      (∀ c : Cost, s.openEntry core = some c → s.coreDone core = true → s.noIssue core = false → exec (.engineReport core working ⟨stall, conflicts⟩) s =
        .next ((s.addReport c (c.tide + c.span) working stall).count (R.lsConflicts core) conflicts.toNat).ownDone)) ∧
    (∀ (c : Cost) (close : Nat) (working stall all : Word) (clock : Bool) (u t : State), clock = s.tide.clockTide.any (fun k => decide (c.tide ≤ k)) → all = satAdd stall (s.arr c.engine).retried → u = s.count (R.coreStall c.engine) stall.toNat →
      t = { u with
        tide := { u.tide with reports := u.tide.reports ++ [{ core := c.engine, close, beat := s.groupBeat, working, stall := all, mb := c.mb,
                                                              cause := if s.tide.replayed then 4 else if c.cycles < working.toNat then 1 else if all ≠ 0 then 3 else if clock = true then 6 else 2 }] }
        cores := Sparse.put {} u.cores c.engine { u.arr c.engine with retried := 0 } } →
      (t.tide.hangFrom = none ∨ t.step1 = false → s.addReport c close working stall = t) ∧
      (∀ g, t.tide.hangFrom = some g → t.step1 = true → s.addReport c close working stall =
        { t with tide := { t.tide with hangFrom := none, hangCount := t.tide.hangCount + (t.groupBeat - g).toNat } })) ∧
    (s.fallBeat = (if s.tide.past3 then none else if s.tide.running then some (s.tide.openBeat + (s.reg R.tidePeriod).toNat) else s.tide.runAt)) ∧
    (s.fallBeat = none → exec .nominalBoundary s = .next s) ∧
    (∀ g : Int, s.fallBeat = some g →
      (s.groupBeat < g ∨ s.tide.fallen = true → exec .nominalBoundary s = .next s) ∧
      (g ≤ s.groupBeat → s.tide.fallen = false → ∃ m : Nat, exec .nominalBoundary s = .next { s with tide := { s.tide with
          fallen := true, causes := m, hangFrom := if s.step1 then s.tide.hangFrom else some g } }
        ∧ (∀ i, m.testBit i = true ↔ s.tide.causes.testBit i = true ∨ (i = 7 ∧ s.tide.next ∈ s.tide.hostHolds)
            ∨ ∃ h ∈ s.tide.holders, h.boundary = s.tide.next ∧ (∀ b, h.release = some b → g < b) ∧ i = if h.named = h.boundary then 5 else 8))) ∧
    (s.group.member = true → s.tide.running = true → s.tide.past3 = false → s.nominal - (s.reg R.holdWindow).toNat ≤ s.groupBeat → s.step1 = false →
      exec .holdDecision s = .next (if s.tide.next ∈ s.tide.selfHolds then s else
        { s with tide := { s.tide with selfHolds := s.tide.selfHolds ++ [s.tide.next], selfReleases := s.tide.selfReleases.filter (·.1 ≠ s.tide.next) } }.sendHold
          s.tide.next)) ∧
    (s.group.member = false ∨ s.tide.running = false ∨ s.tide.past3 = true ∨ s.step1 = true ∨ s.groupBeat < s.nominal - (s.reg R.holdWindow).toNat → exec .holdDecision s = .next s) ∧
    (s.isMaster = false ∨ s.groupBeat < s.group.lastMark + (s.reg R.markInterval).toNat → exec .tideMarkEmit s = .next s) ∧
    (∀ me : Half, s.isMaster = true → s.group.lastMark + (s.reg R.markInterval).toNat ≤ s.groupBeat → s.devId = some me → exec .tideMarkEmit s =
      .next ({ s with group := { s.group with lastMark := s.group.lastMark + (s.reg R.markInterval).toNat } }.toChildren
        { kind := K.tide, ttype := 1, dst := 0, src := me, beat := BitVec.ofInt 64 s.groupBeat, tide := s.tide.count }))

/-- The boundary itself (R31, R39 to R42, R51, R63, R507). TIDE_BOUNDARY of a boundary whose nominal beat has fallen and that nothing holds closes the
tide, applies step 3 at the beat at which its last condition was met, and opens the next, or waits 512 beats for a frequency step; while anything
holds the boundary it does nothing. At step 4 TIDE_COUNT takes the number of the boundary and the lists of the tide are released; where the sequencer
stops, no list is, and TIDE_COUNT stays. FREQ_SETTLE_END ends the wait; STOPPED_APPLY applies what waits while no tide is open. -/
def Obligations.BoundariesOpen : Prop :=
  ∀ s : State,
    (s.unheld = false ∨ s.tide.settleAt ≠ none → exec .tideBoundary s = .next s) ∧
    (s.tide.past3 = false → s.tide.fallen = false → exec .tideBoundary s = .next s) ∧
    (s.tide.past3 = true → s.tide.freezing = true → exec .tideBoundary s = .next s) ∧
    (s.tide.past3 = false → s.tide.fallen = true → s.tide.settleAt = none → s.unheld = true → ∀ (n g : Int) (u : State),
      n = (if s.tide.running then s.tide.openBeat + (s.reg R.tidePeriod).toNat else s.tide.runAt.getD 0) → g = s.openingBeat n →
      u = (if s.tide.running then s.closeTide g else s.closeNone g).step3 (s.tide.running && s.freezeDue) n g →
      (u.pwr.settling = true → exec .tideBoundary s = .next { u with tide := { u.tide with
        settleAt := some (g + 512), heldFrom := if u.tide.heldFrom = none ∧ g ≤ n then some n else u.tide.heldFrom } }) ∧
      (u.pwr.settling = false → exec .tideBoundary s = .next { u with tide := { u.tide with settleAt := none } }.tryOpen)) ∧
    (s.tide.past3 = true → s.tide.freezing = false → s.tide.settleAt = none → s.unheld = true → ∀ (g : Int) (u : State),
      g = s.openingBeat (s.tide.heldFrom.getD s.tide.openBeat) →
      u = (match s.tide.heldFrom with
        | some n => if n < g then s.heldEntry n g else s
        | none => s) →
      ∀ v : State, v = { u with tide := { s.tide with openBeat := g } } → exec .tideBoundary s = .next
        (if s.tide.stopping then v.stopTide s.tide.next else v.openTide s.tide.next).settlePoint) ∧
    (s.tide.past3 = false ∨ s.tide.freezing = true ∨ s.tide.settleAt ≠ none ∨ s.unheld = false → s.tryOpen = s) ∧
    (s.tide.past3 = true → exec .tideBoundary s = .next s.tryOpen) ∧
    (∀ k : Nat, ∃ u : State, s.openTide k = u.keepOpening.barriersGo.ownDone ∧ u.tide.count = BitVec.ofNat 64 k ∧ u.tide.running = true ∧ u.tide.next = k + 1
      ∧ u.lists = s.lists.filter (fun l => decide (k < l.close)) ++ s.openingLists k) ∧
    (∀ k : Nat, ∃ u : State, s.stopTide k = u ∧ u.lists = [] ∧ u.tide.count = s.tide.count ∧ u.tide.running = false ∧ u.tide.next = k ∧ u.mem = s.mem ∧ u.regs = s.regs) ∧
    (s.tide.settleAt = none → exec .freqSettleEnd s = .next s) ∧
    (∀ g : Int, s.tide.settleAt = some g →
      (s.groupBeat < g → exec .freqSettleEnd s = .next s) ∧
      (∀ u : State, g ≤ s.groupBeat → u = { s with tide := { s.tide with settleAt := none }, pwr := { s.pwr with settling := false } } →
        (s.tide.past3 = true → exec .freqSettleEnd s = .next u.tryOpen) ∧
        (s.tide.past3 = false → exec .freqSettleEnd s = .next u.settlePoint))) ∧
    (s.beatOn = false ∨ s.tide.running = true ∨ s.tide.past3 = true ∨ s.tide.settleAt ≠ none ∨ s.changesWait = false → exec .stoppedApply s = .next s) ∧
    (s.beatOn = true → s.tide.running = false → s.tide.past3 = false → s.tide.settleAt = none → s.changesWait = true → ∀ u v : State,
      u = (s.applyChanges s.tide.next s.tide.count.toNat).enterSleep s.tide.next → v = { u with tide := { u.tide with clockTide := s.tide.clockTide } } →
      exec .stoppedApply s = .next (if v.pwr.settling then { v with tide := { v.tide with settleAt := some (v.groupBeat + 512) } } else v.settlePoint))

/-- Core faults and hangs (R54, R57, R467 to R471, Tables 13.2 and 13.3). Without a free spare in the bay the job stops with cause 0x03. A fault in a
tide that is being replayed gives the spare the core's number and stops it with cause 0x02; in a tide that may not be replayed, 0x01; with an
uncorrectable error in the core's storage, 0x04 after the first three steps of the replay; otherwise the tide is replayed with the spare in place of
the core. While the sequencer is stopped, only the order is made. A hang that reaches HOLD_LIMIT sets HOLD_LIMIT_HIT, is logged and is a fault of the lowest-numbered engine still to report. -/
def Obligations.CoreFaultsAct : Prop :=
  ∀ (core : Fin 256) (ue : Bool) (s u : State), u = { s with tide := { s.tide with faults := s.tide.faults.filter (· ≠ core.val) } } →
    (s.job.lost = true → exec (.coreFault core ue) s = .next u) ∧
    (s.job.lost = false → s.spareFree (core.val / 16) = false → exec (.coreFault core ue) s = .next (u.restart 0x03)) ∧
    (s.job.lost = false → s.spareFree (core.val / 16) = true →
      (s.tide.replayed = true → exec (.coreFault core ue) s = .next ((u.orderSpare core).restart 0x02)) ∧
      (s.tide.replayed = false → s.tide.running = false → exec (.coreFault core ue) s = .next (u.orderSpare core)) ∧
      (s.tide.replayed = false → s.tide.running = true →
        (s.tide.past3 = true ∨ s.mayReplay s.tide.count.toNat core = false → exec (.coreFault core ue) s = .next ((u.orderSpare core).restart 0x01)) ∧
        (s.tide.past3 = false → s.mayReplay s.tide.count.toNat core = true →
          exec (.coreFault core ue) s = .next (if ue then u.replayStart.restart 0x04 else u.replay.threadSpare core)))) ∧
    (∀ (v : BitVec 64) (t : State), s.draw = (v, t) → s.orderSpare core = (t.schedule (core / 16) (v.setWidth 16) 0xC002 t.nextStep3
      (leBytes 1 (core % 16))).bayOutcome (core / 16) (v.setWidth 16) 0xC002 outScheduled) ∧
    (s.unreported = [] → exec (.tideHang ue) s = .next s) ∧
    (s.tide.fallen = false ∨ s.hangBeats < (s.reg R.holdLimit).toNat → exec (.tideHang ue) s = .next s) ∧
    (∀ (e : Nat) (es : List Nat), s.unreported = e :: es → s.tide.fallen = true → (s.reg R.holdLimit).toNat ≤ s.hangBeats → ∀ v : State,
      v = (s.orReg R.tideStatus 4).logCore (srcOf 0x08 0) 0x05 e (leBytes 8 s.hangBeats) →
      exec (.tideHang ue) s = .next ({ v with tide := { v.tide with hangCount := 0, hangFrom := some v.groupBeat } }.coreFault e ue))

/-- Snapshots and restore as time goes on (R480 to R484, R486, R491). SNAP_INTERVAL_EXPIRE makes a request due, once the interval is over;
SNAP_FREEZE_DONE ends the freeze, whose length in microseconds is the snapshot's cost, begins the transfer and lets the boundary open;
SNAP_TRANSFER_DONE commits on a device alone, counts at the master, and is sent to it by a member; a commit makes the staged snapshot the last one.
RESTORE_DONE lets the job go on. Out of their state, the events change nothing. -/
def Obligations.SnapshotEventsAct : Prop :=
  ∀ s : State,
    (s.job.exists_ = true → s.snap.configured = true → s.job.restart = none → s.intervalOver = true →
      exec .snapIntervalExpire s = .next { s with snap := { s.snap with due := true } }) ∧
    (s.job.exists_ = false ∨ s.snap.configured = false ∨ s.job.restart ≠ none ∨ s.intervalOver = false → exec .snapIntervalExpire s = .next s) ∧
    (s.tide.freezing = false → exec .snapFreezeDone s = .next s) ∧
    (s.tide.freezing = true → ∀ a u v : State, a = { s.setReg R.snapCostUs (word (min 0xFFFFFFFF ((s.beat.toNat - s.snap.freezeBeat) / 2500))) with snap := { s.snap with costed := true } } →
      u = (if s.snap.state = .freeze then a.startTransfer else a) →
      v = { u with tide := { u.tide with freezing := false, hostReleased := u.tide.hostReleased ++ [(u.tide.next, u.groupBeat)] } } →
      (v.tide.next ∉ v.tide.selfHolds → exec .snapFreezeDone s = .next v.tryOpen) ∧
      (∀ g : Int, v.tide.next ∈ v.tide.selfHolds → g = max (v.tide.heldFrom.getD v.groupBeat) (v.groupBeat + (v.reg R.holdWindow).toNat) →
        exec .snapFreezeDone s = .next (State.broadcast { v with tide := { v.tide with
            selfHolds := v.tide.selfHolds.filter (fun k => k != v.tide.next), selfReleases := v.tide.selfReleases ++ [(v.tide.next, g)] } }
          { kind := K.tide, dst := 0, ttype := 3, tide := BitVec.ofInt 64 ((v.tide.next : Int) - 1), beat := BitVec.ofInt 64 g }).tryOpen)) ∧
    (∀ x : SnapSet, s.snap.staged = some x → s.startTransfer = x.copies.foldl State.sendCopy (({ s with snap := { s.snap with state := .transfer } } : State).emit
      (.mirror s.snap.buddy (1 - s.snap.slot) 65536 (x.block.bytes.zipIdx.map fun e => (e.2, e.1))))) ∧
    (s.snap.state ≠ .transfer ∨ s.snap.staged = none → exec .snapTransferDone s = .next s) ∧
    (∀ x : SnapSet, s.snap.state = .transfer → s.snap.staged = some x →
      (s.group.member = false → exec .snapTransferDone s = .next s.commit) ∧
      (s.group.member = true → s.isMaster = false → exec .snapTransferDone s = .next (s.originate
        { kind := K.tide, ttype := 5, dst := BitVec.ofNat 16 s.group.master, snapSeq := x.block.seq })) ∧
      (s.group.member = true → s.isMaster = true → exec .snapTransferDone s = .next (s.noteDone (BitVec.ofNat 16 s.group.master)).masterCommit)) ∧
    (∀ x : SnapSet, s.snap.staged = some x →
      (s.group.member = true → s.snap.doneFrom.length < s.group.size → s.masterCommit = s) ∧
      (s.group.member = false ∨ s.group.size ≤ s.snap.doneFrom.length → s.masterCommit =
        (s.broadcast { kind := K.tide, dst := 0, ttype := 6, snapSeq := x.block.seq }).commit) ∧
      (∀ u : State, u = { s with snap := { s.snap with staged := none, committed := some x, state := .idle, doneFrom := [], spoiled := [], unsound := false, slot := 1 - s.snap.slot,
                                                       base := x.copies.foldl commitBase s.snap.base } } →
        s.commit = (((u.setReg R.snapSeq x.block.seq).orReg R.snapStatus 1).count R.snapshots).snapEntry x.block.seq false)) ∧
    (s.snap.restore ≠ .running → exec .restoreDone s = .next s) ∧
    (s.snap.restore = .running → ∀ (held n : Nat) (u v : State), held = (s.snap.block.map fun b => b.scales.length / 128).getD 0 → n = (s.reg R.scaleCount).toNat →
      u = (({ s with snap := { s.snap with restore := .done }, job := { s.job with restart := none }, tide := { s.tide with issueStop := s.job.lost } }
        : State).eachRec s.scaleBase n fun r x => if held ≤ r then x.toJit else x).countJit s.scaleBase n →
      v = (if (List.range n).any (fun r => decide (held ≤ r) && (s.scaleRecAt s.scaleBase r).state != 0 && (s.scaleRecAt s.scaleBase r).ok && (s.scaleRecAt s.scaleBase r).kind != 3)
        then u.orReg R.numStatus 2 else u) →
      exec .restoreDone s = .next v)

/-- What the memory controllers do on their own (R442 to R449, R451, R454 to R456, R464, R465). Refresh changes no state; the temperatures of the
stacks are shown, and set the doubled refresh above 85 °C until 80 °C; the windows of counts end together; a pseudo-channel or slice that has failed
its threshold is replaced when its spare is free, by a copy that ends with the spare in place; patrol scrub reads one burst and moves on. -/
def Obligations.MemoryEventsAct : Prop :=
  ∀ s : State,
    exec .hbmRefresh s = .next s ∧ exec .ddr5Refresh s = .next s ∧
    (∀ temps : List Byte, Safety.canonical s = true → ∃ t : State, exec (.stackTempRead temps) s = .next t ∧ t = { s with regs := t.regs }
      ∧ ∀ k < 8, t.reg (R.stackTemp k) = word (temps.getD k 0).toNat
        ∧ bits (t.reg (R.hbmState k)) 5 1 = (if 85 < (temps.getD k 0).toNat then 1 else if (temps.getD k 0).toNat ≤ 80 then 0 else bits (s.reg (R.hbmState k)) 5 1)) ∧
    (exec .pcCeWindow s = .next { s with memc := { s.memc with pcCe := [], pcUe := [], pcFailed := [], sliceCe := [], sliceFailed := [] } }) ∧
    (∀ st : Fin 8,
      (s.failingPcs st = [] → exec (.pcThreshold st) s = .next s) ∧
      (∀ (p : Nat) (rest : List Nat), s.failingPcs st = p :: rest → exec (.pcThreshold st) s =
        .next (rest.foldl (fun u q => u.pcExhausted st q) (if bits (s.reg (R.hbmState st)) 6 3 = 0 then s.pcPending st p else s.pcExhausted st p))) ∧
      (∀ p, p ∈ s.failingPcs st ↔ p < 64 ∧ 64 * st.val + p ∉ s.memc.pcFailed ∧
        (4 * bits (s.reg R.memCtrl) 2 14 ≤ Sparse.get 0 s.memc.pcCe (64 * st.val + p) ∨ 2 ≤ Sparse.get 0 s.memc.pcUe (64 * st.val + p))) ∧
      (bits (s.reg (R.hbmState st)) 7 1 = 0 ∨ (s.reg (R.copyPtr st)).toNat ≠ s.pcBlocks → exec (.pcCopyDone st) s = .next s) ∧
      (bits (s.reg (R.hbmState st)) 7 1 = 1 → (s.reg (R.copyPtr st)).toNat = s.pcBlocks → ∀ k, k = bits (s.reg (R.pcMap st)) 8 6 → exec (.pcCopyDone st) s =
        .next (((((s.setReg (R.pcMap st) (word (k + 256 * 63))).setField (R.hbmState st) 6 3 4).orReg R.memStatus 2).log_ (srcOf 0x20 st) 0x19
          (leBytes 1 k ++ leBytes 1 k)).spareUsed (srcOf 0x20 st) 5 (64 * st + k) (64 * st + 63))) ∧
      (∀ (b : Fin 10) (o : Fin 4), b.val = st.val →
        (bits (s.reg (R.hbmState st)) 7 1 = 0 ∨ s.pcBlocks ≤ (s.reg (R.copyPtr st)).toNat → exec (.blockCopyDone b o) s = .next s) ∧
        (bits (s.reg (R.hbmState st)) 7 1 = 1 → (s.reg (R.copyPtr st)).toNat < s.pcBlocks → ∀ a, a = s.copyBlock st →
          (o = 0 → exec (.blockCopyDone b o) s = .next (s.count (R.copyPtr st))) ∧
          (o = 1 → exec (.blockCopyDone b o) s = .next ((s.correctable a).count (R.copyPtr st))) ∧
          (o = 2 ∨ o = 3 → exec (.blockCopyDone b o) s = .next ((State.recordUe { s with memc := { s.memc with
            poison := s.memc.poison ++ (List.range 128).map fun i => a / 32 + i } } a (o == 3)).count (R.copyPtr st)))))) ∧
    (∀ n : Fin 128,
      (Sparse.get 0 s.memc.sliceCe n.val < 256 ∨ n.val ∈ s.memc.sliceFailed → exec (.sliceThreshold n) s = .next s) ∧
      (256 ≤ Sparse.get 0 s.memc.sliceCe n.val → n.val ∉ s.memc.sliceFailed → ∀ u : State,
        u = State.trouble { s with memc := { s.memc with sliceFailed := s.memc.sliceFailed ++ [n.val] } } →
        (s.sliceFree (halfOfSlice n) = true → exec (.sliceThreshold n) s = .next { u with memc := { u.memc with slicePend := u.memc.slicePend ++ [n.val] } }) ∧
        (s.sliceFree (halfOfSlice n) = false → exec (.sliceThreshold n) s = .next (u.orReg R.snapStatus 0x100)))) ∧
    (∀ (h : Fin 2),
      (∀ f, s.memc.sliceCopy.find? (fun x => halfOfSlice x.1 == h.val && x.2 == 32768) = f →
        (f = none → exec (.sliceCopyDone h) s = .next s) ∧
        (∀ x, f = some x → ∀ u : State, u = { s with memc := { s.memc with sliceCopy := s.memc.sliceCopy.filter (·.1 != x.1) }
                                                     kept := { s.kept with spareSlice := s.kept.spareSlice ++ [(h.val, x.1)] } } →
          exec (.sliceCopyDone h) s = .next ((u.orReg R.snapStatus 0x80).spareUsed (srcOf 0x12 0) 4 x.1 (128 + h)))) ∧
      (∀ (b : Fin 10) (o : Fin 4) f, b.val = 8 + h.val → s.memc.sliceCopy.find? (fun x => halfOfSlice x.1 == h.val && decide (x.2 < 32768)) = f →
        (f = none → exec (.blockCopyDone b o) s = .next s) ∧
        (∀ x a, f = some x → a = sliceBase + x.1 * 2 ^ 21 + 64 * x.2 → ∀ u : State,
          u = (if o = 0 then s else if o = 1 then s.correctable a else { s with memc := { s.memc with poison := s.memc.poison ++ [a / 32, a / 32 + 1] } }) →
          exec (.blockCopyDone b o) s = .next { u with memc := { u.memc with
            sliceCopy := u.memc.sliceCopy.map fun y => if halfOfSlice y.1 = h.val ∧ y.2 < 32768 then (y.1, y.2 + 1) else y } }))) ∧
    (∀ (c : Fin 8) (o : Fin 4),
      (s.scrubs = false → exec (.patrolScrub c o) s = .next s) ∧
      (s.scrubs = true → ∀ (i a : Nat) (u v w : State), i = Sparse.get 0 s.memc.scrubPos c.val → a = ddrBase + 4096 * (8 * (i / 64) + c) + 64 * (i % 64) →
        u = (match s.found a 64 o with
          | .none_ => s
          | .correctable => (s.correctable a).count (R.scrubCe c)
          | .uncorrectable k => s.recordUe a k) →
        v = { u with memc := { u.memc with scrubPos := Sparse.put 0 u.memc.scrubPos c.val (if u.bursts ≤ i + 1 then 0 else i + 1) } } →
        w = (if u.bursts ≤ i + 1 then v.count (R.scrubPasses c) else v) →
        ((∀ k, s.found a 64 o ≠ .uncorrectable k) → exec (.patrolScrub c o) s = .next w) ∧
        (∀ k, s.found a 64 o = .uncorrectable k → exec (.patrolScrub c o) s = .next (w.ueHandle none a))))

/-- How a sequenced frame is received (R561, R563, R568, Table 16.4, Table 16.12). The codewords that its port corrected or could not correct since
the frame before are counted. Without its session, or on a port that is not UP, nothing else happens. A failing tag is counted, and the sixteenth in a
row closes the session; a frame other than the next expected is counted and discarded. The next expected is counted, acknowledged, and acts; one that
breaks Table 16.4 (its type in this session, its length and fields, its reserved field) is answered BAD_FRAME when it is a request of an open session,
and discarded otherwise; a session whose sequence numbers reach their end closes. How codewords reach the counters is log entry 120's. -/
def Obligations.FramesAreReceived : Prop :=
  ∀ (f : Sys2Proof.Frm) (s t : State) (n p b : Nat), n = f.session.val → p = portOf n → b = bytesAt f.pay 0 1 →
    t = (if s.portUp p then (s.count (R.portFecCorrected p) f.fixed.toNat).count (R.portFecUncorr p) f.uncorr.toNat else s) →
    (∀ y : Instr × (Session → Bool) × Bool × Bool, y ∈ ([
        (.auth f, (fun x => !x.boot && !x.isOpen), true, f.pay.length == 132), (.closeFrame f, (fun x => x.isOpen), false, f.pay.length == 1),
        (.mbxPost f, runSession, true, f.pay.length == 257 && decide (b < 16)), (.mbxRead f, runSession, true, f.pay.length == 1 && decide (b < 16)),
        (.mbxRelease f, runSession, true, f.pay.length == 1 && decide (b < 16)), (.winRead f, runSession, true, f.pay.length == 20 && winFieldsOk f.pay),
        (.winWrite f, runSession, true, f.pay.length == 20 + bytesAt f.pay 16 4 && winFieldsOk f.pay),
        (.regRd f, runSession, true, f.pay.length == 12 && decide (1 ≤ bytesAt f.pay 8 4 ∧ bytesAt f.pay 8 4 ≤ 1024)),
        (.regWr f, runSession, true, f.pay.length == 12 + 4 * bytesAt f.pay 8 4 && decide (1 ≤ bytesAt f.pay 8 4 ∧ bytesAt f.pay 8 4 ≤ 1024)),
        (.keys f, bootSession, true, f.pay.length == 266),
        (.imageFrame f, bootSession, true, decide (68 ≤ f.pay.length ∧ f.pay.length ≤ 4100) && bytesAt f.pay 0 4 % 4096 == 0)] : List (Instr × (Session → Bool) × Bool × Bool)) →
      (t.session n = none ∨ t.portUp p = false → exec y.1 s = .next t) ∧
      (∀ x : Session, t.session n = some x → t.portUp p = true →
        (∀ u : State, f.tagOk = false → u = ((t.count (R.tagFails p)).orReg (R.portStatus p) 2).setSession n (some { x with tagRun := x.tagRun + 1 }) →
          exec y.1 s = .next (if 16 ≤ x.tagRun + 1 then u.closeSession n 3 else u)) ∧
        (f.tagOk = true → f.seq.toNat ≠ x.rx →
          exec y.1 s = .next ((t.count (R.seqDiscards p)).setSession n (some { x with tagRun := 0 }))) ∧
        (∀ v : State, f.tagOk = true → f.seq.toNat = x.rx →
          v = ((t.setSession n (some { x with rx := x.rx + 1, tagRun := 0 })).count (R.framesRx p)).sendAck n →
          y.2.1 x = false ∨ y.2.2.2 = false ∨ f.resv ≠ 0 →
          exec y.1 s = .next ((if y.2.2.1 && x.isOpen then v.complete n f.ftag 0x07 else v).seqLimit n)))) ∧
    (∀ (x : Session) (v : State), s.session n = some x → x.rx < 2 ^ 48 → x.tx ≤ 2 ^ 48 → n < s.lys.sessions.length →
      v = s.setSession n (some { x with rx := x.rx + 1, tagRun := 0 }) → v.seqLimit n = v)

/-- What the frames of a session do (R93 to R95, R98, R99, R102, R447, R543 to R547, R563, R565 to R572, R578). HELLO opens a session on the first
free number of its port, with keys derived from the nonces and the agreed secret, or is refused with its status; AUTH with a signature that verifies
makes the session open with basic privilege, and closes it otherwise; a session that closes has no keys, windows, privilege or pending messages left.
Requests are answered with COMPLETE and a status of Table 16.5: a post on a full mailbox is FULL and sets its reject bit; a read of an empty one is
EMPTY; a window access outside the window is refused; register frames need expert privilege. ACK frees what it covers; a frame unacknowledged is sent
again, at the sixteenth time the session closes. KEYS and IMAGE fill the boot image, and IMAGE_VERIFY accepts it or refuses it with the first check
that fails. How the keys are formed is log entries 12 and 13's. -/
def Obligations.SessionsAct : Prop :=
  (∀ (p : Fin 2) (pay : List Byte) (s : State),
    (s.portUp p = false ∨ helloOk pay = false → exec (.hello p pay) s = .next s) ∧
    (s.portUp p = true → helloOk pay = true → ∀ boot, boot = (bytesAt pay 0 1 == 0) →
      ∀ refuse : Nat → State, (∀ st, refuse st = ((s.count (R.sessionsRefused p)).count (R.framesTx p)).emit (.frame 0xFF 0x02 0 [] 0 (padBytes 299 (leBytes 1 0xFF ++ leBytes 1 st)))) →
      ((∀ k < 4, s.session (4 * p + k) ≠ none) → exec (.hello p pay) s = .next (refuse 0x09)) ∧
      ((∃ k < 4, s.session (4 * p + k) = none) → helloKnown pay = false ∨ s.helloStage boot = false → exec (.hello p pay) s = .next (refuse 0x08)) ∧
      (∀ k < 4, helloKnown pay = true → s.helloStage boot = true → s.session (4 * p + k) = none → (∀ j < k, s.session (4 * p + j) ≠ none) →
        ∀ (nd qd sg : List Byte × State) (body : List Byte) (u w : State), nd = s.drawBytes 32 → qd = nd.2.drawBytes 133 → sg = qd.2.drawBytes 132 →
        body = leBytes 1 (4 * p.val + k) ++ [0] ++ nd.1 ++ qd.1 →
        u = ((sg.2.drbgUsed.setSession (4 * p + k) (some
          { boot, isOpen := boot, th := sha512 (pay ++ body), sec := some (deriveKeys ((pay.drop 3).take 32) nd.1 (Config.ecdh qd.1 (pay.drop 35))) })).count (R.framesTx p)).emit (.frame (4 * p + k) 0x02 0 [] 0 (body ++ sg.1)) →
        w = ((u.count (R.sessionsOpened p)).syncPort p).setField R.straps 4 2 p →
        (boot = false → exec (.hello p pay) s = .next u) ∧
        (boot = true → ∀ z : State, z = { w with lys := { w.lys with image := [], imageBlocks := [], imageBy := some (4 * p.val + k) } } → ∀ y : State,
            y = (if z.bootsel = 2 then z.setField (R.portState (1 - p)) 0 2 0 else z) →
          exec (.hello p pay) s = .next (if y.bootStage = 3 then y.setField R.bootState 0 4 4 else y.imgStatus))))) ∧
  (∀ (f : Sys2Proof.Frm) (s t v : State) (x : Session) (n : Nat), n = f.session.val →
    t = (if s.portUp (portOf n) then (s.count (R.portFecCorrected (portOf n)) f.fixed.toNat).count (R.portFecUncorr (portOf n)) f.uncorr.toNat else s) →
    t.session n = some x → t.portUp (portOf n) = true → f.tagOk = true →
    f.seq.toNat = x.rx → f.resv = 0 → v = ((t.setSession n (some { x with rx := x.rx + 1, tagRun := 0 })).count (R.framesRx (portOf n))).sendAck n →
    (x.boot = false → x.isOpen = false → f.pay.length = 132 → n < t.lys.sessions.length →
      (Config.ecdsaVerifies s.lys.qb (sha512 (x.th ++ [0x42])) f.pay = true → exec (.auth f) s = .next
        ((((((v.setSession n (some { x with rx := x.rx + 1, tagRun := 0, ackTx := x.ackTx + 1, isOpen := true })).count
          (R.sessionsOpened (portOf n))).syncPort (portOf n)).sendFrame n 0x04 f.ftag []).notifyFull n).seqLimit n)) ∧
      (Config.ecdsaVerifies s.lys.qb (sha512 (x.th ++ [0x42])) f.pay = false → exec (.auth f) s = .next
        ((((v.orReg (R.portStatus (portOf n)) 2).count (R.sessionsRefused (portOf n))).closeSession n 3).seqLimit n))) ∧
    (x.isOpen = true → f.pay.length = 1 → exec (.closeFrame f) s = .next ((v.closeSession n 0).seqLimit n)) ∧
    (x.isOpen = true → x.boot = false →
      (f.pay.length = 257 → bytesAt f.pay 0 1 < 16 → exec (.mbxPost f) s = .next ((if v.mbit R.h2eFull (bytesAt f.pay 0 1)
        then (v.orReg R.h2eReject (2 ^ bytesAt f.pay 0 1)).complete n f.ftag 0x01
        else (v.h2ePost n (bytesAt f.pay 0 1) (f.pay.drop 1)).complete n f.ftag 0x00).seqLimit n)) ∧
      (f.pay.length = 1 → bytesAt f.pay 0 1 < 16 →
        exec (.mbxRead f) s = .next ((if v.mbit R.e2hFull (bytesAt f.pay 0 1) then v.complete n f.ftag 0x00 (v.slot (R.e2hSlot (bytesAt f.pay 0 1)))
          else v.complete n f.ftag 0x02).seqLimit n) ∧
        exec (.mbxRelease f) s = .next (((v.release 1 (BitVec.ofNat 16 (2 ^ bytesAt f.pay 0 1))).complete n f.ftag 0x00).seqLimit n)) ∧
      (∀ w off len : Nat, w = bytesAt f.pay 0 1 → off = bytesAt f.pay 8 8 → len = bytesAt f.pay 16 4 → bytesAt f.pay 1 7 = 0 → off % 64 = 0 → 64 ≤ len →
        len ≤ 4096 → len % 64 = 0 →
        (f.pay.length = 20 →
          (v.asleep = true → exec (.winRead f) s = .next ((v.complete n f.ftag 0x08).seqLimit n)) ∧
          (v.asleep = false → v.winOk w n off len false = false → exec (.winRead f) s = .next ((v.complete n f.ftag 0x03).seqLimit n)) ∧
          (∀ W : Window, v.asleep = false → v.window w = some W → v.winOk w n off len false = true →
            exec (.winRead f) s = .next (((v.meetRead (W.base + off) len).complete
              n f.ftag 0x00 (v.bytes (W.base + off) len)).seqLimit n))) ∧
        (f.pay.length = 20 + len →
          (v.asleep = true → exec (.winWrite f) s = .next ((v.complete n f.ftag 0x08).seqLimit n)) ∧
          (v.asleep = false → v.winOk w n off len true = false → exec (.winWrite f) s = .next ((v.complete n f.ftag 0x03).seqLimit n)) ∧
          (∀ W : Window, v.asleep = false → v.window w = some W → v.winOk w n off len true = true →
            exec (.winWrite f) s = .next (((v.store (W.base + off) (f.pay.drop 20)).complete n f.ftag 0x00).seqLimit n)))) ∧
      (∀ count : Nat, count = bytesAt f.pay 8 4 → 1 ≤ count → count ≤ 1024 →
        (f.pay.length = 12 →
          (∀ st, v.regFrameStatus n (bytesAt f.pay 0 8) count false = some st → exec (.regRd f) s = .next ((v.complete n f.ftag st).seqLimit n)) ∧
          (v.regFrameStatus n (bytesAt f.pay 0 8) count false = none → exec (.regRd f) s = .next
            (((v.readRegs n (bytesAt f.pay 0 8 - windowBase) count).2.complete n f.ftag 0x00
              (wordBytes (v.readRegs n (bytesAt f.pay 0 8 - windowBase) count).1)).seqLimit n))) ∧
        (f.pay.length = 12 + 4 * count →
          (∀ st, v.regFrameStatus n (bytesAt f.pay 0 8) count true = some st → exec (.regWr f) s = .next ((v.complete n f.ftag st).seqLimit n)) ∧
          (v.regFrameStatus n (bytesAt f.pay 0 8) count true = none → exec (.regWr f) s = .next
            (((v.writeRegs n .frame true (bytesAt f.pay 0 8 - windowBase) (wordsFrom f.pay 12 count)).complete n f.ftag 0x00).seqLimit n)))) ∧
      (∀ a c wr, x.expert = false → n < t.lys.sessions.length → v.regFrameStatus n a c wr = some 0x04)) ∧
    (x.isOpen = true → x.boot = true →
      (f.pay.length = 266 → n < t.lys.sessions.length → exec (.keys f) s = .next (State.seqLimit (let w := v.setSession n (some { x with
          rx := x.rx + 1, tagRun := 0, ackTx := x.ackTx + 1, keys := true })
        { w with lys := { w.lys with qb := f.pay.take 133, qe := (f.pay.drop 133).take 133, operatorDigest := sha512 f.pay } }) n)) ∧
      (68 ≤ f.pay.length → f.pay.length ≤ 4100 → bytesAt f.pay 0 4 % 4096 = 0 → n < t.lys.sessions.length →
        (v.bootStage ≠ 4 → v.bootStage ≠ 6 → exec (.imageFrame f) s = .next ((v.complete n f.ftag 0x08).seqLimit n)) ∧
        (v.bootStage = 4 ∨ v.bootStage = 6 →
          (x.keys = false → ∀ u : State, u = v.imageFail 1 → exec (.imageFrame f) s = .next (({ u with lys := { u.lys with imageBy := some n } } : State).imgStatus.seqLimit n)) ∧
          (∀ w : State, x.keys = true → w = ({ v with lys := { v.lys with imageBy := some n } } : State).imgStore (bytesAt f.pay 0 4) (f.pay.drop 4) →
            exec (.imageFrame f) s = .next ((if w.imgFetched then w.setField R.bootState 0 4 5 else w).seqLimit n)))))) ∧
  (∀ (f : Sys2Proof.Frm) (s t : State) (n : Nat), n = f.session.val →
    t = (if s.portUp (portOf n) then (s.count (R.portFecCorrected (portOf n)) f.fixed.toNat).count (R.portFecUncorr (portOf n)) f.uncorr.toNat else s) →
    (t.session n = none ∨ t.portUp (portOf n) = false → exec (.frameAck f) s = .next t) ∧
    (∀ x, t.session n = some x → t.portUp (portOf n) = true →
      (∀ u : State, f.tagOk = false → u = ((t.count (R.tagFails (portOf n))).orReg (R.portStatus (portOf n)) 2).setSession n (some { x with tagRun := x.tagRun + 1 }) →
        exec (.frameAck f) s = .next (if 16 ≤ x.tagRun + 1 then u.closeSession n 3 else u)) ∧
      (f.tagOk = true → bit f.seq 63 = false ∨ f.seq.toNat % 2 ^ 63 ≤ x.ackRx →
        exec (.frameAck f) s = .next ((t.count (R.seqDiscards (portOf n))).setSession n (some { x with tagRun := 0 }))) ∧
      (f.tagOk = true → bit f.seq 63 = true → x.ackRx < f.seq.toNat % 2 ^ 63 →
        (f.pay.length ≠ 8 ∨ f.resv ≠ 0 ∨ x.isOpen = false → exec (.frameAck f) s = .next ((t.count (R.framesRx (portOf n))).setSession n (some { x with
          ackRx := f.seq.toNat % 2 ^ 63, tagRun := 0 }))) ∧
        (f.pay.length = 8 → f.resv = 0 → x.isOpen = true → exec (.frameAck f) s = .next (((t.count (R.framesRx (portOf n))).setSession n (some { x with
          ackRx := f.seq.toNat % 2 ^ 63, tagRun := 0, unacked := x.unacked.filter fun e => decide (bytesAt f.pay 0 8 ≤ e.seq) })).sendWaiting n 64))))) ∧
  (∀ (k reason : Nat) (s u : State), u = s.closeSession k reason → s.session k ≠ none → k < s.lys.sessions.length →
    u.session k = none ∧ (∀ (w : Nat) (W : Window), u.window w = some W → W.session ≠ k) ∧ (∀ e ∈ u.enm.poster, e.2 ≠ k)) ∧
  (∀ (k : Fin 8) (seq : BitVec 64) (s : State), s.session k = none → exec (.frameResend k seq) s = .next s) ∧
  (∀ (k : Fin 8) (seq : BitVec 64) (s : State) (x : Session), s.session k = some x →
    ((∀ t ∈ x.unacked, t.seq ≠ seq.toNat) → exec (.frameResend k seq) s = .next s) ∧
    (∀ t : TxFrame, x.unacked.find? (fun t => t.seq == seq.toNat) = some t →
      (16 ≤ t.sends → exec (.frameResend k seq) s = .next (s.closeSession k 2)) ∧
      (t.sends < 16 → exec (.frameResend k seq) s = .next ((((s.setSession k (some { x with
        unacked := x.unacked.map fun e => if e.seq = t.seq then { e with sends := e.sends + 1 } else e })).count (R.framesTx (portOf k))).count (R.resends (portOf k))).emit
          (.frame k t.type t.seq (x.nonce t.seq) t.ftag t.pay))))) ∧
  (∀ s : State,
    (s.bootStage ≠ 5 → exec .imageVerify s = .next s) ∧
    (s.bootStage = 5 → (∀ code, s.imgCheck = some code → exec .imageVerify s = .next (s.imageFail code).imgStatus) ∧
      (s.imgCheck = none → exec .imageVerify s = .next s.imgAccept)))

/-- Clocks (R27, R466, R496, R499, R500, R502, R529). A swell of a running region is counted, the region falls a quarter-cycle behind its running
neighbours over mesochronous queues, and their MAX_SLIP follow; one asked for within 16 cycles is carried forward and made at cycle 16, and one that a
hold must precede waits. A hold takes one cycle of slip back. 64 swells in a row count as one margin run, logged, and throttle. A generator that
fails, or is off its frequency by more than 1 %, gives way to its standby, and without one the region loses its clock and restart 0x03 is requested; a
standby off its frequency can take over no longer. The loss of a fixed PLL after boot, and of the beat PLL at any time, stops issue, loses the device to its job and records PLL_FAULT.
-/
def Obligations.ClockEventsAct : Prop :=
  ∀ (r o : Fin 20) (s : State),
    (∀ (gap : Nat) (near : State → List Nat) (warn : State → Nat → State),
      (∀ u : State, near u = (List.range 20).filter fun o =>
        o != r.val && (adjacent r o && !(overStrait r o && u.profView.split)) && u.regionMode o == 0) →
      (∀ (u : State) (g : Nat), warn u g =
        if g < 16 then u.setRegionDyn r { u.regionDyn r with carried := true }
        else if (near u).any (fun o => decide (12 ≤ u.ahead o r)) = true then u
        else
          let v := (u.count (R.swells r)).setRegionDyn r ⟨false, if g = 16 then (u.regionDyn r).run + 1 else 1⟩
          (near v).foldl (fun v o => ((v.addAhead o r 1).noteSlip r o).noteSlip o r) v) →
      (∀ m, m = profM s.part.fast (s.profView.eff (halfOfRegion r)) → (s.settles r = true ↔
        ∃ x ∈ s.pwr.stepped, x.1 = halfOfRegion r ∧ (s.groupBeat - x.2) * (m : Int) < 6400)) ∧
      (s.regionMode r ≠ 0 ∨ s.settles r = true → exec (.swell r gap) s = .next s) ∧
      (s.regionMode r = 0 → s.settles r = false →
        (gap < 16 ∨ (s.regionDyn r).carried = false → exec (.swell r gap) s = .next (warn s gap)) ∧
        ((s.regionDyn r).carried = true → gap = 16 → exec (.swell r gap) s = .next (warn s 16)) ∧
        ((s.regionDyn r).carried = true → 16 < gap → exec (.swell r gap) s = .next (warn (warn s 16) (gap - 16))))) ∧
    (∀ u : State, u = s.addAhead o r 1 → Sparse.wf (fun _ => (0 : Int)) s.pwr.slips = true → r ≠ o →
      u.ahead o r = s.ahead o r + 1 ∧ u.ahead r o = s.ahead r o - 1
        ∧ (Safety.canonical s = true → (u.noteSlip r o).reg (R.maxSlip r) = word (max (s.reg (R.maxSlip r)).toNat ((s.ahead r o - 1).natAbs / 4)))) ∧
    ((adjacent r o = false ∨ overStrait r o = true ∧ s.profView.split = true ∨ s.ahead r o < 12) → exec (.xingHold r o) s = .next s) ∧
    (adjacent r o = true → (overStrait r o = false ∨ s.profView.split = false) → 12 ≤ s.ahead r o → ∃ t : State, exec (.xingHold r o) s = .next t
      ∧ t = { s.count (R.xingHolds r) with pwr := { s.pwr with slips := t.pwr.slips } }
      ∧ (Sparse.wf (fun _ => (0 : Int)) s.pwr.slips = true → t.ahead r o = s.ahead r o - 4)) ∧
    ((s.regionDyn r).run < 64 → exec (.marginLow r) s = .next s) ∧
    (∀ u : State, 64 ≤ (s.regionDyn r).run →
      u = (((s.setRegionDyn r { s.regionDyn r with run := 0 }).orReg R.clkStatus 4).count (R.marginRuns r)).log_ (srcOf 0x01 r) 0x23 (leBytes 1 r) →
      exec (.marginLow r) s = .next ({ u with pwr := { u.pwr with lastMargin := some s.beat.toNat } }.lower [0, 1] false 3)) ∧
    (∀ t : State,
      t = (if s.standbyOk r = true then
            let u := (s.recordGen (2 * r)).setReg (R.regionState r) (setBits ((s.recordGen (2 * r)).reg (R.regionState r)) 3 2 1)
            let u := (u.orReg R.clkStatus 8).log_ (srcOf 0x01 r) 0x22 (leBytes 1 r)
            (if r.val < 16 then u.spareUsed (srcOf 0x01 r) 9 (2 * r) (2 * r + 1) else u).centre (fun k => k == r.val)
          else ((s.recordGen (2 * r + 1)).setRegionMode r 3).restart 0x03) →
      (s.clocked r = false → exec (.genFail r) s = .next s ∧ ∀ b c, exec (.genFreqWindow r b c) s = .next s) ∧
      (s.clocked r = true → exec (.genFail r) s = .next t) ∧
      (∀ (b : Bool) (c m : Nat), m = profM s.part.fast (s.profView.eff (halfOfRegion r)) →
        (s.pwr.settling = true → exec (.genFreqWindow r b c) s = .next s) ∧
        (99 * 1024 * m ≤ 2500 * c → 2500 * c ≤ 101 * 1024 * m → exec (.genFreqWindow r b c) s = .next s) ∧
        (s.clocked r = true → s.pwr.settling = false → 2500 * c < 99 * 1024 * m ∨ 101 * 1024 * m < 2500 * c →
          exec (.genFreqWindow r false c) s = .next t ∧
          exec (.genFreqWindow r true c) s = .next (if s.standbyOk r then (s.recordGen (2 * r + 1)).setField (R.regionState r) 4 1 0 else s)))) ∧
    (∀ d : Fin 41,
      (s.rst.asserted = true ∨ (d.val ≠ 40 ∧ s.bootStage ≠ 9) ∨ (d.val = 40 ∧ s.beatOn = false) ∨ d.val < 20 → exec (.fixedPllLoss d) s = .next s) ∧
      (∀ u : State, s.rst.asserted = false → (d.val ≠ 40 ∧ s.bootStage = 9) ∨ (d.val = 40 ∧ s.beatOn = true) → 20 ≤ d.val → u = s.cutReports.withdrawAll.cancelRunAheads (fun _ => true) →
        exec (.fixedPllLoss d) s = .next { u with
          tide := { u.tide with issueStop := true }, job := { u.job with lost := true }, rst := { u.rst with pllFault := true }
          kept := { u.kept with pllFaults := u.kept.pllFaults ++ [d.val] } }))

/-- Temperature and power (R506, R509 to R513, R600 to R602, R606, R617). A sample shows the highest reading of each half and the peak, keeps how long
each half has been cool, and takes the THERMAL decision: both halves together, or the hot half alone, into Strait-split mode, where THERM_CTRL and the
other half allow it. A poll adds one sample, shows the average of the window in watts, and throttles above the limit of the higher effective profile;
a throttle decision lowers the free halves above Neap by one profile, at the boundary it names, and with none free changes nothing. A ceiling rises
when every condition of R511 holds. A reading of 110 °C or more asserts THERMTRIP_N, gates the array, loses the device and is logged, in retained
memory too. A regulator that faults is logged. -/
def Obligations.ThermalAndPowerAct : Prop :=
  ∀ s : State,
    (∀ (temps : List Byte) (soft : List Spoil) (struck : List (Nat × Fin 3)) (s0 : State),
      s0 = { s with job := { s.job with soft := s.job.soft ++ soft }, memc := { s.memc with struck := s.memc.struck ++ struck } } →
      (s.beatOn = false ∨ s.rst.tripped = true → exec (.junctionSample ⟨temps, soft, struck⟩) s = .next s0) ∧
      (∀ (w e : Nat) (u : State), s.beatOn = true → s.rst.tripped = false → w = highest temps 0 → e = highest temps 1 →
        u = ((s0.setReg R.tjWest (word w)).setReg R.tjEast (word e)).setReg R.tjPeak (word (max (s.reg R.tjPeak).toNat (max w e))) → Safety.canonical s = true →
        ∃ c : List (Option Nat), exec (.junctionSample ⟨temps, soft, struck⟩) s = .next ({ u with pwr := { u.pwr with cool := c } }.thermal)
          ∧ c = [if w ≤ bits (s.reg R.thermCtrl) 8 8 then some ((s.pwr.cool.getD 0 none).getD s.beat.toNat) else none,
                 if e ≤ bits (s.reg R.thermCtrl) 8 8 then some ((s.pwr.cool.getD 1 none).getD s.beat.toNat) else none])) ∧
    (∀ limit : Nat, limit = bits (s.reg R.thermCtrl) 0 8 →
      ((∀ h < 2, s.tj h < limit) → s.thermal = s) ∧
      ((∀ h < 2, limit ≤ s.tj h) → s.thermal = s.lower [0, 1] false 1) ∧
      (∀ h k : Nat, (h, k) ∈ [(0, 1), (1, 0)] → limit ≤ s.tj h → s.tj k < limit →
        (s.profView.split = true → s.thermal = s.lower [h] false 1) ∧
        (s.profView.split = false →
          (s.tj k ≤ bits (s.reg R.thermCtrl) 8 8 → s.profView.effW = s.profView.effE → neap < s.profView.effW →
            bits (s.reg R.thermCtrl) 16 2 = 2 ∨ bits (s.reg R.thermCtrl) 16 2 = 1
              ∧ (∀ i ∈ s.images, i.crossStrait = true → i.reaches (s.forcedKey.getD s.nextStep3) = false) →
            s.thermal = s.lower [h] true 1) ∧
          (bits (s.reg R.thermCtrl) 8 8 < s.tj k ∨ s.profView.effW ≠ s.profView.effE ∨ s.profView.effW ≤ neap ∨ bits (s.reg R.thermCtrl) 16 2 = 0
              ∨ bits (s.reg R.thermCtrl) 16 2 = 1 ∧ (∃ i ∈ s.images, i.crossStrait = true ∧ i.reaches (s.forcedKey.getD s.nextStep3) = true) →
            s.thermal = s.lower [0, 1] false 1)))) ∧
    (∀ (hs ls : List Nat) (split : Bool) (cause : Nat) (key : Option Nat) (d : Nat → Int),
      key = (if s.tide.running = true then some (s.firstAfter (s.groupBeat + 12500)) else none) →
      ls = hs.filter (fun h =>
        !(s.pwr.forced.any fun f => decide ((if h = 0 then f.dW else f.dE) < 0)) && ((s.pwr.busy.getD h none).all fun b => decide (b ≤ s.beat.toNat))
          && decide (0 < (if h = 0 then (s.profAt (key.getD s.nextStep3)).capW else (s.profAt (key.getD s.nextStep3)).capE))) →
      (∀ h, d h = if h ∈ ls then -1 else 0) →
      (ls = [] → s.lower hs split cause = s) ∧
      (ls ≠ [] → s.lower hs split cause = { s with pwr := { s.pwr with forced := s.pwr.forced ++ [ProfForced.mk key (d 0) (d 1) split cause] } }.syncProf) ∧
      s.lowerable hs = ls) ∧
    (∀ reads : List (Option Nat),
      (s.enm.running = false → exec (.pmbusPoll reads) s = .next s) ∧
      (∀ (xs ys : List Nat) (u : State), s.enm.running = true → Safety.canonical s = true →
        xs = (s.powerSample reads :: s.pwr.samples).take 100 → ys = xs.take (bits (s.reg R.pwrCtrl) 0 8) →
        u = { s.setReg R.pkgPower (word (min 0xFFFF (ys.sum / ys.length / 10000))) with pwr := { s.pwr with
          samples := xs, calm := [0, 1].map fun h => if ys.sum * 100 ≤ s.raisedLimit h * 10000 * bits (s.reg R.pwrCtrl) 8 8 * ys.length
                                             then some ((s.pwr.calm.getD h none).getD s.beat.toNat) else none } } →
        exec (.pmbusPoll reads) s = .next (if profLimit s.part.fast u.profView.higher * 10000 * 100 * ys.length < 100 * ys.sum then
            (if u.lowerable [0, 1] = [] then u else (u.lower [0, 1] false 2).orReg R.clkStatus 0x20) else u))) ∧
    (∀ (h : Fin 2) (ago : Nat → Bool), (∀ t, ago t = decide (t + 250000000 ≤ s.beat.toNat)) →
      (∀ rises : Bool,
        rises = (decide ((if h = 0 then s.profView.capW else s.profView.capE) < 2) && (s.pwr.cool.getD h none).any ago && (s.pwr.calm.getD h none).any ago
          && s.pwr.lastMargin.all ago && (s.pwr.lastRise.getD h none).all ago && !(s.pwr.forced.any fun f => decide (0 < if h = 0 then f.dW else f.dE))) →
        (rises = false → exec (.ceilingRise h) s = .next s) ∧
        (∀ (key : Option Nat) (t : State), rises = true → key = (if s.tide.running = true then some (s.tide.count.toNat + 2) else none) →
          t = { s with pwr := { s.pwr with
            forced := s.pwr.forced ++ [ProfForced.mk key (if h = 0 then 1 else 0) (if h = 0 then 0 else 1) false 4]
            lastRise := s.pwr.lastRise.set h (some s.beat.toNat) } } →
          exec (.ceilingRise h) s = .next { t with pwr := { t.pwr with
            setPoint := max t.pwr.setPoint (t.changeKeys.foldl (fun m k => max m (t.profAt k).higher) t.profView.higher) } }.syncProf))) ∧
    (∀ (k : Fin 80) (b : Byte),
      (s.beatOn = false ∨ s.rst.tripped = true ∨ b.toNat < 110 → exec (.thermtrip k b) s = .next s) ∧
      (∀ (g u : State) (e : LogEntry), s.beatOn = true → s.rst.tripped = false → 110 ≤ b.toNat →
        g = (List.range 20).foldl (fun t r => if t.regionMode r = 0 then t.setRegionMode r 1 else t) s →
        u = { g with rst := { s.rst with tripped := true }, job := { s.job with lost := true }, tide := { s.tide with issueStop := true } } →
        e = u.entry (srcOf 0x01 0) 0x2B noHalf noHalf (leBytes 1 k ++ leBytes 1 b.toNat) →
        exec (.thermtrip k b) s = .next ({ u with kept := { s.kept with
            records := s.kept.records ++ [e.bytes (s.log.next - word (Log.newer e s.log.entries))] } }.log_ (srcOf 0x01 0) 0x2B (leBytes 1 k ++ leBytes 1 b.toNat))
        ∧ (Safety.canonical s = true → ∀ r < 20, g.regionMode r = if s.regionMode r = 0 then 1 else s.regionMode r))) ∧
    (∀ a : Fin 8,
      (∀ st, s.enm.running = false → exec (.vrFault a st) s = .next s) ∧
      (∀ w : Half, s.enm.running = true → exec (.vrFault a (some w)) s = .next (s.log_ (srcOf 0x01 0) 0x24 (leBytes 1 (0x40 + a) ++ [0] ++ leBytes 2 w.toNat))) ∧
      (s.enm.running = true → exec (.vrFault a none) s = .next ({ s with free := s.free + 1 }.log_ (srcOf 0x01 0) 0x24
        (leBytes 1 (0x40 + a) ++ [0] ++ leBytes 2 (Config.freeDword s.free).toNat))))

/-- Reset and the release of clock domains (R528, R531 to R541, R551, R553, R555). RESET_N low, when reset is not already held, and power-on put every
domain in reset: all state is State.reset but for the pins, the cause, what the spare map keeps (nothing after power-on) and what lies outside the
device. Release begins when both have gone: the straps are sampled, and boot is at stage 1. A domain that waits for its clock is released when it is
valid; the beat PLL's starts BEAT_COUNT at 0; one without a valid clock turns to its standby generator, or stops boot at the stage of Table 15.2. -/
def Obligations.ResetsAct : Prop :=
  ∀ s : State,
    (s.rst.asserted = true → exec .resetNAssert s = .next { s with rst := { s.rst with pinLow := true } }) ∧
    (∃ t : State, (s.rst.asserted = false → exec .resetNAssert s = .next t)
      ∧ t = { State.reset with
          pending := s.pending, part := s.part, free := s.free, regs := t.regs, lys := { State.reset.lys with sent := s.lys.sent }
          kept := { s.kept with spares := resetSpares s.kept.spares }, rst := { asserted := true, powerOn := false, pinLow := true } }
      ∧ (Safety.canonical s = true →
          t.reg R.resetCause = word (2 + (if s.rst.tripped = true then 16 else 0) + (if s.rst.pllFault = true then 32 else 0)
            + (if s.bootStage ≠ 9 then 64 else 0) + 4096 * s.bootStage) ∧
          (∀ n < 256, bits (t.reg (R.rowMap n)) 0 7 = bits (s.reg (R.rowMap n)) 0 7 ∧ bit (t.reg (R.rowMap n)) 31 = bit (s.reg (R.rowMap n)) 31
            ∧ bits (t.reg (R.rowMap n)) 7 24 = bits (regReset (R.rowMap n)) 7 24) ∧
          (∀ k < 8, t.reg (R.pcMap k) = if bit (s.reg (R.hbmState k)) 8 = true then s.reg (R.pcMap k) else regReset (R.pcMap k)) ∧
          (∀ k < 8, bit (t.reg (R.hbmState k)) 8 = bit (s.reg (R.hbmState k)) 8) ∧
          (∀ k < 16, ∀ b < 16, t.reg (R.portSlot (16 * k + b)) = if (k, b) ∈ s.kept.spareSlotOf then 16 else regReset (R.portSlot (16 * k + b))))) ∧
    (∀ xs : List Nat, xs.length = 10 → (∀ i < 10, (resetSpares xs).getD i 0 = if i = 0 ∨ i = 1 ∨ i = 6 ∨ i = 7 then 0 else xs.getD i 0)) ∧
    (∃ t : State, exec .powerOnAssert s = .next t
      ∧ t = { State.reset with
          pending := s.pending, part := s.part, free := s.free, regs := t.regs, lys := { State.reset.lys with sent := s.lys.sent }
          rst := { asserted := true, powerOn := true, pinLow := s.rst.pinLow } }
      ∧ t.reg R.resetCause = 1 ∧ ∀ k, k ≠ R.resetCause → t.reg k = regReset k) ∧
    (∀ b c : BitVec 2,
      (s.rst.powerOn = true ∨ s.rst.asserted = false → exec (.resetNRelease b c) s = .next { s with rst := { s.rst with pinLow := false } }) ∧
      (s.rst.pinLow = true ∨ s.rst.asserted = false → exec (.powerOnRelease b c) s = .next
        { (if s.rst.powerOn then s.setReg R.resetCause 1 else s) with rst := { s.rst with powerOn := false } }) ∧
      (s.rst.asserted = true → Safety.canonical s = true → ∃ t : State, (s.rst.powerOn = false → exec (.resetNRelease b c) s = .next t)
        ∧ (s.rst.pinLow = false → exec (.powerOnRelease b c) s = .next t)
        ∧ t = { s with regs := t.regs, rst := { s.rst with asserted := false, pinLow := false, powerOn := false } }
        ∧ t.reg R.resetCause = (if s.rst.powerOn then 1 else s.reg R.resetCause)
        ∧ t.reg R.straps = word (b.toNat + 4 * c.toNat + 48) ∧ t.bootStage = 1
        ∧ ∀ p < 2, bits (t.reg (R.portState p)) 0 2 = if c = 2 ∧ p = (if b = 1 then 1 else 0) then 1 else bits (s.reg (R.portState p)) 0 2)) ∧
    (∀ d : Fin 41,
      (s.waitsForClock d = false → exec (.domainClockValid d) s = .next s ∧ exec (.domainClockFail d) s = .next s) ∧
      (s.waitsForClock d = true →
        (d.val = 40 → exec (.domainClockValid d) s = .next { s with beat := 0, beatOn := true }) ∧
        (d.val < 38 → exec (.domainClockValid d) s = .next ((s.releaseRegion d).centre fun k => k == d.val)) ∧
        (d.val = 38 → exec (.domainClockValid d) s = .next (let u := (s.releaseRegion 38).setField R.bootState 0 4 2
          if u.genFailed 78 then u.domainFail 39 else u)) ∧
        (d.val = 39 → exec (.domainClockValid d) s = .next (s.releaseRegion 39).trainPorts) ∧
        (∀ u : State, d.val < 20 → bit (s.reg (R.regionState d)) 3 = false → s.genFailed (2 * d + 1) = false →
          u = ((s.recordGen (2 * d)).setField (R.regionState d) 3 1 1).orReg R.domainSpared (2 ^ d.val) →
          exec (.domainClockFail d) s = .next (if u.bootStage ≠ 9 then
            { u with kept := { u.kept with spares := u.kept.spares.modify 9 (· + 1) }, pwr := { u.pwr with sparedAtBoot := u.pwr.sparedAtBoot ++ [d.val] } }
            else u.spareUsed (srcOf 0x01 d) 9 (2 * d) (2 * d + 1))) ∧
        (∀ u : State, u = (if d.val < 20 ∧ bit (s.reg (R.regionState d)) 3 = true then s.recordGen (2 * d + 1) else if d.val < 40 then s.recordGen (2 * d) else s).domainFail d →
          (20 ≤ d.val ∨ bit (s.reg (R.regionState d)) 3 = true ∨ s.genFailed (2 * d + 1) = true) →
          exec (.domainClockFail d) s = .next (
            if 9 ≤ u.bootStage then u
            else if d.val = 38 ∨ d.val = 40 then u.bootStop 1
            else if d.val = 39 ∧ u.bootsel = 1 then (if 3 ≤ u.bootStage then u.bootStop 3 else u)
            else if d.val = 39 then (if u.bootStage = 7 then u.bootStop 7 else u)
            else u.bootStop 7)))) ∧
    (∀ r, Safety.canonical s = true → r < 40 → (s.releaseRegion r).regionMode r = 0)

/-- The stages of boot, Sleep and the Lysholt ports (R438, R452, R456, R518, R519, R540 to R550, R558, R559, R575, R576). Each stage ends in the next,
or stops boot with its number: the self-test leads to FETCH by a port, Enmora's stage ends when every region is released, and trained memory makes the
device READY, its array regions gated. A port goes DARK, ACQUIRE, ALIGN, UP, and leaves UP when light or FEC lock is lost, which closes its sessions.
A self-test that fails later closes every session, loses the device to its job, puts the Lighthouse in its error state and is logged, in retained
memory too. Sleep turns the fixed regions it names off, and waking leaves the device in Idle with its error windows started again. Out of its stage or
state, each event changes nothing. -/
def Obligations.BootAndPortsAct : Prop :=
  ∀ s : State,
    (∀ ok : Bool,
      (s.bootStage ≠ 2 → exec (.romSelftestDone ok) s = .next s) ∧
      (s.bootStage = 2 →
        (ok = false → exec (.romSelftestDone ok) s = .next (s.bootStop 2)) ∧
        (ok = true → s.bootsel = 3 → exec (.romSelftestDone ok) s = .next s) ∧
        (∀ u : State, ok = true → s.bootsel ≠ 3 → u = (s.setField R.bootState 0 4 3).trainPorts →
          exec (.romSelftestDone ok) s = .next (if u.bootsel = 1 ∧ u.domainFailed 39 = true then u.bootStop 3 else u)))) ∧
    (s.bootStage = 7 → (∀ r < 40, s.regionMode r ≠ 3) → exec .enmoraStageDone s = .next (s.setField R.bootState 0 4 8)) ∧
    (s.bootStage ≠ 7 ∨ (∃ r < 40, s.regionMode r = 3) → exec .enmoraStageDone s = .next s) ∧
    (∀ (hbm : Bool) (ds : List (Option Dimm)) (us : Word),
      (s.bootStage ≠ 8 → exec (.memoryTrained hbm ds us) s = .next s) ∧
      (s.bootStage = 8 → exec (.memoryTrained false ds us) s = .next (s.bootStop 8)) ∧
      (s.bootStage = 8 → exec (.memoryTrained true ds us) s = .next ((s.hbmTrained.ddrTrained ds).ready us)) ∧
      (Safety.canonical s = true → ∃ t : State, (s.hbmTrained.ddrTrained ds).ready us = t ∧ t.bootStage = 9 ∧ t.reg R.bootTimeUs = us
        ∧ t.reg R.hbmCapacity = word (if s.part.high12 then 387072 else 516096)
        ∧ (fillOk ds = false → t.reg R.ddrCapacity = 0) ∧ (∀ r < 20, t.regionMode r ≠ 0))) ∧
    (∀ k, Safety.canonical s = true → k < 16 → (s.bootStop k).bootStage = 15 ∧ bits ((s.bootStop k).reg R.bootState) 4 4 = k) ∧
    (∀ p : Fin 2,
      (bits (s.reg (R.portState p)) 0 2 ≠ 1 → exec (.portAcquireDone p) s = .next s) ∧
      (bits (s.reg (R.portState p)) 0 2 = 1 → s.regionMode (38 + p) = 0 → exec (.portAcquireDone p) s = .next (s.setField (R.portState p) 0 2 2)) ∧
      (bits (s.reg (R.portState p)) 0 2 = 1 → s.regionMode (38 + p) ≠ 0 →
        exec (.portAcquireDone p) s = .next ({ s with rst := { s.rst with refLocked := true } }.setField (R.portState p) 8 1 1)) ∧
      (bits (s.reg (R.portState p)) 0 2 = 2 → exec (.portAlignDone p) s = .next (s.setField (R.portState p) 0 2 3)) ∧
      (bits (s.reg (R.portState p)) 0 2 ≠ 2 → exec (.portAlignDone p) s = .next s) ∧
      (bits (s.reg (R.portState p)) 0 2 ≠ 3 → exec (.portLightLoss p) s = .next s ∧ ∀ n, exec (.portFecLoss ⟨p, n⟩) s = .next s) ∧
      (∀ down : State → State,
        (∀ u : State, down u = ((u.setField (R.portState p) 0 2 1).closeSessions [4 * p, 4 * p + 1, 4 * p + 2, 4 * p + 3] 6).orReg (R.portStatus p) 1) →
        bits (s.reg (R.portState p)) 0 2 = 3 →
        exec (.portLightLoss p) s = .next (down s) ∧
        ∀ n : Word, exec (.portFecLoss ⟨p, n⟩) s = .next (down ((s.count (R.portFecCorrected p) 0).count (R.portFecUncorr p) n.toNat)))) ∧
    (∀ test : Byte,
      (s.bootStage < 3 ∨ s.lys.error = true ∨ s.stopStage = 2 → exec (.lighthouseError test) s = .next s) ∧
      (∀ (c u : State) (e : LogEntry), 3 ≤ s.bootStage → s.lys.error = false → s.stopStage ≠ 2 →
        c = ((s.closeSessions (List.range 8) 7).cutReports.withdrawAll.cancelRunAheads fun _ => true) →
        u = { c with tide := { c.tide with issueStop := true }, job := { c.job with lost := true }, lys := { c.lys with error := true } } →
        e = u.entry (srcOf 0x02 0) 0x2C noHalf noHalf (leBytes 1 test.toNat) →
        exec (.lighthouseError test) s = .next ({ u with kept := { u.kept with
          records := u.kept.records ++ [e.bytes (u.log.next - word (Log.newer e u.log.entries))] } }.log_ (srcOf 0x02 0) 0x2C (leBytes 1 test.toNat)))) ∧
    (s.pwr.entering = false → exec .sleepEntryDone s = .next s) ∧
    (s.pwr.entering = true → ∃ t : State, exec .sleepEntryDone s = .next t ∧ t = { s with regs := t.regs, pwr := { s.pwr with entering := false, sleep := true } }
      ∧ (Safety.canonical s = true → ∀ r < 38, t.regionMode r = if r < 20 then s.regionMode r else 2)) ∧
    (s.pwr.waking = none ∨ s.asleep = false ∨ s.wakeReleased = false → exec .wakeDone s = .next s) ∧
    (∀ (mb : Nat) (tag : Half) (u : State), s.pwr.waking = some (mb, tag) → s.asleep = true →
      (∀ r < 38, s.regionMode r ≠ 3 ∨ s.domainFailed r = true) →
      u = ((List.range 20).foldl (fun t r => if t.regionMode r = 0 then t.setRegionMode r 1 else t) s).centre (fun _ => true) →
      exec .wakeDone s = .next ({ u with
        pwr := { u.pwr with sleep := false, waking := none, retain := false }
        memc := { u.memc with pcCe := [], pcUe := [], pcFailed := [], sliceCe := [], sliceFailed := [] } }.respond mb 0x0107 tag ⟨0, []⟩))
end

