-- ==== Sys2Proof/Laws/Sparse.lean ====
section
/-!
SUPPORT. The laws of sparse maps: reading after a write, and the canonical form, which every operation keeps.
-/
namespace Sys2Proof.Machine

theorem Sparse.wf_iff {α : Type} [DecidableEq α] (d : Nat → α) (m : List (Nat × α)) :
    Sparse.wf d m = true ↔ (m.Pairwise fun x y => x.1 < y.1) ∧ ∀ e ∈ m, e.2 ≠ d e.1 := by
  have rise : ∀ (t : List (Nat × α)) (i : Nat), Sparse.rising i t = true ↔ (∀ e ∈ t, i < e.1) ∧ t.Pairwise fun x y => x.1 < y.1 := by
    intro t
    induction t with
    | nil => simp [Sparse.rising]
    | cons x t ih =>
      intro i
      simp only [Sparse.rising, Bool.and_eq_true, decide_eq_true_eq, ih, List.pairwise_cons, List.mem_cons, forall_eq_or_imp]
      constructor
      · rintro ⟨h, a, b⟩
        exact ⟨⟨h, fun e he => Nat.lt_trans h (a e he)⟩, a, b⟩
      · rintro ⟨⟨h, _⟩, a, b⟩
        exact ⟨h, a, b⟩
  cases m with
  | nil => simp [Sparse.wf]
  | cons x t => simp [Sparse.wf, rise, List.pairwise_cons]

theorem Sparse.mem_insert {α : Type} {m : List (Nat × α)} {i : Nat} {v : α} {e : Nat × α} (h : e ∈ Sparse.insert m i v) :
    e = (i, v) ∨ e ∈ m := by
  induction m with
  | nil => simpa [Sparse.insert] using h
  | cons x t ih =>
    simp only [Sparse.insert] at h
    split at h
    · simpa using h
    · split at h
      · simp at h
        rcases h with h | h <;> simp [h]
      · simp at h
        rcases h with h | h
        · simp [h]
        · rcases ih h with h | h <;> simp [h]

theorem Sparse.insert_sorted {α : Type} {m : List (Nat × α)} (i : Nat) (v : α) (h : m.Pairwise fun x y => x.1 < y.1) :
    (Sparse.insert m i v).Pairwise fun x y => x.1 < y.1 := by
  induction m with
  | nil => simp [Sparse.insert]
  | cons x t ih =>
    simp only [List.pairwise_cons] at h
    simp only [Sparse.insert]
    split
    · rename_i hi
      simp only [List.pairwise_cons, List.mem_cons, forall_eq_or_imp]
      exact ⟨⟨hi, fun e he => Nat.lt_trans hi (h.1 e he)⟩, h⟩
    · split
      · rename_i hi
        subst hi
        exact List.pairwise_cons.2 h
      · refine List.pairwise_cons.2 ⟨fun e he => ?_, ih h.2⟩
        rcases Sparse.mem_insert he with rfl | he
        · show x.1 < i
          omega
        · exact h.1 e he

theorem Sparse.erase_sublist {α : Type} (m : List (Nat × α)) (i : Nat) : (Sparse.erase m i).Sublist m := by
  induction m with
  | nil => simp [Sparse.erase]
  | cons x t ih =>
    simp only [Sparse.erase]
    split
    · exact List.sublist_cons_self _ _
    · exact List.Sublist.cons_cons _ ih

/-- The canonical form survives a write; `d` is what the key written reads as when it is unlisted. -/
theorem Sparse.put_wf {α : Type} [DecidableEq α] (d : Nat → α) (m : List (Nat × α)) (i : Nat) (v : α) (h : Sparse.wf d m = true) :
    Sparse.wf d (Sparse.put (d i) m i v) = true := by
  rw [Sparse.wf_iff] at *
  unfold Sparse.put
  split
  · exact ⟨h.1.sublist (Sparse.erase_sublist m i), fun e he => h.2 e ((Sparse.erase_sublist m i).subset he)⟩
  · refine ⟨Sparse.insert_sorted i v h.1, fun e he => ?_⟩
    rcases Sparse.mem_insert he with rfl | he
    · assumption
    · exact h.2 e he

theorem Sparse.dropKeys_wf {α : Type} [DecidableEq α] (d : Nat → α) (m : List (Nat × α)) (p : Nat → Bool) (h : Sparse.wf d m = true) :
    Sparse.wf d (Sparse.dropKeys p m) = true := by
  rw [Sparse.wf_iff] at *
  exact ⟨h.1.sublist List.filter_sublist, fun e he => h.2 e (List.mem_filter.1 he).1⟩

theorem Sparse.get_erase_ne {α : Type} (d : α) (m : List (Nat × α)) {i j : Nat} (h : j ≠ i) : Sparse.get d (Sparse.erase m i) j = Sparse.get d m j := by
  induction m with
  | nil => rfl
  | cons x t ih =>
    obtain ⟨k, v⟩ := x
    simp only [Sparse.erase]
    split
    · rename_i hi
      subst hi
      simp [Sparse.get, h]
    · simp [Sparse.get, ih]

theorem Sparse.get_insert_self {α : Type} (d : α) (m : List (Nat × α)) (i : Nat) (v : α) : Sparse.get d (Sparse.insert m i v) i = v := by
  induction m with
  | nil => simp [Sparse.insert, Sparse.get]
  | cons x t ih =>
    obtain ⟨k, w⟩ := x
    simp only [Sparse.insert]
    split
    · simp [Sparse.get]
    · split
      · simp [Sparse.get]
      · simp [Sparse.get, *]

theorem Sparse.get_insert_ne {α : Type} (d : α) (m : List (Nat × α)) {i j : Nat} (v : α) (h : j ≠ i) :
    Sparse.get d (Sparse.insert m i v) j = Sparse.get d m j := by
  induction m with
  | nil => simp [Sparse.insert, Sparse.get, h]
  | cons x t ih =>
    obtain ⟨k, w⟩ := x
    simp only [Sparse.insert]
    split
    · simp [Sparse.get, h]
    · split
      · rename_i hi
        subst hi
        simp [Sparse.get, h]
      · simp [Sparse.get, ih]

/-- A key that no entry lists reads as the default. -/
theorem Sparse.get_unlisted {α : Type} (d : α) (m : List (Nat × α)) (i : Nat) (h : ∀ e ∈ m, e.1 ≠ i) : Sparse.get d m i = d := by
  induction m with
  | nil => rfl
  | cons x t ih =>
    obtain ⟨k, v⟩ := x
    have hk : k ≠ i := h (k, v) (by simp)
    simp only [Sparse.get, if_neg (Ne.symm hk)]
    exact ih fun e he => h e (by simp [he])

theorem Sparse.get_erase_self {α : Type} (d : α) (m : List (Nat × α)) (i : Nat) (h : m.Pairwise fun x y => x.1 < y.1) :
    Sparse.get d (Sparse.erase m i) i = d := by
  induction m with
  | nil => rfl
  | cons x t ih =>
    obtain ⟨k, v⟩ := x
    simp only [List.pairwise_cons] at h
    simp only [Sparse.erase]
    split
    · rename_i hi
      subst hi
      exact Sparse.get_unlisted d t i fun e he => Nat.ne_of_gt (h.1 e he)
    · rename_i hi
      simp only [Sparse.get, if_neg hi]
      exact ih h.2

/-- Reading another key after a write gives what it gave before. -/
theorem Sparse.get_put_ne {α : Type} [DecidableEq α] (d c : α) (m : List (Nat × α)) {i j : Nat} (v : α) (h : j ≠ i) :
    Sparse.get c (Sparse.put d m i v) j = Sparse.get c m j := by
  unfold Sparse.put
  split
  · exact Sparse.get_erase_ne c m h
  · exact Sparse.get_insert_ne c m v h

/-- Reading the key written gives the value written, in a map of the canonical form. -/
theorem Sparse.get_put_self {α : Type} [DecidableEq α] (d : Nat → α) (m : List (Nat × α)) (i : Nat) (v : α) (h : Sparse.wf d m = true) :
    Sparse.get (d i) (Sparse.put (d i) m i v) i = v := by
  rw [Sparse.wf_iff] at h
  unfold Sparse.put
  split
  · rename_i hv
    rw [Sparse.get_erase_self (d i) m i h.1, hv]
  · exact Sparse.get_insert_self (d i) m i v

/-! ### Memory -/

/-- Every memory operation keeps the canonical form: the store of one byte, -/
theorem Memory.put_wf (m : List Host.Cell) (a : Nat) (b : Byte) (h : Memory.wf m = true) : Memory.wf (Memory.put m a b) = true :=
  Sparse.put_wf (fun _ => memDefault) m a b h

/-- and the store of a byte string. -/
theorem Memory.write_wf (bs : List Byte) (m : List Host.Cell) (a : Nat) (h : Memory.wf m = true) : Memory.wf (Memory.write m a bs) = true := by
  induction bs generalizing m a with
  | nil => exact h
  | cons b bs ih => exact ih _ _ (Memory.put_wf m a b h)

theorem Memory.dropKeys_wf (m : List Host.Cell) (p : Nat → Bool) (h : Memory.wf m = true) : Memory.wf (Sparse.dropKeys p m) = true :=
  Sparse.dropKeys_wf (fun _ => memDefault) m p h

end Sys2Proof.Machine
end

