-- ==== Sys2Proof/Laws/Frame.lean ====
section
/-!
SUPPORT. What every operation of the model keeps: `Frame ω s t` says what a state `t` reached from `s` shares with it. `ω` is the operation's footprint,
the set of State's fields that it may write, as a number: bit i stands for the i-th field of State (`pending` is bit 0, `free` the last), so that a union is
a bitwise or and inclusion is decided. Each shared operation has one lemma, named after it, that carries a frame from its argument to its result for
every footprint that includes its own, so that a proof never unfolds the operation: every field whose bit `ω` lacks is unchanged.
-/
namespace Sys2Proof.Machine

/-- Footprint `a` lies within footprint `b`. -/
abbrev Within (a b : Nat) : Prop := a &&& b = a

theorem Within.mono {a b ω : Nat} (h : Within b ω) (k : Within a b) : Within a ω := by
  unfold Within at *
  rw [← k, Nat.and_assoc, h]

theorem Within.absurd {m ω : Nat} (k : Within m ω) (hm : m ≠ 0) (h : ω &&& m = 0) : False := by
  unfold Within at k
  rw [Nat.and_comm] at h
  exact hm (k.symm.trans h)

/-- What every command keeps, a reset too: the queue, what the device is, and the canonical forms of memory and of the register file. -/
structure Frame0 (s t : State) : Prop where
  pending : t.pending = s.pending
  part : t.part = s.part
  memWf : Memory.wf s.mem = true → Memory.wf t.mem = true
  regsWf : Sparse.wf regReset s.regs = true → Sparse.wf regReset t.regs = true

/-- What every command but those of reset and boot keeps besides: the reset pins and the reset itself, BEAT_COUNT, the spare map, which only grows, and
every field outside its footprint. -/
structure Frame (ω : Nat) (s t : State) : Prop extends Frame0 s t where
  asserted : t.rst.asserted = s.rst.asserted
  powerOn : t.rst.powerOn = s.rst.powerOn
  pinLow : t.rst.pinLow = s.rst.pinLow
  beat : t.beat = s.beat
  beatOn : t.beatOn = s.beatOn
  failedSlots : ∀ x ∈ s.kept.failedSlots, x ∈ t.kept.failedSlots
  spareSlotOf : ∀ x ∈ s.kept.spareSlotOf, x ∈ t.kept.spareSlotOf
  spareSlice : ∀ x ∈ s.kept.spareSlice, x ∈ t.kept.spareSlice
  failedGens : ∀ x ∈ s.kept.failedGens, x ∈ t.kept.failedGens
  failedEnmora : ∀ x ∈ s.kept.failedEnmora, x ∈ t.kept.failedEnmora
  kept : ω &&& 0x4 = 0 → t.kept = s.kept
  rst : ω &&& 0x8 = 0 → t.rst = s.rst
  regs : ω &&& 0x40 = 0 → t.regs = s.regs
  reqRegs : ω &&& 0x80 = 0 → t.reqRegs = s.reqRegs
  shadow : ω &&& 0x100 = 0 → t.shadow = s.shadow
  routes : ω &&& 0x200 = 0 → t.routes = s.routes
  alarmHi : ω &&& 0x400 = 0 → t.alarmHi = s.alarmHi
  alarmLo : ω &&& 0x800 = 0 → t.alarmLo = s.alarmLo
  overrides : ω &&& 0x1000 = 0 → t.overrides = s.overrides
  mem : ω &&& 0x2000 = 0 → t.mem = s.mem
  dirty : ω &&& 0x4000 = 0 → t.dirty = s.dirty
  enm : ω &&& 0x8000 = 0 → t.enm = s.enm
  log : ω &&& 0x10000 = 0 → t.log = s.log
  tide : ω &&& 0x20000 = 0 → t.tide = s.tide
  images : ω &&& 0x40000 = 0 → t.images = s.images
  group : ω &&& 0x80000 = 0 → t.group = s.group
  job : ω &&& 0x100000 = 0 → t.job = s.job
  pwr : ω &&& 0x200000 = 0 → t.pwr = s.pwr
  link : ω &&& 0x400000 = 0 → t.link = s.link
  lists : ω &&& 0x800000 = 0 → t.lists = s.lists
  evts : ω &&& 0x1000000 = 0 → t.evts = s.evts
  str : ω &&& 0x2000000 = 0 → t.str = s.str
  cores : ω &&& 0x4000000 = 0 → t.cores = s.cores
  nums : ω &&& 0x8000000 = 0 → t.nums = s.nums
  shelf : ω &&& 0x10000000 = 0 → t.shelf = s.shelf
  upd : ω &&& 0x20000000 = 0 → t.upd = s.upd
  bkt : ω &&& 0x40000000 = 0 → t.bkt = s.bkt
  opening : ω &&& 0x80000000 = 0 → t.opening = s.opening
  memc : ω &&& 0x100000000 = 0 → t.memc = s.memc
  snap : ω &&& 0x200000000 = 0 → t.snap = s.snap
  lys : ω &&& 0x400000000 = 0 → t.lys = s.lys
  bay : ω &&& 0x800000000 = 0 → t.bay = s.bay
  free : ω &&& 0x1000000000 = 0 → t.free = s.free

/-- A frame of every state that an outcome may answer. -/
def Frame0O (s : State) (o : Outcome) : Prop := ∀ t, o = .next t → Frame0 s t
def FrameO (ω : Nat) (s : State) (o : Outcome) : Prop := ∀ t, o = .next t → Frame ω s t

variable {ω : Nat}

theorem Frame0.refl (s : State) : Frame0 s s := ⟨rfl, rfl, id, id⟩

theorem Frame0.trans {r s t : State} (h : Frame0 r s) (k : Frame0 s t) : Frame0 r t :=
  ⟨k.pending.trans h.pending, k.part.trans h.part, fun x => k.memWf (h.memWf x), fun x => k.regsWf (h.regsWf x)⟩

theorem Frame.refl (s : State) : Frame ω s s :=
  { Frame0.refl s with
    asserted := rfl, powerOn := rfl, pinLow := rfl, beat := rfl, beatOn := rfl, failedSlots := fun _ h => h, spareSlotOf := fun _ h => h
    spareSlice := fun _ h => h, failedGens := fun _ h => h, failedEnmora := fun _ h => h
    kept := fun _ => rfl, rst := fun _ => rfl, regs := fun _ => rfl, reqRegs := fun _ => rfl, shadow := fun _ => rfl, routes := fun _ => rfl
    alarmHi := fun _ => rfl, alarmLo := fun _ => rfl, overrides := fun _ => rfl, mem := fun _ => rfl, dirty := fun _ => rfl, enm := fun _ => rfl
    log := fun _ => rfl, tide := fun _ => rfl, images := fun _ => rfl, group := fun _ => rfl, job := fun _ => rfl, pwr := fun _ => rfl
    link := fun _ => rfl, lists := fun _ => rfl, evts := fun _ => rfl, str := fun _ => rfl, cores := fun _ => rfl, nums := fun _ => rfl
    shelf := fun _ => rfl, upd := fun _ => rfl, bkt := fun _ => rfl, opening := fun _ => rfl, memc := fun _ => rfl, snap := fun _ => rfl
    lys := fun _ => rfl, bay := fun _ => rfl, free := fun _ => rfl }

theorem Frame.trans {r s t : State} (h : Frame ω r s) (k : Frame ω s t) : Frame ω r t :=
  { h.toFrame0.trans k.toFrame0 with
    asserted := k.asserted.trans h.asserted, powerOn := k.powerOn.trans h.powerOn, pinLow := k.pinLow.trans h.pinLow, beat := k.beat.trans h.beat
    beatOn := k.beatOn.trans h.beatOn, failedSlots := fun x m => k.failedSlots x (h.failedSlots x m)
    spareSlotOf := fun x m => k.spareSlotOf x (h.spareSlotOf x m), spareSlice := fun x m => k.spareSlice x (h.spareSlice x m)
    failedGens := fun x m => k.failedGens x (h.failedGens x m), failedEnmora := fun x m => k.failedEnmora x (h.failedEnmora x m)
    kept := fun z => (k.kept z).trans (h.kept z), rst := fun z => (k.rst z).trans (h.rst z), regs := fun z => (k.regs z).trans (h.regs z)
    reqRegs := fun z => (k.reqRegs z).trans (h.reqRegs z), shadow := fun z => (k.shadow z).trans (h.shadow z), routes := fun z => (k.routes z).trans (h.routes z)
    alarmHi := fun z => (k.alarmHi z).trans (h.alarmHi z), alarmLo := fun z => (k.alarmLo z).trans (h.alarmLo z), overrides := fun z => (k.overrides z).trans (h.overrides z)
    mem := fun z => (k.mem z).trans (h.mem z), dirty := fun z => (k.dirty z).trans (h.dirty z), enm := fun z => (k.enm z).trans (h.enm z)
    log := fun z => (k.log z).trans (h.log z), tide := fun z => (k.tide z).trans (h.tide z), images := fun z => (k.images z).trans (h.images z)
    group := fun z => (k.group z).trans (h.group z), job := fun z => (k.job z).trans (h.job z), pwr := fun z => (k.pwr z).trans (h.pwr z)
    link := fun z => (k.link z).trans (h.link z), lists := fun z => (k.lists z).trans (h.lists z), evts := fun z => (k.evts z).trans (h.evts z)
    str := fun z => (k.str z).trans (h.str z), cores := fun z => (k.cores z).trans (h.cores z), nums := fun z => (k.nums z).trans (h.nums z)
    shelf := fun z => (k.shelf z).trans (h.shelf z), upd := fun z => (k.upd z).trans (h.upd z), bkt := fun z => (k.bkt z).trans (h.bkt z)
    opening := fun z => (k.opening z).trans (h.opening z), memc := fun z => (k.memc z).trans (h.memc z), snap := fun z => (k.snap z).trans (h.snap z)
    lys := fun z => (k.lys z).trans (h.lys z), bay := fun z => (k.bay z).trans (h.bay z), free := fun z => (k.free z).trans (h.free z) }

theorem FrameO.next {s t : State} (h : Frame ω s t) : FrameO ω s (.next t) := fun _ e => by cases e; exact h

theorem Frame0O.next {s t : State} (h : Frame0 s t) : Frame0O s (.next t) := fun _ e => by cases e; exact h

theorem FrameO.weaken {s : State} {o : Outcome} (h : FrameO ω s o) : Frame0O s o := fun t e => (h t e).toFrame0

/-! One lemma for each set of fields that a record update writes. -/

theorem Frame.set_alarmHi (hw : Within 0x400 ω) {r e : State} {alarmHi} :
    Frame ω r ({ e with alarmHi := alarmHi } : State) ↔ Frame ω r e :=
  ⟨fun h => { h with toFrame0 := ⟨h.pending, h.part, h.memWf, h.regsWf⟩, alarmHi := fun z => ((hw.mono (by decide)).absurd (m := 0x400) (by decide) z).elim },
    fun h => { h with toFrame0 := ⟨h.pending, h.part, h.memWf, h.regsWf⟩, alarmHi := fun z => ((hw.mono (by decide)).absurd (m := 0x400) (by decide) z).elim }⟩

theorem Frame.set_alarmLo (hw : Within 0x800 ω) {r e : State} {alarmLo} :
    Frame ω r ({ e with alarmLo := alarmLo } : State) ↔ Frame ω r e :=
  ⟨fun h => { h with toFrame0 := ⟨h.pending, h.part, h.memWf, h.regsWf⟩, alarmLo := fun z => ((hw.mono (by decide)).absurd (m := 0x800) (by decide) z).elim },
    fun h => { h with toFrame0 := ⟨h.pending, h.part, h.memWf, h.regsWf⟩, alarmLo := fun z => ((hw.mono (by decide)).absurd (m := 0x800) (by decide) z).elim }⟩

theorem Frame.set_bay (hw : Within 0x800000000 ω) {r e : State} {bay} :
    Frame ω r ({ e with bay := bay } : State) ↔ Frame ω r e :=
  ⟨fun h => { h with toFrame0 := ⟨h.pending, h.part, h.memWf, h.regsWf⟩, bay := fun z => ((hw.mono (by decide)).absurd (m := 0x800000000) (by decide) z).elim },
    fun h => { h with toFrame0 := ⟨h.pending, h.part, h.memWf, h.regsWf⟩, bay := fun z => ((hw.mono (by decide)).absurd (m := 0x800000000) (by decide) z).elim }⟩

theorem Frame.set_bkt (hw : Within 0x40000000 ω) {r e : State} {bkt} :
    Frame ω r ({ e with bkt := bkt } : State) ↔ Frame ω r e :=
  ⟨fun h => { h with toFrame0 := ⟨h.pending, h.part, h.memWf, h.regsWf⟩, bkt := fun z => ((hw.mono (by decide)).absurd (m := 0x40000000) (by decide) z).elim },
    fun h => { h with toFrame0 := ⟨h.pending, h.part, h.memWf, h.regsWf⟩, bkt := fun z => ((hw.mono (by decide)).absurd (m := 0x40000000) (by decide) z).elim }⟩

theorem Frame.set_cores (hw : Within 0x4000000 ω) {r e : State} {cores} :
    Frame ω r ({ e with cores := cores } : State) ↔ Frame ω r e :=
  ⟨fun h => { h with toFrame0 := ⟨h.pending, h.part, h.memWf, h.regsWf⟩, cores := fun z => ((hw.mono (by decide)).absurd (m := 0x4000000) (by decide) z).elim },
    fun h => { h with toFrame0 := ⟨h.pending, h.part, h.memWf, h.regsWf⟩, cores := fun z => ((hw.mono (by decide)).absurd (m := 0x4000000) (by decide) z).elim }⟩

theorem Frame.set_dirty (hw : Within 0x4000 ω) {r e : State} {dirty} :
    Frame ω r ({ e with dirty := dirty } : State) ↔ Frame ω r e :=
  ⟨fun h => { h with toFrame0 := ⟨h.pending, h.part, h.memWf, h.regsWf⟩, dirty := fun z => ((hw.mono (by decide)).absurd (m := 0x4000) (by decide) z).elim },
    fun h => { h with toFrame0 := ⟨h.pending, h.part, h.memWf, h.regsWf⟩, dirty := fun z => ((hw.mono (by decide)).absurd (m := 0x4000) (by decide) z).elim }⟩

theorem Frame.set_enm (hw : Within 0x8000 ω) {r e : State} {enm} :
    Frame ω r ({ e with enm := enm } : State) ↔ Frame ω r e :=
  ⟨fun h => { h with toFrame0 := ⟨h.pending, h.part, h.memWf, h.regsWf⟩, enm := fun z => ((hw.mono (by decide)).absurd (m := 0x8000) (by decide) z).elim },
    fun h => { h with toFrame0 := ⟨h.pending, h.part, h.memWf, h.regsWf⟩, enm := fun z => ((hw.mono (by decide)).absurd (m := 0x8000) (by decide) z).elim }⟩

theorem Frame.set_evts (hw : Within 0x1000000 ω) {r e : State} {evts} :
    Frame ω r ({ e with evts := evts } : State) ↔ Frame ω r e :=
  ⟨fun h => { h with toFrame0 := ⟨h.pending, h.part, h.memWf, h.regsWf⟩, evts := fun z => ((hw.mono (by decide)).absurd (m := 0x1000000) (by decide) z).elim },
    fun h => { h with toFrame0 := ⟨h.pending, h.part, h.memWf, h.regsWf⟩, evts := fun z => ((hw.mono (by decide)).absurd (m := 0x1000000) (by decide) z).elim }⟩

theorem Frame.set_free (hw : Within 0x1000000000 ω) {r e : State} {free} :
    Frame ω r ({ e with free := free } : State) ↔ Frame ω r e :=
  ⟨fun h => { h with toFrame0 := ⟨h.pending, h.part, h.memWf, h.regsWf⟩, free := fun z => ((hw.mono (by decide)).absurd (m := 0x1000000000) (by decide) z).elim },
    fun h => { h with toFrame0 := ⟨h.pending, h.part, h.memWf, h.regsWf⟩, free := fun z => ((hw.mono (by decide)).absurd (m := 0x1000000000) (by decide) z).elim }⟩

theorem Frame.set_group (hw : Within 0x80000 ω) {r e : State} {group} :
    Frame ω r ({ e with group := group } : State) ↔ Frame ω r e :=
  ⟨fun h => { h with toFrame0 := ⟨h.pending, h.part, h.memWf, h.regsWf⟩, group := fun z => ((hw.mono (by decide)).absurd (m := 0x80000) (by decide) z).elim },
    fun h => { h with toFrame0 := ⟨h.pending, h.part, h.memWf, h.regsWf⟩, group := fun z => ((hw.mono (by decide)).absurd (m := 0x80000) (by decide) z).elim }⟩

theorem Frame.set_images (hw : Within 0x40000 ω) {r e : State} {images} :
    Frame ω r ({ e with images := images } : State) ↔ Frame ω r e :=
  ⟨fun h => { h with toFrame0 := ⟨h.pending, h.part, h.memWf, h.regsWf⟩, images := fun z => ((hw.mono (by decide)).absurd (m := 0x40000) (by decide) z).elim },
    fun h => { h with toFrame0 := ⟨h.pending, h.part, h.memWf, h.regsWf⟩, images := fun z => ((hw.mono (by decide)).absurd (m := 0x40000) (by decide) z).elim }⟩

theorem Frame.set_job (hw : Within 0x100000 ω) {r e : State} {job} :
    Frame ω r ({ e with job := job } : State) ↔ Frame ω r e :=
  ⟨fun h => { h with toFrame0 := ⟨h.pending, h.part, h.memWf, h.regsWf⟩, job := fun z => ((hw.mono (by decide)).absurd (m := 0x100000) (by decide) z).elim },
    fun h => { h with toFrame0 := ⟨h.pending, h.part, h.memWf, h.regsWf⟩, job := fun z => ((hw.mono (by decide)).absurd (m := 0x100000) (by decide) z).elim }⟩

theorem Frame.set_kept (hw : Within 0x4 ω) {r e : State} {kept} (h : Frame ω r e)
    (k1 : ∀ x ∈ e.kept.failedSlots, x ∈ kept.failedSlots := by simp +contextual) (k2 : ∀ x ∈ e.kept.spareSlotOf, x ∈ kept.spareSlotOf := by simp +contextual)
    (k3 : ∀ x ∈ e.kept.spareSlice, x ∈ kept.spareSlice := by simp +contextual) (k4 : ∀ x ∈ e.kept.failedGens, x ∈ kept.failedGens := by simp +contextual)
    (k5 : ∀ x ∈ e.kept.failedEnmora, x ∈ kept.failedEnmora := by simp +contextual) :
    Frame ω r ({ e with kept := kept } : State) :=
  { h with toFrame0 := ⟨h.pending, h.part, h.memWf, h.regsWf⟩, failedSlots := fun x m => k1 x (h.failedSlots x m), spareSlotOf := fun x m => k2 x (h.spareSlotOf x m), spareSlice := fun x m => k3 x (h.spareSlice x m), failedGens := fun x m => k4 x (h.failedGens x m), failedEnmora := fun x m => k5 x (h.failedEnmora x m), kept := fun z => ((hw.mono (by decide)).absurd (m := 0x4) (by decide) z).elim }

theorem Frame.set_link (hw : Within 0x400000 ω) {r e : State} {link} :
    Frame ω r ({ e with link := link } : State) ↔ Frame ω r e :=
  ⟨fun h => { h with toFrame0 := ⟨h.pending, h.part, h.memWf, h.regsWf⟩, link := fun z => ((hw.mono (by decide)).absurd (m := 0x400000) (by decide) z).elim },
    fun h => { h with toFrame0 := ⟨h.pending, h.part, h.memWf, h.regsWf⟩, link := fun z => ((hw.mono (by decide)).absurd (m := 0x400000) (by decide) z).elim }⟩

theorem Frame.set_lists (hw : Within 0x800000 ω) {r e : State} {lists} :
    Frame ω r ({ e with lists := lists } : State) ↔ Frame ω r e :=
  ⟨fun h => { h with toFrame0 := ⟨h.pending, h.part, h.memWf, h.regsWf⟩, lists := fun z => ((hw.mono (by decide)).absurd (m := 0x800000) (by decide) z).elim },
    fun h => { h with toFrame0 := ⟨h.pending, h.part, h.memWf, h.regsWf⟩, lists := fun z => ((hw.mono (by decide)).absurd (m := 0x800000) (by decide) z).elim }⟩

theorem Frame.set_log (hw : Within 0x10000 ω) {r e : State} {log} :
    Frame ω r ({ e with log := log } : State) ↔ Frame ω r e :=
  ⟨fun h => { h with toFrame0 := ⟨h.pending, h.part, h.memWf, h.regsWf⟩, log := fun z => ((hw.mono (by decide)).absurd (m := 0x10000) (by decide) z).elim },
    fun h => { h with toFrame0 := ⟨h.pending, h.part, h.memWf, h.regsWf⟩, log := fun z => ((hw.mono (by decide)).absurd (m := 0x10000) (by decide) z).elim }⟩

theorem Frame.set_lys (hw : Within 0x400000000 ω) {r e : State} {lys} :
    Frame ω r ({ e with lys := lys } : State) ↔ Frame ω r e :=
  ⟨fun h => { h with toFrame0 := ⟨h.pending, h.part, h.memWf, h.regsWf⟩, lys := fun z => ((hw.mono (by decide)).absurd (m := 0x400000000) (by decide) z).elim },
    fun h => { h with toFrame0 := ⟨h.pending, h.part, h.memWf, h.regsWf⟩, lys := fun z => ((hw.mono (by decide)).absurd (m := 0x400000000) (by decide) z).elim }⟩

theorem Frame.set_memc (hw : Within 0x100000000 ω) {r e : State} {memc} :
    Frame ω r ({ e with memc := memc } : State) ↔ Frame ω r e :=
  ⟨fun h => { h with toFrame0 := ⟨h.pending, h.part, h.memWf, h.regsWf⟩, memc := fun z => ((hw.mono (by decide)).absurd (m := 0x100000000) (by decide) z).elim },
    fun h => { h with toFrame0 := ⟨h.pending, h.part, h.memWf, h.regsWf⟩, memc := fun z => ((hw.mono (by decide)).absurd (m := 0x100000000) (by decide) z).elim }⟩

theorem Frame.set_nums (hw : Within 0x8000000 ω) {r e : State} {nums} :
    Frame ω r ({ e with nums := nums } : State) ↔ Frame ω r e :=
  ⟨fun h => { h with toFrame0 := ⟨h.pending, h.part, h.memWf, h.regsWf⟩, nums := fun z => ((hw.mono (by decide)).absurd (m := 0x8000000) (by decide) z).elim },
    fun h => { h with toFrame0 := ⟨h.pending, h.part, h.memWf, h.regsWf⟩, nums := fun z => ((hw.mono (by decide)).absurd (m := 0x8000000) (by decide) z).elim }⟩

theorem Frame.set_opening (hw : Within 0x80000000 ω) {r e : State} {opening} :
    Frame ω r ({ e with opening := opening } : State) ↔ Frame ω r e :=
  ⟨fun h => { h with toFrame0 := ⟨h.pending, h.part, h.memWf, h.regsWf⟩, opening := fun z => ((hw.mono (by decide)).absurd (m := 0x80000000) (by decide) z).elim },
    fun h => { h with toFrame0 := ⟨h.pending, h.part, h.memWf, h.regsWf⟩, opening := fun z => ((hw.mono (by decide)).absurd (m := 0x80000000) (by decide) z).elim }⟩

theorem Frame.set_overrides (hw : Within 0x1000 ω) {r e : State} {overrides} :
    Frame ω r ({ e with overrides := overrides } : State) ↔ Frame ω r e :=
  ⟨fun h => { h with toFrame0 := ⟨h.pending, h.part, h.memWf, h.regsWf⟩, overrides := fun z => ((hw.mono (by decide)).absurd (m := 0x1000) (by decide) z).elim },
    fun h => { h with toFrame0 := ⟨h.pending, h.part, h.memWf, h.regsWf⟩, overrides := fun z => ((hw.mono (by decide)).absurd (m := 0x1000) (by decide) z).elim }⟩

theorem Frame.set_pwr (hw : Within 0x200000 ω) {r e : State} {pwr} :
    Frame ω r ({ e with pwr := pwr } : State) ↔ Frame ω r e :=
  ⟨fun h => { h with toFrame0 := ⟨h.pending, h.part, h.memWf, h.regsWf⟩, pwr := fun z => ((hw.mono (by decide)).absurd (m := 0x200000) (by decide) z).elim },
    fun h => { h with toFrame0 := ⟨h.pending, h.part, h.memWf, h.regsWf⟩, pwr := fun z => ((hw.mono (by decide)).absurd (m := 0x200000) (by decide) z).elim }⟩

theorem Frame.set_reqRegs (hw : Within 0x80 ω) {r e : State} {reqRegs} :
    Frame ω r ({ e with reqRegs := reqRegs } : State) ↔ Frame ω r e :=
  ⟨fun h => { h with toFrame0 := ⟨h.pending, h.part, h.memWf, h.regsWf⟩, reqRegs := fun z => ((hw.mono (by decide)).absurd (m := 0x80) (by decide) z).elim },
    fun h => { h with toFrame0 := ⟨h.pending, h.part, h.memWf, h.regsWf⟩, reqRegs := fun z => ((hw.mono (by decide)).absurd (m := 0x80) (by decide) z).elim }⟩

theorem Frame.set_routes (hw : Within 0x200 ω) {r e : State} {routes} :
    Frame ω r ({ e with routes := routes } : State) ↔ Frame ω r e :=
  ⟨fun h => { h with toFrame0 := ⟨h.pending, h.part, h.memWf, h.regsWf⟩, routes := fun z => ((hw.mono (by decide)).absurd (m := 0x200) (by decide) z).elim },
    fun h => { h with toFrame0 := ⟨h.pending, h.part, h.memWf, h.regsWf⟩, routes := fun z => ((hw.mono (by decide)).absurd (m := 0x200) (by decide) z).elim }⟩

theorem Frame.set_shadow (hw : Within 0x100 ω) {r e : State} {shadow} :
    Frame ω r ({ e with shadow := shadow } : State) ↔ Frame ω r e :=
  ⟨fun h => { h with toFrame0 := ⟨h.pending, h.part, h.memWf, h.regsWf⟩, shadow := fun z => ((hw.mono (by decide)).absurd (m := 0x100) (by decide) z).elim },
    fun h => { h with toFrame0 := ⟨h.pending, h.part, h.memWf, h.regsWf⟩, shadow := fun z => ((hw.mono (by decide)).absurd (m := 0x100) (by decide) z).elim }⟩

theorem Frame.set_shelf (hw : Within 0x10000000 ω) {r e : State} {shelf} :
    Frame ω r ({ e with shelf := shelf } : State) ↔ Frame ω r e :=
  ⟨fun h => { h with toFrame0 := ⟨h.pending, h.part, h.memWf, h.regsWf⟩, shelf := fun z => ((hw.mono (by decide)).absurd (m := 0x10000000) (by decide) z).elim },
    fun h => { h with toFrame0 := ⟨h.pending, h.part, h.memWf, h.regsWf⟩, shelf := fun z => ((hw.mono (by decide)).absurd (m := 0x10000000) (by decide) z).elim }⟩

theorem Frame.set_snap (hw : Within 0x200000000 ω) {r e : State} {snap} :
    Frame ω r ({ e with snap := snap } : State) ↔ Frame ω r e :=
  ⟨fun h => { h with toFrame0 := ⟨h.pending, h.part, h.memWf, h.regsWf⟩, snap := fun z => ((hw.mono (by decide)).absurd (m := 0x200000000) (by decide) z).elim },
    fun h => { h with toFrame0 := ⟨h.pending, h.part, h.memWf, h.regsWf⟩, snap := fun z => ((hw.mono (by decide)).absurd (m := 0x200000000) (by decide) z).elim }⟩

theorem Frame.set_str (hw : Within 0x2000000 ω) {r e : State} {str} :
    Frame ω r ({ e with str := str } : State) ↔ Frame ω r e :=
  ⟨fun h => { h with toFrame0 := ⟨h.pending, h.part, h.memWf, h.regsWf⟩, str := fun z => ((hw.mono (by decide)).absurd (m := 0x2000000) (by decide) z).elim },
    fun h => { h with toFrame0 := ⟨h.pending, h.part, h.memWf, h.regsWf⟩, str := fun z => ((hw.mono (by decide)).absurd (m := 0x2000000) (by decide) z).elim }⟩

theorem Frame.set_tide (hw : Within 0x20000 ω) {r e : State} {tide} :
    Frame ω r ({ e with tide := tide } : State) ↔ Frame ω r e :=
  ⟨fun h => { h with toFrame0 := ⟨h.pending, h.part, h.memWf, h.regsWf⟩, tide := fun z => ((hw.mono (by decide)).absurd (m := 0x20000) (by decide) z).elim },
    fun h => { h with toFrame0 := ⟨h.pending, h.part, h.memWf, h.regsWf⟩, tide := fun z => ((hw.mono (by decide)).absurd (m := 0x20000) (by decide) z).elim }⟩

theorem Frame.set_upd (hw : Within 0x20000000 ω) {r e : State} {upd} :
    Frame ω r ({ e with upd := upd } : State) ↔ Frame ω r e :=
  ⟨fun h => { h with toFrame0 := ⟨h.pending, h.part, h.memWf, h.regsWf⟩, upd := fun z => ((hw.mono (by decide)).absurd (m := 0x20000000) (by decide) z).elim },
    fun h => { h with toFrame0 := ⟨h.pending, h.part, h.memWf, h.regsWf⟩, upd := fun z => ((hw.mono (by decide)).absurd (m := 0x20000000) (by decide) z).elim }⟩

theorem Frame.set_alarmHi_alarmLo (hw : Within 0xc00 ω) {r e : State} {alarmHi alarmLo} :
    Frame ω r ({ e with alarmHi := alarmHi, alarmLo := alarmLo } : State) ↔ Frame ω r e :=
  ⟨fun h => { h with toFrame0 := ⟨h.pending, h.part, h.memWf, h.regsWf⟩, alarmHi := fun z => ((hw.mono (by decide)).absurd (m := 0x400) (by decide) z).elim, alarmLo := fun z => ((hw.mono (by decide)).absurd (m := 0x800) (by decide) z).elim },
    fun h => { h with toFrame0 := ⟨h.pending, h.part, h.memWf, h.regsWf⟩, alarmHi := fun z => ((hw.mono (by decide)).absurd (m := 0x400) (by decide) z).elim, alarmLo := fun z => ((hw.mono (by decide)).absurd (m := 0x800) (by decide) z).elim }⟩

theorem Frame.set_enm_bay (hw : Within 0x800008000 ω) {r e : State} {enm bay} :
    Frame ω r ({ e with enm := enm, bay := bay } : State) ↔ Frame ω r e :=
  ⟨fun h => { h with toFrame0 := ⟨h.pending, h.part, h.memWf, h.regsWf⟩, enm := fun z => ((hw.mono (by decide)).absurd (m := 0x8000) (by decide) z).elim, bay := fun z => ((hw.mono (by decide)).absurd (m := 0x800000000) (by decide) z).elim },
    fun h => { h with toFrame0 := ⟨h.pending, h.part, h.memWf, h.regsWf⟩, enm := fun z => ((hw.mono (by decide)).absurd (m := 0x8000) (by decide) z).elim, bay := fun z => ((hw.mono (by decide)).absurd (m := 0x800000000) (by decide) z).elim }⟩

theorem Frame.set_enm_log (hw : Within 0x18000 ω) {r e : State} {enm log} :
    Frame ω r ({ e with enm := enm, log := log } : State) ↔ Frame ω r e :=
  ⟨fun h => { h with toFrame0 := ⟨h.pending, h.part, h.memWf, h.regsWf⟩, enm := fun z => ((hw.mono (by decide)).absurd (m := 0x8000) (by decide) z).elim, log := fun z => ((hw.mono (by decide)).absurd (m := 0x10000) (by decide) z).elim },
    fun h => { h with toFrame0 := ⟨h.pending, h.part, h.memWf, h.regsWf⟩, enm := fun z => ((hw.mono (by decide)).absurd (m := 0x8000) (by decide) z).elim, log := fun z => ((hw.mono (by decide)).absurd (m := 0x10000) (by decide) z).elim }⟩

theorem Frame.set_enm_pwr (hw : Within 0x208000 ω) {r e : State} {enm pwr} :
    Frame ω r ({ e with enm := enm, pwr := pwr } : State) ↔ Frame ω r e :=
  ⟨fun h => { h with toFrame0 := ⟨h.pending, h.part, h.memWf, h.regsWf⟩, enm := fun z => ((hw.mono (by decide)).absurd (m := 0x8000) (by decide) z).elim, pwr := fun z => ((hw.mono (by decide)).absurd (m := 0x200000) (by decide) z).elim },
    fun h => { h with toFrame0 := ⟨h.pending, h.part, h.memWf, h.regsWf⟩, enm := fun z => ((hw.mono (by decide)).absurd (m := 0x8000) (by decide) z).elim, pwr := fun z => ((hw.mono (by decide)).absurd (m := 0x200000) (by decide) z).elim }⟩

theorem Frame.set_job_link (hw : Within 0x500000 ω) {r e : State} {job link} :
    Frame ω r ({ e with job := job, link := link } : State) ↔ Frame ω r e :=
  ⟨fun h => { h with toFrame0 := ⟨h.pending, h.part, h.memWf, h.regsWf⟩, job := fun z => ((hw.mono (by decide)).absurd (m := 0x100000) (by decide) z).elim, link := fun z => ((hw.mono (by decide)).absurd (m := 0x400000) (by decide) z).elim },
    fun h => { h with toFrame0 := ⟨h.pending, h.part, h.memWf, h.regsWf⟩, job := fun z => ((hw.mono (by decide)).absurd (m := 0x100000) (by decide) z).elim, link := fun z => ((hw.mono (by decide)).absurd (m := 0x400000) (by decide) z).elim }⟩

theorem Frame.set_job_memc (hw : Within 0x100100000 ω) {r e : State} {job memc} :
    Frame ω r ({ e with job := job, memc := memc } : State) ↔ Frame ω r e :=
  ⟨fun h => { h with toFrame0 := ⟨h.pending, h.part, h.memWf, h.regsWf⟩, job := fun z => ((hw.mono (by decide)).absurd (m := 0x100000) (by decide) z).elim, memc := fun z => ((hw.mono (by decide)).absurd (m := 0x100000000) (by decide) z).elim },
    fun h => { h with toFrame0 := ⟨h.pending, h.part, h.memWf, h.regsWf⟩, job := fun z => ((hw.mono (by decide)).absurd (m := 0x100000) (by decide) z).elim, memc := fun z => ((hw.mono (by decide)).absurd (m := 0x100000000) (by decide) z).elim }⟩

theorem Frame.set_job_nums (hw : Within 0x8100000 ω) {r e : State} {job nums} :
    Frame ω r ({ e with job := job, nums := nums } : State) ↔ Frame ω r e :=
  ⟨fun h => { h with toFrame0 := ⟨h.pending, h.part, h.memWf, h.regsWf⟩, job := fun z => ((hw.mono (by decide)).absurd (m := 0x100000) (by decide) z).elim, nums := fun z => ((hw.mono (by decide)).absurd (m := 0x8000000) (by decide) z).elim },
    fun h => { h with toFrame0 := ⟨h.pending, h.part, h.memWf, h.regsWf⟩, job := fun z => ((hw.mono (by decide)).absurd (m := 0x100000) (by decide) z).elim, nums := fun z => ((hw.mono (by decide)).absurd (m := 0x8000000) (by decide) z).elim }⟩

theorem Frame.set_kept_enm (hw : Within 0x8004 ω) {r e : State} {kept enm} (h : Frame ω r e)
    (k1 : ∀ x ∈ e.kept.failedSlots, x ∈ kept.failedSlots := by simp +contextual) (k2 : ∀ x ∈ e.kept.spareSlotOf, x ∈ kept.spareSlotOf := by simp +contextual)
    (k3 : ∀ x ∈ e.kept.spareSlice, x ∈ kept.spareSlice := by simp +contextual) (k4 : ∀ x ∈ e.kept.failedGens, x ∈ kept.failedGens := by simp +contextual)
    (k5 : ∀ x ∈ e.kept.failedEnmora, x ∈ kept.failedEnmora := by simp +contextual) :
    Frame ω r ({ e with kept := kept, enm := enm } : State) :=
  { h with toFrame0 := ⟨h.pending, h.part, h.memWf, h.regsWf⟩, failedSlots := fun x m => k1 x (h.failedSlots x m), spareSlotOf := fun x m => k2 x (h.spareSlotOf x m), spareSlice := fun x m => k3 x (h.spareSlice x m), failedGens := fun x m => k4 x (h.failedGens x m), failedEnmora := fun x m => k5 x (h.failedEnmora x m), kept := fun z => ((hw.mono (by decide)).absurd (m := 0x4) (by decide) z).elim, enm := fun z => ((hw.mono (by decide)).absurd (m := 0x8000) (by decide) z).elim }

theorem Frame.set_kept_memc (hw : Within 0x100000004 ω) {r e : State} {kept memc} (h : Frame ω r e)
    (k1 : ∀ x ∈ e.kept.failedSlots, x ∈ kept.failedSlots := by simp +contextual) (k2 : ∀ x ∈ e.kept.spareSlotOf, x ∈ kept.spareSlotOf := by simp +contextual)
    (k3 : ∀ x ∈ e.kept.spareSlice, x ∈ kept.spareSlice := by simp +contextual) (k4 : ∀ x ∈ e.kept.failedGens, x ∈ kept.failedGens := by simp +contextual)
    (k5 : ∀ x ∈ e.kept.failedEnmora, x ∈ kept.failedEnmora := by simp +contextual) :
    Frame ω r ({ e with kept := kept, memc := memc } : State) :=
  { h with toFrame0 := ⟨h.pending, h.part, h.memWf, h.regsWf⟩, failedSlots := fun x m => k1 x (h.failedSlots x m), spareSlotOf := fun x m => k2 x (h.spareSlotOf x m), spareSlice := fun x m => k3 x (h.spareSlice x m), failedGens := fun x m => k4 x (h.failedGens x m), failedEnmora := fun x m => k5 x (h.failedEnmora x m), kept := fun z => ((hw.mono (by decide)).absurd (m := 0x4) (by decide) z).elim, memc := fun z => ((hw.mono (by decide)).absurd (m := 0x100000000) (by decide) z).elim }

theorem Frame.set_kept_pwr (hw : Within 0x200004 ω) {r e : State} {kept pwr} (h : Frame ω r e)
    (k1 : ∀ x ∈ e.kept.failedSlots, x ∈ kept.failedSlots := by simp +contextual) (k2 : ∀ x ∈ e.kept.spareSlotOf, x ∈ kept.spareSlotOf := by simp +contextual)
    (k3 : ∀ x ∈ e.kept.spareSlice, x ∈ kept.spareSlice := by simp +contextual) (k4 : ∀ x ∈ e.kept.failedGens, x ∈ kept.failedGens := by simp +contextual)
    (k5 : ∀ x ∈ e.kept.failedEnmora, x ∈ kept.failedEnmora := by simp +contextual) :
    Frame ω r ({ e with kept := kept, pwr := pwr } : State) :=
  { h with toFrame0 := ⟨h.pending, h.part, h.memWf, h.regsWf⟩, failedSlots := fun x m => k1 x (h.failedSlots x m), spareSlotOf := fun x m => k2 x (h.spareSlotOf x m), spareSlice := fun x m => k3 x (h.spareSlice x m), failedGens := fun x m => k4 x (h.failedGens x m), failedEnmora := fun x m => k5 x (h.failedEnmora x m), kept := fun z => ((hw.mono (by decide)).absurd (m := 0x4) (by decide) z).elim, pwr := fun z => ((hw.mono (by decide)).absurd (m := 0x200000) (by decide) z).elim }

theorem Frame.set_nums_snap (hw : Within 0x208000000 ω) {r e : State} {nums snap} :
    Frame ω r ({ e with nums := nums, snap := snap } : State) ↔ Frame ω r e :=
  ⟨fun h => { h with toFrame0 := ⟨h.pending, h.part, h.memWf, h.regsWf⟩, nums := fun z => ((hw.mono (by decide)).absurd (m := 0x8000000) (by decide) z).elim, snap := fun z => ((hw.mono (by decide)).absurd (m := 0x200000000) (by decide) z).elim },
    fun h => { h with toFrame0 := ⟨h.pending, h.part, h.memWf, h.regsWf⟩, nums := fun z => ((hw.mono (by decide)).absurd (m := 0x8000000) (by decide) z).elim, snap := fun z => ((hw.mono (by decide)).absurd (m := 0x200000000) (by decide) z).elim }⟩

theorem Frame.set_pwr_memc (hw : Within 0x100200000 ω) {r e : State} {pwr memc} :
    Frame ω r ({ e with pwr := pwr, memc := memc } : State) ↔ Frame ω r e :=
  ⟨fun h => { h with toFrame0 := ⟨h.pending, h.part, h.memWf, h.regsWf⟩, pwr := fun z => ((hw.mono (by decide)).absurd (m := 0x200000) (by decide) z).elim, memc := fun z => ((hw.mono (by decide)).absurd (m := 0x100000000) (by decide) z).elim },
    fun h => { h with toFrame0 := ⟨h.pending, h.part, h.memWf, h.regsWf⟩, pwr := fun z => ((hw.mono (by decide)).absurd (m := 0x200000) (by decide) z).elim, memc := fun z => ((hw.mono (by decide)).absurd (m := 0x100000000) (by decide) z).elim }⟩

theorem Frame.set_shelf_bkt (hw : Within 0x50000000 ω) {r e : State} {shelf bkt} :
    Frame ω r ({ e with shelf := shelf, bkt := bkt } : State) ↔ Frame ω r e :=
  ⟨fun h => { h with toFrame0 := ⟨h.pending, h.part, h.memWf, h.regsWf⟩, shelf := fun z => ((hw.mono (by decide)).absurd (m := 0x10000000) (by decide) z).elim, bkt := fun z => ((hw.mono (by decide)).absurd (m := 0x40000000) (by decide) z).elim },
    fun h => { h with toFrame0 := ⟨h.pending, h.part, h.memWf, h.regsWf⟩, shelf := fun z => ((hw.mono (by decide)).absurd (m := 0x10000000) (by decide) z).elim, bkt := fun z => ((hw.mono (by decide)).absurd (m := 0x40000000) (by decide) z).elim }⟩

theorem Frame.set_tide_cores (hw : Within 0x4020000 ω) {r e : State} {tide cores} :
    Frame ω r ({ e with tide := tide, cores := cores } : State) ↔ Frame ω r e :=
  ⟨fun h => { h with toFrame0 := ⟨h.pending, h.part, h.memWf, h.regsWf⟩, tide := fun z => ((hw.mono (by decide)).absurd (m := 0x20000) (by decide) z).elim, cores := fun z => ((hw.mono (by decide)).absurd (m := 0x4000000) (by decide) z).elim },
    fun h => { h with toFrame0 := ⟨h.pending, h.part, h.memWf, h.regsWf⟩, tide := fun z => ((hw.mono (by decide)).absurd (m := 0x20000) (by decide) z).elim, cores := fun z => ((hw.mono (by decide)).absurd (m := 0x4000000) (by decide) z).elim }⟩

theorem Frame.set_tide_evts (hw : Within 0x1020000 ω) {r e : State} {tide evts} :
    Frame ω r ({ e with tide := tide, evts := evts } : State) ↔ Frame ω r e :=
  ⟨fun h => { h with toFrame0 := ⟨h.pending, h.part, h.memWf, h.regsWf⟩, tide := fun z => ((hw.mono (by decide)).absurd (m := 0x20000) (by decide) z).elim, evts := fun z => ((hw.mono (by decide)).absurd (m := 0x1000000) (by decide) z).elim },
    fun h => { h with toFrame0 := ⟨h.pending, h.part, h.memWf, h.regsWf⟩, tide := fun z => ((hw.mono (by decide)).absurd (m := 0x20000) (by decide) z).elim, evts := fun z => ((hw.mono (by decide)).absurd (m := 0x1000000) (by decide) z).elim }⟩

theorem Frame.set_tide_group (hw : Within 0xa0000 ω) {r e : State} {tide group} :
    Frame ω r ({ e with tide := tide, group := group } : State) ↔ Frame ω r e :=
  ⟨fun h => { h with toFrame0 := ⟨h.pending, h.part, h.memWf, h.regsWf⟩, tide := fun z => ((hw.mono (by decide)).absurd (m := 0x20000) (by decide) z).elim, group := fun z => ((hw.mono (by decide)).absurd (m := 0x80000) (by decide) z).elim },
    fun h => { h with toFrame0 := ⟨h.pending, h.part, h.memWf, h.regsWf⟩, tide := fun z => ((hw.mono (by decide)).absurd (m := 0x20000) (by decide) z).elim, group := fun z => ((hw.mono (by decide)).absurd (m := 0x80000) (by decide) z).elim }⟩

theorem Frame.set_tide_job (hw : Within 0x120000 ω) {r e : State} {tide job} :
    Frame ω r ({ e with tide := tide, job := job } : State) ↔ Frame ω r e :=
  ⟨fun h => { h with toFrame0 := ⟨h.pending, h.part, h.memWf, h.regsWf⟩, tide := fun z => ((hw.mono (by decide)).absurd (m := 0x20000) (by decide) z).elim, job := fun z => ((hw.mono (by decide)).absurd (m := 0x100000) (by decide) z).elim },
    fun h => { h with toFrame0 := ⟨h.pending, h.part, h.memWf, h.regsWf⟩, tide := fun z => ((hw.mono (by decide)).absurd (m := 0x20000) (by decide) z).elim, job := fun z => ((hw.mono (by decide)).absurd (m := 0x100000) (by decide) z).elim }⟩

theorem Frame.set_tide_pwr (hw : Within 0x220000 ω) {r e : State} {tide pwr} :
    Frame ω r ({ e with tide := tide, pwr := pwr } : State) ↔ Frame ω r e :=
  ⟨fun h => { h with toFrame0 := ⟨h.pending, h.part, h.memWf, h.regsWf⟩, tide := fun z => ((hw.mono (by decide)).absurd (m := 0x20000) (by decide) z).elim, pwr := fun z => ((hw.mono (by decide)).absurd (m := 0x200000) (by decide) z).elim },
    fun h => { h with toFrame0 := ⟨h.pending, h.part, h.memWf, h.regsWf⟩, tide := fun z => ((hw.mono (by decide)).absurd (m := 0x20000) (by decide) z).elim, pwr := fun z => ((hw.mono (by decide)).absurd (m := 0x200000) (by decide) z).elim }⟩

theorem Frame.set_tide_snap (hw : Within 0x200020000 ω) {r e : State} {tide snap} :
    Frame ω r ({ e with tide := tide, snap := snap } : State) ↔ Frame ω r e :=
  ⟨fun h => { h with toFrame0 := ⟨h.pending, h.part, h.memWf, h.regsWf⟩, tide := fun z => ((hw.mono (by decide)).absurd (m := 0x20000) (by decide) z).elim, snap := fun z => ((hw.mono (by decide)).absurd (m := 0x200000000) (by decide) z).elim },
    fun h => { h with toFrame0 := ⟨h.pending, h.part, h.memWf, h.regsWf⟩, tide := fun z => ((hw.mono (by decide)).absurd (m := 0x20000) (by decide) z).elim, snap := fun z => ((hw.mono (by decide)).absurd (m := 0x200000000) (by decide) z).elim }⟩

theorem Frame.set_enm_pwr_link (hw : Within 0x608000 ω) {r e : State} {enm pwr link} :
    Frame ω r ({ e with enm := enm, pwr := pwr, link := link } : State) ↔ Frame ω r e :=
  ⟨fun h => { h with toFrame0 := ⟨h.pending, h.part, h.memWf, h.regsWf⟩, enm := fun z => ((hw.mono (by decide)).absurd (m := 0x8000) (by decide) z).elim, pwr := fun z => ((hw.mono (by decide)).absurd (m := 0x200000) (by decide) z).elim, link := fun z => ((hw.mono (by decide)).absurd (m := 0x400000) (by decide) z).elim },
    fun h => { h with toFrame0 := ⟨h.pending, h.part, h.memWf, h.regsWf⟩, enm := fun z => ((hw.mono (by decide)).absurd (m := 0x8000) (by decide) z).elim, pwr := fun z => ((hw.mono (by decide)).absurd (m := 0x200000) (by decide) z).elim, link := fun z => ((hw.mono (by decide)).absurd (m := 0x400000) (by decide) z).elim }⟩

theorem Frame.set_job_cores_upd (hw : Within 0x24100000 ω) {r e : State} {job cores upd} :
    Frame ω r ({ e with job := job, cores := cores, upd := upd } : State) ↔ Frame ω r e :=
  ⟨fun h => { h with toFrame0 := ⟨h.pending, h.part, h.memWf, h.regsWf⟩, job := fun z => ((hw.mono (by decide)).absurd (m := 0x100000) (by decide) z).elim, cores := fun z => ((hw.mono (by decide)).absurd (m := 0x4000000) (by decide) z).elim, upd := fun z => ((hw.mono (by decide)).absurd (m := 0x20000000) (by decide) z).elim },
    fun h => { h with toFrame0 := ⟨h.pending, h.part, h.memWf, h.regsWf⟩, job := fun z => ((hw.mono (by decide)).absurd (m := 0x100000) (by decide) z).elim, cores := fun z => ((hw.mono (by decide)).absurd (m := 0x4000000) (by decide) z).elim, upd := fun z => ((hw.mono (by decide)).absurd (m := 0x20000000) (by decide) z).elim }⟩

theorem Frame.set_job_nums_upd (hw : Within 0x28100000 ω) {r e : State} {job nums upd} :
    Frame ω r ({ e with job := job, nums := nums, upd := upd } : State) ↔ Frame ω r e :=
  ⟨fun h => { h with toFrame0 := ⟨h.pending, h.part, h.memWf, h.regsWf⟩, job := fun z => ((hw.mono (by decide)).absurd (m := 0x100000) (by decide) z).elim, nums := fun z => ((hw.mono (by decide)).absurd (m := 0x8000000) (by decide) z).elim, upd := fun z => ((hw.mono (by decide)).absurd (m := 0x20000000) (by decide) z).elim },
    fun h => { h with toFrame0 := ⟨h.pending, h.part, h.memWf, h.regsWf⟩, job := fun z => ((hw.mono (by decide)).absurd (m := 0x100000) (by decide) z).elim, nums := fun z => ((hw.mono (by decide)).absurd (m := 0x8000000) (by decide) z).elim, upd := fun z => ((hw.mono (by decide)).absurd (m := 0x20000000) (by decide) z).elim }⟩

theorem Frame.set_tide_job_snap (hw : Within 0x200120000 ω) {r e : State} {tide job snap} :
    Frame ω r ({ e with tide := tide, job := job, snap := snap } : State) ↔ Frame ω r e :=
  ⟨fun h => { h with toFrame0 := ⟨h.pending, h.part, h.memWf, h.regsWf⟩, tide := fun z => ((hw.mono (by decide)).absurd (m := 0x20000) (by decide) z).elim, job := fun z => ((hw.mono (by decide)).absurd (m := 0x100000) (by decide) z).elim, snap := fun z => ((hw.mono (by decide)).absurd (m := 0x200000000) (by decide) z).elim },
    fun h => { h with toFrame0 := ⟨h.pending, h.part, h.memWf, h.regsWf⟩, tide := fun z => ((hw.mono (by decide)).absurd (m := 0x20000) (by decide) z).elim, job := fun z => ((hw.mono (by decide)).absurd (m := 0x100000) (by decide) z).elim, snap := fun z => ((hw.mono (by decide)).absurd (m := 0x200000000) (by decide) z).elim }⟩

theorem Frame.set_tide_images_lists_bkt (hw : Within 0x40860000 ω) {r e : State} {tide images lists bkt} :
    Frame ω r ({ e with tide := tide, images := images, lists := lists, bkt := bkt } : State) ↔ Frame ω r e :=
  ⟨fun h => { h with toFrame0 := ⟨h.pending, h.part, h.memWf, h.regsWf⟩, tide := fun z => ((hw.mono (by decide)).absurd (m := 0x20000) (by decide) z).elim, images := fun z => ((hw.mono (by decide)).absurd (m := 0x40000) (by decide) z).elim, lists := fun z => ((hw.mono (by decide)).absurd (m := 0x800000) (by decide) z).elim, bkt := fun z => ((hw.mono (by decide)).absurd (m := 0x40000000) (by decide) z).elim },
    fun h => { h with toFrame0 := ⟨h.pending, h.part, h.memWf, h.regsWf⟩, tide := fun z => ((hw.mono (by decide)).absurd (m := 0x20000) (by decide) z).elim, images := fun z => ((hw.mono (by decide)).absurd (m := 0x40000) (by decide) z).elim, lists := fun z => ((hw.mono (by decide)).absurd (m := 0x800000) (by decide) z).elim, bkt := fun z => ((hw.mono (by decide)).absurd (m := 0x40000000) (by decide) z).elim }⟩

theorem Frame.set_evts_cores_shelf_upd_bkt (hw : Within 0x75000000 ω) {r e : State} {evts cores shelf upd bkt} :
    Frame ω r ({ e with evts := evts, cores := cores, shelf := shelf, upd := upd, bkt := bkt } : State) ↔ Frame ω r e :=
  ⟨fun h => { h with toFrame0 := ⟨h.pending, h.part, h.memWf, h.regsWf⟩, evts := fun z => ((hw.mono (by decide)).absurd (m := 0x1000000) (by decide) z).elim, cores := fun z => ((hw.mono (by decide)).absurd (m := 0x4000000) (by decide) z).elim, shelf := fun z => ((hw.mono (by decide)).absurd (m := 0x10000000) (by decide) z).elim, upd := fun z => ((hw.mono (by decide)).absurd (m := 0x20000000) (by decide) z).elim, bkt := fun z => ((hw.mono (by decide)).absurd (m := 0x40000000) (by decide) z).elim },
    fun h => { h with toFrame0 := ⟨h.pending, h.part, h.memWf, h.regsWf⟩, evts := fun z => ((hw.mono (by decide)).absurd (m := 0x1000000) (by decide) z).elim, cores := fun z => ((hw.mono (by decide)).absurd (m := 0x4000000) (by decide) z).elim, shelf := fun z => ((hw.mono (by decide)).absurd (m := 0x10000000) (by decide) z).elim, upd := fun z => ((hw.mono (by decide)).absurd (m := 0x20000000) (by decide) z).elim, bkt := fun z => ((hw.mono (by decide)).absurd (m := 0x40000000) (by decide) z).elim }⟩

theorem Frame.set_job_cores_nums_upd_snap (hw : Within 0x22c100000 ω) {r e : State} {job cores nums upd snap} :
    Frame ω r ({ e with job := job, cores := cores, nums := nums, upd := upd, snap := snap } : State) ↔ Frame ω r e :=
  ⟨fun h => { h with toFrame0 := ⟨h.pending, h.part, h.memWf, h.regsWf⟩, job := fun z => ((hw.mono (by decide)).absurd (m := 0x100000) (by decide) z).elim, cores := fun z => ((hw.mono (by decide)).absurd (m := 0x4000000) (by decide) z).elim, nums := fun z => ((hw.mono (by decide)).absurd (m := 0x8000000) (by decide) z).elim, upd := fun z => ((hw.mono (by decide)).absurd (m := 0x20000000) (by decide) z).elim, snap := fun z => ((hw.mono (by decide)).absurd (m := 0x200000000) (by decide) z).elim },
    fun h => { h with toFrame0 := ⟨h.pending, h.part, h.memWf, h.regsWf⟩, job := fun z => ((hw.mono (by decide)).absurd (m := 0x100000) (by decide) z).elim, cores := fun z => ((hw.mono (by decide)).absurd (m := 0x4000000) (by decide) z).elim, nums := fun z => ((hw.mono (by decide)).absurd (m := 0x8000000) (by decide) z).elim, upd := fun z => ((hw.mono (by decide)).absurd (m := 0x20000000) (by decide) z).elim, snap := fun z => ((hw.mono (by decide)).absurd (m := 0x200000000) (by decide) z).elim }⟩


/-- An update of `e` of any shape, by what it does to each field. -/
theorem Frame.of {r e t : State} (h : Frame ω r e) (pending : t.pending = e.pending := by rfl) (part : t.part = e.part := by rfl)
    (mem : Memory.wf e.mem = true → Memory.wf t.mem = true := by exact id)
    (regs : Sparse.wf regReset e.regs = true → Sparse.wf regReset t.regs = true := by exact id)
    (asserted : t.rst.asserted = e.rst.asserted := by rfl) (powerOn : t.rst.powerOn = e.rst.powerOn := by rfl)
    (pinLow : t.rst.pinLow = e.rst.pinLow := by rfl) (beat : t.beat = e.beat := by rfl) (beatOn : t.beatOn = e.beatOn := by rfl)
    (k1 : ∀ x ∈ e.kept.failedSlots, x ∈ t.kept.failedSlots := by exact fun _ h => h)
    (k2 : ∀ x ∈ e.kept.spareSlotOf, x ∈ t.kept.spareSlotOf := by exact fun _ h => h)
    (k3 : ∀ x ∈ e.kept.spareSlice, x ∈ t.kept.spareSlice := by exact fun _ h => h)
    (k4 : ∀ x ∈ e.kept.failedGens, x ∈ t.kept.failedGens := by exact fun _ h => h)
    (k5 : ∀ x ∈ e.kept.failedEnmora, x ∈ t.kept.failedEnmora := by exact fun _ h => h)
    (c_kept : t.kept = e.kept ∨ Within 0x4 ω := by first | exact .inl rfl | exact .inr (Within.mono (by assumption) (by decide)))
    (c_rst : t.rst = e.rst ∨ Within 0x8 ω := by first | exact .inl rfl | exact .inr (Within.mono (by assumption) (by decide)))
    (c_regs : t.regs = e.regs ∨ Within 0x40 ω := by first | exact .inl rfl | exact .inr (Within.mono (by assumption) (by decide)))
    (c_reqRegs : t.reqRegs = e.reqRegs ∨ Within 0x80 ω := by first | exact .inl rfl | exact .inr (Within.mono (by assumption) (by decide)))
    (c_shadow : t.shadow = e.shadow ∨ Within 0x100 ω := by first | exact .inl rfl | exact .inr (Within.mono (by assumption) (by decide)))
    (c_routes : t.routes = e.routes ∨ Within 0x200 ω := by first | exact .inl rfl | exact .inr (Within.mono (by assumption) (by decide)))
    (c_alarmHi : t.alarmHi = e.alarmHi ∨ Within 0x400 ω := by first | exact .inl rfl | exact .inr (Within.mono (by assumption) (by decide)))
    (c_alarmLo : t.alarmLo = e.alarmLo ∨ Within 0x800 ω := by first | exact .inl rfl | exact .inr (Within.mono (by assumption) (by decide)))
    (c_overrides : t.overrides = e.overrides ∨ Within 0x1000 ω := by first | exact .inl rfl | exact .inr (Within.mono (by assumption) (by decide)))
    (c_mem : t.mem = e.mem ∨ Within 0x2000 ω := by first | exact .inl rfl | exact .inr (Within.mono (by assumption) (by decide)))
    (c_dirty : t.dirty = e.dirty ∨ Within 0x4000 ω := by first | exact .inl rfl | exact .inr (Within.mono (by assumption) (by decide)))
    (c_enm : t.enm = e.enm ∨ Within 0x8000 ω := by first | exact .inl rfl | exact .inr (Within.mono (by assumption) (by decide)))
    (c_log : t.log = e.log ∨ Within 0x10000 ω := by first | exact .inl rfl | exact .inr (Within.mono (by assumption) (by decide)))
    (c_tide : t.tide = e.tide ∨ Within 0x20000 ω := by first | exact .inl rfl | exact .inr (Within.mono (by assumption) (by decide)))
    (c_images : t.images = e.images ∨ Within 0x40000 ω := by first | exact .inl rfl | exact .inr (Within.mono (by assumption) (by decide)))
    (c_group : t.group = e.group ∨ Within 0x80000 ω := by first | exact .inl rfl | exact .inr (Within.mono (by assumption) (by decide)))
    (c_job : t.job = e.job ∨ Within 0x100000 ω := by first | exact .inl rfl | exact .inr (Within.mono (by assumption) (by decide)))
    (c_pwr : t.pwr = e.pwr ∨ Within 0x200000 ω := by first | exact .inl rfl | exact .inr (Within.mono (by assumption) (by decide)))
    (c_link : t.link = e.link ∨ Within 0x400000 ω := by first | exact .inl rfl | exact .inr (Within.mono (by assumption) (by decide)))
    (c_lists : t.lists = e.lists ∨ Within 0x800000 ω := by first | exact .inl rfl | exact .inr (Within.mono (by assumption) (by decide)))
    (c_evts : t.evts = e.evts ∨ Within 0x1000000 ω := by first | exact .inl rfl | exact .inr (Within.mono (by assumption) (by decide)))
    (c_str : t.str = e.str ∨ Within 0x2000000 ω := by first | exact .inl rfl | exact .inr (Within.mono (by assumption) (by decide)))
    (c_cores : t.cores = e.cores ∨ Within 0x4000000 ω := by first | exact .inl rfl | exact .inr (Within.mono (by assumption) (by decide)))
    (c_nums : t.nums = e.nums ∨ Within 0x8000000 ω := by first | exact .inl rfl | exact .inr (Within.mono (by assumption) (by decide)))
    (c_shelf : t.shelf = e.shelf ∨ Within 0x10000000 ω := by first | exact .inl rfl | exact .inr (Within.mono (by assumption) (by decide)))
    (c_upd : t.upd = e.upd ∨ Within 0x20000000 ω := by first | exact .inl rfl | exact .inr (Within.mono (by assumption) (by decide)))
    (c_bkt : t.bkt = e.bkt ∨ Within 0x40000000 ω := by first | exact .inl rfl | exact .inr (Within.mono (by assumption) (by decide)))
    (c_opening : t.opening = e.opening ∨ Within 0x80000000 ω := by first | exact .inl rfl | exact .inr (Within.mono (by assumption) (by decide)))
    (c_memc : t.memc = e.memc ∨ Within 0x100000000 ω := by first | exact .inl rfl | exact .inr (Within.mono (by assumption) (by decide)))
    (c_snap : t.snap = e.snap ∨ Within 0x200000000 ω := by first | exact .inl rfl | exact .inr (Within.mono (by assumption) (by decide)))
    (c_lys : t.lys = e.lys ∨ Within 0x400000000 ω := by first | exact .inl rfl | exact .inr (Within.mono (by assumption) (by decide)))
    (c_bay : t.bay = e.bay ∨ Within 0x800000000 ω := by first | exact .inl rfl | exact .inr (Within.mono (by assumption) (by decide)))
    (c_free : t.free = e.free ∨ Within 0x1000000000 ω := by first | exact .inl rfl | exact .inr (Within.mono (by assumption) (by decide))) : Frame ω r t :=
  h.trans { pending, part, memWf := mem, regsWf := regs, asserted, powerOn, pinLow, beat, beatOn, failedSlots := k1, spareSlotOf := k2, spareSlice := k3, failedGens := k4, failedEnmora := k5
            kept := fun z => c_kept.elim id fun q => (q.absurd (by decide) z).elim
            rst := fun z => c_rst.elim id fun q => (q.absurd (by decide) z).elim
            regs := fun z => c_regs.elim id fun q => (q.absurd (by decide) z).elim
            reqRegs := fun z => c_reqRegs.elim id fun q => (q.absurd (by decide) z).elim
            shadow := fun z => c_shadow.elim id fun q => (q.absurd (by decide) z).elim
            routes := fun z => c_routes.elim id fun q => (q.absurd (by decide) z).elim
            alarmHi := fun z => c_alarmHi.elim id fun q => (q.absurd (by decide) z).elim
            alarmLo := fun z => c_alarmLo.elim id fun q => (q.absurd (by decide) z).elim
            overrides := fun z => c_overrides.elim id fun q => (q.absurd (by decide) z).elim
            mem := fun z => c_mem.elim id fun q => (q.absurd (by decide) z).elim
            dirty := fun z => c_dirty.elim id fun q => (q.absurd (by decide) z).elim
            enm := fun z => c_enm.elim id fun q => (q.absurd (by decide) z).elim
            log := fun z => c_log.elim id fun q => (q.absurd (by decide) z).elim
            tide := fun z => c_tide.elim id fun q => (q.absurd (by decide) z).elim
            images := fun z => c_images.elim id fun q => (q.absurd (by decide) z).elim
            group := fun z => c_group.elim id fun q => (q.absurd (by decide) z).elim
            job := fun z => c_job.elim id fun q => (q.absurd (by decide) z).elim
            pwr := fun z => c_pwr.elim id fun q => (q.absurd (by decide) z).elim
            link := fun z => c_link.elim id fun q => (q.absurd (by decide) z).elim
            lists := fun z => c_lists.elim id fun q => (q.absurd (by decide) z).elim
            evts := fun z => c_evts.elim id fun q => (q.absurd (by decide) z).elim
            str := fun z => c_str.elim id fun q => (q.absurd (by decide) z).elim
            cores := fun z => c_cores.elim id fun q => (q.absurd (by decide) z).elim
            nums := fun z => c_nums.elim id fun q => (q.absurd (by decide) z).elim
            shelf := fun z => c_shelf.elim id fun q => (q.absurd (by decide) z).elim
            upd := fun z => c_upd.elim id fun q => (q.absurd (by decide) z).elim
            bkt := fun z => c_bkt.elim id fun q => (q.absurd (by decide) z).elim
            opening := fun z => c_opening.elim id fun q => (q.absurd (by decide) z).elim
            memc := fun z => c_memc.elim id fun q => (q.absurd (by decide) z).elim
            snap := fun z => c_snap.elim id fun q => (q.absurd (by decide) z).elim
            lys := fun z => c_lys.elim id fun q => (q.absurd (by decide) z).elim
            bay := fun z => c_bay.elim id fun q => (q.absurd (by decide) z).elim
            free := fun z => c_free.elim id fun q => (q.absurd (by decide) z).elim }
/-- A frame as an equation: `t` is `s` but for the fields of the footprint. -/
theorem Frame.eq {s t : State} (h : Frame ω s t) :
    t = State.mk s.pending s.part (if ω &&& 0x4 = 0 then s.kept else t.kept) (if ω &&& 0x8 = 0 then s.rst else t.rst) s.beat s.beatOn (if ω &&& 0x40 = 0 then s.regs else t.regs) (if ω &&& 0x80 = 0 then s.reqRegs else t.reqRegs) (if ω &&& 0x100 = 0 then s.shadow else t.shadow) (if ω &&& 0x200 = 0 then s.routes else t.routes) (if ω &&& 0x400 = 0 then s.alarmHi else t.alarmHi) (if ω &&& 0x800 = 0 then s.alarmLo else t.alarmLo) (if ω &&& 0x1000 = 0 then s.overrides else t.overrides) (if ω &&& 0x2000 = 0 then s.mem else t.mem) (if ω &&& 0x4000 = 0 then s.dirty else t.dirty) (if ω &&& 0x8000 = 0 then s.enm else t.enm) (if ω &&& 0x10000 = 0 then s.log else t.log) (if ω &&& 0x20000 = 0 then s.tide else t.tide) (if ω &&& 0x40000 = 0 then s.images else t.images) (if ω &&& 0x80000 = 0 then s.group else t.group) (if ω &&& 0x100000 = 0 then s.job else t.job) (if ω &&& 0x200000 = 0 then s.pwr else t.pwr) (if ω &&& 0x400000 = 0 then s.link else t.link) (if ω &&& 0x800000 = 0 then s.lists else t.lists) (if ω &&& 0x1000000 = 0 then s.evts else t.evts) (if ω &&& 0x2000000 = 0 then s.str else t.str) (if ω &&& 0x4000000 = 0 then s.cores else t.cores) (if ω &&& 0x8000000 = 0 then s.nums else t.nums) (if ω &&& 0x10000000 = 0 then s.shelf else t.shelf) (if ω &&& 0x20000000 = 0 then s.upd else t.upd) (if ω &&& 0x40000000 = 0 then s.bkt else t.bkt) (if ω &&& 0x80000000 = 0 then s.opening else t.opening) (if ω &&& 0x100000000 = 0 then s.memc else t.memc) (if ω &&& 0x200000000 = 0 then s.snap else t.snap) (if ω &&& 0x400000000 = 0 then s.lys else t.lys) (if ω &&& 0x800000000 = 0 then s.bay else t.bay) (if ω &&& 0x1000000000 = 0 then s.free else t.free) := by
  have e : ∀ (p : Prop) [Decidable p] {α : Type} (a b : α), (p → b = a) → b = if p then a else b := fun p _ α a b k => by
    split
    · exact k ‹_›
    · rfl
  cases t
  rw [State.mk.injEq]
  exact ⟨h.pending, h.part, e _ _ _ h.kept, e _ _ _ h.rst, h.beat, h.beatOn, e _ _ _ h.regs, e _ _ _ h.reqRegs, e _ _ _ h.shadow, e _ _ _ h.routes, e _ _ _ h.alarmHi, e _ _ _ h.alarmLo, e _ _ _ h.overrides, e _ _ _ h.mem, e _ _ _ h.dirty, e _ _ _ h.enm, e _ _ _ h.log, e _ _ _ h.tide, e _ _ _ h.images, e _ _ _ h.group, e _ _ _ h.job, e _ _ _ h.pwr, e _ _ _ h.link, e _ _ _ h.lists, e _ _ _ h.evts, e _ _ _ h.str, e _ _ _ h.cores, e _ _ _ h.nums, e _ _ _ h.shelf, e _ _ _ h.upd, e _ _ _ h.bkt, e _ _ _ h.opening, e _ _ _ h.memc, e _ _ _ h.snap, e _ _ _ h.lys, e _ _ _ h.bay, e _ _ _ h.free⟩


/-- A property that every step of a fold keeps holds of its result. -/
theorem foldl_keeps {α β : Type} {P : β → Prop} {f : β → α → β} {l : List α} {b : β} (step : ∀ b a, P b → P (f b a)) (h : P b) : P (l.foldl f b) := by
  induction l generalizing b with
  | nil => exact h
  | cons a l ih => exact ih (step b a h)

theorem Frame.foldl {α : Type} {r s : State} {f : State → α → State} {l : List α} (h : Frame ω r s) (step : ∀ s a, Frame ω r s → Frame ω r (f s a)) :
    Frame ω r (l.foldl f s) := by
  induction l generalizing s with
  | nil => exact h
  | cons a l ih => exact ih (step s a h)

theorem Frame.ite {r s t : State} {p : Prop} [Decidable p] (h : Frame ω r s) (k : Frame ω r t) : Frame ω r (if p then s else t) := by
  split
  · exact h
  · exact k

theorem Frame.getD {r s : State} {o : Option State} (h : Frame ω r s) (k : ∀ t, o = some t → Frame ω r t) : Frame ω r (o.getD s) := by
  cases o with
  | none => exact h
  | some t => exact k t rfl

/-- Frames of the operations on registers and memory, through which every other operation writes them. -/
theorem State.setReg_frame {r s : State} {k : Nat} {v : Word} (hw : Within 0x40 ω) (h : Frame ω r s) : Frame ω r (s.setReg k v) :=
  { h with memWf := h.memWf, regsWf := fun x => Sparse.put_wf regReset _ _ _ (h.regsWf x), regs := fun z => (hw.absurd (by decide) z).elim }

theorem State.poke_frame {r s : State} {a : Nat} {bs : List Byte} (hw : Within 0x2000 ω) (h : Frame ω r s) : Frame ω r (s.poke a bs) :=
  { h with memWf := fun x => Memory.write_wf _ _ _ (h.memWf x), regsWf := h.regsWf, mem := fun z => (hw.absurd (by decide) z).elim }

end Sys2Proof.Machine
end

