-- ==== Sys2Proof/Laws/Ops.lean ====
section
/-!
SUPPORT. Frames of the operations of Machine/Ops.lean (Laws/Frame.lean says what a frame is).
-/
namespace Sys2Proof.Machine

variable {ω : Nat}

theorem State.orReg_frame (hw : Within 0x40 ω) {r s : State} {k} {m} (h : Frame ω r s) : Frame ω r (State.orReg s k m) := by
  unfold State.orReg
  try dsimp only
  with_reducible repeat' first | assumption | apply State.setReg_frame (hw.mono (by decide)) | refine Frame.foldl ?_ (fun s a h => ?_) | split

theorem State.andNotReg_frame (hw : Within 0x40 ω) {r s : State} {k} {m} (h : Frame ω r s) : Frame ω r (State.andNotReg s k m) := by
  unfold State.andNotReg
  try dsimp only
  with_reducible repeat' first | assumption | apply State.setReg_frame (hw.mono (by decide)) | refine Frame.foldl ?_ (fun s a h => ?_) | split

theorem State.count_frame (hw : Within 0x40 ω) {r s : State} {k} {n} (h : Frame ω r s) : Frame ω r (State.count s k n) := by
  unfold State.count
  try dsimp only
  with_reducible repeat' first | assumption | apply State.setReg_frame (hw.mono (by decide)) | refine Frame.foldl ?_ (fun s a h => ?_) | split

theorem State.setField_frame (hw : Within 0x40 ω) {r s : State} {k} {lo} {len} {v} (h : Frame ω r s) : Frame ω r (State.setField s k lo len v) := by
  unfold State.setField
  try dsimp only
  with_reducible repeat' first | assumption | apply State.setReg_frame (hw.mono (by decide)) | refine Frame.foldl ?_ (fun s a h => ?_) | split

theorem State.setOwn_frame (hw : Within 0x80 ω) {r s : State} {q} {k} {v} (h : Frame ω r s) : Frame ω r (State.setOwn s q k v) := by
  unfold State.setOwn
  try dsimp only
  with_reducible repeat' first | assumption | refine Frame.foldl ?_ (fun s a h => ?_) | simp only [Frame.set_reqRegs (hw.mono (by decide))] | split

theorem State.dropOwn_frame (hw : Within 0x80 ω) {r s : State} {q} (h : Frame ω r s) : Frame ω r (State.dropOwn s q) := by
  unfold State.dropOwn
  try dsimp only
  with_reducible repeat' first | assumption | refine Frame.foldl ?_ (fun s a h => ?_) | simp only [Frame.set_reqRegs (hw.mono (by decide))] | split

theorem State.queueReg_frame (hw : Within 0x100 ω) {r s : State} {k} {v} (h : Frame ω r s) : Frame ω r (State.queueReg s k v) := by
  unfold State.queueReg
  try dsimp only
  with_reducible repeat' first | assumption | refine Frame.foldl ?_ (fun s a h => ?_) | simp only [Frame.set_shadow (hw.mono (by decide))] | split

theorem State.queueRoute_frame (hw : Within 0x100 ω) {r s : State} {d} {v} (h : Frame ω r s) : Frame ω r (State.queueRoute s d v) := by
  unfold State.queueRoute
  try dsimp only
  with_reducible repeat' first | assumption | refine Frame.foldl ?_ (fun s a h => ?_) | simp only [Frame.set_shadow (hw.mono (by decide))] | split

theorem State.queueField_frame (hw : Within 0x100 ω) {r s : State} {k} {lo} {len} {v} (h : Frame ω r s) : Frame ω r (State.queueField s k lo len v) := by
  unfold State.queueField
  try dsimp only
  with_reducible repeat' first | assumption | apply State.queueReg_frame (hw.mono (by decide)) | refine Frame.foldl ?_ (fun s a h => ?_) | split

theorem State.override_frame (hw : Within 0x1000 ω) {r s : State} {k} (h : Frame ω r s) : Frame ω r (State.override s k) := by
  unfold State.override
  try dsimp only
  with_reducible repeat' first | assumption | refine Frame.foldl ?_ (fun s a h => ?_) | simp only [Frame.set_overrides (hw.mono (by decide))] | split

theorem State.basic_frame (hw : Within 0x1000 ω) {r s : State} {k} (h : Frame ω r s) : Frame ω r (State.basic s k) := by
  unfold State.basic
  try dsimp only
  with_reducible repeat' first | assumption | refine Frame.foldl ?_ (fun s a h => ?_) | simp only [Frame.set_overrides (hw.mono (by decide))] | split

theorem State.setRoute_frame (hw : Within 0x200 ω) {r s : State} {dev} {v} (h : Frame ω r s) : Frame ω r (State.setRoute s dev v) := by
  unfold State.setRoute
  try dsimp only
  with_reducible repeat' first | assumption | refine Frame.foldl ?_ (fun s a h => ?_) | simp only [Frame.set_routes (hw.mono (by decide))] | split

theorem State.setLstate_frame (hw : Within 0x40 ω) {r s : State} {l} {st} (h : Frame ω r s) : Frame ω r (State.setLstate s l st) := by
  unfold State.setLstate
  try dsimp only
  with_reducible repeat' first | assumption | apply State.setField_frame (hw.mono (by decide)) | refine Frame.foldl ?_ (fun s a h => ?_) | split

theorem State.storedAt_frame (hw : Within 0x500000 ω) {r s : State} {what} {a2} (h : Frame ω r s) : Frame ω r (State.storedAt s what a2) := by
  unfold State.storedAt
  try dsimp only
  with_reducible repeat' first | assumption | refine Frame.foldl ?_ (fun s a h => ?_) | simp only [Frame.set_job_link (hw.mono (by decide))] | split

end Sys2Proof.Machine
end

