-- ==== Sys2Proof/Laws/LogOps.lean ====
section
/-!
SUPPORT. Frames of the operations of Machine/LogOps.lean (Laws/Frame.lean says what a frame is).
-/
namespace Sys2Proof.Machine

variable {ω : Nat}

theorem State.logRaw_frame (hw : Within 0x18000 ω) {r s : State} {a1} {more} (h : Frame ω r s) : Frame ω r (State.logRaw s a1 more) := by
  unfold State.logRaw
  try dsimp only
  with_reducible repeat' first | assumption | refine Frame.foldl ?_ (fun s a h => ?_) | simp only [Frame.set_enm_log (hw.mono (by decide))] | split

theorem State.logHigh_frame (hw : Within 0x18000 ω) {r s : State} {before} (h : Frame ω r s) : Frame ω r (State.logHigh s before) := by
  unfold State.logHigh
  try dsimp only
  with_reducible repeat' first | assumption | apply State.logRaw_frame (hw.mono (by decide)) | refine Frame.foldl ?_ (fun s a h => ?_) | split

theorem State.logFull_frame (hw : Within 0x18000 ω) {r s : State} {source} {code} {core} {tag} {detail} {more} (h : Frame ω r s) : Frame ω r (State.logFull s source code core tag detail more) := by
  unfold State.logFull
  try dsimp only
  with_reducible repeat' first | assumption | apply State.logHigh_frame (hw.mono (by decide)) | apply State.logRaw_frame (hw.mono (by decide)) | refine Frame.foldl ?_ (fun s a h => ?_) | split

theorem State.log__frame (hw : Within 0x18000 ω) {r s : State} {source} {code} {detail} (h : Frame ω r s) : Frame ω r (State.log_ s source code detail) := by
  unfold State.log_
  try dsimp only
  with_reducible repeat' first | assumption | apply State.logFull_frame (hw.mono (by decide)) | refine Frame.foldl ?_ (fun s a h => ?_) | split

theorem State.logCore_frame (hw : Within 0x18000 ω) {r s : State} {source} {code} {core} {detail} (h : Frame ω r s) : Frame ω r (State.logCore s source code core detail) := by
  unfold State.logCore
  try dsimp only
  with_reducible repeat' first | assumption | apply State.logFull_frame (hw.mono (by decide)) | refine Frame.foldl ?_ (fun s a h => ?_) | split

theorem State.logKept_frame (hw : Within 0x18004 ω) {r s : State} {source} {code} {detail} (h : Frame ω r s) : Frame ω r (State.logKept s source code detail) := by
  unfold State.logKept
  try dsimp only
  with_reducible repeat' first | assumption | apply State.log__frame (hw.mono (by decide)) | refine Frame.foldl ?_ (fun s a h => ?_) | split | (refine Frame.set_kept (hw.mono (by decide)) ?_)

theorem State.trouble_frame (hw : Within 0x200000000 ω) {r s : State}  (h : Frame ω r s) : Frame ω r (State.trouble s) := by
  unfold State.trouble
  try dsimp only
  with_reducible repeat' first | assumption | refine Frame.foldl ?_ (fun s a h => ?_) | simp only [Frame.set_snap (hw.mono (by decide))] | split

end Sys2Proof.Machine
end

