-- ==== Sys2Proof/Laws/Frames.lean ====
section
/-!
SUPPORT. Frames of the operations of Machine/Frames.lean (Laws/Frame.lean says what a frame is).
-/
namespace Sys2Proof.Machine

variable {ω : Nat}

theorem State.setSession_frame (hw : Within 0x400000000 ω) {r s : State} {n} {a2} (h : Frame ω r s) : Frame ω r (State.setSession s n a2) := by
  unfold State.setSession
  try dsimp only
  with_reducible repeat' first | assumption | refine Frame.foldl ?_ (fun s a h => ?_) | simp only [Frame.set_lys (hw.mono (by decide))] | split

theorem State.emit_frame (hw : Within 0x400000000 ω) {r s : State} {o} (h : Frame ω r s) : Frame ω r (State.emit s o) := by
  unfold State.emit
  try dsimp only
  with_reducible repeat' first | assumption | refine Frame.foldl ?_ (fun s a h => ?_) | simp only [Frame.set_lys (hw.mono (by decide))] | split

theorem State.sendFrame_frame (hw : Within 0x400000040 ω) {r s : State} {n} {type} {ftag} {pay} (h : Frame ω r s) : Frame ω r (State.sendFrame s n type ftag pay) := by
  unfold State.sendFrame
  try dsimp only
  with_reducible repeat' first | assumption | apply State.setSession_frame (hw.mono (by decide)) | apply State.emit_frame (hw.mono (by decide)) | apply State.count_frame (hw.mono (by decide)) | refine Frame.foldl ?_ (fun s a h => ?_) | split

theorem State.sendAck_frame (hw : Within 0x400000040 ω) {r s : State} {n} (h : Frame ω r s) : Frame ω r (State.sendAck s n) := by
  unfold State.sendAck
  try dsimp only
  with_reducible repeat' first | assumption | apply State.sendFrame_frame (hw.mono (by decide)) | apply State.setSession_frame (hw.mono (by decide)) | apply State.emit_frame (hw.mono (by decide)) | apply State.count_frame (hw.mono (by decide)) | refine Frame.foldl ?_ (fun s a h => ?_) | split

theorem State.complete_frame (hw : Within 0x400000040 ω) {r s : State} {n} {ftag} {status} {data} (h : Frame ω r s) : Frame ω r (State.complete s n ftag status data) := by
  unfold State.complete
  try dsimp only
  with_reducible repeat' first | assumption | apply State.sendFrame_frame (hw.mono (by decide)) | refine Frame.foldl ?_ (fun s a h => ?_) | split

theorem State.syncPort_frame (hw : Within 0x40 ω) {r s : State} {p} (h : Frame ω r s) : Frame ω r (State.syncPort s p) := by
  unfold State.syncPort
  try dsimp only
  with_reducible repeat' first | assumption | apply State.setField_frame (hw.mono (by decide)) | refine Frame.foldl ?_ (fun s a h => ?_) | split

theorem State.imageFail_frame (hw : Within 0x400000040 ω) {r s : State} {code} (h : Frame ω r s) : Frame ω r (State.imageFail s code) := by
  unfold State.imageFail
  try dsimp only
  with_reducible repeat' first | assumption | apply State.setField_frame (hw.mono (by decide)) | refine Frame.foldl ?_ (fun s a h => ?_) | simp only [Frame.set_lys (hw.mono (by decide))] | split

theorem State.trainPort_frame (hw : Within 0x40 ω) {r s : State} {p} (h : Frame ω r s) : Frame ω r (State.trainPort s p) := by
  unfold State.trainPort
  try dsimp only
  with_reducible repeat' first | assumption | apply State.setField_frame (hw.mono (by decide)) | refine Frame.foldl ?_ (fun s a h => ?_) | split

theorem State.trainPorts_frame (hw : Within 0x40 ω) {r s : State}  (h : Frame ω r s) : Frame ω r (State.trainPorts s) := by
  unfold State.trainPorts
  try dsimp only
  with_reducible repeat' first | assumption | apply State.trainPort_frame (hw.mono (by decide)) | refine Frame.foldl ?_ (fun s a h => ?_) | split

theorem State.retrainBoot_frame (hw : Within 0x40 ω) {r s : State}  (h : Frame ω r s) : Frame ω r (State.retrainBoot s) := by
  unfold State.retrainBoot
  try dsimp only
  with_reducible repeat' first | assumption | apply State.trainPorts_frame (hw.mono (by decide)) | refine Frame.foldl ?_ (fun s a h => ?_) | split

theorem State.closeSession_frame (hw : Within 0x4000080c0 ω) {r s : State} {n} {reason} (h : Frame ω r s) : Frame ω r (State.closeSession s n reason) := by
  unfold State.closeSession
  try dsimp only
  with_reducible repeat' first | assumption | apply State.sendFrame_frame (hw.mono (by decide)) | apply State.emit_frame (hw.mono (by decide)) | apply State.count_frame (hw.mono (by decide)) | apply State.setSession_frame (hw.mono (by decide)) | apply State.dropOwn_frame (hw.mono (by decide)) | apply State.orReg_frame (hw.mono (by decide)) | apply State.imageFail_frame (hw.mono (by decide)) | apply State.syncPort_frame (hw.mono (by decide)) | apply State.retrainBoot_frame (hw.mono (by decide)) | refine Frame.foldl ?_ (fun s a h => ?_) | simp only [Frame.set_enm (hw.mono (by decide))] | simp only [Frame.set_lys (hw.mono (by decide))] | split

theorem State.seqLimit_frame (hw : Within 0x4000080c0 ω) {r s : State} {n} (h : Frame ω r s) : Frame ω r (State.seqLimit s n) := by
  unfold State.seqLimit
  try dsimp only
  with_reducible repeat' first | assumption | apply State.closeSession_frame (hw.mono (by decide)) | refine Frame.foldl ?_ (fun s a h => ?_) | split

theorem State.closeSessions_frame (hw : Within 0x4000080c0 ω) {r s : State} {ns} {reason} (h : Frame ω r s) : Frame ω r (State.closeSessions s ns reason) := by
  unfold State.closeSessions
  try dsimp only
  with_reducible repeat' first | assumption | apply State.closeSession_frame (hw.mono (by decide)) | refine Frame.foldl ?_ (fun s a h => ?_) | split

theorem State.notify_frame (hw : Within 0x4000080c0 ω) {r s : State} {mb} {owner} (h : Frame ω r s) : Frame ω r (State.notify s mb owner) := by
  unfold State.notify
  try dsimp only
  with_reducible repeat' first | assumption | apply State.seqLimit_frame (hw.mono (by decide)) | apply State.sendFrame_frame (hw.mono (by decide)) | refine Frame.foldl ?_ (fun s a h => ?_) | split

end Sys2Proof.Machine
end

