-- ==== Sys2Proof/Laws/Mailbox.lean ====
section
/-!
SUPPORT. Frames of the operations of Machine/Mailbox.lean (Laws/Frame.lean says what a frame is).
-/
namespace Sys2Proof.Machine

variable {ω : Nat}

/-- A command whose act keeps every frame. -/
def Cmd.Framed (ω : Nat) (c : Cmd) : Prop := ∀ (r s : State) (q : Req), Frame ω r s → Frame ω r (c.act s q).1

theorem State.setSlot_frame (hw : Within 0x40 ω) {r s : State} {k} {bs} (h : Frame ω r s) : Frame ω r (State.setSlot s k bs) := by
  unfold State.setSlot
  try dsimp only
  with_reducible repeat' first | assumption | apply State.setReg_frame (hw.mono (by decide)) | refine Frame.foldl ?_ (fun s a h => ?_) | split

theorem State.headerFault_frame (hw : Within 0x18000 ω) {r s : State} {a1} {n} {tag} (h : Frame ω r s) : Frame ω r (State.headerFault s a1 n tag) := by
  unfold State.headerFault
  try dsimp only
  with_reducible repeat' first | assumption | apply State.logFull_frame (hw.mono (by decide)) | refine Frame.foldl ?_ (fun s a h => ?_) | split

theorem State.respond_frame (hw : Within 0x8000 ω) {r s : State} {mb} {op} {tag} {p} (h : Frame ω r s) : Frame ω r (State.respond s mb op tag p) := by
  unfold State.respond
  try dsimp only
  with_reducible repeat' first | assumption | refine Frame.foldl ?_ (fun s a h => ?_) | simp only [Frame.set_enm (hw.mono (by decide))] | split

theorem Cmd.serveState_frame (hw : Within 0x8000 ω) {r s : State} {c : Cmd} {q} (hc : c.Framed ω) (h : Frame ω r s) : Frame ω r (c.serveState q s) := by
  unfold Cmd.serveState
  split
  · exact State.respond_frame (hw.mono (by decide)) h
  · dsimp only
    split
    · exact State.respond_frame (hw.mono (by decide)) (hc r s q h)
    · exact (Frame.set_enm (hw.mono (by decide))).2 (hc r s q h)

theorem Cmd.serve_frame (hw : Within 0x8000 ω) {r s : State} {c : Cmd} {q} (hc : c.Framed ω) (h : Frame ω r s) : FrameO ω r (c.serve q s) := by
  unfold Cmd.serve
  split
  · exact FrameO.next (Cmd.serveState_frame (hw.mono (by decide)) hc h)
  · exact FrameO.next h

theorem State.take_frame (hw : Within 0x18000 ω) {r s : State} {mb} (h : Frame ω r s) : Frame ω r (State.take s mb) := by
  unfold State.take
  try dsimp only
  with_reducible repeat' first | assumption | apply State.respond_frame (hw.mono (by decide)) | apply State.headerFault_frame (hw.mono (by decide)) | refine Frame.foldl ?_ (fun s a h => ?_) | simp only [Frame.set_enm (hw.mono (by decide))] | split

theorem State.takeIf_frame (hw : Within 0x18000 ω) {r s : State} {mb} (h : Frame ω r s) : Frame ω r (State.takeIf s mb) := by
  unfold State.takeIf
  try dsimp only
  with_reducible repeat' first | assumption | apply State.take_frame (hw.mono (by decide)) | refine Frame.foldl ?_ (fun s a h => ?_) | split

theorem State.takeNext_frame (hw : Within 0x18000 ω) {r s : State}  (h : Frame ω r s) : Frame ω r (State.takeNext s) := by
  unfold State.takeNext
  try dsimp only
  with_reducible repeat' first | assumption | apply State.takeIf_frame (hw.mono (by decide)) | refine Frame.foldl ?_ (fun s a h => ?_) | simp only [Frame.set_enm (hw.mono (by decide))] | split

end Sys2Proof.Machine
end

