-- ==== Sys2Proof/Laws/Profile.lean ====
section
/-!
SUPPORT. Frames of the operations of Machine/Profile.lean (Laws/Frame.lean says what a frame is).
-/
namespace Sys2Proof.Machine

variable {ω : Nat}

theorem State.syncProf_frame (hw : Within 0x40 ω) {r s : State}  (h : Frame ω r s) : Frame ω r (State.syncProf s) := by
  unfold State.syncProf
  try dsimp only
  with_reducible repeat' first | assumption | apply State.setField_frame (hw.mono (by decide)) | refine Frame.foldl ?_ (fun s a h => ?_) | split

theorem State.acceptProf_frame (hw : Within 0x200040 ω) {r s : State} {p} {b} (h : Frame ω r s) : Frame ω r (State.acceptProf s p b) := by
  unfold State.acceptProf
  try dsimp only
  with_reducible repeat' first | assumption | apply State.syncProf_frame (hw.mono (by decide)) | refine Frame.foldl ?_ (fun s a h => ?_) | simp only [Frame.set_pwr (hw.mono (by decide))] | split

end Sys2Proof.Machine
end

