-- ==== Sys2Proof/Laws/MemMap.lean ====
section
/-!
SUPPORT. Frames of the operations of Machine/MemMap.lean (Laws/Frame.lean says what a frame is).
-/
namespace Sys2Proof.Machine

variable {ω : Nat}

theorem State.markDirty_frame (hw : Within 0x4000 ω) {r s : State} {a} {n} (h : Frame ω r s) : Frame ω r (State.markDirty s a n) := by
  unfold State.markDirty
  try dsimp only
  with_reducible repeat' first | assumption | refine Frame.foldl ?_ (fun s a h => ?_) | simp only [Frame.set_dirty (hw.mono (by decide))] | split

theorem State.freshCheck_frame (hw : Within 0x100000000 ω) {r s : State} {a} {n} (h : Frame ω r s) : Frame ω r (State.freshCheck s a n) := by
  unfold State.freshCheck
  try dsimp only
  with_reducible repeat' first | assumption | refine Frame.foldl ?_ (fun s a h => ?_) | simp only [Frame.set_memc (hw.mono (by decide))] | split

theorem State.store_frame (hw : Within 0x100006000 ω) {r s : State} {a} {bs} (h : Frame ω r s) : Frame ω r (State.store s a bs) := by
  unfold State.store
  try dsimp only
  with_reducible repeat' first | assumption | apply State.markDirty_frame (hw.mono (by decide)) | apply State.freshCheck_frame (hw.mono (by decide)) | apply State.poke_frame (hw.mono (by decide)) | refine Frame.foldl ?_ (fun s a h => ?_) | split

end Sys2Proof.Machine
end

