-- ==== Sys2Proof/Laws/LinkQueue.lean ====
section
/-!
SUPPORT. Frames of the operations of Machine/LinkQueue.lean (Laws/Frame.lean says what a frame is).
-/
namespace Sys2Proof.Machine

variable {ω : Nat}

theorem State.setLink_frame (hw : Within 0x400000 ω) {r s : State} {l} {a2} (h : Frame ω r s) : Frame ω r (State.setLink s l a2) := by
  unfold State.setLink
  try dsimp only
  with_reducible repeat' first | assumption | refine Frame.foldl ?_ (fun s a h => ?_) | simp only [Frame.set_link (hw.mono (by decide))] | split

theorem State.sendFlit_frame (hw : Within 0x400000000 ω) {r s : State} {l} {op} {seq} {lane} (h : Frame ω r s) : Frame ω r (State.sendFlit s l op seq lane) := by
  unfold State.sendFlit
  try dsimp only
  with_reducible repeat' first | assumption | apply State.emit_frame (hw.mono (by decide)) | refine Frame.foldl ?_ (fun s a h => ?_) | split

theorem State.freeEntries_frame (hw : Within 0x400000 ω) {r s : State} {l} {c} {n} (h : Frame ω r s) : Frame ω r (State.freeEntries s l c n) := by
  unfold State.freeEntries
  try dsimp only
  with_reducible repeat' first | assumption | apply State.setLink_frame (hw.mono (by decide)) | refine Frame.foldl ?_ (fun s a h => ?_) | split

theorem State.leaves_frame (hw : Within 0x400400000 ω) {r s : State} {p} (h : Frame ω r s) : Frame ω r (State.leaves s p) := by
  unfold State.leaves
  try dsimp only
  with_reducible repeat' first | assumption | apply State.freeEntries_frame (hw.mono (by decide)) | apply State.sendFlit_frame (hw.mono (by decide)) | refine Frame.foldl ?_ (fun s a h => ?_) | split

theorem State.pumpN_frame (hw : Within 0x400400000 ω) {n : Nat} {l} {r s : State} (h : Frame ω r s) : Frame ω r (s.pumpN l n) := by
  induction n generalizing s with
  | zero => exact h
  | succ n ih =>
    unfold State.pumpN
    try dsimp only
    with_reducible repeat' first | assumption | apply ih | apply State.setLink_frame (hw.mono (by decide)) | apply State.emit_frame (hw.mono (by decide)) | apply State.leaves_frame (hw.mono (by decide)) | refine Frame.foldl ?_ (fun s a h => ?_) | split

theorem State.pump_frame (hw : Within 0x400400000 ω) {r s : State} {l} (h : Frame ω r s) : Frame ω r (State.pump s l) := by
  unfold State.pump
  try dsimp only
  with_reducible repeat' first | assumption | apply State.pumpN_frame (hw.mono (by decide)) | refine Frame.foldl ?_ (fun s a h => ?_) | split

theorem State.enqueue_frame (hw : Within 0x400400000 ω) {r s : State} {l} {p} (h : Frame ω r s) : Frame ω r (State.enqueue s l p) := by
  unfold State.enqueue
  try dsimp only
  with_reducible repeat' first | assumption | apply State.pump_frame (hw.mono (by decide)) | apply State.setLink_frame (hw.mono (by decide)) | refine Frame.foldl ?_ (fun s a h => ?_) | split

theorem State.routeUe_frame (hw : Within 0x400040 ω) {r s : State} {what} (h : Frame ω r s) : Frame ω r (State.routeUe s what) := by
  unfold State.routeUe
  try dsimp only
  with_reducible repeat' first | assumption | apply State.count_frame (hw.mono (by decide)) | refine Frame.foldl ?_ (fun s a h => ?_) | simp only [Frame.set_link (hw.mono (by decide))] | split

theorem State.sendTide_frame (hw : Within 0x400400040 ω) {r s : State} {p} (h : Frame ω r s) : Frame ω r (State.sendTide s p) := by
  unfold State.sendTide
  try dsimp only
  with_reducible repeat' first | assumption | apply State.routeUe_frame (hw.mono (by decide)) | apply State.enqueue_frame (hw.mono (by decide)) | refine Frame.foldl ?_ (fun s a h => ?_) | simp only [Frame.set_link (hw.mono (by decide))] | split

end Sys2Proof.Machine
end

