-- ==== Sys2Proof/Laws/Reports.lean ====
section
/-!
SUPPORT. Frames of the operations of Machine/Reports.lean (Laws/Frame.lean says what a frame is).
-/
namespace Sys2Proof.Machine

variable {ω : Nat}

theorem State.draw_frame (hw : Within 0x1000000000 ω) {r s : State}  {x} {t : State} (e : State.draw s = (x, t)) (h : Frame ω r s) : Frame ω r t := by
  unfold State.draw at e
  try dsimp only at e
  repeat' (split at e)
  all_goals first | cases e | skip
  all_goals with_reducible repeat' first | assumption | refine Frame.foldl ?_ (fun s a h => ?_) | simp only [Frame.set_free (hw.mono (by decide))] | split

theorem State.draw_frame1 (hw : Within 0x1000000000 ω) {r s : State}  (h : Frame ω r s) : Frame ω r (State.draw s).2 :=
  State.draw_frame (hw.mono (by decide)) rfl h

theorem State.ownRelease_frame (hw : Within 0x20000 ω) {r s : State}  {x} {t : State} (e : State.ownRelease s = some (t, x)) (h : Frame ω r s) : Frame ω r t := by
  unfold State.ownRelease at e
  try dsimp only at e
  repeat' (split at e)
  all_goals first | cases e | skip
  all_goals with_reducible repeat' first | assumption | refine Frame.foldl ?_ (fun s a h => ?_) | simp only [Frame.set_tide (hw.mono (by decide))] | split

theorem State.addReport_frame (hw : Within 0x4020040 ω) {r s : State} {c} {close} {working} {stall} (h : Frame ω r s) : Frame ω r (State.addReport s c close working stall) := by
  unfold State.addReport
  try dsimp only
  with_reducible repeat' first | assumption | apply State.count_frame (hw.mono (by decide)) | refine Frame.foldl ?_ (fun s a h => ?_) | simp only [Frame.set_tide (hw.mono (by decide))] | simp only [Frame.set_tide_cores (hw.mono (by decide))] | split

theorem State.cutReport_frame (hw : Within 0x1004020040 ω) {r s : State} {c} (h : Frame ω r s) : Frame ω r (State.cutReport s c) := by
  unfold State.cutReport
  try dsimp only
  with_reducible repeat' first | assumption | apply State.draw_frame1 (hw.mono (by decide)) | apply State.addReport_frame (hw.mono (by decide)) | (refine State.draw_frame (hw.mono (by decide)) (by assumption) ?_) | refine Frame.foldl ?_ (fun s a h => ?_) | split

theorem State.cutReports_frame (hw : Within 0x1404420040 ω) {r s : State}  (h : Frame ω r s) : Frame ω r (State.cutReports s) := by
  unfold State.cutReports
  try dsimp only
  with_reducible repeat' first | assumption | apply State.cutReport_frame (hw.mono (by decide)) | apply State.sendTide_frame (hw.mono (by decide)) | (refine State.ownRelease_frame (hw.mono (by decide)) (by assumption) ?_) | refine Frame.foldl ?_ (fun s a h => ?_) | split

end Sys2Proof.Machine
end

