-- ==== Sys2Proof/Laws/Desc.lean ====
section
/-!
SUPPORT. Frames of the operations of Machine/Desc.lean (Laws/Frame.lean says what a frame is).
-/
namespace Sys2Proof.Machine

variable {ω : Nat}

theorem State.setList_frame (hw : Within 0x800000 ω) {r s : State} {l} (h : Frame ω r s) : Frame ω r (State.setList s l) := by
  unfold State.setList
  try dsimp only
  with_reducible repeat' first | assumption | refine Frame.foldl ?_ (fun s a h => ?_) | simp only [Frame.set_lists (hw.mono (by decide))] | split

theorem State.issue_frame (hw : Within 0x2800040 ω) {r s : State} {l} (h : Frame ω r s) : Frame ω r (State.issue s l) := by
  unfold State.issue
  try dsimp only
  with_reducible repeat' first | assumption | apply State.count_frame (hw.mono (by decide)) | apply State.setList_frame (hw.mono (by decide)) | refine Frame.foldl ?_ (fun s a h => ?_) | simp only [Frame.set_str (hw.mono (by decide))] | split

theorem State.drain_frame (hw : Within 0x800000 ω) {r s : State} {a1} (h : Frame ω r s) : Frame ω r (State.drain s a1) := by
  unfold State.drain
  try dsimp only
  with_reducible repeat' first | assumption | apply State.setList_frame (hw.mono (by decide)) | refine Frame.foldl ?_ (fun s a h => ?_) | split

theorem State.descFault_frame (hw : Within 0x20000 ω) {r s : State} {core} (h : Frame ω r s) : Frame ω r (State.descFault s core) := by
  unfold State.descFault
  try dsimp only
  with_reducible repeat' first | assumption | refine Frame.foldl ?_ (fun s a h => ?_) | simp only [Frame.set_tide (hw.mono (by decide))] | split

theorem State.noteSkip_frame (hw : Within 0x800000 ω) {r s : State} {a1} (h : Frame ω r s) : Frame ω r (State.noteSkip s a1) := by
  unfold State.noteSkip
  try dsimp only
  with_reducible repeat' first | assumption | apply State.setList_frame (hw.mono (by decide)) | refine Frame.foldl ?_ (fun s a h => ?_) | split

theorem State.logDone_frame (hw : Within 0x18000 ω) {r s : State} {a1} (h : Frame ω r s) : Frame ω r (State.logDone s a1) := by
  unfold State.logDone
  try dsimp only
  with_reducible repeat' first | assumption | apply State.logFull_frame (hw.mono (by decide)) | refine Frame.foldl ?_ (fun s a h => ?_) | split

theorem State.descDone_frame (hw : Within 0x818000 ω) {r s : State} {a1} (h : Frame ω r s) : Frame ω r (State.descDone s a1) := by
  unfold State.descDone
  try dsimp only
  with_reducible repeat' first | assumption | apply State.logDone_frame (hw.mono (by decide)) | apply State.setList_frame (hw.mono (by decide)) | refine Frame.foldl ?_ (fun s a h => ?_) | split

end Sys2Proof.Machine
end

