-- ==== Sys2Proof/Laws/RunAhead.lean ====
section
/-!
SUPPORT. Frames of the operations of Machine/RunAhead.lean (Laws/Frame.lean says what a frame is).
-/
namespace Sys2Proof.Machine

variable {ω : Nat}

theorem State.setPort_frame (hw : Within 0x2000000 ω) {r s : State} {core} {stream} {p} (h : Frame ω r s) : Frame ω r (State.setPort s core stream p) := by
  unfold State.setPort
  try dsimp only
  with_reducible repeat' first | assumption | refine Frame.foldl ?_ (fun s a h => ?_) | simp only [Frame.set_str (hw.mono (by decide))] | split

theorem State.sendItem_frame (hw : Within 0x2000000 ω) {r s : State} {core} {stream} {i} (h : Frame ω r s) : Frame ω r (State.sendItem s core stream i) := by
  unfold State.sendItem
  try dsimp only
  with_reducible repeat' first | assumption | apply State.setPort_frame (hw.mono (by decide)) | refine Frame.foldl ?_ (fun s a h => ?_) | split

theorem State.sendVoid_frame (hw : Within 0x2000040 ω) {r s : State} {core} {stream} (h : Frame ω r s) : Frame ω r (State.sendVoid s core stream) := by
  unfold State.sendVoid
  try dsimp only
  with_reducible repeat' first | assumption | apply State.orReg_frame (hw.mono (by decide)) | apply State.count_frame (hw.mono (by decide)) | apply State.sendItem_frame (hw.mono (by decide)) | refine Frame.foldl ?_ (fun s a h => ?_) | split

theorem State.startOp_frame (hw : Within 0x2000040 ω) {r s : State} {o} (h : Frame ω r s) : Frame ω r (State.startOp s o) := by
  unfold State.startOp
  try dsimp only
  with_reducible repeat' first | assumption | apply State.setReg_frame (hw.mono (by decide)) | apply State.orReg_frame (hw.mono (by decide)) | refine Frame.foldl ?_ (fun s a h => ?_) | simp only [Frame.set_str (hw.mono (by decide))] | split

theorem State.endOp_frame (hw : Within 0x2000000 ω) {r s : State} {id} (h : Frame ω r s) : Frame ω r (State.endOp s id) := by
  unfold State.endOp
  try dsimp only
  with_reducible repeat' first | assumption | refine Frame.foldl ?_ (fun s a h => ?_) | simp only [Frame.set_str (hw.mono (by decide))] | split

theorem State.setSd_frame (hw : Within 0x2000000 ω) {r s : State} {a1} (h : Frame ω r s) : Frame ω r (State.setSd s a1) := by
  unfold State.setSd
  try dsimp only
  with_reducible repeat' first | assumption | refine Frame.foldl ?_ (fun s a h => ?_) | simp only [Frame.set_str (hw.mono (by decide))] | split

theorem State.dropSd_frame (hw : Within 0x2000000 ω) {r s : State} {a1} (h : Frame ω r s) : Frame ω r (State.dropSd s a1) := by
  unfold State.dropSd
  try dsimp only
  with_reducible repeat' first | assumption | refine Frame.foldl ?_ (fun s a h => ?_) | simp only [Frame.set_str (hw.mono (by decide))] | split

theorem State.raGone_frame (hw : Within 0x2000040 ω) {r s : State} {a1} {bytes} {errs} (h : Frame ω r s) : Frame ω r (State.raGone s a1 bytes errs) := by
  unfold State.raGone
  try dsimp only
  with_reducible repeat' first | assumption | apply State.count_frame (hw.mono (by decide)) | refine Frame.foldl ?_ (fun s a h => ?_) | simp only [Frame.set_str (hw.mono (by decide))] | split

theorem State.cancelSd_frame (hw : Within 0x2000040 ω) {r s : State} {a1} (h : Frame ω r s) : Frame ω r (State.cancelSd s a1) := by
  unfold State.cancelSd
  try dsimp only
  with_reducible repeat' first | assumption | apply State.raGone_frame (hw.mono (by decide)) | refine Frame.foldl ?_ (fun s a h => ?_) | simp only [Frame.set_str (hw.mono (by decide))] | split

theorem State.cancelHead_frame (hw : Within 0x2000040 ω) {r s : State} {a1} (h : Frame ω r s) : Frame ω r (State.cancelHead s a1) := by
  unfold State.cancelHead
  try dsimp only
  with_reducible repeat' first | assumption | apply State.count_frame (hw.mono (by decide)) | apply State.setPort_frame (hw.mono (by decide)) | apply State.raGone_frame (hw.mono (by decide)) | apply State.sendVoid_frame (hw.mono (by decide)) | refine Frame.foldl ?_ (fun s a h => ?_) | simp only [Frame.set_str (hw.mono (by decide))] | split

theorem State.cancelRunAheads_frame (hw : Within 0x2000040 ω) {r s : State} {p} (h : Frame ω r s) : Frame ω r (State.cancelRunAheads s p) := by
  unfold State.cancelRunAheads
  try dsimp only
  with_reducible repeat' first | assumption | apply State.cancelSd_frame (hw.mono (by decide)) | apply State.cancelHead_frame (hw.mono (by decide)) | refine Frame.foldl ?_ (fun s a h => ?_) | split

end Sys2Proof.Machine
end

