-- ==== Sys2Proof/Laws/Restart.lean ====
section
/-!
SUPPORT. Frames of the operations of Machine/Restart.lean (Laws/Frame.lean says what a frame is).
-/
namespace Sys2Proof.Machine

variable {ω : Nat}

theorem State.setImage_frame (hw : Within 0x40000 ω) {r s : State} {a1} {i} (h : Frame ω r s) : Frame ω r (State.setImage s a1 i) := by
  unfold State.setImage
  try dsimp only
  with_reducible repeat' first | assumption | refine Frame.foldl ?_ (fun s a h => ?_) | simp only [Frame.set_images (hw.mono (by decide))] | split

theorem State.withdraw_frame (hw : Within 0x2058040 ω) {r s : State} {a1} {b} (h : Frame ω r s) : Frame ω r (State.withdraw s a1 b) := by
  unfold State.withdraw
  try dsimp only
  with_reducible repeat' first | assumption | apply State.log__frame (hw.mono (by decide)) | apply State.cancelRunAheads_frame (hw.mono (by decide)) | apply State.setImage_frame (hw.mono (by decide)) | refine Frame.foldl ?_ (fun s a h => ?_) | split

theorem State.withdrawAll_frame (hw : Within 0x2058040 ω) {r s : State}  (h : Frame ω r s) : Frame ω r (State.withdrawAll s) := by
  unfold State.withdrawAll
  try dsimp only
  with_reducible repeat' first | assumption | apply State.withdraw_frame (hw.mono (by decide)) | apply State.setImage_frame (hw.mono (by decide)) | refine Frame.foldl ?_ (fun s a h => ?_) | split

theorem State.stopIssue_frame (hw : Within 0x1406478040 ω) {r s : State}  (h : Frame ω r s) : Frame ω r (State.stopIssue s) := by
  unfold State.stopIssue
  try dsimp only
  with_reducible repeat' first | assumption | apply State.cancelRunAheads_frame (hw.mono (by decide)) | apply State.withdrawAll_frame (hw.mono (by decide)) | apply State.cutReports_frame (hw.mono (by decide)) | refine Frame.foldl ?_ (fun s a h => ?_) | simp only [Frame.set_tide (hw.mono (by decide))] | split

theorem State.snapEntry_frame (hw : Within 0x18000 ω) {r s : State} {seq} {failed} (h : Frame ω r s) : Frame ω r (State.snapEntry s seq failed) := by
  unfold State.snapEntry
  try dsimp only
  with_reducible repeat' first | assumption | apply State.log__frame (hw.mono (by decide)) | refine Frame.foldl ?_ (fun s a h => ?_) | split

theorem State.abandon_frame (hw : Within 0x200018040 ω) {r s : State}  (h : Frame ω r s) : Frame ω r (State.abandon s) := by
  unfold State.abandon
  try dsimp only
  with_reducible repeat' first | assumption | apply State.snapEntry_frame (hw.mono (by decide)) | apply State.orReg_frame (hw.mono (by decide)) | refine Frame.foldl ?_ (fun s a h => ?_) | simp only [Frame.set_snap (hw.mono (by decide))] | split

theorem State.masterAbort_frame (hw : Within 0x600418040 ω) {r s : State}  (h : Frame ω r s) : Frame ω r (State.masterAbort s) := by
  unfold State.masterAbort
  try dsimp only
  with_reducible repeat' first | assumption | apply State.abandon_frame (hw.mono (by decide)) | apply State.abandon_frame (hw.mono (by decide)) | apply State.sendTide_frame (hw.mono (by decide)) | refine Frame.foldl ?_ (fun s a h => ?_) | split

theorem State.restart_frame (hw : Within 0x1606578040 ω) {r s : State} {code} (h : Frame ω r s) : Frame ω r (State.restart s code) := by
  unfold State.restart
  try dsimp only
  with_reducible repeat' first | assumption | apply State.stopIssue_frame (hw.mono (by decide)) | apply State.masterAbort_frame (hw.mono (by decide)) | apply State.logFull_frame (hw.mono (by decide)) | apply State.orReg_frame (hw.mono (by decide)) | refine Frame.foldl ?_ (fun s a h => ?_) | simp only [Frame.set_job (hw.mono (by decide))] | split

theorem State.spareUsed_frame (hw : Within 0x1606578044 ω) {r s : State} {source} {cls} {failed} {spare} (h : Frame ω r s) : Frame ω r (State.spareUsed s source cls failed spare) := by
  unfold State.spareUsed
  try dsimp only
  with_reducible repeat' first | assumption | apply State.log__frame (hw.mono (by decide)) | apply State.trouble_frame (hw.mono (by decide)) | apply State.restart_frame (hw.mono (by decide)) | refine Frame.foldl ?_ (fun s a h => ?_) | split | (refine Frame.set_kept (hw.mono (by decide)) ?_)

theorem State.stopAsLost_frame (hw : Within 0x1406578040 ω) {r s : State}  (h : Frame ω r s) : Frame ω r (State.stopAsLost s) := by
  unfold State.stopAsLost
  try dsimp only
  with_reducible repeat' first | assumption | apply State.stopIssue_frame (hw.mono (by decide)) | refine Frame.foldl ?_ (fun s a h => ?_) | simp only [Frame.set_job (hw.mono (by decide))] | split

theorem State.lighthouseFail_frame (hw : Within 0x14065780c4 ω) {r s : State} {test} (h : Frame ω r s) : Frame ω r (State.lighthouseFail s test) := by
  unfold State.lighthouseFail
  try dsimp only
  with_reducible repeat' first | assumption | apply State.closeSessions_frame (hw.mono (by decide)) | apply State.stopAsLost_frame (hw.mono (by decide)) | apply State.logKept_frame (hw.mono (by decide)) | refine Frame.foldl ?_ (fun s a h => ?_) | simp only [Frame.set_lys (hw.mono (by decide))] | split

theorem State.drawBytes_frame1 (hw : Within 0x1000000000 ω) {r s : State} {n : Nat} (h : Frame ω r s) : Frame ω r (State.drawBytes s n).2 := by
  exact (Frame.set_free (hw.mono (by decide))).2 h

theorem State.drawBytes_frame (hw : Within 0x1000000000 ω) {r s : State} {n : Nat} {x} {t : State} (e : State.drawBytes s n = (x, t)) (h : Frame ω r s) : Frame ω r t := by
  have := State.drawBytes_frame1 (hw.mono (by decide)) (r := r) (s := s) (n := n) h
  rwa [e] at this

end Sys2Proof.Machine
end

