-- ==== Sys2Proof/Laws/Regions.lean ====
section
/-!
SUPPORT. Frames of the operations of Machine/Regions.lean (Laws/Frame.lean says what a frame is).
-/
namespace Sys2Proof.Machine

variable {ω : Nat}

theorem State.centrePairs_frame (hw : Within 0x200000 ω) {r s : State} {p} (h : Frame ω r s) : Frame ω r (State.centrePairs s p) := by
  unfold State.centrePairs
  try dsimp only
  with_reducible repeat' first | assumption | refine Frame.foldl ?_ (fun s a h => ?_) | simp only [Frame.set_pwr (hw.mono (by decide))] | split

theorem State.centre_frame (hw : Within 0x200000 ω) {r s : State} {p} (h : Frame ω r s) : Frame ω r (State.centre s p) := by
  unfold State.centre
  try dsimp only
  with_reducible repeat' first | assumption | apply State.centrePairs_frame (hw.mono (by decide)) | refine Frame.foldl ?_ (fun s a h => ?_) | split

theorem State.dropStrait_frame (hw : Within 0x200000 ω) {r s : State}  (h : Frame ω r s) : Frame ω r (State.dropStrait s) := by
  unfold State.dropStrait
  try dsimp only
  with_reducible repeat' first | assumption | refine Frame.foldl ?_ (fun s a h => ?_) | simp only [Frame.set_pwr (hw.mono (by decide))] | split

theorem State.setRegionMode_frame (hw : Within 0x40 ω) {r s : State} {a1} {m} (h : Frame ω r s) : Frame ω r (State.setRegionMode s a1 m) := by
  unfold State.setRegionMode
  try dsimp only
  with_reducible repeat' first | assumption | apply State.setField_frame (hw.mono (by decide)) | refine Frame.foldl ?_ (fun s a h => ?_) | split

theorem State.gate_frame (hw : Within 0x40 ω) {r s : State} {a1} (h : Frame ω r s) : Frame ω r (State.gate s a1) := by
  unfold State.gate
  try dsimp only
  with_reducible repeat' first | assumption | apply State.setRegionMode_frame (hw.mono (by decide)) | refine Frame.foldl ?_ (fun s a h => ?_) | split

theorem State.ungate_frame (hw : Within 0x200040 ω) {r s : State} {a1} (h : Frame ω r s) : Frame ω r (State.ungate s a1) := by
  unfold State.ungate
  try dsimp only
  with_reducible repeat' first | assumption | apply State.centre_frame (hw.mono (by decide)) | apply State.setRegionMode_frame (hw.mono (by decide)) | refine Frame.foldl ?_ (fun s a h => ?_) | split

theorem State.ungateBay_frame (hw : Within 0x200040 ω) {r s : State} {b} (h : Frame ω r s) : Frame ω r (State.ungateBay s b) := by
  unfold State.ungateBay
  try dsimp only
  with_reducible repeat' first | assumption | apply State.ungate_frame (hw.mono (by decide)) | refine Frame.foldl ?_ (fun s a h => ?_) | split

theorem State.gateFabric_frame (hw : Within 0x40 ω) {r s : State}  (h : Frame ω r s) : Frame ω r (State.gateFabric s) := by
  unfold State.gateFabric
  try dsimp only
  with_reducible repeat' first | assumption | apply State.gate_frame (hw.mono (by decide)) | refine Frame.foldl ?_ (fun s a h => ?_) | split

theorem State.recordGen_frame (hw : Within 0x4 ω) {r s : State} {g} (h : Frame ω r s) : Frame ω r (State.recordGen s g) := by
  unfold State.recordGen
  try dsimp only
  with_reducible repeat' first | assumption | refine Frame.foldl ?_ (fun s a h => ?_) | split | (refine Frame.set_kept (hw.mono (by decide)) ?_)

theorem State.genSwitch_frame (hw : Within 0x1606778044 ω) {r s : State} {a1} (h : Frame ω r s) : Frame ω r (State.genSwitch s a1) := by
  unfold State.genSwitch
  try dsimp only
  with_reducible repeat' first | assumption | apply State.recordGen_frame (hw.mono (by decide)) | apply State.setReg_frame (hw.mono (by decide)) | apply State.log__frame (hw.mono (by decide)) | apply State.orReg_frame (hw.mono (by decide)) | apply State.spareUsed_frame (hw.mono (by decide)) | apply State.centre_frame (hw.mono (by decide)) | apply State.restart_frame (hw.mono (by decide)) | apply State.setRegionMode_frame (hw.mono (by decide)) | refine Frame.foldl ?_ (fun s a h => ?_) | split

theorem State.bootStop_frame (hw : Within 0x40 ω) {r s : State} {stage} (h : Frame ω r s) : Frame ω r (State.bootStop s stage) := by
  unfold State.bootStop
  try dsimp only
  with_reducible repeat' first | assumption | apply State.setField_frame (hw.mono (by decide)) | refine Frame.foldl ?_ (fun s a h => ?_) | split

theorem State.domainFail_frame (hw : Within 0x44 ω) {r s : State} {a1} (h : Frame ω r s) : Frame ω r (State.domainFail s a1) := by
  unfold State.domainFail
  try dsimp only
  with_reducible repeat' first | assumption | apply State.orReg_frame (hw.mono (by decide)) | refine Frame.foldl ?_ (fun s a h => ?_) | split | (refine Frame.set_kept (hw.mono (by decide)) ?_)

theorem State.startGen_frame (hw : Within 0x44 ω) {r s : State} {a1} (h : Frame ω r s) : Frame ω r (State.startGen s a1) := by
  unfold State.startGen
  try dsimp only
  with_reducible repeat' first | assumption | apply State.domainFail_frame (hw.mono (by decide)) | apply State.orReg_frame (hw.mono (by decide)) | apply State.setField_frame (hw.mono (by decide)) | refine Frame.foldl ?_ (fun s a h => ?_) | split

theorem State.enterEnmora_frame (hw : Within 0x1606778044 ω) {r s : State}  (h : Frame ω r s) : Frame ω r (State.enterEnmora s) := by
  unfold State.enterEnmora
  try dsimp only
  with_reducible repeat' first | assumption | apply State.setField_frame (hw.mono (by decide)) | apply State.restart_frame (hw.mono (by decide)) | apply State.startGen_frame (hw.mono (by decide)) | apply State.trainPorts_frame (hw.mono (by decide)) | apply State.bootStop_frame (hw.mono (by decide)) | refine Frame.foldl ?_ (fun s a h => ?_) | simp only [Frame.set_enm_pwr (hw.mono (by decide))] | split

end Sys2Proof.Machine
end

