-- ==== Sys2Proof/Laws/Errors.lean ====
section
/-!
SUPPORT. Frames of the operations of Machine/Errors.lean (Laws/Frame.lean says what a frame is).
-/
namespace Sys2Proof.Machine

variable {ω : Nat}

theorem State.keepFirst_frame (hw : Within 0x100040 ω) {r s : State} {status} {mask} {flag} {info} {v} {core} (h : Frame ω r s) : Frame ω r (State.keepFirst s status mask flag info v core) := by
  unfold State.keepFirst
  try dsimp only
  with_reducible repeat' first | assumption | apply State.setReg_frame (hw.mono (by decide)) | apply State.orReg_frame (hw.mono (by decide)) | refine Frame.foldl ?_ (fun s a h => ?_) | simp only [Frame.set_job (hw.mono (by decide))] | split

theorem State.bktError_frame (hw : Within 0x1606578040 ω) {r s : State} {code} {id} {core} {tag} {srcDev} (h : Frame ω r s) : Frame ω r (State.bktError s code id core tag srcDev) := by
  unfold State.bktError
  try dsimp only
  with_reducible repeat' first | assumption | apply State.keepFirst_frame (hw.mono (by decide)) | apply State.logFull_frame (hw.mono (by decide)) | apply State.restart_frame (hw.mono (by decide)) | refine Frame.foldl ?_ (fun s a h => ?_) | split

theorem State.shelfError_frame (hw : Within 0x1606578040 ω) {r s : State} {code} {shelf} {depth} {flag} {info} {core} {tag} (h : Frame ω r s) : Frame ω r (State.shelfError s code shelf depth flag info core tag) := by
  unfold State.shelfError
  try dsimp only
  with_reducible repeat' first | assumption | apply State.keepFirst_frame (hw.mono (by decide)) | apply State.logFull_frame (hw.mono (by decide)) | apply State.restart_frame (hw.mono (by decide)) | refine Frame.foldl ?_ (fun s a h => ?_) | split

theorem State.updError_frame (hw : Within 0x1606578040 ω) {r s : State} {code} {record} {flag} {info} {core} {tag} (h : Frame ω r s) : Frame ω r (State.updError s code record flag info core tag) := by
  unfold State.updError
  try dsimp only
  with_reducible repeat' first | assumption | apply State.keepFirst_frame (hw.mono (by decide)) | apply State.logFull_frame (hw.mono (by decide)) | apply State.restart_frame (hw.mono (by decide)) | refine Frame.foldl ?_ (fun s a h => ?_) | split

theorem State.streamErr_frame (hw : Within 0x18040 ω) {r s : State} {a1} {addr} (h : Frame ω r s) : Frame ω r (State.streamErr s a1 addr) := by
  unfold State.streamErr
  try dsimp only
  with_reducible repeat' first | assumption | apply State.logFull_frame (hw.mono (by decide)) | apply State.orReg_frame (hw.mono (by decide)) | refine Frame.foldl ?_ (fun s a h => ?_) | split

theorem State.opUnreachable_frame (hw : Within 0x1606578040 ω) {r s : State} {o} (h : Frame ω r s) : Frame ω r (State.opUnreachable s o) := by
  unfold State.opUnreachable
  try dsimp only
  with_reducible repeat' first | assumption | apply State.endOp_frame (hw.mono (by decide)) | apply State.restart_frame (hw.mono (by decide)) | apply State.streamErr_frame (hw.mono (by decide)) | apply State.setSd_frame (hw.mono (by decide)) | refine Frame.foldl ?_ (fun s a h => ?_) | split

theorem State.scaleFault_frame (hw : Within 0x1606578040 ω) {r s : State}  (h : Frame ω r s) : Frame ω r (State.scaleFault s) := by
  unfold State.scaleFault
  try dsimp only
  with_reducible repeat' first | assumption | apply State.restart_frame (hw.mono (by decide)) | apply State.orReg_frame (hw.mono (by decide)) | refine Frame.foldl ?_ (fun s a h => ?_) | split

end Sys2Proof.Machine
end

