-- ==== Sys2Proof/Laws/Vector.lean ====
section
/-!
SUPPORT. Frames of the operations of Machine/Vector.lean (Laws/Frame.lean says what a frame is).
-/
namespace Sys2Proof.Machine

variable {ω : Nat}

theorem State.setArr_frame (hw : Within 0x4000000 ω) {r s : State} {core} {a} (h : Frame ω r s) : Frame ω r (State.setArr s core a) := by
  unfold State.setArr
  try dsimp only
  with_reducible repeat' first | assumption | refine Frame.foldl ?_ (fun s a h => ?_) | simp only [Frame.set_cores (hw.mono (by decide))] | split

theorem State.checkCopy_frame (hw : Within 0x1606578040 ω) {r s : State} {core} {a2} (h : Frame ω r s) : Frame ω r (State.checkCopy s core a2) := by
  unfold State.checkCopy
  try dsimp only
  with_reducible repeat' first | assumption | apply State.scaleFault_frame (hw.mono (by decide)) | refine Frame.foldl ?_ (fun s a h => ?_) | split

theorem State.drawBlocks_frame1 (hw : Within 0x4000000 ω) {r s : State} {core kind n : Nat} (h : Frame ω r s) : Frame ω r (State.drawBlocks s core kind n).2 := by
  exact State.setArr_frame (hw.mono (by decide)) h

theorem State.drawBlocks_frame (hw : Within 0x4000000 ω) {r s : State} {core kind n : Nat} {x} {t : State} (e : State.drawBlocks s core kind n = (x, t)) (h : Frame ω r s) : Frame ω r t := by
  have := State.drawBlocks_frame1 (hw.mono (by decide)) (r := r) (s := s) (core := core) (kind := kind) (n := n) h
  rwa [e] at this

theorem State.drawLanes_frame1 (hw : Within 0x4000000 ω) {r s : State} {core : Nat} (h : Frame ω r s) : Frame ω r (State.drawLanes s core).2 := by
  show Frame ω r (s.drawBlocks core 0 8).2
  exact State.drawBlocks_frame1 (hw.mono (by decide)) h

theorem State.drawLanes_frame (hw : Within 0x4000000 ω) {r s : State} {core : Nat} {x} {t : State} (e : State.drawLanes s core = (x, t)) (h : Frame ω r s) : Frame ω r t := by
  have := State.drawLanes_frame1 (hw.mono (by decide)) (r := r) (s := s) (core := core) h
  rwa [e] at this

theorem State.countLoss_frame (hw : Within 0x8000040 ω) {r s : State} {core} {f} {rec_} {l} (h : Frame ω r s) : Frame ω r (State.countLoss s core f rec_ l) := by
  unfold State.countLoss
  try dsimp only
  with_reducible repeat' first | assumption | apply State.count_frame (hw.mono (by decide)) | refine Frame.foldl ?_ (fun s a h => ?_) | simp only [Frame.set_nums (hw.mono (by decide))] | split

theorem State.countLosses_frame (hw : Within 0x8000040 ω) {r s : State} {core} {f} {rec_} {ls} (h : Frame ω r s) : Frame ω r (State.countLosses s core f rec_ ls) := by
  unfold State.countLosses
  try dsimp only
  with_reducible repeat' first | assumption | apply State.countLoss_frame (hw.mono (by decide)) | refine Frame.foldl ?_ (fun s a h => ?_) | split

theorem State.countElems_frame (hw : Within 0x8000040 ω) {r s : State} {core} {f} {codes} {scales} (h : Frame ω r s) : Frame ω r (State.countElems s core f codes scales) := by
  unfold State.countElems
  try dsimp only
  with_reducible repeat' first | assumption | apply State.countLosses_frame (hw.mono (by decide)) | refine Frame.foldl ?_ (fun s a h => ?_) | split

theorem State.countWide_frame (hw : Within 0x8000040 ω) {r s : State} {core} {f} {ws} (h : Frame ω r s) : Frame ω r (State.countWide s core f ws) := by
  unfold State.countWide
  try dsimp only
  with_reducible repeat' first | assumption | apply State.countLosses_frame (hw.mono (by decide)) | refine Frame.foldl ?_ (fun s a h => ?_) | split

theorem State.foldAmax_frame (hw : Within 0x4000000 ω) {r s : State} {core} {idx} {ws} (h : Frame ω r s) : Frame ω r (State.foldAmax s core idx ws) := by
  unfold State.foldAmax
  try dsimp only
  with_reducible repeat' first | assumption | apply State.setArr_frame (hw.mono (by decide)) | refine Frame.foldl ?_ (fun s a h => ?_) | split

theorem State.writeResult_frame (hw : Within 0x10c006040 ω) {r s : State} {core} {own} {i} {d} {m} {vs} (h : Frame ω r s) : Frame ω r (State.writeResult s core own i d m vs) := by
  unfold State.writeResult
  try dsimp only
  with_reducible repeat' first | assumption | apply State.drawLanes_frame1 (hw.mono (by decide)) | apply State.foldAmax_frame (hw.mono (by decide)) | apply State.countLosses_frame (hw.mono (by decide)) | apply State.setArr_frame (hw.mono (by decide)) | apply State.store_frame (hw.mono (by decide)) | (refine State.drawLanes_frame (hw.mono (by decide)) (by assumption) ?_) | refine Frame.foldl ?_ (fun s a h => ?_) | split

theorem State.rngVec_frame1 (hw : Within 0x4000000 ω) {r s : State} {core : Nat} (h : Frame ω r s) : Frame ω r (State.rngVec s core).2 := by
  show Frame ω r (s.drawBlocks core 1 Config.rngBlocks).2
  exact State.drawBlocks_frame1 (hw.mono (by decide)) h

theorem State.rngVec_frame (hw : Within 0x4000000 ω) {r s : State} {core : Nat} {x} {t : State} (e : State.rngVec s core = (x, t)) (h : Frame ω r s) : Frame ω r t := by
  have := State.rngVec_frame1 (hw.mono (by decide)) (r := r) (s := s) (core := core) h
  rwa [e] at this

theorem State.countSrc_frame (hw : Within 0x8000040 ω) {r s v : State} {core i d three sp addr stride} (h : Frame ω r s) : Frame ω r (s.countSrc v core i d three sp addr stride) := by
  unfold State.countSrc
  dsimp only
  split
  · exact State.countElems_frame (hw.mono (by decide)) h
  · exact h

theorem State.vodVector_frame (hw : Within 0x110c006040 ω) {r s : State} {core} {own} {d} {m} {i} {drain} (h : Frame ω r s) : Frame ω r (State.vodVector s core own d m i drain) := by
  unfold State.vodVector
  try dsimp only
  with_reducible repeat' first | assumption | apply State.rngVec_frame1 (hw.mono (by decide)) | apply State.writeResult_frame (hw.mono (by decide)) | apply State.countSrc_frame (hw.mono (by decide)) | (refine State.rngVec_frame (hw.mono (by decide)) (by assumption) ?_) | refine Frame.foldl ?_ (fun s a h => ?_) | simp only [Frame.set_free (hw.mono (by decide))] | split

theorem State.vodVectors_frame (hw : Within 0x110c006040 ω) {r s : State} {core} {d} (h : Frame ω r s) : Frame ω r (State.vodVectors s core d) := by
  unfold State.vodVectors
  try dsimp only
  with_reducible repeat' first | assumption | apply State.vodVector_frame (hw.mono (by decide)) | refine Frame.foldl ?_ (fun s a h => ?_) | split

theorem State.vod_frame (hw : Within 0x170ed7e040 ω) {r s : State} {core} {num} {op} (h : Frame ω r s) : Frame ω r (State.vod s core num op) := by
  unfold State.vod
  try dsimp only
  with_reducible repeat' first | assumption | apply State.descFault_frame (hw.mono (by decide)) | apply State.drain_frame (hw.mono (by decide)) | apply State.vodVectors_frame (hw.mono (by decide)) | apply State.checkCopy_frame (hw.mono (by decide)) | apply State.issue_frame (hw.mono (by decide)) | refine Frame.foldl ?_ (fun s a h => ?_) | split

end Sys2Proof.Machine
end

