-- ==== Sys2Proof/Laws/Bay.lean ====
section
/-!
SUPPORT. Frames of the operations of Machine/Bay.lean (Laws/Frame.lean says what a frame is).
-/
namespace Sys2Proof.Machine

variable {ω : Nat}

theorem State.threadSpare_frame (hw : Within 0x1606578044 ω) {r s : State} {core} (h : Frame ω r s) : Frame ω r (State.threadSpare s core) := by
  unfold State.threadSpare
  try dsimp only
  with_reducible repeat' first | assumption | apply State.orReg_frame (hw.mono (by decide)) | apply State.setReg_frame (hw.mono (by decide)) | apply State.setArr_frame (hw.mono (by decide)) | apply State.spareUsed_frame (hw.mono (by decide)) | refine Frame.foldl ?_ (fun s a h => ?_) | split | (refine Frame.set_kept (hw.mono (by decide)) ?_)

theorem State.rowDue_frame (hw : Within 0x40 ω) {r s : State} {core} {a2} (h : Frame ω r s) : Frame ω r (State.rowDue s core a2) := by
  unfold State.rowDue
  try dsimp only
  with_reducible repeat' first | assumption | apply State.setField_frame (hw.mono (by decide)) | refine Frame.foldl ?_ (fun s a h => ?_) | split

theorem State.mapRow_frame (hw : Within 0x1606578044 ω) {r s : State} {core} (h : Frame ω r s) : Frame ω r (State.mapRow s core) := by
  unfold State.mapRow
  try dsimp only
  with_reducible repeat' first | assumption | apply State.spareUsed_frame (hw.mono (by decide)) | apply State.setReg_frame (hw.mono (by decide)) | refine Frame.foldl ?_ (fun s a h => ?_) | split

theorem State.applyRows_frame (hw : Within 0x1606578044 ω) {r s : State}  (h : Frame ω r s) : Frame ω r (State.applyRows s) := by
  unfold State.applyRows
  try dsimp only
  with_reducible repeat' first | assumption | apply State.mapRow_frame (hw.mono (by decide)) | refine Frame.foldl ?_ (fun s a h => ?_) | split

theorem State.bayOutcome_frame (hw : Within 0x18040 ω) {r s : State} {b} {tag} {opcode} {outcome} (h : Frame ω r s) : Frame ω r (State.bayOutcome s b tag opcode outcome) := by
  unfold State.bayOutcome
  try dsimp only
  with_reducible repeat' first | assumption | apply State.log__frame (hw.mono (by decide)) | apply State.setReg_frame (hw.mono (by decide)) | refine Frame.foldl ?_ (fun s a h => ?_) | split

theorem State.releaseBay_frame (hw : Within 0x800008040 ω) {r s : State} {b} (h : Frame ω r s) : Frame ω r (State.releaseBay s b) := by
  unfold State.releaseBay
  try dsimp only
  with_reducible repeat' first | assumption | apply State.andNotReg_frame (hw.mono (by decide)) | refine Frame.foldl ?_ (fun s a h => ?_) | simp only [Frame.set_bay (hw.mono (by decide))] | simp only [Frame.set_enm (hw.mono (by decide))] | simp only [Frame.set_enm_bay (hw.mono (by decide))] | split

theorem State.bayOrder_frame (hw : Within 0x800018040 ω) {r s : State} {b op} {act : State → Half → State × Nat} (hf : ∀ s g, Frame ω r s → Frame ω r (act s g).1) (h : Frame ω r s) :
    Frame ω r (s.bayOrder b op act) := by
  unfold State.bayOrder
  dsimp only
  with_reducible repeat' first | assumption | apply hf | apply State.releaseBay_frame (hw.mono (by decide)) | apply State.bayOutcome_frame (hw.mono (by decide)) | apply State.headerFault_frame (hw.mono (by decide)) | refine Frame.foldl ?_ (fun s a h => ?_) | split

theorem State.schedule_frame (hw : Within 0x800000000 ω) {r s : State} {b} {tag} {op} {boundary} {arg} (h : Frame ω r s) : Frame ω r (State.schedule s b tag op boundary arg) := by
  unfold State.schedule
  try dsimp only
  with_reducible repeat' first | assumption | refine Frame.foldl ?_ (fun s a h => ?_) | simp only [Frame.set_bay (hw.mono (by decide))] | split

theorem State.applied_frame (hw : Within 0x40 ω) {r s : State} {o} (h : Frame ω r s) : Frame ω r (State.applied s o) := by
  unfold State.applied
  try dsimp only
  with_reducible repeat' first | assumption | apply State.setReg_frame (hw.mono (by decide)) | refine Frame.foldl ?_ (fun s a h => ?_) | split

theorem State.applyOrder_frame (hw : Within 0x1606578044 ω) {r s : State} {o} (h : Frame ω r s) : Frame ω r (State.applyOrder s o) := by
  unfold State.applyOrder
  try dsimp only
  with_reducible repeat' first | assumption | apply State.threadSpare_frame (hw.mono (by decide)) | apply State.mapRow_frame (hw.mono (by decide)) | apply State.setField_frame (hw.mono (by decide)) | apply State.applied_frame (hw.mono (by decide)) | refine Frame.foldl ?_ (fun s a h => ?_) | split

theorem State.applyOrders_frame (hw : Within 0x1e06578044 ω) {r s : State} {k} (h : Frame ω r s) : Frame ω r (State.applyOrders s k) := by
  unfold State.applyOrders
  try dsimp only
  with_reducible repeat' first | assumption | apply State.applyOrder_frame (hw.mono (by decide)) | refine Frame.foldl ?_ (fun s a h => ?_) | simp only [Frame.set_bay (hw.mono (by decide))] | split

theorem State.rowsDue_frame (hw : Within 0x40 ω) {r s : State} {k} (h : Frame ω r s) : Frame ω r (State.rowsDue s k) := by
  unfold State.rowsDue
  try dsimp only
  with_reducible repeat' first | assumption | apply State.rowDue_frame (hw.mono (by decide)) | refine Frame.foldl ?_ (fun s a h => ?_) | split

theorem State.loseBay_frame (hw : Within 0x6002040 ω) {r s : State} {b} (h : Frame ω r s) : Frame ω r (s.loseBay b) := by
  unfold State.loseBay
  dsimp only
  exact Frame.of h (mem := fun w => by dsimp only; exact Memory.dropKeys_wf _ _ w) (c_cores := .inr (hw.mono (by decide))) (regs := fun w => by dsimp only; exact Sparse.dropKeys_wf _ _ _ w)

theorem State.bayPower_frame (hw : Within 0x6202040 ω) {r s : State} {b} {a2} {x} {t : State} (e : State.bayPower s b a2 = (t, x)) (h : Frame ω r s) : Frame ω r t := by
  unfold State.bayPower at e
  try dsimp only at e
  repeat' (split at e)
  all_goals first | cases e | skip
  all_goals with_reducible repeat' first | assumption | apply State.loseBay_frame (hw.mono (by decide)) | apply State.setRegionMode_frame (hw.mono (by decide)) | apply State.gate_frame (hw.mono (by decide)) | apply State.ungateBay_frame (hw.mono (by decide)) | refine Frame.foldl ?_ (fun s a h => ?_) | split

theorem State.bayPower_frame1 (hw : Within 0x6202040 ω) {r s : State} {b} {a2} (h : Frame ω r s) : Frame ω r (State.bayPower s b a2).1 :=
  State.bayPower_frame (hw.mono (by decide)) rfl h

theorem execBayPower_frame (hw : Within 0x80621a040 ω) {r s : State} {b} {a1} (h : Frame ω r s) : FrameO ω r (execBayPower b a1 s) := by
  unfold execBayPower
  try dsimp only
  with_reducible repeat' first | assumption | apply FrameO.next | refine State.bayOrder_frame (hw.mono (by decide)) (fun s g h => ?_) ?_ | apply State.bayPower_frame1 (hw.mono (by decide)) | (refine State.bayPower_frame (hw.mono (by decide)) (by assumption) ?_) | refine Frame.foldl ?_ (fun s a h => ?_) | split

theorem execBayCoreMap_frame (hw : Within 0x800018040 ω) {r s : State} {b} {pos} {boundary} (h : Frame ω r s) : FrameO ω r (execBayCoreMap b pos boundary s) := by
  unfold execBayCoreMap
  try dsimp only
  with_reducible repeat' first | assumption | apply FrameO.next | refine State.bayOrder_frame (hw.mono (by decide)) (fun s g h => ?_) ?_ | apply State.schedule_frame (hw.mono (by decide)) | refine Frame.foldl ?_ (fun s a h => ?_) | split

theorem execBayRowMap_frame (hw : Within 0x800018040 ω) {r s : State} {b} {pos} {row} {boundary} (h : Frame ω r s) : FrameO ω r (execBayRowMap b pos row boundary s) := by
  unfold execBayRowMap
  try dsimp only
  with_reducible repeat' first | assumption | apply FrameO.next | refine State.bayOrder_frame (hw.mono (by decide)) (fun s g h => ?_) ?_ | apply State.schedule_frame (hw.mono (by decide)) | apply State.rowDue_frame (hw.mono (by decide)) | refine Frame.foldl ?_ (fun s a h => ?_) | split

theorem execBayClkgen_frame (hw : Within 0x1e06778044 ω) {r s : State} {b} (h : Frame ω r s) : FrameO ω r (execBayClkgen b s) := by
  unfold execBayClkgen
  try dsimp only
  with_reducible repeat' first | assumption | apply FrameO.next | refine State.bayOrder_frame (hw.mono (by decide)) (fun s g h => ?_) ?_ | apply State.centre_frame (hw.mono (by decide)) | apply State.spareUsed_frame (hw.mono (by decide)) | apply State.setReg_frame (hw.mono (by decide)) | refine Frame.foldl ?_ (fun s a h => ?_) | split

theorem execBaySelftest_frame (hw : Within 0x800018040 ω) {r s : State} {b} {named} {faulty} (h : Frame ω r s) : FrameO ω r (execBaySelftest b named faulty s) := by
  unfold execBaySelftest
  try dsimp only
  with_reducible repeat' first | assumption | apply FrameO.next | refine State.bayOrder_frame (hw.mono (by decide)) (fun s g h => ?_) ?_ | apply State.setReg_frame (hw.mono (by decide)) | refine Frame.foldl ?_ (fun s a h => ?_) | split

theorem State.gateBays_frame (hw : Within 0x200040 ω) {r s : State} {k} (h : Frame ω r s) : Frame ω r (State.gateBays s k) := by
  unfold State.gateBays
  try dsimp only
  with_reducible repeat' first | assumption | apply State.ungateBay_frame (hw.mono (by decide)) | apply State.gate_frame (hw.mono (by decide)) | apply State.gateFabric_frame (hw.mono (by decide)) | refine Frame.foldl ?_ (fun s a h => ?_) | split

end Sys2Proof.Machine
end

