-- ==== Sys2Proof/Laws/Power.lean ====
section
/-!
SUPPORT. Frames of the operations of Machine/Power.lean (Laws/Frame.lean says what a frame is).
-/
namespace Sys2Proof.Machine

variable {ω : Nat}

theorem State.setRegionDyn_frame (hw : Within 0x200000 ω) {r s : State} {a1} {d} (h : Frame ω r s) : Frame ω r (State.setRegionDyn s a1 d) := by
  unfold State.setRegionDyn
  try dsimp only
  with_reducible repeat' first | assumption | refine Frame.foldl ?_ (fun s a h => ?_) | simp only [Frame.set_pwr (hw.mono (by decide))] | split

theorem State.addAhead_frame (hw : Within 0x200000 ω) {r s : State} {a} {b} {d} (h : Frame ω r s) : Frame ω r (State.addAhead s a b d) := by
  unfold State.addAhead
  try dsimp only
  with_reducible repeat' first | assumption | refine Frame.foldl ?_ (fun s a h => ?_) | simp only [Frame.set_pwr (hw.mono (by decide))] | split

theorem State.noteSlip_frame (hw : Within 0x40 ω) {r s : State} {a1} {o} (h : Frame ω r s) : Frame ω r (State.noteSlip s a1 o) := by
  unfold State.noteSlip
  try dsimp only
  with_reducible repeat' first | assumption | apply State.setReg_frame (hw.mono (by decide)) | refine Frame.foldl ?_ (fun s a h => ?_) | split

theorem State.swellNow_frame (hw : Within 0x200040 ω) {r s : State} {a1} {gap} (h : Frame ω r s) : Frame ω r (State.swellNow s a1 gap) := by
  unfold State.swellNow
  try dsimp only
  with_reducible repeat' first | assumption | apply State.setRegionDyn_frame (hw.mono (by decide)) | apply State.count_frame (hw.mono (by decide)) | apply State.noteSlip_frame (hw.mono (by decide)) | apply State.addAhead_frame (hw.mono (by decide)) | refine Frame.foldl ?_ (fun s a h => ?_) | split

theorem State.warned_frame (hw : Within 0x200040 ω) {r s : State} {a1} {gap} (h : Frame ω r s) : Frame ω r (State.warned s a1 gap) := by
  unfold State.warned
  try dsimp only
  with_reducible repeat' first | assumption | apply State.setRegionDyn_frame (hw.mono (by decide)) | apply State.swellNow_frame (hw.mono (by decide)) | refine Frame.foldl ?_ (fun s a h => ?_) | split

theorem execSwell_frame (hw : Within 0x200040 ω) {r s : State} {a0} {gap} (h : Frame ω r s) : FrameO ω r (execSwell a0 gap s) := by
  unfold execSwell
  try dsimp only
  with_reducible repeat' first | assumption | apply FrameO.next | apply State.warned_frame (hw.mono (by decide)) | refine Frame.foldl ?_ (fun s a h => ?_) | split

theorem execXingHold_frame (hw : Within 0x200040 ω) {r s : State} {a0} {o} (h : Frame ω r s) : FrameO ω r (execXingHold a0 o s) := by
  unfold execXingHold
  try dsimp only
  with_reducible repeat' first | assumption | apply FrameO.next | apply State.addAhead_frame (hw.mono (by decide)) | apply State.count_frame (hw.mono (by decide)) | refine Frame.foldl ?_ (fun s a h => ?_) | split

theorem State.lower_frame (hw : Within 0x200040 ω) {r s : State} {hs} {split} {cause} (h : Frame ω r s) : Frame ω r (State.lower s hs split cause) := by
  unfold State.lower
  try dsimp only
  with_reducible repeat' first | assumption | apply State.syncProf_frame (hw.mono (by decide)) | refine Frame.foldl ?_ (fun s a h => ?_) | simp only [Frame.set_pwr (hw.mono (by decide))] | split

theorem State.thermal_frame (hw : Within 0x200040 ω) {r s : State}  (h : Frame ω r s) : Frame ω r (State.thermal s) := by
  unfold State.thermal
  try dsimp only
  with_reducible repeat' first | assumption | apply State.lower_frame (hw.mono (by decide)) | refine Frame.foldl ?_ (fun s a h => ?_) | split

theorem execJunctionSample_frame (hw : Within 0x100300040 ω) {r s : State} {sample} (h : Frame ω r s) : FrameO ω r (execJunctionSample sample s) := by
  unfold execJunctionSample
  try dsimp only
  with_reducible repeat' first | assumption | apply FrameO.next | apply State.setReg_frame (hw.mono (by decide)) | apply State.thermal_frame (hw.mono (by decide)) | refine Frame.foldl ?_ (fun s a h => ?_) | simp only [Frame.set_job_memc (hw.mono (by decide))] | simp only [Frame.set_pwr (hw.mono (by decide))] | split

theorem execMarginLow_frame (hw : Within 0x218040 ω) {r s : State} {a0} (h : Frame ω r s) : FrameO ω r (execMarginLow a0 s) := by
  unfold execMarginLow
  try dsimp only
  with_reducible repeat' first | assumption | apply FrameO.next | apply State.setRegionDyn_frame (hw.mono (by decide)) | apply State.log__frame (hw.mono (by decide)) | apply State.count_frame (hw.mono (by decide)) | apply State.orReg_frame (hw.mono (by decide)) | apply State.lower_frame (hw.mono (by decide)) | refine Frame.foldl ?_ (fun s a h => ?_) | simp only [Frame.set_pwr (hw.mono (by decide))] | split

theorem execPmbusPoll_frame (hw : Within 0x200040 ω) {r s : State} {reads} (h : Frame ω r s) : FrameO ω r (execPmbusPoll reads s) := by
  unfold execPmbusPoll
  try dsimp only
  with_reducible repeat' first | assumption | apply FrameO.next | apply State.setReg_frame (hw.mono (by decide)) | apply State.lower_frame (hw.mono (by decide)) | apply State.orReg_frame (hw.mono (by decide)) | refine Frame.foldl ?_ (fun s a h => ?_) | simp only [Frame.set_pwr (hw.mono (by decide))] | split

theorem execVrFault_frame (hw : Within 0x1000018000 ω) {r s : State} {addr} {status} (h : Frame ω r s) : FrameO ω r (execVrFault addr status s) := by
  unfold execVrFault
  try dsimp only
  with_reducible repeat' first | assumption | apply FrameO.next | apply State.log__frame (hw.mono (by decide)) | apply State.draw_frame1 (hw.mono (by decide)) | (refine State.draw_frame (hw.mono (by decide)) (by assumption) ?_) | refine Frame.foldl ?_ (fun s a h => ?_) | split

theorem State.rise_frame (hw : Within 0x200040 ω) {r s : State} {a1} (h : Frame ω r s) : Frame ω r (State.rise s a1) := by
  unfold State.rise
  try dsimp only
  with_reducible repeat' first | assumption | apply State.syncProf_frame (hw.mono (by decide)) | refine Frame.foldl ?_ (fun s a h => ?_) | simp only [Frame.set_pwr (hw.mono (by decide))] | split

theorem execCeilingRise_frame (hw : Within 0x200040 ω) {r s : State} {half} (h : Frame ω r s) : FrameO ω r (execCeilingRise half s) := by
  unfold execCeilingRise
  try dsimp only
  with_reducible repeat' first | assumption | apply FrameO.next | apply State.rise_frame (hw.mono (by decide)) | refine Frame.foldl ?_ (fun s a h => ?_) | split

theorem State.trip_frame (hw : Within 0x13804c ω) {r s : State} {sensor reading} (h : Frame ω r s) : Frame ω r (s.trip sensor reading) := by
  have k : Frame ω r ((List.range 20).foldl State.gate s) := Frame.foldl h fun _ _ h => State.gate_frame (hw.mono (by decide)) h
  unfold State.trip
  dsimp only
  generalize (List.range 20).foldl State.gate s = e at k ⊢
  exact State.log__frame (hw.mono (by decide)) (Frame.of k)

theorem execThermtrip_frame (hw : Within 0x13804c ω) {r s : State} {sensor} {reading} (h : Frame ω r s) : FrameO ω r (execThermtrip sensor reading s) := by
  unfold execThermtrip
  try dsimp only
  with_reducible repeat' first | assumption | apply FrameO.next | apply State.trip_frame (hw.mono (by decide)) | refine Frame.foldl ?_ (fun s a h => ?_) | split

theorem execGenFail_frame (hw : Within 0x1606778044 ω) {r s : State} {a0} (h : Frame ω r s) : FrameO ω r (execGenFail a0 s) := by
  unfold execGenFail
  try dsimp only
  with_reducible repeat' first | assumption | apply FrameO.next | apply State.genSwitch_frame (hw.mono (by decide)) | refine Frame.foldl ?_ (fun s a h => ?_) | split

theorem execGenFreqWindow_frame (hw : Within 0x1606778044 ω) {r s : State} {a0} {standby} {cycles} (h : Frame ω r s) : FrameO ω r (execGenFreqWindow a0 standby cycles s) := by
  unfold execGenFreqWindow
  try dsimp only
  with_reducible repeat' first | assumption | apply FrameO.next | apply State.setField_frame (hw.mono (by decide)) | apply State.recordGen_frame (hw.mono (by decide)) | apply State.genSwitch_frame (hw.mono (by decide)) | refine Frame.foldl ?_ (fun s a h => ?_) | split

theorem State.pllFault_frame (hw : Within 0x140657804c ω) {r s : State} {d} (h : Frame ω r s) : Frame ω r (s.pllFault d) := by
  have k := State.stopAsLost_frame (hw.mono (by decide)) h
  unfold State.pllFault
  dsimp only
  generalize s.stopAsLost = e at k ⊢
  exact Frame.of k

theorem execFixedPllLoss_frame (hw : Within 0x140657804c ω) {r s : State} {d} (h : Frame ω r s) : FrameO ω r (execFixedPllLoss d s) := by
  unfold execFixedPllLoss
  try dsimp only
  with_reducible repeat' first | assumption | apply FrameO.next | apply State.pllFault_frame (hw.mono (by decide)) | refine Frame.foldl ?_ (fun s a h => ?_) | split

end Sys2Proof.Machine
end

