-- ==== Sys2Proof/Laws/RegAccess.lean ====
section
/-!
SUPPORT. Frames of the operations of Machine/RegAccess.lean (Laws/Frame.lean says what a frame is).
-/
namespace Sys2Proof.Machine

variable {ω : Nat}

theorem State.readEffect_frame (hw : Within 0x180c0 ω) {r s : State} {q} {k} (h : Frame ω r s) : Frame ω r (State.readEffect s q k) := by
  unfold State.readEffect
  try dsimp only
  with_reducible repeat' first | assumption | apply State.setOwn_frame (hw.mono (by decide)) | apply State.takeNext_frame (hw.mono (by decide)) | apply State.setReg_frame (hw.mono (by decide)) | refine Frame.foldl ?_ (fun s a h => ?_) | split

theorem State.readRegs_frame1 (hw : Within 0x180c0 ω) {r s : State} {q k n : Nat} (h : Frame ω r s) : Frame ω r (s.readRegs q k n).2 := by
  induction n generalizing s k with
  | zero => exact h
  | succ n ih => exact ih (State.readEffect_frame (hw.mono (by decide)) h)

theorem State.readRegs_frame (hw : Within 0x180c0 ω) {r s : State} {q k n : Nat} {x} {t : State} (e : s.readRegs q k n = (x, t)) (h : Frame ω r s) : Frame ω r t := by
  have := State.readRegs_frame1 (hw.mono (by decide)) (q := q) (k := k) (n := n) h
  rwa [e] at this

theorem State.holdThrottled_frame (hw : Within 0x40 ω) {r s : State}  (h : Frame ω r s) : Frame ω r (State.holdThrottled s) := by
  unfold State.holdThrottled
  try dsimp only
  with_reducible repeat' first | assumption | apply State.orReg_frame (hw.mono (by decide)) | refine Frame.foldl ?_ (fun s a h => ?_) | split

theorem State.holdJit_frame (hw : Within 0x40 ω) {r s : State} {k} (h : Frame ω r s) : Frame ω r (State.holdJit s k) := by
  unfold State.holdJit
  try dsimp only
  with_reducible repeat' first | assumption | apply State.orReg_frame (hw.mono (by decide)) | refine Frame.foldl ?_ (fun s a h => ?_) | split

theorem State.submitProf_frame (hw : Within 0x200040 ω) {r s : State} {v} (h : Frame ω r s) : Frame ω r (State.submitProf s v) := by
  unfold State.submitProf
  try dsimp only
  with_reducible repeat' first | assumption | apply State.orReg_frame (hw.mono (by decide)) | apply State.setReg_frame (hw.mono (by decide)) | apply State.acceptProf_frame (hw.mono (by decide)) | refine Frame.foldl ?_ (fun s a h => ?_) | split

theorem State.writeAlarm_frame (hw : Within 0x1c00 ω) {r s : State} {q} {k} {v} {mark} (h : Frame ω r s) : Frame ω r (State.writeAlarm s q k v mark) := by
  unfold State.writeAlarm
  try dsimp only
  with_reducible repeat' first | assumption | apply State.override_frame (hw.mono (by decide)) | refine Frame.foldl ?_ (fun s a h => ?_) | simp only [Frame.set_alarmHi (hw.mono (by decide))] | simp only [Frame.set_alarmLo (hw.mono (by decide))] | split

theorem State.overrideReg_frame (hw : Within 0x1000 ω) {r s : State} {d} {k} (h : Frame ω r s) : Frame ω r (State.overrideReg s d k) := by
  unfold State.overrideReg
  try dsimp only
  with_reducible repeat' first | assumption | apply State.override_frame (hw.mono (by decide)) | refine Frame.foldl ?_ (fun s a h => ?_) | split

theorem State.writePlain_frame (hw : Within 0x501140 ω) {r s : State} {d} {mark} {k} {v} (h : Frame ω r s) : Frame ω r (State.writePlain s d mark k v) := by
  unfold State.writePlain
  try dsimp only
  with_reducible repeat' first | assumption | apply State.overrideReg_frame (hw.mono (by decide)) | apply State.queueReg_frame (hw.mono (by decide)) | apply State.storedAt_frame (hw.mono (by decide)) | apply State.setReg_frame (hw.mono (by decide)) | refine Frame.foldl ?_ (fun s a h => ?_) | split

theorem State.writeReg_frame (hw : Within 0x701dc0 ω) {r s : State} {q} {via} {mark} {k} {v} (h : Frame ω r s) : Frame ω r (State.writeReg s q via mark k v) := by
  unfold State.writeReg
  try dsimp only
  with_reducible repeat' first | assumption | apply State.holdJit_frame (hw.mono (by decide)) | apply State.holdThrottled_frame (hw.mono (by decide)) | apply State.andNotReg_frame (hw.mono (by decide)) | apply State.override_frame (hw.mono (by decide)) | apply State.submitProf_frame (hw.mono (by decide)) | apply State.writeAlarm_frame (hw.mono (by decide)) | apply State.setOwn_frame (hw.mono (by decide)) | apply State.queueRoute_frame (hw.mono (by decide)) | apply State.writePlain_frame (hw.mono (by decide)) | refine Frame.foldl ?_ (fun s a h => ?_) | split

theorem State.writeRegs_frame (hw : Within 0x701dc0 ω) {q : Nat} {via : Via} {mark : Bool} {vs : List Word} {k : Nat} {r s : State} (h : Frame ω r s) :
    Frame ω r (s.writeRegs q via mark k vs) := by
  induction vs generalizing s k with
  | nil => exact h
  | cons v vs ih => exact ih (State.writeReg_frame (hw.mono (by decide)) h)

end Sys2Proof.Machine
end

