-- ==== Sys2Proof/Laws/Links.lean ====
section
/-!
SUPPORT. Frames of the operations of Machine/Links.lean (Laws/Frame.lean says what a frame is).
-/
namespace Sys2Proof.Machine

variable {ω : Nat}

theorem State.linkUe_frame (hw : Within 0x1606578040 ω) {r s : State} {what} (h : Frame ω r s) : Frame ω r (State.linkUe s what) := by
  unfold State.linkUe
  try dsimp only
  with_reducible repeat' first | assumption | apply State.routeUe_frame (hw.mono (by decide)) | apply State.restart_frame (hw.mono (by decide)) | refine Frame.foldl ?_ (fun s a h => ?_) | split

theorem State.checkId_frame (hw : Within 0x1606578040 ω) {r s : State}  (h : Frame ω r s) : Frame ω r (State.checkId s) := by
  unfold State.checkId
  try dsimp only
  with_reducible repeat' first | assumption | apply State.linkUe_frame (hw.mono (by decide)) | refine Frame.foldl ?_ (fun s a h => ?_) | split

theorem State.checkRoute_frame (hw : Within 0x1606578040 ω) {r s : State} {d} (h : Frame ω r s) : Frame ω r (State.checkRoute s d) := by
  unfold State.checkRoute
  try dsimp only
  with_reducible repeat' first | assumption | apply State.linkUe_frame (hw.mono (by decide)) | refine Frame.foldl ?_ (fun s a h => ?_) | split

theorem State.routeRaw_frame (hw : Within 0x1606578040 ω) {r s : State} {p} {resend} (h : Frame ω r s) : Frame ω r (State.routeRaw s p resend) := by
  unfold State.routeRaw
  try dsimp only
  with_reducible repeat' first | assumption | apply State.checkRoute_frame (hw.mono (by decide)) | apply State.enqueue_frame (hw.mono (by decide)) | refine Frame.foldl ?_ (fun s a h => ?_) | simp only [Frame.set_link (hw.mono (by decide))] | split

theorem State.failPkt_frame (hw : Within 0x1606578040 ω) {r s : State} {p} (h : Frame ω r s) : Frame ω r (State.failPkt s p) := by
  unfold State.failPkt
  try dsimp only
  with_reducible repeat' first | assumption | apply State.leaves_frame (hw.mono (by decide)) | apply State.opUnreachable_frame (hw.mono (by decide)) | apply State.bktError_frame (hw.mono (by decide)) | apply State.routeRaw_frame (hw.mono (by decide)) | apply State.checkId_frame (hw.mono (by decide)) | refine Frame.foldl ?_ (fun s a h => ?_) | split

theorem State.routePkt_frame (hw : Within 0x1606578040 ω) {r s : State} {p} {resend} (h : Frame ω r s) : Frame ω r (State.routePkt s p resend) := by
  unfold State.routePkt
  try dsimp only
  with_reducible repeat' first | assumption | apply State.failPkt_frame (hw.mono (by decide)) | apply State.checkRoute_frame (hw.mono (by decide)) | apply State.routeRaw_frame (hw.mono (by decide)) | refine Frame.foldl ?_ (fun s a h => ?_) | split

theorem State.originate_frame (hw : Within 0x1606578040 ω) {r s : State} {p} (h : Frame ω r s) : Frame ω r (State.originate s p) := by
  unfold State.originate
  try dsimp only
  with_reducible repeat' first | assumption | apply State.failPkt_frame (hw.mono (by decide)) | apply State.routePkt_frame (hw.mono (by decide)) | apply State.checkId_frame (hw.mono (by decide)) | refine Frame.foldl ?_ (fun s a h => ?_) | split

theorem State.routeAll_frame (hw : Within 0x1606578040 ω) {r s : State} {ps} {resend} (h : Frame ω r s) : Frame ω r (State.routeAll s ps resend) := by
  unfold State.routeAll
  try dsimp only
  with_reducible repeat' first | assumption | apply State.routePkt_frame (hw.mono (by decide)) | refine Frame.foldl ?_ (fun s a h => ?_) | split

theorem State.retryPaths_frame (hw : Within 0x1606578040 ω) {r s : State}  (h : Frame ω r s) : Frame ω r (State.retryPaths s) := by
  unfold State.retryPaths
  try dsimp only
  with_reducible repeat' first | assumption | apply State.routeAll_frame (hw.mono (by decide)) | refine Frame.foldl ?_ (fun s a h => ?_) | simp only [Frame.set_link (hw.mono (by decide))] | split

theorem State.unblock_frame (hw : Within 0x1606578040 ω) {r s : State}  (h : Frame ω r s) : Frame ω r (State.unblock s) := by
  unfold State.unblock
  try dsimp only
  with_reducible repeat' first | assumption | apply State.routeAll_frame (hw.mono (by decide)) | refine Frame.foldl ?_ (fun s a h => ?_) | simp only [Frame.set_link (hw.mono (by decide))] | split

theorem State.reroute_frame (hw : Within 0x1606578040 ω) {r s : State} {l} (h : Frame ω r s) : Frame ω r (State.reroute s l) := by
  unfold State.reroute
  try dsimp only
  with_reducible repeat' first | assumption | apply State.routeAll_frame (hw.mono (by decide)) | apply State.setLink_frame (hw.mono (by decide)) | refine Frame.foldl ?_ (fun s a h => ?_) | split

theorem State.sendAckFlit_frame (hw : Within 0x400400000 ω) {r s : State} {l} (h : Frame ω r s) : Frame ω r (State.sendAckFlit s l) := by
  unfold State.sendAckFlit
  try dsimp only
  with_reducible repeat' first | assumption | apply State.sendFlit_frame (hw.mono (by decide)) | apply State.setLink_frame (hw.mono (by decide)) | refine Frame.foldl ?_ (fun s a h => ?_) | split

theorem State.sendNack_frame (hw : Within 0x400000040 ω) {r s : State} {l} (h : Frame ω r s) : Frame ω r (State.sendNack s l) := by
  unfold State.sendNack
  try dsimp only
  with_reducible repeat' first | assumption | apply State.sendFlit_frame (hw.mono (by decide)) | apply State.count_frame (hw.mono (by decide)) | refine Frame.foldl ?_ (fun s a h => ?_) | split

theorem State.replayFrom_frame (hw : Within 0x400400040 ω) {r s : State} {l} {seq} (h : Frame ω r s) : Frame ω r (State.replayFrom s l seq) := by
  unfold State.replayFrom
  try dsimp only
  with_reducible repeat' first | assumption | apply State.emit_frame (hw.mono (by decide)) | apply State.count_frame (hw.mono (by decide)) | apply State.setLink_frame (hw.mono (by decide)) | refine Frame.foldl ?_ (fun s a h => ?_) | split

theorem State.linkDown_frame (hw : Within 0x1606578040 ω) {r s : State} {l} {cause} (h : Frame ω r s) : Frame ω r (State.linkDown s l cause) := by
  unfold State.linkDown
  try dsimp only
  with_reducible repeat' first | assumption | apply State.setLink_frame (hw.mono (by decide)) | apply State.orReg_frame (hw.mono (by decide)) | apply State.count_frame (hw.mono (by decide)) | apply State.setLstate_frame (hw.mono (by decide)) | apply State.log__frame (hw.mono (by decide)) | apply State.failPkt_frame (hw.mono (by decide)) | apply State.routePkt_frame (hw.mono (by decide)) | apply State.checkId_frame (hw.mono (by decide)) | refine Frame.foldl ?_ (fun s a h => ?_) | split

theorem State.countFlits_frame (hw : Within 0x400400000 ω) {r s : State} {l} {n} (h : Frame ω r s) : Frame ω r (State.countFlits s l n) := by
  unfold State.countFlits
  try dsimp only
  with_reducible repeat' first | assumption | apply State.setLink_frame (hw.mono (by decide)) | apply State.sendFlit_frame (hw.mono (by decide)) | refine Frame.foldl ?_ (fun s a h => ?_) | split

theorem State.moreFlits_frame (hw : Within 0x400400000 ω) {r s : State} {l} {begun} (h : Frame ω r s) : Frame ω r (State.moreFlits s l begun) := by
  unfold State.moreFlits
  try dsimp only
  with_reducible repeat' first | assumption | apply State.countFlits_frame (hw.mono (by decide)) | apply State.setLink_frame (hw.mono (by decide)) | refine Frame.foldl ?_ (fun s a h => ?_) | split

theorem State.takeFlits_frame (hw : Within 0x400400000 ω) {r s : State} {l} {p} {stays} (h : Frame ω r s) : Frame ω r (State.takeFlits s l p stays) := by
  unfold State.takeFlits
  try dsimp only
  with_reducible repeat' first | assumption | apply State.setLink_frame (hw.mono (by decide)) | apply State.countFlits_frame (hw.mono (by decide)) | refine Frame.foldl ?_ (fun s a h => ?_) | split

theorem State.badPacket_frame (hw : Within 0x418000 ω) {r s : State} {l} {p} (h : Frame ω r s) : Frame ω r (State.badPacket s l p) := by
  unfold State.badPacket
  try dsimp only
  with_reducible repeat' first | assumption | apply State.log__frame (hw.mono (by decide)) | apply State.setLink_frame (hw.mono (by decide)) | refine Frame.foldl ?_ (fun s a h => ?_) | split

theorem State.forward_frame (hw : Within 0x1606578040 ω) {r s : State} {p} (h : Frame ω r s) : Frame ω r (State.forward s p) := by
  unfold State.forward
  try dsimp only
  with_reducible repeat' first | assumption | apply State.checkRoute_frame (hw.mono (by decide)) | apply State.originate_frame (hw.mono (by decide)) | apply State.routePkt_frame (hw.mono (by decide)) | refine Frame.foldl ?_ (fun s a h => ?_) | split

theorem State.arrive_frame (hw : Within 0x1606578040 ω) {r s : State} {l} {resent} {p} {k} {tts} {act : State → Pkt → State} (hf : ∀ s p, Frame ω r s → Frame ω r (act s p))
    (h : Frame ω r s) : Frame ω r (s.arrive l resent p k tts act) := by
  unfold State.arrive
  try dsimp only
  with_reducible repeat' first | assumption | apply State.moreFlits_frame (hw.mono (by decide)) | apply hf | apply State.takeFlits_frame (hw.mono (by decide)) | apply State.badPacket_frame (hw.mono (by decide)) | apply State.forward_frame (hw.mono (by decide)) | apply State.checkId_frame (hw.mono (by decide)) | refine Frame.foldl ?_ (fun s a h => ?_) | split

end Sys2Proof.Machine
end

