-- ==== Sys2Proof/Laws/LinkCmd.lean ====
section
/-!
SUPPORT. Frames of the operations of Machine/LinkCmd.lean (Laws/Frame.lean says what a frame is).
-/
namespace Sys2Proof.Machine

variable {ω : Nat}

theorem State.startTraining_frame (hw : Within 0x401140 ω) {r s : State} {l} {lr} (h : Frame ω r s) : Frame ω r (State.startTraining s l lr) := by
  unfold State.startTraining
  try dsimp only
  with_reducible repeat' first | assumption | apply State.queueField_frame (hw.mono (by decide)) | apply State.setField_frame (hw.mono (by decide)) | apply State.basic_frame (hw.mono (by decide)) | apply State.setReg_frame (hw.mono (by decide)) | apply State.setLstate_frame (hw.mono (by decide)) | apply State.setLink_frame (hw.mono (by decide)) | refine Frame.foldl ?_ (fun s a h => ?_) | split

theorem State.queueService_frame (hw : Within 0x100 ω) {r s : State} {v} {l} (h : Frame ω r s) : Frame ω r (State.queueService s v l) := by
  unfold State.queueService
  try dsimp only
  with_reducible repeat' first | assumption | apply State.queueField_frame (hw.mono (by decide)) | refine Frame.foldl ?_ (fun s a h => ?_) | split

theorem State.queueRing_frame (hw : Within 0x1100 ω) {r s : State} {n} {ws} (h : Frame ω r s) : Frame ω r (State.queueRing s n ws) := by
  unfold State.queueRing
  try dsimp only
  with_reducible repeat' first | assumption | apply State.basic_frame (hw.mono (by decide)) | apply State.queueReg_frame (hw.mono (by decide)) | refine Frame.foldl ?_ (fun s a h => ?_) | split

theorem State.probeBack_frame (hw : Within 0x408000 ω) {r s : State} {mb} {beats} (h : Frame ω r s) : Frame ω r (State.probeBack s mb beats) := by
  unfold State.probeBack
  try dsimp only
  with_reducible repeat' first | assumption | apply State.respond_frame (hw.mono (by decide)) | refine Frame.foldl ?_ (fun s a h => ?_) | simp only [Frame.set_link (hw.mono (by decide))] | split

theorem cmdJobMeasure_framed (hw : Within 0x400000 ω) : cmdJobMeasure.Framed ω := by
  intro r s q h
  dsimp only [cmdJobMeasure]
  with_reducible repeat' first | assumption | refine Frame.foldl ?_ (fun s a h => ?_) | simp only [Frame.set_link (hw.mono (by decide))] | split

theorem cmdJobRouteGet_framed  : cmdJobRouteGet.Framed ω := by
  intro r s q h
  dsimp only [cmdJobRouteGet]
  with_reducible repeat' first | assumption | refine Frame.foldl ?_ (fun s a h => ?_) | split

theorem cmdJobRouteSet_framed (hw : Within 0x1100 ω) : cmdJobRouteSet.Framed ω := by
  intro r s q h
  dsimp only [cmdJobRouteSet]
  with_reducible repeat' first | assumption | apply State.basic_frame (hw.mono (by decide)) | apply State.queueRoute_frame (hw.mono (by decide)) | apply State.queueRing_frame (hw.mono (by decide)) | apply State.basic_frame (hw.mono (by decide)) | apply State.queueRoute_frame (hw.mono (by decide)) | apply State.queueRing_frame (hw.mono (by decide)) | refine Frame.foldl ?_ (fun s a h => ?_) | split

theorem cmdJobSetId_framed (hw : Within 0x500040 ω) : cmdJobSetId.Framed ω := by
  intro r s q h
  dsimp only [cmdJobSetId]
  with_reducible repeat' first | assumption | apply State.storedAt_frame (hw.mono (by decide)) | apply State.setReg_frame (hw.mono (by decide)) | apply State.storedAt_frame (hw.mono (by decide)) | apply State.setReg_frame (hw.mono (by decide)) | refine Frame.foldl ?_ (fun s a h => ?_) | split

theorem cmdLinkCounters_framed  : cmdLinkCounters.Framed ω := by
  intro r s q h
  dsimp only [cmdLinkCounters]
  with_reducible repeat' first | assumption | refine Frame.foldl ?_ (fun s a h => ?_) | split

theorem cmdLinkDisable_framed (hw : Within 0x100 ω) : cmdLinkDisable.Framed ω := by
  intro r s q h
  dsimp only [cmdLinkDisable]
  with_reducible repeat' first | assumption | apply State.queueService_frame (hw.mono (by decide)) | apply State.queueService_frame (hw.mono (by decide)) | refine Frame.foldl ?_ (fun s a h => ?_) | split

theorem cmdLinkEnable_framed (hw : Within 0x100 ω) : cmdLinkEnable.Framed ω := by
  intro r s q h
  dsimp only [cmdLinkEnable]
  with_reducible repeat' first | assumption | apply State.queueService_frame (hw.mono (by decide)) | apply State.queueService_frame (hw.mono (by decide)) | refine Frame.foldl ?_ (fun s a h => ?_) | split

theorem cmdLinkLoopback_framed  : cmdLinkLoopback.Framed ω := by
  intro r s q h
  dsimp only [cmdLinkLoopback]
  with_reducible repeat' first | assumption | refine Frame.foldl ?_ (fun s a h => ?_) | split

theorem cmdLinkMargin_framed  : cmdLinkMargin.Framed ω := by
  intro r s q h
  dsimp only [cmdLinkMargin]
  with_reducible repeat' first | assumption | refine Frame.foldl ?_ (fun s a h => ?_) | split

theorem cmdLinkStatus_framed  : cmdLinkStatus.Framed ω := by
  intro r s q h
  dsimp only [cmdLinkStatus]
  with_reducible repeat' first | assumption | refine Frame.foldl ?_ (fun s a h => ?_) | split

theorem cmdLinkTrain_framed (hw : Within 0x401140 ω) : cmdLinkTrain.Framed ω := by
  intro r s q h
  dsimp only [cmdLinkTrain]
  with_reducible repeat' first | assumption | apply State.startTraining_frame (hw.mono (by decide)) | apply State.startTraining_frame (hw.mono (by decide)) | refine Frame.foldl ?_ (fun s a h => ?_) | split

theorem execLinkStatus_frame (hw : Within 0x8000 ω) {r s : State} {a0} (h : Frame ω r s) : FrameO ω r (execLinkStatus a0 s) := by
  unfold execLinkStatus
  try dsimp only
  with_reducible repeat' first | assumption | apply FrameO.next | apply Cmd.serve_frame (hw.mono (by decide)) (cmdLinkStatus_framed) | refine Frame.foldl ?_ (fun s a h => ?_) | split

theorem execLinkTrain_frame (hw : Within 0x409140 ω) {r s : State} {a0} (h : Frame ω r s) : FrameO ω r (execLinkTrain a0 s) := by
  unfold execLinkTrain
  try dsimp only
  with_reducible repeat' first | assumption | apply FrameO.next | apply Cmd.serve_frame (hw.mono (by decide)) (cmdLinkTrain_framed (hw.mono (by decide))) | refine Frame.foldl ?_ (fun s a h => ?_) | split

theorem execLinkMargin_frame (hw : Within 0x8000 ω) {r s : State} {a0} (h : Frame ω r s) : FrameO ω r (execLinkMargin a0 s) := by
  unfold execLinkMargin
  try dsimp only
  with_reducible repeat' first | assumption | apply FrameO.next | apply Cmd.serve_frame (hw.mono (by decide)) (cmdLinkMargin_framed) | refine Frame.foldl ?_ (fun s a h => ?_) | split

theorem execLinkDisable_frame (hw : Within 0x8100 ω) {r s : State} {a0} (h : Frame ω r s) : FrameO ω r (execLinkDisable a0 s) := by
  unfold execLinkDisable
  try dsimp only
  with_reducible repeat' first | assumption | apply FrameO.next | apply Cmd.serve_frame (hw.mono (by decide)) (cmdLinkDisable_framed (hw.mono (by decide))) | refine Frame.foldl ?_ (fun s a h => ?_) | split

theorem execLinkEnable_frame (hw : Within 0x8100 ω) {r s : State} {a0} (h : Frame ω r s) : FrameO ω r (execLinkEnable a0 s) := by
  unfold execLinkEnable
  try dsimp only
  with_reducible repeat' first | assumption | apply FrameO.next | apply Cmd.serve_frame (hw.mono (by decide)) (cmdLinkEnable_framed (hw.mono (by decide))) | refine Frame.foldl ?_ (fun s a h => ?_) | split

theorem execLinkCounters_frame (hw : Within 0x8000 ω) {r s : State} {a0} (h : Frame ω r s) : FrameO ω r (execLinkCounters a0 s) := by
  unfold execLinkCounters
  try dsimp only
  with_reducible repeat' first | assumption | apply FrameO.next | apply Cmd.serve_frame (hw.mono (by decide)) (cmdLinkCounters_framed) | refine Frame.foldl ?_ (fun s a h => ?_) | split

theorem execLinkLoopback_frame (hw : Within 0x8000 ω) {r s : State} {a0} (h : Frame ω r s) : FrameO ω r (execLinkLoopback a0 s) := by
  unfold execLinkLoopback
  try dsimp only
  with_reducible repeat' first | assumption | apply FrameO.next | apply Cmd.serve_frame (hw.mono (by decide)) (cmdLinkLoopback_framed) | refine Frame.foldl ?_ (fun s a h => ?_) | split

theorem execJobSetId_frame (hw : Within 0x508040 ω) {r s : State} {a0} (h : Frame ω r s) : FrameO ω r (execJobSetId a0 s) := by
  unfold execJobSetId
  try dsimp only
  with_reducible repeat' first | assumption | apply FrameO.next | apply Cmd.serve_frame (hw.mono (by decide)) (cmdJobSetId_framed (hw.mono (by decide))) | refine Frame.foldl ?_ (fun s a h => ?_) | split

theorem execJobRouteSet_frame (hw : Within 0x9100 ω) {r s : State} {a0} (h : Frame ω r s) : FrameO ω r (execJobRouteSet a0 s) := by
  unfold execJobRouteSet
  try dsimp only
  with_reducible repeat' first | assumption | apply FrameO.next | apply Cmd.serve_frame (hw.mono (by decide)) (cmdJobRouteSet_framed (hw.mono (by decide))) | refine Frame.foldl ?_ (fun s a h => ?_) | split

theorem execJobRouteGet_frame (hw : Within 0x8000 ω) {r s : State} {a0} (h : Frame ω r s) : FrameO ω r (execJobRouteGet a0 s) := by
  unfold execJobRouteGet
  try dsimp only
  with_reducible repeat' first | assumption | apply FrameO.next | apply Cmd.serve_frame (hw.mono (by decide)) (cmdJobRouteGet_framed) | refine Frame.foldl ?_ (fun s a h => ?_) | split

theorem execJobMeasure_frame (hw : Within 0x408000 ω) {r s : State} {a0} (h : Frame ω r s) : FrameO ω r (execJobMeasure a0 s) := by
  unfold execJobMeasure
  try dsimp only
  with_reducible repeat' first | assumption | apply FrameO.next | apply Cmd.serve_frame (hw.mono (by decide)) (cmdJobMeasure_framed (hw.mono (by decide))) | refine Frame.foldl ?_ (fun s a h => ?_) | split

theorem execMeasureProbe_frame (hw : Within 0x408000 ω) {r s : State} {mb} {beats} (h : Frame ω r s) : FrameO ω r (execMeasureProbe mb beats s) := by
  unfold execMeasureProbe
  try dsimp only
  with_reducible repeat' first | assumption | apply FrameO.next | apply State.probeBack_frame (hw.mono (by decide)) | refine Frame.foldl ?_ (fun s a h => ?_) | split

end Sys2Proof.Machine
end

