-- ==== Sys2Proof/Laws/LinkEvents.lean ====
section
/-!
SUPPORT. Frames of the operations of Machine/LinkEvents.lean (Laws/Frame.lean says what a frame is).
-/
namespace Sys2Proof.Machine

variable {ω : Nat}

theorem State.trainStep_frame (hw : Within 0x40 ω) {r s : State} {l} {a} {b} (h : Frame ω r s) : Frame ω r (State.trainStep s l a b) := by
  unfold State.trainStep
  try dsimp only
  with_reducible repeat' first | assumption | apply State.setLstate_frame (hw.mono (by decide)) | refine Frame.foldl ?_ (fun s a h => ?_) | split

theorem State.enterParam_frame (hw : Within 0x400000040 ω) {r s : State} {l} (h : Frame ω r s) : Frame ω r (State.enterParam s l) := by
  unfold State.enterParam
  try dsimp only
  with_reducible repeat' first | assumption | apply State.sendFlit_frame (hw.mono (by decide)) | apply State.emit_frame (hw.mono (by decide)) | apply State.setLstate_frame (hw.mono (by decide)) | refine Frame.foldl ?_ (fun s a h => ?_) | split

theorem State.restoreLanes_frame (hw : Within 0x400044 ω) {r s : State} {l} (h : Frame ω r s) : Frame ω r (State.restoreLanes s l) := by
  unfold State.restoreLanes
  try dsimp only
  with_reducible repeat' first | assumption | apply State.setReg_frame (hw.mono (by decide)) | apply State.setLink_frame (hw.mono (by decide)) | refine Frame.foldl ?_ (fun s a h => ?_) | split | (refine Frame.set_kept (hw.mono (by decide)) ?_)

theorem State.activate_frame (hw : Within 0x1606578044 ω) {r s : State} {l} {partner} {plink} {allPass} (h : Frame ω r s) : Frame ω r (State.activate s l partner plink allPass) := by
  unfold State.activate
  try dsimp only
  with_reducible repeat' first | assumption | apply State.restoreLanes_frame (hw.mono (by decide)) | apply State.setLink_frame (hw.mono (by decide)) | apply State.setReg_frame (hw.mono (by decide)) | apply State.retryPaths_frame (hw.mono (by decide)) | apply State.setLstate_frame (hw.mono (by decide)) | refine Frame.foldl ?_ (fun s a h => ?_) | split

theorem State.stateLimit_frame (hw : Within 0x1606578040 ω) {r s : State} {l} (h : Frame ω r s) : Frame ω r (State.stateLimit s l) := by
  unfold State.stateLimit
  try dsimp only
  with_reducible repeat' first | assumption | apply State.linkDown_frame (hw.mono (by decide)) | apply State.setLstate_frame (hw.mono (by decide)) | apply State.setLink_frame (hw.mono (by decide)) | apply State.log__frame (hw.mono (by decide)) | refine Frame.foldl ?_ (fun s a h => ?_) | split

theorem State.rttEcho_frame (hw : Within 0x40 ω) {r s : State} {l} {ns} (h : Frame ω r s) : Frame ω r (State.rttEcho s l ns) := by
  unfold State.rttEcho
  try dsimp only
  with_reducible repeat' first | assumption | apply State.setReg_frame (hw.mono (by decide)) | apply State.orReg_frame (hw.mono (by decide)) | refine Frame.foldl ?_ (fun s a h => ?_) | split

theorem State.ackFlit_frame (hw : Within 0x400400040 ω) {r s : State} {l} {seq} {cr} {fixed} (h : Frame ω r s) : Frame ω r (State.ackFlit s l seq cr fixed) := by
  unfold State.ackFlit
  try dsimp only
  with_reducible repeat' first | assumption | apply State.count_frame (hw.mono (by decide)) | apply State.pump_frame (hw.mono (by decide)) | apply State.setLink_frame (hw.mono (by decide)) | refine Frame.foldl ?_ (fun s a h => ?_) | split

theorem State.ackDue_frame (hw : Within 0x400400000 ω) {r s : State} {l} {begun} (h : Frame ω r s) : Frame ω r (State.ackDue s l begun) := by
  unfold State.ackDue
  try dsimp only
  with_reducible repeat' first | assumption | apply State.moreFlits_frame (hw.mono (by decide)) | apply State.sendAckFlit_frame (hw.mono (by decide)) | refine Frame.foldl ?_ (fun s a h => ?_) | split

theorem State.swapDone_frame (hw : Within 0x1606578044 ω) {r s : State} {l} {dir} {w} (h : Frame ω r s) : Frame ω r (State.swapDone s l dir w) := by
  unfold State.swapDone
  try dsimp only
  with_reducible repeat' first | assumption | apply State.orReg_frame (hw.mono (by decide)) | apply State.count_frame (hw.mono (by decide)) | apply State.log__frame (hw.mono (by decide)) | apply State.spareUsed_frame (hw.mono (by decide)) | refine Frame.foldl ?_ (fun s a h => ?_) | split

theorem State.swapSent_frame (hw : Within 0x1606578044 ω) {r s : State} {l} (h : Frame ω r s) : Frame ω r (State.swapSent s l) := by
  unfold State.swapSent
  try dsimp only
  with_reducible repeat' first | assumption | apply State.setField_frame (hw.mono (by decide)) | apply State.setLstate_frame (hw.mono (by decide)) | apply State.setLink_frame (hw.mono (by decide)) | apply State.swapDone_frame (hw.mono (by decide)) | refine Frame.foldl ?_ (fun s a h => ?_) | split

theorem State.nackFlit_frame (hw : Within 0x1606578044 ω) {r s : State} {l} {seq} {cr} (h : Frame ω r s) : Frame ω r (State.nackFlit s l seq cr) := by
  unfold State.nackFlit
  try dsimp only
  with_reducible repeat' first | assumption | apply State.swapSent_frame (hw.mono (by decide)) | apply State.setLink_frame (hw.mono (by decide)) | apply State.pump_frame (hw.mono (by decide)) | apply State.replayFrom_frame (hw.mono (by decide)) | refine Frame.foldl ?_ (fun s a h => ?_) | split

theorem State.crcError_frame (hw : Within 0x400400040 ω) {r s : State} {l} {uncorr} {f} {good} (h : Frame ω r s) : Frame ω r (State.crcError s l uncorr f good) := by
  unfold State.crcError
  try dsimp only
  with_reducible repeat' first | assumption | apply State.count_frame (hw.mono (by decide)) | apply State.moreFlits_frame (hw.mono (by decide)) | apply State.sendNack_frame (hw.mono (by decide)) | apply State.setLink_frame (hw.mono (by decide)) | refine Frame.foldl ?_ (fun s a h => ?_) | split

theorem State.nackRepeat_frame (hw : Within 0x1606578040 ω) {r s : State} {l} (h : Frame ω r s) : Frame ω r (State.nackRepeat s l) := by
  unfold State.nackRepeat
  try dsimp only
  with_reducible repeat' first | assumption | apply State.sendNack_frame (hw.mono (by decide)) | apply State.setLink_frame (hw.mono (by decide)) | apply State.linkDown_frame (hw.mono (by decide)) | refine Frame.foldl ?_ (fun s a h => ?_) | split

theorem State.laneFail_frame (hw : Within 0x1606578040 ω) {r s : State} {l} {lane} {begun} (h : Frame ω r s) : Frame ω r (State.laneFail s l lane begun) := by
  unfold State.laneFail
  try dsimp only
  with_reducible repeat' first | assumption | apply State.moreFlits_frame (hw.mono (by decide)) | apply State.linkDown_frame (hw.mono (by decide)) | apply State.orReg_frame (hw.mono (by decide)) | apply State.setLink_frame (hw.mono (by decide)) | apply State.sendFlit_frame (hw.mono (by decide)) | apply State.setLstate_frame (hw.mono (by decide)) | refine Frame.foldl ?_ (fun s a h => ?_) | split

theorem State.laneSwapFlit_frame (hw : Within 0x1606578040 ω) {r s : State} {l} {lane} (h : Frame ω r s) : Frame ω r (State.laneSwapFlit s l lane) := by
  unfold State.laneSwapFlit
  try dsimp only
  with_reducible repeat' first | assumption | apply State.sendFlit_frame (hw.mono (by decide)) | apply State.setLstate_frame (hw.mono (by decide)) | apply State.setLink_frame (hw.mono (by decide)) | apply State.linkDown_frame (hw.mono (by decide)) | refine Frame.foldl ?_ (fun s a h => ?_) | split

theorem State.swapMark_frame (hw : Within 0x1606578044 ω) {r s : State} {l} {lane} (h : Frame ω r s) : Frame ω r (State.swapMark s l lane) := by
  unfold State.swapMark
  try dsimp only
  with_reducible repeat' first | assumption | apply State.swapSent_frame (hw.mono (by decide)) | apply State.setLink_frame (hw.mono (by decide)) | refine Frame.foldl ?_ (fun s a h => ?_) | split

theorem State.swapLock_frame (hw : Within 0x1606578044 ω) {r s : State} {l} (h : Frame ω r s) : Frame ω r (State.swapLock s l) := by
  unfold State.swapLock
  try dsimp only
  with_reducible repeat' first | assumption | apply State.swapSent_frame (hw.mono (by decide)) | apply State.setLstate_frame (hw.mono (by decide)) | apply State.setLink_frame (hw.mono (by decide)) | apply State.pump_frame (hw.mono (by decide)) | apply State.swapDone_frame (hw.mono (by decide)) | apply State.sendNack_frame (hw.mono (by decide)) | refine Frame.foldl ?_ (fun s a h => ?_) | split

theorem State.lossReport1_frame (hw : Within 0x1606578044 ω) {r s : State} {p} {l} (h : Frame ω r s) : Frame ω r (State.lossReport1 s p l) := by
  unfold State.lossReport1
  try dsimp only
  with_reducible repeat' first | assumption | apply State.spareUsed_frame (hw.mono (by decide)) | apply State.setLink_frame (hw.mono (by decide)) | apply State.unblock_frame (hw.mono (by decide)) | apply State.routeAll_frame (hw.mono (by decide)) | refine Frame.foldl ?_ (fun s a h => ?_) | split

theorem State.lossReport_frame (hw : Within 0x1606578044 ω) {r s : State} {p} (h : Frame ω r s) : Frame ω r (State.lossReport s p) := by
  unfold State.lossReport
  try dsimp only
  with_reducible repeat' first | assumption | apply State.lossReport1_frame (hw.mono (by decide)) | refine Frame.foldl ?_ (fun s a h => ?_) | split

theorem State.lossExpire_frame (hw : Within 0x1606578040 ω) {r s : State} {l} (h : Frame ω r s) : Frame ω r (State.lossExpire s l) := by
  unfold State.lossExpire
  try dsimp only
  with_reducible repeat' first | assumption | apply State.setLink_frame (hw.mono (by decide)) | apply State.log__frame (hw.mono (by decide)) | apply State.orReg_frame (hw.mono (by decide)) | apply State.restart_frame (hw.mono (by decide)) | apply State.unblock_frame (hw.mono (by decide)) | apply State.failPkt_frame (hw.mono (by decide)) | refine Frame.foldl ?_ (fun s a h => ?_) | split

theorem execLinkDetectDone_frame (hw : Within 0x40 ω) {r s : State} {l} (h : Frame ω r s) : FrameO ω r (execLinkDetectDone l s) := by
  unfold execLinkDetectDone
  try dsimp only
  with_reducible repeat' first | assumption | apply FrameO.next | apply State.trainStep_frame (hw.mono (by decide)) | refine Frame.foldl ?_ (fun s a h => ?_) | split

theorem execLinkEqualiseDone_frame (hw : Within 0x40 ω) {r s : State} {l} (h : Frame ω r s) : FrameO ω r (execLinkEqualiseDone l s) := by
  unfold execLinkEqualiseDone
  try dsimp only
  with_reducible repeat' first | assumption | apply FrameO.next | apply State.trainStep_frame (hw.mono (by decide)) | refine Frame.foldl ?_ (fun s a h => ?_) | split

theorem execLinkFecLockDone_frame (hw : Within 0x40 ω) {r s : State} {l} (h : Frame ω r s) : FrameO ω r (execLinkFecLockDone l s) := by
  unfold execLinkFecLockDone
  try dsimp only
  with_reducible repeat' first | assumption | apply FrameO.next | apply State.trainStep_frame (hw.mono (by decide)) | refine Frame.foldl ?_ (fun s a h => ?_) | split

theorem execLinkDeskewDone_frame (hw : Within 0x400000040 ω) {r s : State} {l} (h : Frame ω r s) : FrameO ω r (execLinkDeskewDone l s) := by
  unfold execLinkDeskewDone
  try dsimp only
  with_reducible repeat' first | assumption | apply FrameO.next | apply State.enterParam_frame (hw.mono (by decide)) | refine Frame.foldl ?_ (fun s a h => ?_) | split

theorem execLinkParamDone_frame (hw : Within 0x1606578044 ω) {r s : State} {l} {partner} {plink} {allPass} (h : Frame ω r s) : FrameO ω r (execLinkParamDone l partner plink allPass s) := by
  unfold execLinkParamDone
  try dsimp only
  with_reducible repeat' first | assumption | apply FrameO.next | apply State.activate_frame (hw.mono (by decide)) | refine Frame.foldl ?_ (fun s a h => ?_) | split

theorem execLinkStateTimeout_frame (hw : Within 0x1606578040 ω) {r s : State} {l} (h : Frame ω r s) : FrameO ω r (execLinkStateTimeout l s) := by
  unfold execLinkStateTimeout
  try dsimp only
  with_reducible repeat' first | assumption | apply FrameO.next | apply State.stateLimit_frame (hw.mono (by decide)) | refine Frame.foldl ?_ (fun s a h => ?_) | split

theorem execRttProbe_frame (hw : Within 0x400000000 ω) {r s : State} {l} (h : Frame ω r s) : FrameO ω r (execRttProbe l s) := by
  unfold execRttProbe
  try dsimp only
  with_reducible repeat' first | assumption | apply FrameO.next | apply State.sendFlit_frame (hw.mono (by decide)) | refine Frame.foldl ?_ (fun s a h => ?_) | split

theorem execRttEcho_frame (hw : Within 0x40 ω) {r s : State} {l} {ns} (h : Frame ω r s) : FrameO ω r (execRttEcho l ns s) := by
  unfold execRttEcho
  try dsimp only
  with_reducible repeat' first | assumption | apply FrameO.next | apply State.rttEcho_frame (hw.mono (by decide)) | refine Frame.foldl ?_ (fun s a h => ?_) | split

theorem execLinkAck_frame (hw : Within 0x400400040 ω) {r s : State} {l} {seq} {a} (h : Frame ω r s) : FrameO ω r (execLinkAck l seq a s) := by
  unfold execLinkAck
  try dsimp only
  with_reducible repeat' first | assumption | apply FrameO.next | apply State.ackFlit_frame (hw.mono (by decide)) | refine Frame.foldl ?_ (fun s a h => ?_) | split

theorem execLinkAckSend_frame (hw : Within 0x400400000 ω) {r s : State} {due} (h : Frame ω r s) : FrameO ω r (execLinkAckSend due s) := by
  unfold execLinkAckSend
  try dsimp only
  with_reducible repeat' first | assumption | apply FrameO.next | apply State.ackDue_frame (hw.mono (by decide)) | refine Frame.foldl ?_ (fun s a h => ?_) | split

theorem execNack_frame (hw : Within 0x1606578044 ω) {r s : State} {l} {seq} {cr} (h : Frame ω r s) : FrameO ω r (execNack l seq cr s) := by
  unfold execNack
  try dsimp only
  with_reducible repeat' first | assumption | apply FrameO.next | apply State.nackFlit_frame (hw.mono (by decide)) | refine Frame.foldl ?_ (fun s a h => ?_) | split

theorem execNackRepeat_frame (hw : Within 0x1606578040 ω) {r s : State} {l} (h : Frame ω r s) : FrameO ω r (execNackRepeat l s) := by
  unfold execNackRepeat
  try dsimp only
  with_reducible repeat' first | assumption | apply FrameO.next | apply State.nackRepeat_frame (hw.mono (by decide)) | refine Frame.foldl ?_ (fun s a h => ?_) | split

theorem execFlitCrcError_frame (hw : Within 0x400400040 ω) {r s : State} {l} {b} (h : Frame ω r s) : FrameO ω r (execFlitCrcError l b s) := by
  unfold execFlitCrcError
  try dsimp only
  with_reducible repeat' first | assumption | apply FrameO.next | apply State.crcError_frame (hw.mono (by decide)) | refine Frame.foldl ?_ (fun s a h => ?_) | split

theorem execLaneFail_frame (hw : Within 0x1606578040 ω) {r s : State} {l} {f} (h : Frame ω r s) : FrameO ω r (execLaneFail l f s) := by
  unfold execLaneFail
  try dsimp only
  with_reducible repeat' first | assumption | apply FrameO.next | apply State.laneFail_frame (hw.mono (by decide)) | refine Frame.foldl ?_ (fun s a h => ?_) | split

theorem execLaneSwap_frame (hw : Within 0x1606578040 ω) {r s : State} {l} {lane} (h : Frame ω r s) : FrameO ω r (execLaneSwap l lane s) := by
  unfold execLaneSwap
  try dsimp only
  with_reducible repeat' first | assumption | apply FrameO.next | apply State.laneSwapFlit_frame (hw.mono (by decide)) | refine Frame.foldl ?_ (fun s a h => ?_) | split

theorem execSwapMark_frame (hw : Within 0x1606578044 ω) {r s : State} {l} {lane} (h : Frame ω r s) : FrameO ω r (execSwapMark l lane s) := by
  unfold execSwapMark
  try dsimp only
  with_reducible repeat' first | assumption | apply FrameO.next | apply State.swapMark_frame (hw.mono (by decide)) | refine Frame.foldl ?_ (fun s a h => ?_) | split

theorem execSwapLockDone_frame (hw : Within 0x1606578044 ω) {r s : State} {l} (h : Frame ω r s) : FrameO ω r (execSwapLockDone l s) := by
  unfold execSwapLockDone
  try dsimp only
  with_reducible repeat' first | assumption | apply FrameO.next | apply State.swapLock_frame (hw.mono (by decide)) | refine Frame.foldl ?_ (fun s a h => ?_) | split

theorem execLinkDown_frame (hw : Within 0x1606578040 ω) {r s : State} {l} {partnerStopped} (h : Frame ω r s) : FrameO ω r (execLinkDown l partnerStopped s) := by
  unfold execLinkDown
  try dsimp only
  with_reducible repeat' first | assumption | apply FrameO.next | apply State.linkDown_frame (hw.mono (by decide)) | refine Frame.foldl ?_ (fun s a h => ?_) | split

theorem execLossReport_frame (hw : Within 0x1606578044 ω) {r s : State} {l} {resent} {p} (h : Frame ω r s) : FrameO ω r (execLossReport l resent p s) := by
  unfold execLossReport
  try dsimp only
  with_reducible repeat' first | assumption | apply FrameO.next | refine State.arrive_frame (hw.mono (by decide)) (fun s p h => ?_) ?_ | apply State.lossReport_frame (hw.mono (by decide)) | refine Frame.foldl ?_ (fun s a h => ?_) | split

theorem execLossWaitExpire_frame (hw : Within 0x1606578040 ω) {r s : State} {l} (h : Frame ω r s) : FrameO ω r (execLossWaitExpire l s) := by
  unfold execLossWaitExpire
  try dsimp only
  with_reducible repeat' first | assumption | apply FrameO.next | apply State.lossExpire_frame (hw.mono (by decide)) | refine Frame.foldl ?_ (fun s a h => ?_) | split

end Sys2Proof.Machine
end

