-- ==== Sys2Proof/Laws/BktState.lean ====
section
/-!
SUPPORT. Frames of the operations of Machine/BktState.lean (Laws/Frame.lean says what a frame is).
-/
namespace Sys2Proof.Machine

variable {ω : Nat}

theorem State.setBucket_frame (hw : Within 0x40000000 ω) {r s : State} {b} {a2} (h : Frame ω r s) : Frame ω r (State.setBucket s b a2) := by
  unfold State.setBucket
  try dsimp only
  with_reducible repeat' first | assumption | refine Frame.foldl ?_ (fun s a h => ?_) | simp only [Frame.set_bkt (hw.mono (by decide))] | split

theorem State.setBucketState_frame (hw : Within 0x40 ω) {r s : State} {b} {st} (h : Frame ω r s) : Frame ω r (State.setBucketState s b st) := by
  unfold State.setBucketState
  try dsimp only
  with_reducible repeat' first | assumption | apply State.setField_frame (hw.mono (by decide)) | refine Frame.foldl ?_ (fun s a h => ?_) | split

theorem State.setBucketFlag_frame (hw : Within 0x40 ω) {r s : State} {b} {v} (h : Frame ω r s) : Frame ω r (State.setBucketFlag s b v) := by
  unfold State.setBucketFlag
  try dsimp only
  with_reducible repeat' first | assumption | apply State.setField_frame (hw.mono (by decide)) | refine Frame.foldl ?_ (fun s a h => ?_) | split

theorem State.slotWrite_frame (hw : Within 0x1606578040 ω) {r s : State} {core} {tag} {a} {bs} {b} (h : Frame ω r s) : Frame ω r (State.slotWrite s core tag a bs b) := by
  unfold State.slotWrite
  try dsimp only
  with_reducible repeat' first | assumption | apply State.setBucketFlag_frame (hw.mono (by decide)) | apply State.bktError_frame (hw.mono (by decide)) | refine Frame.foldl ?_ (fun s a h => ?_) | split

theorem State.sdStore_frame (hw : Within 0x170657e040 ω) {r s : State} {core} {tag} {a} {bs} (h : Frame ω r s) : Frame ω r (State.sdStore s core tag a bs) := by
  unfold State.sdStore
  try dsimp only
  with_reducible repeat' first | assumption | apply State.slotWrite_frame (hw.mono (by decide)) | apply State.store_frame (hw.mono (by decide)) | refine Frame.foldl ?_ (fun s a h => ?_) | split

end Sys2Proof.Machine
end

