-- ==== Sys2Proof/Laws/Stream.lean ====
section
/-!
SUPPORT. Frames of the operations of Machine/Stream.lean (Laws/Frame.lean says what a frame is).
-/
namespace Sys2Proof.Machine

variable {ω : Nat}

theorem orElse_some {α : Type} {a b : Option α} {t : α} (h : (a <|> b) = some t) : a = some t ∨ b = some t := by
  cases a with
  | none => exact .inr h
  | some x => exact .inl h

theorem State.sendRemote_frame (hw : Within 0x1606578040 ω) {r s : State} {o} {kind} {vc} (h : Frame ω r s) : Frame ω r (State.sendRemote s o kind vc) := by
  unfold State.sendRemote
  try dsimp only
  with_reducible repeat' first | assumption | apply State.opUnreachable_frame (hw.mono (by decide)) | apply State.checkId_frame (hw.mono (by decide)) | apply State.checkRoute_frame (hw.mono (by decide)) | apply State.originate_frame (hw.mono (by decide)) | refine Frame.foldl ?_ (fun s a h => ?_) | split

theorem State.issueRead_frame (hw : Within 0x1606578040 ω) {r s : State} {a1} {src} {dst} {n} (h : Frame ω r s) : Frame ω r (State.issueRead s a1 src dst n) := by
  unfold State.issueRead
  try dsimp only
  with_reducible repeat' first | assumption | apply State.sendRemote_frame (hw.mono (by decide)) | apply State.startOp_frame (hw.mono (by decide)) | apply State.setSd_frame (hw.mono (by decide)) | refine Frame.foldl ?_ (fun s a h => ?_) | split

theorem State.setHead_frame (hw : Within 0x2000000 ω) {r s : State} {a1} (h : Frame ω r s) : Frame ω r (State.setHead s a1) := by
  unfold State.setHead
  try dsimp only
  with_reducible repeat' first | assumption | refine Frame.foldl ?_ (fun s a h => ?_) | simp only [Frame.set_str (hw.mono (by decide))] | split

theorem State.headRead_frame (hw : Within 0x2000040 ω) {r s : State} {a1} {t : State} (e : State.headRead s a1 = some t) (h : Frame ω r s) : Frame ω r t := by
  unfold State.headRead at e
  try dsimp only at e
  repeat' (split at e)
  all_goals first | cases e | skip
  all_goals with_reducible repeat' first | assumption | apply State.setHead_frame (hw.mono (by decide)) | apply State.startOp_frame (hw.mono (by decide)) | apply State.setPort_frame (hw.mono (by decide)) | refine Frame.foldl ?_ (fun s a h => ?_) | split

theorem State.headReadStep_frame (hw : Within 0x2000040 ω) {r s : State} {core prov} {t : State} (e : s.headReadStep core prov = some t) (h : Frame ω r s) : Frame ω r t := by
  obtain ⟨a, _, e⟩ := List.exists_of_findSome?_eq_some e
  exact State.headRead_frame (hw.mono (by decide)) e h

theorem State.issueWrite_frame (hw : Within 0x170657e040 ω) {r s : State} {a1} {a} {bs} {rest} (h : Frame ω r s) : Frame ω r (State.issueWrite s a1 a bs rest) := by
  unfold State.issueWrite
  try dsimp only
  with_reducible repeat' first | assumption | apply State.setSd_frame (hw.mono (by decide)) | apply State.sendRemote_frame (hw.mono (by decide)) | apply State.startOp_frame (hw.mono (by decide)) | apply State.store_frame (hw.mono (by decide)) | apply State.sdStore_frame (hw.mono (by decide)) | refine Frame.foldl ?_ (fun s a h => ?_) | split

theorem State.sdAction_frame (hw : Within 0x170657e040 ω) {r s : State} {a1} {t : State} (e : State.sdAction s a1 = some t) (h : Frame ω r s) : Frame ω r t := by
  unfold State.sdAction at e
  try dsimp only at e
  repeat' (split at e)
  all_goals first | cases e | skip
  all_goals with_reducible repeat' first | assumption | apply State.issueWrite_frame (hw.mono (by decide)) | apply State.issueRead_frame (hw.mono (by decide)) | refine Frame.foldl ?_ (fun s a h => ?_) | split

theorem State.firstAction_frame (hw : Within 0x170657e040 ω) {r s : State} {rs} {t : State} (e : s.firstAction rs = some t) (h : Frame ω r s) : Frame ω r t := by
  obtain ⟨a, _, e⟩ := List.exists_of_findSome?_eq_some e
  exact State.sdAction_frame (hw.mono (by decide)) e h

theorem State.queueAction_frame (hw : Within 0x170657e040 ω) {r s : State} {core} {t : State} (e : s.queueAction core = some t) (h : Frame ω r s) : Frame ω r t := by
  obtain ⟨a, _, e⟩ := List.exists_of_findSome?_eq_some e
  dsimp only at e
  obtain ⟨u, e', e⟩ := Option.map_eq_some_iff.1 e
  subst e
  exact (Frame.set_str (hw.mono (by decide))).2 (State.firstAction_frame (hw.mono (by decide)) e' h)

theorem State.cancelLast_frame (hw : Within 0x2000040 ω) {r s : State} {core} {t : State} (e : s.cancelLast core = some t) (h : Frame ω r s) : Frame ω r t := by
  obtain ⟨x, hx, rfl⟩ := Option.map_eq_some_iff.1 e
  rcases List.mem_append.1 (List.mem_of_find?_eq_some hx) with m | m
  · obtain ⟨y, _, rfl⟩ := List.mem_map.1 m
    exact State.cancelSd_frame (hw.mono (by decide)) h
  · obtain ⟨y, _, rfl⟩ := List.mem_map.1 m
    exact State.cancelHead_frame (hw.mono (by decide)) h

theorem State.reclaim_frame (hw : Within 0x170657e040 ω) {r s : State} {core} {t : State} (e : s.reclaim core = some t) (h : Frame ω r s) : Frame ω r t := by
  unfold State.reclaim at e
  dsimp only at e
  split at e
  · exact State.cancelLast_frame (hw.mono (by decide)) e h
  · cases e

theorem State.engineAction_frame (hw : Within 0x170657e040 ω) {r s : State} {core} {t : State} (e : s.engineAction core = some t) (h : Frame ω r s) : Frame ω r t := by
  unfold State.engineAction at e
  rcases orElse_some e with e | e
  · exact State.queueAction_frame (hw.mono (by decide)) e h
  rcases orElse_some e with e | e
  · exact State.headReadStep_frame (hw.mono (by decide)) e h
  rcases orElse_some e with e | e
  · exact State.reclaim_frame (hw.mono (by decide)) e h
  split at e
  · rcases orElse_some e with e | e
    · exact State.firstAction_frame (hw.mono (by decide)) e h
    · exact State.headReadStep_frame (hw.mono (by decide)) e h
  · cases e

theorem State.pumpCoreN_frame (hw : Within 0x170657e040 ω) {n : Nat} {core} {r s : State} (h : Frame ω r s) : Frame ω r (s.pumpCoreN core n) := by
  induction n generalizing s with
  | zero => exact h
  | succ n ih =>
    unfold State.pumpCoreN
    try dsimp only
    with_reducible repeat' first | assumption | apply ih | (refine State.engineAction_frame (hw.mono (by decide)) (by assumption) ?_) | refine Frame.foldl ?_ (fun s a h => ?_) | split

theorem State.pumpCore_frame (hw : Within 0x170657e040 ω) {r s : State} {core} (h : Frame ω r s) : Frame ω r (State.pumpCore s core) := by
  unfold State.pumpCore
  try dsimp only
  with_reducible repeat' first | assumption | apply State.pumpCoreN_frame (hw.mono (by decide)) | refine Frame.foldl ?_ (fun s a h => ?_) | split

theorem State.setOwnBit_frame (hw : Within 0x40 ω) {r s : State} {core} {q} {a3} {v} (h : Frame ω r s) : Frame ω r (State.setOwnBit s core q a3 v) := by
  unfold State.setOwnBit
  try dsimp only
  with_reducible repeat' first | assumption | apply State.setField_frame (hw.mono (by decide)) | refine Frame.foldl ?_ (fun s a h => ?_) | split

theorem State.armRejected_frame (hw : Within 0x2000040 ω) {r s : State} {core} {num} {q} (h : Frame ω r s) : Frame ω r (State.armRejected s core num q) := by
  unfold State.armRejected
  try dsimp only
  with_reducible repeat' first | assumption | apply State.count_frame (hw.mono (by decide)) | apply State.orReg_frame (hw.mono (by decide)) | refine Frame.foldl ?_ (fun s a h => ?_) | simp only [Frame.set_str (hw.mono (by decide))] | split

theorem State.arm_frame (hw : Within 0x1706d7e040 ω) {r s : State} {l} {d} {bad : Nat → Nat → State → State} (hf : ∀ c a s, Frame ω r s → Frame ω r (bad c a s)) (h : Frame ω r s) : Frame ω r (s.arm l d bad) := by
  unfold State.arm
  try dsimp only
  with_reducible repeat' first | assumption | apply State.dropSd_frame (hw.mono (by decide)) | apply hf | apply State.descDone_frame (hw.mono (by decide)) | apply State.pumpCore_frame (hw.mono (by decide)) | apply State.setOwnBit_frame (hw.mono (by decide)) | apply State.issue_frame (hw.mono (by decide)) | apply State.cancelSd_frame (hw.mono (by decide)) | apply State.setSd_frame (hw.mono (by decide)) | apply State.count_frame (hw.mono (by decide)) | apply State.streamErr_frame (hw.mono (by decide)) | refine Frame.foldl ?_ (fun s a h => ?_) | simp only [Frame.set_str (hw.mono (by decide))] | split

theorem State.tryArm_frame (hw : Within 0x1706d7e040 ω) {r s : State} {l} {d} {bad : Nat → Nat → State → State} (hf : ∀ c a s, Frame ω r s → Frame ω r (bad c a s)) (h : Frame ω r s) : Frame ω r (s.tryArm l d bad) := by
  unfold State.tryArm
  with_reducible repeat' first | assumption | (refine State.arm_frame (hw.mono (by decide)) hf ?_) | apply State.descFault_frame (hw.mono (by decide)) | apply State.armRejected_frame (hw.mono (by decide)) | refine Frame.foldl ?_ (fun s a h => ?_) | split

theorem State.sdComplete_frame (hw : Within 0x1706d7e040 ω) {r s : State} {a1} (h : Frame ω r s) : Frame ω r (State.sdComplete s a1) := by
  unfold State.sdComplete
  try dsimp only
  with_reducible repeat' first | assumption | apply State.setOwnBit_frame (hw.mono (by decide)) | apply State.dropSd_frame (hw.mono (by decide)) | apply State.logDone_frame (hw.mono (by decide)) | apply State.pumpCore_frame (hw.mono (by decide)) | apply State.descDone_frame (hw.mono (by decide)) | apply State.count_frame (hw.mono (by decide)) | refine Frame.foldl ?_ (fun s a h => ?_) | split

theorem State.skipWaiters_frame (hw : Within 0x2000040 ω) {r s : State} {a1} (h : Frame ω r s) : Frame ω r (State.skipWaiters s a1) := by
  unfold State.skipWaiters
  try dsimp only
  with_reducible repeat' first | assumption | apply State.cancelSd_frame (hw.mono (by decide)) | refine Frame.foldl ?_ (fun s a h => ?_) | simp only [Frame.set_str (hw.mono (by decide))] | split

theorem State.opEnds_frame (hw : Within 0x1706d7e040 ω) {r s : State} {o} {data} (h : Frame ω r s) : Frame ω r (State.opEnds s o data) := by
  unfold State.opEnds
  try dsimp only
  with_reducible repeat' first | assumption | apply State.endOp_frame (hw.mono (by decide)) | apply State.pumpCore_frame (hw.mono (by decide)) | apply State.count_frame (hw.mono (by decide)) | refine State.arm_frame (hw.mono (by decide)) (fun c a s h => ?_) ?_ | apply State.setSd_frame (hw.mono (by decide)) | refine Frame.foldl ?_ (fun s a h => ?_) | split

theorem State.opFails_frame (hw : Within 0x1706d7e040 ω) {r s : State} {o} {a} {handle : State → State} (hf : ∀ s, Frame ω r s → Frame ω r (handle s)) (h : Frame ω r s) :
    Frame ω r (s.opFails o a handle) := by
  unfold State.opFails
  try dsimp only
  with_reducible repeat' first | assumption | apply hf | apply State.pumpCore_frame (hw.mono (by decide)) | apply State.count_frame (hw.mono (by decide)) | apply State.endOp_frame (hw.mono (by decide)) | apply State.setSd_frame (hw.mono (by decide)) | apply State.streamErr_frame (hw.mono (by decide)) | refine Frame.foldl ?_ (fun s a h => ?_) | split

theorem State.raStart_frame (hw : Within 0x2000040 ω) {r s : State} {core} {x} {t : State} (e : State.raStart s core = (x, t)) (h : Frame ω r s) : Frame ω r t := by
  unfold State.raStart at e
  try dsimp only at e
  repeat' (split at e)
  all_goals first | cases e | skip
  all_goals with_reducible repeat' first | assumption | apply State.count_frame (hw.mono (by decide)) | refine Frame.foldl ?_ (fun s a h => ?_) | simp only [Frame.set_str (hw.mono (by decide))] | split

theorem State.raStart_frame1 (hw : Within 0x2000040 ω) {r s : State} {core} (h : Frame ω r s) : Frame ω r (State.raStart s core).2 :=
  State.raStart_frame (hw.mono (by decide)) rfl h

theorem State.sdAhead_frame (hw : Within 0x170657e040 ω) {r s : State} {l} {i} {d} (h : Frame ω r s) : Frame ω r (State.sdAhead s l i d) := by
  unfold State.sdAhead
  try dsimp only
  with_reducible repeat' first | assumption | apply State.raStart_frame1 (hw.mono (by decide)) | apply State.pumpCore_frame (hw.mono (by decide)) | (refine State.raStart_frame (hw.mono (by decide)) (by assumption) ?_) | refine Frame.foldl ?_ (fun s a h => ?_) | simp only [Frame.set_str (hw.mono (by decide))] | split

end Sys2Proof.Machine
end

