-- ==== Sys2Proof/Laws/Shelf.lean ====
section
/-!
SUPPORT. Frames of the operations of Machine/Shelf.lean (Laws/Frame.lean says what a frame is).
-/
namespace Sys2Proof.Machine

variable {ω : Nat}

theorem State.setFrame_frame (hw : Within 0x10000000 ω) {r s : State} {shelf} {depth} {a3} (h : Frame ω r s) : Frame ω r (State.setFrame s shelf depth a3) := by
  unfold State.setFrame
  try dsimp only
  with_reducible repeat' first | assumption | refine Frame.foldl ?_ (fun s a h => ?_) | simp only [Frame.set_shelf (hw.mono (by decide))] | split

theorem State.countChunks_frame (hw : Within 0x40 ω) {r s : State}  (h : Frame ω r s) : Frame ω r (State.countChunks s) := by
  unfold State.countChunks
  try dsimp only
  with_reducible repeat' first | assumption | apply State.setReg_frame (hw.mono (by decide)) | refine Frame.foldl ?_ (fun s a h => ?_) | split

theorem State.spilled_frame (hw : Within 0x40 ω) {r s : State} {pool} (h : Frame ω r s) : Frame ω r (State.spilled s pool) := by
  unfold State.spilled
  try dsimp only
  with_reducible repeat' first | assumption | apply State.count_frame (hw.mono (by decide)) | apply State.orReg_frame (hw.mono (by decide)) | refine Frame.foldl ?_ (fun s a h => ?_) | split

theorem State.copyRange_frame (hw : Within 0x100006000 ω) {r s : State} {a b n} (h : Frame ω r s) : Frame ω r (s.copyRange a b n) := by
  apply State.markDirty_frame (hw.mono (by decide))
  apply State.freshCheck_frame (hw.mono (by decide))
  refine Frame.of h (mem := fun w => ?_)
  refine foldl_keeps (P := fun m => Memory.wf m = true) (fun m c => Memory.put_wf m _ _) ?_
  exact Memory.dropKeys_wf s.mem (fun k => decide (b ≤ k ∧ k < b + n)) w

theorem State.moveChunk_frame (hw : Within 0x110006040 ω) {r s : State} {core} {c} {pool} {num} (h : Frame ω r s) : Frame ω r (State.moveChunk s core c pool num) := by
  unfold State.moveChunk
  try dsimp only
  with_reducible repeat' first | assumption | apply State.copyRange_frame (hw.mono (by decide)) | apply State.countChunks_frame (hw.mono (by decide)) | apply State.count_frame (hw.mono (by decide)) | apply State.spilled_frame (hw.mono (by decide)) | refine Frame.foldl ?_ (fun s a h => ?_) | simp only [Frame.set_shelf (hw.mono (by decide))] | split

theorem State.addChunk_frame (hw : Within 0x10000040 ω) {r s : State} {shelf} {idx} {pool} {num} (h : Frame ω r s) : Frame ω r (State.addChunk s shelf idx pool num) := by
  unfold State.addChunk
  try dsimp only
  with_reducible repeat' first | assumption | apply State.countChunks_frame (hw.mono (by decide)) | apply State.spilled_frame (hw.mono (by decide)) | refine Frame.foldl ?_ (fun s a h => ?_) | simp only [Frame.set_shelf (hw.mono (by decide))] | split

theorem State.allocChunk_frame (hw : Within 0x110006040 ω) {r s : State} {core} {shelf} {idx} {t : State} (e : State.allocChunk s core shelf idx = some t) (h : Frame ω r s) : Frame ω r t := by
  unfold State.allocChunk at e
  try dsimp only at e
  repeat' (split at e)
  all_goals first | cases e | skip
  all_goals with_reducible repeat' first | assumption | apply State.addChunk_frame (hw.mono (by decide)) | apply State.moveChunk_frame (hw.mono (by decide)) | refine Frame.foldl ?_ (fun s a h => ?_) | split

theorem State.allocAll_frame (hw : Within 0x110006040 ω) {core shelf : Nat} {is : List Nat} {r s t : State} (e : s.allocAll core shelf is = some t) (h : Frame ω r s) : Frame ω r t := by
  induction is generalizing s with
  | nil => cases e; exact h
  | cons i is ih =>
    obtain ⟨u, e', e⟩ := Option.bind_eq_some_iff.1 e
    exact ih e (State.allocChunk_frame (hw.mono (by decide)) e' h)

theorem State.stackWrite_frame (hw : Within 0x100006000 ω) {shelf : Nat} {bs : List Byte} {a : Nat} {r s : State} (h : Frame ω r s) : Frame ω r (s.stackWrite shelf a bs) := by
  induction bs generalizing s a with
  | nil => exact h
  | cons b bs ih => exact ih (State.store_frame (hw.mono (by decide)) h)

theorem State.putVec_frame (hw : Within 0x100006000 ω) {r s : State} {d} {i} {data} {scales} (h : Frame ω r s) : Frame ω r (State.putVec s d i data scales) := by
  unfold State.putVec
  try dsimp only
  with_reducible repeat' first | assumption | apply State.stackWrite_frame (hw.mono (by decide)) | refine Frame.foldl ?_ (fun s a h => ?_) | split

theorem State.pushWords_frame (hw : Within 0x1108006040 ω) {r s : State} {core} {d} {i} {ws} (h : Frame ω r s) : Frame ω r (State.pushWords s core d i ws) := by
  unfold State.pushWords
  try dsimp only
  with_reducible repeat' first | assumption | apply State.putVec_frame (hw.mono (by decide)) | apply State.countLosses_frame (hw.mono (by decide)) | refine Frame.foldl ?_ (fun s a h => ?_) | simp only [Frame.set_free (hw.mono (by decide))] | split

theorem State.pushVec_frame (hw : Within 0x1108006040 ω) {r s : State} {core} {d} {i} {a4} (h : Frame ω r s) : Frame ω r (State.pushVec s core d i a4) := by
  unfold State.pushVec
  try dsimp only
  with_reducible repeat' first | assumption | apply State.putVec_frame (hw.mono (by decide)) | apply State.pushWords_frame (hw.mono (by decide)) | refine Frame.foldl ?_ (fun s a h => ?_) | split

theorem State.popVec_frame (hw : Within 0x1108006040 ω) {r s : State} {core} {d} {i} {a4} (h : Frame ω r s) : Frame ω r (State.popVec s core d i a4) := by
  unfold State.popVec
  try dsimp only
  with_reducible repeat' first | assumption | apply State.store_frame (hw.mono (by decide)) | apply State.countElems_frame (hw.mono (by decide)) | apply State.countLosses_frame (hw.mono (by decide)) | refine Frame.foldl ?_ (fun s a h => ?_) | simp only [Frame.set_free (hw.mono (by decide))] | split

theorem State.freeChunks_frame (hw : Within 0x10000000 ω) {r s : State} {core} {shelf} (h : Frame ω r s) : Frame ω r (State.freeChunks s core shelf) := by
  unfold State.freeChunks
  try dsimp only
  with_reducible repeat' first | assumption | refine Frame.foldl ?_ (fun s a h => ?_) | simp only [Frame.set_shelf (hw.mono (by decide))] | split

theorem State.releaseFrame_frame (hw : Within 0x10000000 ω) {r s : State} {core} {shelf} {depth} (h : Frame ω r s) : Frame ω r (State.releaseFrame s core shelf depth) := by
  unfold State.releaseFrame
  try dsimp only
  with_reducible repeat' first | assumption | apply State.freeChunks_frame (hw.mono (by decide)) | apply State.setFrame_frame (hw.mono (by decide)) | refine Frame.foldl ?_ (fun s a h => ?_) | split

theorem State.moveUp_frame (hw : Within 0x110006040 ω) {n : Nat} {core} {shelf} {r s : State} (h : Frame ω r s) : Frame ω r (s.moveUp core shelf n) := by
  induction n generalizing s with
  | zero => exact h
  | succ n ih =>
    unfold State.moveUp
    try dsimp only
    with_reducible repeat' first | assumption | apply ih | apply State.moveChunk_frame (hw.mono (by decide)) | refine Frame.foldl ?_ (fun s a h => ?_) | split

theorem State.returnChunks_frame (hw : Within 0x110006040 ω) {r s : State}  (h : Frame ω r s) : Frame ω r (State.returnChunks s) := by
  unfold State.returnChunks
  try dsimp only
  with_reducible repeat' first | assumption | apply State.countChunks_frame (hw.mono (by decide)) | apply State.moveUp_frame (hw.mono (by decide)) | refine Frame.foldl ?_ (fun s a h => ?_) | simp only [Frame.set_shelf (hw.mono (by decide))] | split

theorem State.shfError_frame (hw : Within 0x1606578040 ω) {r s : State} {a1} {d} {code} (h : Frame ω r s) : Frame ω r (State.shfError s a1 d code) := by
  unfold State.shfError
  try dsimp only
  with_reducible repeat' first | assumption | apply State.shelfError_frame (hw.mono (by decide)) | refine Frame.foldl ?_ (fun s a h => ?_) | split

theorem State.createFrame_frame (hw : Within 0x10000000 ω) {r s : State} {core} {d} (h : Frame ω r s) : Frame ω r (State.createFrame s core d) := by
  unfold State.createFrame
  try dsimp only
  with_reducible repeat' first | assumption | apply State.setFrame_frame (hw.mono (by decide)) | refine Frame.foldl ?_ (fun s a h => ?_) | simp only [Frame.set_shelf (hw.mono (by decide))] | split

theorem State.sealFrame_frame (hw : Within 0x10000000 ω) {r s : State} {d} (h : Frame ω r s) : Frame ω r (State.sealFrame s d) := by
  unfold State.sealFrame
  try dsimp only
  with_reducible repeat' first | assumption | apply State.setFrame_frame (hw.mono (by decide)) | refine Frame.foldl ?_ (fun s a h => ?_) | split

theorem State.loadReaders_frame (hw : Within 0x10000000 ω) {r s : State} {d} (h : Frame ω r s) : Frame ω r (State.loadReaders s d) := by
  unfold State.loadReaders
  try dsimp only
  with_reducible repeat' first | assumption | apply State.setFrame_frame (hw.mono (by decide)) | refine Frame.foldl ?_ (fun s a h => ?_) | simp only [Frame.set_shelf (hw.mono (by decide))] | split

theorem State.releasePop_frame (hw : Within 0x10000000 ω) {r s : State} {core} {d} (h : Frame ω r s) : Frame ω r (State.releasePop s core d) := by
  unfold State.releasePop
  try dsimp only
  with_reducible repeat' first | assumption | apply State.releaseFrame_frame (hw.mono (by decide)) | apply State.setFrame_frame (hw.mono (by decide)) | refine Frame.foldl ?_ (fun s a h => ?_) | simp only [Frame.set_shelf (hw.mono (by decide))] | split

theorem State.setRun_frame (hw : Within 0x10000000 ω) {r s : State} {a1} (h : Frame ω r s) : Frame ω r (State.setRun s a1) := by
  unfold State.setRun
  try dsimp only
  with_reducible repeat' first | assumption | refine Frame.foldl ?_ (fun s a h => ?_) | simp only [Frame.set_shelf (hw.mono (by decide))] | split

theorem State.dropRun_frame (hw : Within 0x10000000 ω) {r s : State} {a1} (h : Frame ω r s) : Frame ω r (State.dropRun s a1) := by
  unfold State.dropRun
  try dsimp only
  with_reducible repeat' first | assumption | refine Frame.foldl ?_ (fun s a h => ?_) | simp only [Frame.set_shelf (hw.mono (by decide))] | split

theorem State.doPush_frame (hw : Within 0x171e57e040 ω) {r s : State} {a1} (h : Frame ω r s) : Frame ω r (State.doPush s a1) := by
  unfold State.doPush
  try dsimp only
  with_reducible repeat' first | assumption | apply State.shfError_frame (hw.mono (by decide)) | apply State.dropRun_frame (hw.mono (by decide)) | apply State.setRun_frame (hw.mono (by decide)) | apply State.pushVec_frame (hw.mono (by decide)) | (refine State.allocAll_frame (hw.mono (by decide)) (by assumption) ?_) | refine Frame.foldl ?_ (fun s a h => ?_) | split

theorem State.popWrite_frame (hw : Within 0x171e57e040 ω) {r s : State} {l} {a2} (h : Frame ω r s) : Frame ω r (State.popWrite s l a2) := by
  unfold State.popWrite
  try dsimp only
  with_reducible repeat' first | assumption | apply State.setRun_frame (hw.mono (by decide)) | apply State.doPush_frame (hw.mono (by decide)) | apply State.popVec_frame (hw.mono (by decide)) | refine Frame.foldl ?_ (fun s a h => ?_) | split

theorem State.shfEnd_frame (hw : Within 0x1616d78040 ω) {r s : State} {a1} {d} (h : Frame ω r s) : Frame ω r (State.shfEnd s a1 d) := by
  unfold State.shfEnd
  try dsimp only
  with_reducible repeat' first | assumption | apply State.shfError_frame (hw.mono (by decide)) | apply State.drain_frame (hw.mono (by decide)) | apply State.releasePop_frame (hw.mono (by decide)) | apply State.sealFrame_frame (hw.mono (by decide)) | refine Frame.foldl ?_ (fun s a h => ?_) | split

theorem State.slotOps_frame1 (hw : Within 0x2000040 ω) {own : DescRef} {ps : List (Bool × Nat × Nat)} {r s : State} (h : Frame ω r s) : Frame ω r (s.slotOps own ps).1 := by
  induction ps generalizing s with
  | nil => exact h
  | cons p ps ih =>
    unfold State.slotOps
    split
    · exact ih (State.startOp_frame (hw.mono (by decide)) h)
    · exact h

theorem State.slotOps_frame (hw : Within 0x2000040 ω) {own : DescRef} {ps : List (Bool × Nat × Nat)} {r s : State} {x} {t : State} (e : s.slotOps own ps = (t, x)) (h : Frame ω r s) :
    Frame ω r t := by
  have := State.slotOps_frame1 (hw.mono (by decide)) (own := own) (ps := ps) h
  rwa [e] at this

theorem State.shfGo_frame (hw : Within 0x1616d78040 ω) {r s : State} {a1} (h : Frame ω r s) : Frame ω r (State.shfGo s a1) := by
  unfold State.shfGo
  try dsimp only
  with_reducible repeat' first | assumption | apply State.slotOps_frame1 (hw.mono (by decide)) | apply State.setRun_frame (hw.mono (by decide)) | apply State.dropRun_frame (hw.mono (by decide)) | apply State.shfEnd_frame (hw.mono (by decide)) | apply State.count_frame (hw.mono (by decide)) | (refine State.slotOps_frame (hw.mono (by decide)) (by assumption) ?_) | refine Frame.foldl ?_ (fun s a h => ?_) | split

theorem State.withRun_frame {r s : State} {a1} {f} (hf : ∀ s x, Frame ω r s → Frame ω r (f s x)) (h : Frame ω r s) : Frame ω r (State.withRun s a1 f) := by
  unfold State.withRun
  split
  · exact hf _ _ h
  · exact h

theorem State.shfBegin_frame (hw : Within 0x171ed7e040 ω) {r s : State} {l} {a2} (h : Frame ω r s) : Frame ω r (State.shfBegin s l a2) := by
  unfold State.shfBegin
  try dsimp only
  with_reducible repeat' first | assumption | apply State.shfEnd_frame (hw.mono (by decide)) | apply State.dropRun_frame (hw.mono (by decide)) | apply State.setRun_frame (hw.mono (by decide)) | apply State.doPush_frame (hw.mono (by decide)) | refine Frame.foldl ?_ (fun s a h => ?_) | split

theorem State.shfStep_frame (hw : Within 0x171ed7e040 ω) {r s : State} {a1} (h : Frame ω r s) : Frame ω r (State.shfStep s a1) := by
  unfold State.shfStep
  try dsimp only
  with_reducible repeat' first | assumption | apply State.shfBegin_frame (hw.mono (by decide)) | refine State.withRun_frame (fun s x h => ?_) ?_ | apply State.popWrite_frame (hw.mono (by decide)) | apply State.shfGo_frame (hw.mono (by decide)) | refine Frame.foldl ?_ (fun s a h => ?_) | split

theorem State.moveStep_frame (hw : Within 0x12000040 ω) {r s : State} {c} (h : Frame ω r s) : Frame ω r (State.moveStep s c) := by
  unfold State.moveStep
  try dsimp only
  with_reducible repeat' first | assumption | apply State.slotOps_frame1 (hw.mono (by decide)) | (refine State.slotOps_frame (hw.mono (by decide)) (by assumption) ?_) | refine Frame.foldl ?_ (fun s a h => ?_) | simp only [Frame.set_shelf (hw.mono (by decide))] | split

theorem State.pumpShelf_frame (hw : Within 0x171ed7e040 ω) {r s : State}  (h : Frame ω r s) : Frame ω r (State.pumpShelf s) := by
  unfold State.pumpShelf
  try dsimp only
  with_reducible repeat' first | assumption | apply State.shfStep_frame (hw.mono (by decide)) | apply State.moveStep_frame (hw.mono (by decide)) | refine Frame.foldl ?_ (fun s a h => ?_) | split

theorem State.shf_frame (hw : Within 0x171ed7e040 ω) {r s : State} {core} {num} {pop} (h : Frame ω r s) : Frame ω r (State.shf s core num pop) := by
  unfold State.shf
  try dsimp only
  with_reducible repeat' first | assumption | apply State.descFault_frame (hw.mono (by decide)) | apply State.checkCopy_frame (hw.mono (by decide)) | apply State.issue_frame (hw.mono (by decide)) | apply State.shfError_frame (hw.mono (by decide)) | apply State.loadReaders_frame (hw.mono (by decide)) | apply State.createFrame_frame (hw.mono (by decide)) | apply State.pumpShelf_frame (hw.mono (by decide)) | refine Frame.foldl ?_ (fun s a h => ?_) | simp only [Frame.set_shelf (hw.mono (by decide))] | split

theorem execShfPush_frame (hw : Within 0x171ed7e040 ω) {r s : State} {core} {list} (h : Frame ω r s) : FrameO ω r (execShfPush core list s) := by
  unfold execShfPush
  try dsimp only
  with_reducible repeat' first | assumption | apply FrameO.next | apply State.shf_frame (hw.mono (by decide)) | refine Frame.foldl ?_ (fun s a h => ?_) | split

theorem execShfPop_frame (hw : Within 0x171ed7e040 ω) {r s : State} {core} {list} (h : Frame ω r s) : FrameO ω r (execShfPop core list s) := by
  unfold execShfPop
  try dsimp only
  with_reducible repeat' first | assumption | apply FrameO.next | apply State.shf_frame (hw.mono (by decide)) | refine Frame.foldl ?_ (fun s a h => ?_) | split

theorem execPopWaitEnd_frame (hw : Within 0x171ed7e040 ω) {r s : State} {core} {list} {idx} {cycles} (h : Frame ω r s) : FrameO ω r (execPopWaitEnd core list idx cycles s) := by
  unfold execPopWaitEnd
  try dsimp only
  with_reducible repeat' first | assumption | apply FrameO.next | refine State.withRun_frame (fun s x h => ?_) ?_ | apply State.shfError_frame (hw.mono (by decide)) | apply State.dropRun_frame (hw.mono (by decide)) | apply State.count_frame (hw.mono (by decide)) | apply State.pumpShelf_frame (hw.mono (by decide)) | refine Frame.foldl ?_ (fun s a h => ?_) | simp only [Frame.set_shelf (hw.mono (by decide))] | split

theorem execShelfOrder_frame (hw : Within 0x1616578040 ω) {r s : State} {core} {list} {idx} (h : Frame ω r s) : FrameO ω r (execShelfOrder core list idx s) := by
  unfold execShelfOrder
  try dsimp only
  with_reducible repeat' first | assumption | apply FrameO.next | refine State.withRun_frame (fun s x h => ?_) ?_ | apply State.count_frame (hw.mono (by decide)) | apply State.shfError_frame (hw.mono (by decide)) | refine Frame.foldl ?_ (fun s a h => ?_) | simp only [Frame.set_shelf (hw.mono (by decide))] | split

end Sys2Proof.Machine
end

