-- ==== Sys2Proof/Laws/Array.lean ====
section
/-!
SUPPORT. Frames of the operations of Machine/Array.lean (Laws/Frame.lean says what a frame is).
-/
namespace Sys2Proof.Machine

variable {ω : Nat}

theorem State.putTile_frame (hw : Within 0xc000040 ω) {r s : State} {core} {cycles} {a3} (h : Frame ω r s) : Frame ω r (State.putTile s core cycles a3) := by
  unfold State.putTile
  try dsimp only
  with_reducible repeat' first | assumption | apply State.countLosses_frame (hw.mono (by decide)) | apply State.count_frame (hw.mono (by decide)) | apply State.setArr_frame (hw.mono (by decide)) | refine Frame.foldl ?_ (fun s a h => ?_) | split

theorem State.sld_frame (hw : Within 0x160ed78040 ω) {r s : State} {core} {num} (h : Frame ω r s) : Frame ω r (State.sld s core num) := by
  unfold State.sld
  try dsimp only
  with_reducible repeat' first | assumption | apply State.descFault_frame (hw.mono (by decide)) | apply State.drain_frame (hw.mono (by decide)) | apply State.putTile_frame (hw.mono (by decide)) | apply State.setArr_frame (hw.mono (by decide)) | apply State.checkCopy_frame (hw.mono (by decide)) | apply State.issue_frame (hw.mono (by decide)) | refine Frame.foldl ?_ (fun s a h => ?_) | split

theorem State.drainAdd_frame1 (hw : Within 0x4000000 ω) {r s : State} {core terms : Nat} {old out : List Word} (h : Frame ω r s) : Frame ω r (State.drainAdd s core terms old out).2 := by
  have k := State.drawLanes_frame1 (hw.mono (by decide)) (core := core) h
  unfold State.drainAdd
  generalize s.drawLanes core = p at k ⊢
  dsimp only
  split
  · exact k
  · exact h

theorem State.drainAdd_frame (hw : Within 0x4000000 ω) {r s : State} {core terms : Nat} {old out : List Word} {x} {t : State} (e : State.drainAdd s core terms old out = (x, t)) (h : Frame ω r s) : Frame ω r t := by
  have := State.drainAdd_frame1 (hw.mono (by decide)) (r := r) (s := s) (core := core) (terms := terms) (old := old) (out := out) h
  rw [e] at this
  exact this

theorem State.setAcc_frame (hw : Within 0x4000000 ω) {r s : State} {core} {a2} {terms} {ws} (h : Frame ω r s) : Frame ω r (State.setAcc s core a2 terms ws) := by
  unfold State.setAcc
  try dsimp only
  with_reducible repeat' first | assumption | apply State.setArr_frame (hw.mono (by decide)) | refine Frame.foldl ?_ (fun s a h => ?_) | split

theorem State.accumulate_frame1 (hw : Within 0x4000000 ω) {r s : State} {core : Nat} {d : Desc} {n : Nat} {out : Option (List Word)} (h : Frame ω r s) : Frame ω r (State.accumulate s core d n out).2 := by
  unfold State.accumulate
  dsimp only
  with_reducible repeat' first | assumption | apply State.setAcc_frame (hw.mono (by decide)) | apply State.drainAdd_frame1 (hw.mono (by decide)) | refine Frame.foldl ?_ (fun s a h => ?_) | split

theorem State.accumulate_frame (hw : Within 0x4000000 ω) {r s : State} {core : Nat} {d : Desc} {n : Nat} {out : Option (List Word)} {x} {t : State} (e : State.accumulate s core d n out = (x, t)) (h : Frame ω r s) : Frame ω r t := by
  have := State.accumulate_frame1 (hw.mono (by decide)) (r := r) (s := s) (core := core) (d := d) (n := n) (out := out) h
  rwa [e] at this

theorem State.countNonfin_frame (hw : Within 0x8000040 ω) {r s : State} {core} {out} {made} (h : Frame ω r s) : Frame ω r (State.countNonfin s core out made) := by
  unfold State.countNonfin
  try dsimp only
  with_reducible repeat' first | assumption | apply State.countLosses_frame (hw.mono (by decide)) | refine Frame.foldl ?_ (fun s a h => ?_) | split

theorem State.finish_frame (hw : Within 0x110c006040 ω) {r s : State} {core} {p} {a3} {n} {ws} (h : Frame ω r s) : Frame ω r (State.finish s core p a3 n ws) := by
  unfold State.finish
  try dsimp only
  with_reducible repeat' first | assumption | apply State.pushWords_frame (hw.mono (by decide)) | apply State.vodVector_frame (hw.mono (by decide)) | refine Frame.foldl ?_ (fun s a h => ?_) | split

theorem State.drainVec_frame (hw : Within 0x110c006040 ω) {r s : State} {core} {p} {a3} {n} {out} (h : Frame ω r s) : Frame ω r (State.drainVec s core p a3 n out) := by
  unfold State.drainVec
  try dsimp only
  with_reducible repeat' first | assumption | apply State.accumulate_frame1 (hw.mono (by decide)) | apply State.countNonfin_frame (hw.mono (by decide)) | apply State.finish_frame (hw.mono (by decide)) | (refine State.accumulate_frame (hw.mono (by decide)) (by assumption) ?_) | refine Frame.foldl ?_ (fun s a h => ?_) | split

theorem State.commitVec_frame (hw : Within 0x110c006040 ω) {r s : State} {core} {a2} {p} {n} {data} {scales} {bad} (h : Frame ω r s) : Frame ω r (State.commitVec s core a2 p n data scales bad) := by
  unfold State.commitVec
  try dsimp only
  with_reducible repeat' first | assumption | apply State.drainVec_frame (hw.mono (by decide)) | refine Frame.foldl ?_ (fun s a h => ?_) | split

theorem State.setPass_frame (hw : Within 0x4000000 ω) {r s : State} {core} {p} (h : Frame ω r s) : Frame ω r (State.setPass s core p) := by
  unfold State.setPass
  try dsimp only
  with_reducible repeat' first | assumption | apply State.setArr_frame (hw.mono (by decide)) | refine Frame.foldl ?_ (fun s a h => ?_) | split

theorem State.endPass_frame (hw : Within 0x171ed7e040 ω) {r s : State} {core} {p} {noop} (h : Frame ω r s) : Frame ω r (State.endPass s core p noop) := by
  unfold State.endPass
  try dsimp only
  with_reducible repeat' first | assumption | apply State.setArr_frame (hw.mono (by decide)) | apply State.drain_frame (hw.mono (by decide)) | apply State.shfEnd_frame (hw.mono (by decide)) | apply State.pumpShelf_frame (hw.mono (by decide)) | refine Frame.foldl ?_ (fun s a h => ?_) | simp only [Frame.set_shelf (hw.mono (by decide))] | split

theorem State.outcome_frame (hw : Within 0x18040 ω) {r s : State} {core} {p} {v0} {b} (h : Frame ω r s) : Frame ω r (State.outcome s core p v0 b) := by
  unfold State.outcome
  try dsimp only
  with_reducible repeat' first | assumption | apply State.logFull_frame (hw.mono (by decide)) | apply State.orReg_frame (hw.mono (by decide)) | refine Frame.foldl ?_ (fun s a h => ?_) | split

theorem State.setFlag_frame (hw : Within 0x4000040 ω) {r s : State} {core} {p} {v} {first} (h : Frame ω r s) : Frame ω r (State.setFlag s core p v first) := by
  unfold State.setFlag
  try dsimp only
  with_reducible repeat' first | assumption | apply State.setPass_frame (hw.mono (by decide)) | apply State.count_frame (hw.mono (by decide)) | apply State.orReg_frame (hw.mono (by decide)) | refine Frame.foldl ?_ (fun s a h => ?_) | split

theorem State.flagPass_frame (hw : Within 0x4038040 ω) {r s : State} {core} {a2} {p} {data} {scales} (h : Frame ω r s) : Frame ω r (State.flagPass s core a2 p data scales) := by
  unfold State.flagPass
  try dsimp only
  with_reducible repeat' first | assumption | apply State.setFlag_frame (hw.mono (by decide)) | apply State.descFault_frame (hw.mono (by decide)) | apply State.outcome_frame (hw.mono (by decide)) | refine Frame.foldl ?_ (fun s a h => ?_) | split

theorem State.enterVec_frame (hw : Within 0x8000040 ω) {r s : State} {core} {p} {data} {scales} (h : Frame ω r s) : Frame ω r (State.enterVec s core p data scales) := by
  unfold State.enterVec
  try dsimp only
  with_reducible repeat' first | assumption | apply State.countElems_frame (hw.mono (by decide)) | apply State.count_frame (hw.mono (by decide)) | refine Frame.foldl ?_ (fun s a h => ?_) | split

theorem State.takeVec_frame (hw : Within 0x171ed7e040 ω) {r s : State} {core} {p} {data} {scales} (h : Frame ω r s) : Frame ω r (State.takeVec s core p data scales) := by
  unfold State.takeVec
  try dsimp only
  with_reducible repeat' first | assumption | apply State.enterVec_frame (hw.mono (by decide)) | apply State.count_frame (hw.mono (by decide)) | apply State.setArr_frame (hw.mono (by decide)) | apply State.setPass_frame (hw.mono (by decide)) | apply State.flagPass_frame (hw.mono (by decide)) | apply State.commitVec_frame (hw.mono (by decide)) | apply State.endPass_frame (hw.mono (by decide)) | refine Frame.foldl ?_ (fun s a h => ?_) | split

theorem State.emptyPass_frame (hw : Within 0x171ed7e040 ω) {r s : State} {core} {p} (h : Frame ω r s) : Frame ω r (State.emptyPass s core p) := by
  unfold State.emptyPass
  try dsimp only
  with_reducible repeat' first | assumption | apply State.count_frame (hw.mono (by decide)) | apply State.drainVec_frame (hw.mono (by decide)) | apply State.endPass_frame (hw.mono (by decide)) | refine Frame.foldl ?_ (fun s a h => ?_) | split

theorem State.noPass_frame (hw : Within 0x171ed7e040 ω) {r s : State} {core} {p} (h : Frame ω r s) : Frame ω r (State.noPass s core p) := by
  unfold State.noPass
  try dsimp only
  with_reducible repeat' first | assumption | apply State.endPass_frame (hw.mono (by decide)) | apply State.count_frame (hw.mono (by decide)) | refine Frame.foldl ?_ (fun s a h => ?_) | split

theorem State.localPass_frame (hw : Within 0x171ed7e040 ω) {r s : State} {core} {p} (h : Frame ω r s) : Frame ω r (State.localPass s core p) := by
  unfold State.localPass
  try dsimp only
  with_reducible repeat' first | assumption | apply State.takeVec_frame (hw.mono (by decide)) | refine Frame.foldl ?_ (fun s a h => ?_) | split

theorem State.rerun_frame1 (hw : Within 0x110c006040 ω) {r s : State} {core} {t : Tile} {p v check bad} (h : Frame ω r s) : Frame ω r (s.rerun core t p v check bad).2 := by
  unfold State.rerun
  refine foldl_keeps (P := fun (x : Option Nat × State) => Frame ω r x.2) (fun x j k => ?_) h
  dsimp only
  split
  · exact k
  · split
    · exact State.enterVec_frame (hw.mono (by decide)) k
    · exact State.commitVec_frame (hw.mono (by decide)) (State.enterVec_frame (hw.mono (by decide)) k)

theorem State.rerun_frame (hw : Within 0x110c006040 ω) {r s : State} {core} {t : Tile} {p v check bad} {x} {u : State} (e : s.rerun core t p v check bad = (x, u)) (h : Frame ω r s) :
    Frame ω r u := by
  have := State.rerun_frame1 (hw.mono (by decide)) (core := core) (t := t) (p := p) (v := v) (check := check) (bad := bad) h
  rwa [e] at this

theorem State.retryCycles_frame (hw : Within 0x4000040 ω) {r s : State} {core} {n} (h : Frame ω r s) : Frame ω r (State.retryCycles s core n) := by
  unfold State.retryCycles
  try dsimp only
  with_reducible repeat' first | assumption | apply State.count_frame (hw.mono (by decide)) | apply State.setArr_frame (hw.mono (by decide)) | refine Frame.foldl ?_ (fun s a h => ?_) | split

theorem State.retryCost_frame (hw : Within 0x4000040 ω) {r s : State} {core} {n} (h : Frame ω r s) : Frame ω r (State.retryCost s core n) := by
  unfold State.retryCost
  try dsimp only
  with_reducible repeat' first | assumption | apply State.count_frame (hw.mono (by decide)) | apply State.retryCycles_frame (hw.mono (by decide)) | refine Frame.foldl ?_ (fun s a h => ?_) | split

theorem State.failAgain_frame (hw : Within 0x4038040 ω) {r s : State} {core} {a2} {p} {v} {bad} (h : Frame ω r s) : Frame ω r (State.failAgain s core a2 p v bad) := by
  unfold State.failAgain
  try dsimp only
  with_reducible repeat' first | assumption | apply State.descFault_frame (hw.mono (by decide)) | apply State.outcome_frame (hw.mono (by decide)) | apply State.setFlag_frame (hw.mono (by decide)) | refine Frame.foldl ?_ (fun s a h => ?_) | split

theorem State.confirmRow_frame (hw : Within 0x1800018040 ω) {r s : State} {core} {a2} (h : Frame ω r s) : Frame ω r (State.confirmRow s core a2) := by
  unfold State.confirmRow
  try dsimp only
  with_reducible repeat' first | assumption | apply State.draw_frame1 (hw.mono (by decide)) | apply State.setField_frame (hw.mono (by decide)) | apply State.bayOutcome_frame (hw.mono (by decide)) | apply State.schedule_frame (hw.mono (by decide)) | (refine State.draw_frame (hw.mono (by decide)) (by assumption) ?_) | refine Frame.foldl ?_ (fun s a h => ?_) | split

theorem State.retryPass_frame (hw : Within 0x1f1ed7e040 ω) {r s : State} {core} {lf} {p} {run1} {run2} {faulty} (h : Frame ω r s) : Frame ω r (State.retryPass s core lf p run1 run2 faulty) := by
  unfold State.retryPass
  try dsimp only
  with_reducible repeat' first | assumption | apply State.enterVec_frame (hw.mono (by decide)) | apply State.retryCost_frame (hw.mono (by decide)) | apply State.commitVec_frame (hw.mono (by decide)) | apply State.rerun_frame1 (hw.mono (by decide)) | apply State.failAgain_frame (hw.mono (by decide)) | apply State.endPass_frame (hw.mono (by decide)) | apply State.rowDue_frame (hw.mono (by decide)) | apply State.outcome_frame (hw.mono (by decide)) | apply State.count_frame (hw.mono (by decide)) | apply State.putTile_frame (hw.mono (by decide)) | apply State.confirmRow_frame (hw.mono (by decide)) | apply State.descFault_frame (hw.mono (by decide)) | apply State.retryCycles_frame (hw.mono (by decide)) | (refine State.rerun_frame (hw.mono (by decide)) (by assumption) ?_) | refine Frame.foldl ?_ (fun s a h => ?_) | split

end Sys2Proof.Machine
end

