-- ==== Sys2Proof/Laws/Reel.lean ====
section
/-!
SUPPORT. Frames of the operations of Machine/Reel.lean (Laws/Frame.lean says what a frame is).
-/
namespace Sys2Proof.Machine

variable {ω : Nat}

theorem State.freeSlots_frame (hw : Within 0x2000000 ω) {r s : State} {core} {stream} {n} (h : Frame ω r s) : Frame ω r (State.freeSlots s core stream n) := by
  unfold State.freeSlots
  try dsimp only
  with_reducible repeat' first | assumption | apply State.setPort_frame (hw.mono (by decide)) | refine Frame.foldl ?_ (fun s a h => ?_) | split

theorem State.sendVec_frame (hw : Within 0x2000000 ω) {r s : State} {core} {stream} {v} (h : Frame ω r s) : Frame ω r (State.sendVec s core stream v) := by
  unfold State.sendVec
  try dsimp only
  with_reducible repeat' first | assumption | apply State.sendItem_frame (hw.mono (by decide)) | apply State.setPort_frame (hw.mono (by decide)) | refine Frame.foldl ?_ (fun s a h => ?_) | split

theorem State.forwardStep_frame (hw : Within 0x2000040 ω) {r s : State} {core} {stream} {t : State} (e : State.forwardStep s core stream = some t) (h : Frame ω r s) : Frame ω r t := by
  unfold State.forwardStep at e
  try dsimp only at e
  repeat' (split at e)
  all_goals first | cases e | skip
  all_goals with_reducible repeat' first | assumption | apply State.setPort_frame (hw.mono (by decide)) | apply State.freeSlots_frame (hw.mono (by decide)) | apply State.sendVec_frame (hw.mono (by decide)) | apply State.count_frame (hw.mono (by decide)) | refine Frame.foldl ?_ (fun s a h => ?_) | split

theorem State.takeSkid_frame (hw : Within 0x2000040 ω) {r s : State} {core} {stream} {o} (h : Frame ω r s) : Frame ω r (State.takeSkid s core stream o) := by
  unfold State.takeSkid
  try dsimp only
  with_reducible repeat' first | assumption | apply State.count_frame (hw.mono (by decide)) | apply State.setPort_frame (hw.mono (by decide)) | refine Frame.foldl ?_ (fun s a h => ?_) | split

theorem State.landStep_frame (hw : Within 0x102006040 ω) {r s : State} {core} {stream} {t : State} (e : State.landStep s core stream = some t) (h : Frame ω r s) : Frame ω r t := by
  unfold State.landStep at e
  try dsimp only at e
  repeat' (split at e)
  all_goals first | cases e | skip
  all_goals with_reducible repeat' first | assumption | apply State.store_frame (hw.mono (by decide)) | apply State.takeSkid_frame (hw.mono (by decide)) | refine Frame.foldl ?_ (fun s a h => ?_) | split

theorem State.arrayStep_frame (hw : Within 0x171ed7e040 ω) {r s : State} {core} {t : State} (e : State.arrayStep s core = some t) (h : Frame ω r s) : Frame ω r t := by
  unfold State.arrayStep at e
  try dsimp only at e
  repeat' (split at e)
  all_goals first | cases e | skip
  all_goals with_reducible repeat' first | assumption | apply State.emptyPass_frame (hw.mono (by decide)) | apply State.localPass_frame (hw.mono (by decide)) | apply State.takeVec_frame (hw.mono (by decide)) | apply State.takeSkid_frame (hw.mono (by decide)) | (refine State.landStep_frame (hw.mono (by decide)) (by assumption) ?_) | refine Frame.foldl ?_ (fun s a h => ?_) | split

theorem State.injectStep_frame (hw : Within 0x2000000 ω) {r s : State} {core} {stream} {t : State} (e : State.injectStep s core stream = some t) (h : Frame ω r s) : Frame ω r t := by
  unfold State.injectStep at e
  try dsimp only at e
  repeat' (split at e)
  all_goals first | cases e | skip
  all_goals with_reducible repeat' first | assumption | apply State.setPort_frame (hw.mono (by decide)) | apply State.setHead_frame (hw.mono (by decide)) | apply State.sendVec_frame (hw.mono (by decide)) | refine Frame.foldl ?_ (fun s a h => ?_) | simp only [Frame.set_str (hw.mono (by decide))] | split

theorem State.rldCheck_frame (hw : Within 0x800000 ω) {r s : State} {core} {stream} (h : Frame ω r s) : Frame ω r (State.rldCheck s core stream) := by
  unfold State.rldCheck
  try dsimp only
  with_reducible repeat' first | assumption | apply State.drain_frame (hw.mono (by decide)) | refine Frame.foldl ?_ (fun s a h => ?_) | split

theorem State.reelStep_frame (hw : Within 0x171ed7e040 ω) {r s : State} {core} {t : State} (e : s.reelStep core = some t) (h : Frame ω r s) : Frame ω r t := by
  unfold State.reelStep at e
  rcases orElse_some e with e | e
  · exact State.arrayStep_frame (hw.mono (by decide)) e h
  rcases orElse_some e with e | e
  · exact State.landStep_frame (hw.mono (by decide)) e h
  rcases orElse_some e with e | e
  · exact State.landStep_frame (hw.mono (by decide)) e h
  rcases orElse_some e with e | e
  · exact State.forwardStep_frame (hw.mono (by decide)) e h
  rcases orElse_some e with e | e
  · exact State.forwardStep_frame (hw.mono (by decide)) e h
  rcases orElse_some e with e | e
  · exact State.injectStep_frame (hw.mono (by decide)) e h
  rcases orElse_some e with e | e
  · exact State.injectStep_frame (hw.mono (by decide)) e h
  rcases orElse_some e with e | e
  · exact State.headReadStep_frame (hw.mono (by decide)) e h
  split at e
  · exact State.headReadStep_frame (hw.mono (by decide)) e h
  · cases e

theorem State.reelGoN_frame (hw : Within 0x171ed7e040 ω) {n : Nat} {core} {r s : State} (h : Frame ω r s) : Frame ω r (s.reelGoN core n) := by
  induction n generalizing s with
  | zero => exact h
  | succ n ih =>
    unfold State.reelGoN
    try dsimp only
    with_reducible repeat' first | assumption | apply ih | (refine State.reelStep_frame (hw.mono (by decide)) (by assumption) ?_) | refine Frame.foldl ?_ (fun s a h => ?_) | split

theorem State.reelGo_frame (hw : Within 0x171ed7e040 ω) {r s : State} {core} (h : Frame ω r s) : Frame ω r (State.reelGo s core) := by
  unfold State.reelGo
  try dsimp only
  with_reducible repeat' first | assumption | apply State.rldCheck_frame (hw.mono (by decide)) | apply State.reelGoN_frame (hw.mono (by decide)) | refine Frame.foldl ?_ (fun s a h => ?_) | split

theorem State.startHead_frame (hw : Within 0x2000000 ω) {r s : State} {a1} {d} {prov} {born} (h : Frame ω r s) : Frame ω r (State.startHead s a1 d prov born) := by
  unfold State.startHead
  try dsimp only
  with_reducible repeat' first | assumption | refine Frame.foldl ?_ (fun s a h => ?_) | simp only [Frame.set_str (hw.mono (by decide))] | split

theorem State.commitPort_frame (hw : Within 0x2000040 ω) {r s : State} {core} {stream} (h : Frame ω r s) : Frame ω r (State.commitPort s core stream) := by
  unfold State.commitPort
  try dsimp only
  with_reducible repeat' first | assumption | apply State.count_frame (hw.mono (by decide)) | apply State.setPort_frame (hw.mono (by decide)) | refine Frame.foldl ?_ (fun s a h => ?_) | split

theorem State.headIssue_frame (hw : Within 0x2018040 ω) {r s : State} {o} {d} {bad : Nat → Nat → State → State} (hf : ∀ c a s, Frame ω r s → Frame ω r (bad c a s)) (h : Frame ω r s) : Frame ω r (s.headIssue o d bad) := by
  unfold State.headIssue
  try dsimp only
  with_reducible repeat' first | assumption | apply hf | apply State.startHead_frame (hw.mono (by decide)) | apply State.setHead_frame (hw.mono (by decide)) | apply State.streamErr_frame (hw.mono (by decide)) | apply State.sendItem_frame (hw.mono (by decide)) | apply State.commitPort_frame (hw.mono (by decide)) | apply State.count_frame (hw.mono (by decide)) | refine Frame.foldl ?_ (fun s a h => ?_) | simp only [Frame.set_str (hw.mono (by decide))] | split

theorem State.rld_frame (hw : Within 0x171ed7e040 ω) {r s : State} {core num} {bad : Nat → Nat → State → State} (hf : ∀ c a s, Frame ω r s → Frame ω r (bad c a s)) (h : Frame ω r s) : Frame ω r (s.rld core num bad) := by
  unfold State.rld
  try dsimp only
  with_reducible repeat' first | assumption | (refine State.headIssue_frame (hw.mono (by decide)) hf ?_) | apply State.descFault_frame (hw.mono (by decide)) | apply State.drain_frame (hw.mono (by decide)) | apply State.reelGo_frame (hw.mono (by decide)) | apply State.issue_frame (hw.mono (by decide)) | refine Frame.foldl ?_ (fun s a h => ?_) | split

theorem State.issueNext_frame (hw : Within 0x2800040 ω) {r s : State} {core} {num} {a3} (h : Frame ω r s) : Frame ω r (State.issueNext s core num a3) := by
  unfold State.issueNext
  try dsimp only
  with_reducible repeat' first | assumption | apply State.issue_frame (hw.mono (by decide)) | refine Frame.foldl ?_ (fun s a h => ?_) | split

theorem State.openPush_frame (hw : Within 0x171ed7e040 ω) {r s : State} {core} {a2} {quad} (h : Frame ω r s) : Frame ω r (State.openPush s core a2 quad) := by
  unfold State.openPush
  try dsimp only
  with_reducible repeat' first | assumption | apply State.descFault_frame (hw.mono (by decide)) | apply State.shfError_frame (hw.mono (by decide)) | apply State.createFrame_frame (hw.mono (by decide)) | apply State.reelGoN_frame (hw.mono (by decide)) | (refine State.allocAll_frame (hw.mono (by decide)) (by assumption) ?_) | refine Frame.foldl ?_ (fun s a h => ?_) | split

theorem State.apd_frame (hw : Within 0x171ed7e040 ω) {r s : State} {core} {num} {cold} {bad} (h : Frame ω r s) : Frame ω r (State.apd s core num cold bad) := by
  unfold State.apd
  try dsimp only
  with_reducible repeat' first | assumption | refine State.rld_frame (hw.mono (by decide)) (fun c a s h => ?_) ?_ | apply State.descFault_frame (hw.mono (by decide)) | apply State.issueNext_frame (hw.mono (by decide)) | apply State.issue_frame (hw.mono (by decide)) | apply State.checkCopy_frame (hw.mono (by decide)) | apply State.openPush_frame (hw.mono (by decide)) | apply State.noPass_frame (hw.mono (by decide)) | apply State.reelGo_frame (hw.mono (by decide)) | apply State.setArr_frame (hw.mono (by decide)) | refine Frame.foldl ?_ (fun s a h => ?_) | split

theorem execSld_frame (hw : Within 0x160ed78040 ω) {r s : State} {core} {list} (h : Frame ω r s) : FrameO ω r (execSld core list s) := by
  unfold execSld
  try dsimp only
  with_reducible repeat' first | assumption | apply FrameO.next | apply State.sld_frame (hw.mono (by decide)) | refine Frame.foldl ?_ (fun s a h => ?_) | split

theorem execApd_frame (hw : Within 0x171ed7e040 ω) {r s : State} {core} {list} {cold} {bad} (h : Frame ω r s) : FrameO ω r (execApd core list cold bad s) := by
  unfold execApd
  try dsimp only
  with_reducible repeat' first | assumption | apply FrameO.next | apply State.apd_frame (hw.mono (by decide)) | refine Frame.foldl ?_ (fun s a h => ?_) | split

theorem execArrayRetry_frame (hw : Within 0x1f1ed7e040 ω) {r s : State} {core} {lf} {run1} {run2} {faulty} (h : Frame ω r s) : FrameO ω r (execArrayRetry core lf run1 run2 faulty s) := by
  unfold execArrayRetry
  try dsimp only
  with_reducible repeat' first | assumption | apply FrameO.next | apply State.reelGo_frame (hw.mono (by decide)) | apply State.retryPass_frame (hw.mono (by decide)) | refine Frame.foldl ?_ (fun s a h => ?_) | split

theorem execReelVectorLand_frame (hw : Within 0x171ed7e040 ω) {r s : State} {core} {stream} (h : Frame ω r s) : FrameO ω r (execReelVectorLand core stream s) := by
  unfold execReelVectorLand
  try dsimp only
  with_reducible repeat' first | assumption | apply FrameO.next | apply State.reelGo_frame (hw.mono (by decide)) | apply State.setPort_frame (hw.mono (by decide)) | refine Frame.foldl ?_ (fun s a h => ?_) | split

theorem execReelCreditReturn_frame (hw : Within 0x171ed7e040 ω) {r s : State} {core} {stream} (h : Frame ω r s) : FrameO ω r (execReelCreditReturn core stream s) := by
  unfold execReelCreditReturn
  try dsimp only
  with_reducible repeat' first | assumption | apply FrameO.next | apply State.reelGo_frame (hw.mono (by decide)) | apply State.setPort_frame (hw.mono (by decide)) | refine Frame.foldl ?_ (fun s a h => ?_) | split

theorem State.passToken_frame (hw : Within 0x2000000 ω) {r s : State} {core} {stream} {a3} (h : Frame ω r s) : Frame ω r (State.passToken s core stream a3) := by
  unfold State.passToken
  try dsimp only
  with_reducible repeat' first | assumption | apply State.sendItem_frame (hw.mono (by decide)) | refine Frame.foldl ?_ (fun s a h => ?_) | split

theorem execCommitToken_frame (hw : Within 0x171ed7e040 ω) {r s : State} {core} {stream} (h : Frame ω r s) : FrameO ω r (execCommitToken core stream s) := by
  unfold execCommitToken
  try dsimp only
  with_reducible repeat' first | assumption | apply FrameO.next | apply State.reelGo_frame (hw.mono (by decide)) | apply State.passToken_frame (hw.mono (by decide)) | apply State.commitPort_frame (hw.mono (by decide)) | apply State.setPort_frame (hw.mono (by decide)) | refine Frame.foldl ?_ (fun s a h => ?_) | split

theorem State.voidPort_frame (hw : Within 0x2000040 ω) {r s : State} {core} {stream} (h : Frame ω r s) : Frame ω r (State.voidPort s core stream) := by
  unfold State.voidPort
  try dsimp only
  with_reducible repeat' first | assumption | apply State.setPort_frame (hw.mono (by decide)) | apply State.count_frame (hw.mono (by decide)) | apply State.freeSlots_frame (hw.mono (by decide)) | refine Frame.foldl ?_ (fun s a h => ?_) | split

theorem execVoidToken_frame (hw : Within 0x171ed7e040 ω) {r s : State} {core} {stream} (h : Frame ω r s) : FrameO ω r (execVoidToken core stream s) := by
  unfold execVoidToken
  try dsimp only
  with_reducible repeat' first | assumption | apply FrameO.next | apply State.reelGo_frame (hw.mono (by decide)) | apply State.passToken_frame (hw.mono (by decide)) | apply State.voidPort_frame (hw.mono (by decide)) | apply State.setPort_frame (hw.mono (by decide)) | refine Frame.foldl ?_ (fun s a h => ?_) | split

theorem execReelStall_frame (hw : Within 0x18040 ω) {r s : State} {core} {stream} {cycles} {stall} {held} (h : Frame ω r s) : FrameO ω r (execReelStall core stream cycles stall held s) := by
  unfold execReelStall
  try dsimp only
  with_reducible repeat' first | assumption | apply FrameO.next | apply State.count_frame (hw.mono (by decide)) | apply State.logFull_frame (hw.mono (by decide)) | apply State.orReg_frame (hw.mono (by decide)) | refine Frame.foldl ?_ (fun s a h => ?_) | split

theorem State.headAhead_frame (hw : Within 0x171ed7e040 ω) {r s : State} {l} {i} {d} (h : Frame ω r s) : Frame ω r (State.headAhead s l i d) := by
  unfold State.headAhead
  try dsimp only
  with_reducible repeat' first | assumption | apply State.reelGo_frame (hw.mono (by decide)) | apply State.raStart_frame1 (hw.mono (by decide)) | apply State.startHead_frame (hw.mono (by decide)) | (refine State.raStart_frame (hw.mono (by decide)) (by assumption) ?_) | refine Frame.foldl ?_ (fun s a h => ?_) | split

theorem execRunAheadStart_frame (hw : Within 0x171ed7e040 ω) {r s : State} {core} {list} {idx} (h : Frame ω r s) : FrameO ω r (execRunAheadStart core list idx s) := by
  unfold execRunAheadStart
  try dsimp only
  with_reducible repeat' first | assumption | apply FrameO.next | apply State.sdAhead_frame (hw.mono (by decide)) | apply State.headAhead_frame (hw.mono (by decide)) | refine Frame.foldl ?_ (fun s a h => ?_) | split

end Sys2Proof.Machine
end

