-- ==== Sys2Proof/Laws/Tree.lean ====
section
/-!
SUPPORT. Frames of the operations of Machine/Tree.lean (Laws/Frame.lean says what a frame is).
-/
namespace Sys2Proof.Machine

variable {ω : Nat}

theorem State.broadcast_frame (hw : Within 0x1606578040 ω) {r s : State} {p} (h : Frame ω r s) : Frame ω r (State.broadcast s p) := by
  unfold State.broadcast
  try dsimp only
  with_reducible repeat' first | assumption | apply State.originate_frame (hw.mono (by decide)) | refine Frame.foldl ?_ (fun s a h => ?_) | split

theorem State.relay_frame (hw : Within 0x1606578040 ω) {r s : State} {l} {p} (h : Frame ω r s) : Frame ω r (State.relay s l p) := by
  unfold State.relay
  try dsimp only
  with_reducible repeat' first | assumption | apply State.routePkt_frame (hw.mono (by decide)) | refine Frame.foldl ?_ (fun s a h => ?_) | split

theorem State.toChildren_frame (hw : Within 0x1606578040 ω) {r s : State} {p} (h : Frame ω r s) : Frame ω r (State.toChildren s p) := by
  unfold State.toChildren
  try dsimp only
  with_reducible repeat' first | assumption | apply State.routePkt_frame (hw.mono (by decide)) | refine Frame.foldl ?_ (fun s a h => ?_) | split

theorem State.addRequest_frame (hw : Within 0x200000000 ω) {r s : State} {step} (h : Frame ω r s) : Frame ω r (State.addRequest s step) := by
  unfold State.addRequest
  try dsimp only
  with_reducible repeat' first | assumption | refine Frame.foldl ?_ (fun s a h => ?_) | simp only [Frame.set_snap (hw.mono (by decide))] | split

theorem State.snapRequest_frame (hw : Within 0x1606578040 ω) {r s : State}  (h : Frame ω r s) : Frame ω r (State.snapRequest s) := by
  unfold State.snapRequest
  try dsimp only
  with_reducible repeat' first | assumption | apply State.broadcast_frame (hw.mono (by decide)) | apply State.addRequest_frame (hw.mono (by decide)) | refine Frame.foldl ?_ (fun s a h => ?_) | split

end Sys2Proof.Machine
end

