-- ==== Sys2Proof/Laws/Update.lean ====
section
/-!
SUPPORT. Frames of the operations of Machine/Update.lean (Laws/Frame.lean says what a frame is).
-/
namespace Sys2Proof.Machine

variable {ω : Nat}

theorem State.setRec_frame (hw : Within 0x20000000 ω) {r s : State} {u} {a2} (h : Frame ω r s) : Frame ω r (State.setRec s u a2) := by
  unfold State.setRec
  try dsimp only
  with_reducible repeat' first | assumption | refine Frame.foldl ?_ (fun s a h => ?_) | simp only [Frame.set_upd (hw.mono (by decide))] | split

theorem State.putLanes_frame (hw : Within 0x10c006040 ω) {r s : State} {core} {f} {off} {stoch} {ws} {finite} (h : Frame ω r s) : Frame ω r (State.putLanes s core f off stoch ws finite) := by
  unfold State.putLanes
  try dsimp only
  with_reducible repeat' first | assumption | apply State.drawLanes_frame1 (hw.mono (by decide)) | apply State.store_frame (hw.mono (by decide)) | apply State.countLosses_frame (hw.mono (by decide)) | (refine State.drawLanes_frame (hw.mono (by decide)) (by assumption) ?_) | refine Frame.foldl ?_ (fun s a h => ?_) | split

theorem State.putAcc_frame (hw : Within 0x4000000 ω) {r s : State} {core} {a2} {ws} (h : Frame ω r s) : Frame ω r (State.putAcc s core a2 ws) := by
  unfold State.putAcc
  try dsimp only
  with_reducible repeat' first | assumption | apply State.setArr_frame (hw.mono (by decide)) | refine Frame.foldl ?_ (fun s a h => ?_) | split

theorem State.countMade_frame (hw : Within 0x8000040 ω) {r s : State} {core} {ws} {finite} (h : Frame ω r s) : Frame ω r (State.countMade s core ws finite) := by
  unfold State.countMade
  try dsimp only
  with_reducible repeat' first | assumption | apply State.countLosses_frame (hw.mono (by decide)) | refine Frame.foldl ?_ (fun s a h => ?_) | split

theorem State.sgdVec_frame (hw : Within 0x10c006040 ω) {r s : State} {core} {d} {a3} {i} (h : Frame ω r s) : Frame ω r (State.sgdVec s core d a3 i) := by
  unfold State.sgdVec
  try dsimp only
  with_reducible repeat' first | assumption | apply State.countMade_frame (hw.mono (by decide)) | apply State.countWide_frame (hw.mono (by decide)) | apply State.putAcc_frame (hw.mono (by decide)) | apply State.putLanes_frame (hw.mono (by decide)) | refine Frame.foldl ?_ (fun s a h => ?_) | split

theorem State.adamVec_frame (hw : Within 0x110c006040 ω) {r s : State} {core} {d} {a3} {i} (h : Frame ω r s) : Frame ω r (State.adamVec s core d a3 i) := by
  unfold State.adamVec
  try dsimp only
  with_reducible repeat' first | assumption | apply State.countMade_frame (hw.mono (by decide)) | apply State.countWide_frame (hw.mono (by decide)) | apply State.putLanes_frame (hw.mono (by decide)) | apply State.putAcc_frame (hw.mono (by decide)) | refine Frame.foldl ?_ (fun s a h => ?_) | simp only [Frame.set_free (hw.mono (by decide))] | split

theorem State.layerSum_frame (hw : Within 0x8000000 ω) {r s : State} {layer} {kind} {ws} (h : Frame ω r s) : Frame ω r (State.layerSum s layer kind ws) := by
  unfold State.layerSum
  try dsimp only
  with_reducible repeat' first | assumption | refine Frame.foldl ?_ (fun s a h => ?_) | simp only [Frame.set_nums (hw.mono (by decide))] | split

theorem State.layerCount_frame (hw : Within 0x8000000 ω) {r s : State} {layer} {kind} {n} (h : Frame ω r s) : Frame ω r (State.layerCount s layer kind n) := by
  unfold State.layerCount
  try dsimp only
  with_reducible repeat' first | assumption | refine Frame.foldl ?_ (fun s a h => ?_) | simp only [Frame.set_nums (hw.mono (by decide))] | split

theorem State.applyVec_frame (hw : Within 0x10c006040 ω) {r s : State} {core} {d} {a3} {i} {t : State} (e : State.applyVec s core d a3 i = some t) (h : Frame ω r s) : Frame ω r t := by
  unfold State.applyVec at e
  try dsimp only at e
  repeat' (split at e)
  all_goals first | cases e | skip
  all_goals with_reducible repeat' first | assumption | apply State.setArr_frame (hw.mono (by decide)) | apply State.countWide_frame (hw.mono (by decide)) | apply State.layerSum_frame (hw.mono (by decide)) | apply State.store_frame (hw.mono (by decide)) | apply State.countMade_frame (hw.mono (by decide)) | apply State.putLanes_frame (hw.mono (by decide)) | refine Frame.foldl ?_ (fun s a h => ?_) | split

theorem State.chScales_frame (hw : Within 0x110c006040 ω) {r s : State} {core} {d} {a3} {t : State} (e : State.chScales s core d a3 = some t) (h : Frame ω r s) : Frame ω r t := by
  unfold State.chScales at e
  try dsimp only at e
  repeat' (split at e)
  all_goals first | cases e | skip
  all_goals with_reducible repeat' first | assumption | apply State.store_frame (hw.mono (by decide)) | apply State.countMade_frame (hw.mono (by decide)) | apply State.setArr_frame (hw.mono (by decide)) | refine Frame.foldl ?_ (fun s a h => ?_) | simp only [Frame.set_free (hw.mono (by decide))] | split

theorem State.quantVec_frame (hw : Within 0x10c006040 ω) {r s : State} {core} {d} {a3} {i} (h : Frame ω r s) : Frame ω r (State.quantVec s core d a3 i) := by
  unfold State.quantVec
  try dsimp only
  with_reducible repeat' first | assumption | apply State.countLosses_frame (hw.mono (by decide)) | apply State.countWide_frame (hw.mono (by decide)) | apply State.setArr_frame (hw.mono (by decide)) | apply State.layerCount_frame (hw.mono (by decide)) | apply State.store_frame (hw.mono (by decide)) | refine Frame.foldl ?_ (fun s a h => ?_) | split

theorem State.gmovVec_frame (hw : Within 0x110c006040 ω) {r s : State} {core} {d} {i} (h : Frame ω r s) : Frame ω r (State.gmovVec s core d i) := by
  unfold State.gmovVec
  try dsimp only
  with_reducible repeat' first | assumption | apply State.writeResult_frame (hw.mono (by decide)) | apply State.countSrc_frame (hw.mono (by decide)) | refine Frame.foldl ?_ (fun s a h => ?_) | simp only [Frame.set_free (hw.mono (by decide))] | split

theorem State.updErr_frame (hw : Within 0x1606578040 ω) {r s : State} {a1} {d} {code} (h : Frame ω r s) : Frame ω r (State.updErr s a1 d code) := by
  unfold State.updErr
  try dsimp only
  with_reducible repeat' first | assumption | apply State.updError_frame (hw.mono (by decide)) | refine Frame.foldl ?_ (fun s a h => ?_) | split

theorem State.verWait_frame (hw : Within 0x40 ω) {r s : State} {cycles} (h : Frame ω r s) : Frame ω r (State.verWait s cycles) := by
  unfold State.verWait
  try dsimp only
  with_reducible repeat' first | assumption | apply State.count_frame (hw.mono (by decide)) | apply State.orReg_frame (hw.mono (by decide)) | refine Frame.foldl ?_ (fun s a h => ?_) | split

theorem Frame.fst_of {α : Type} {r t : State} {x : State × α} {b : α} (e : x = (t, b)) (h : Frame ω r x.1) : Frame ω r t := by rwa [e] at h

theorem State.gated_frame (hw : Within 0x1626d78040 ω) {r s : State} {core num op} {waits} {gateWait pinWait} {run : State → DescRef → Desc → UpdRec → State × Bool}
    (hf : ∀ s o d x, Frame ω r s → Frame ω r (run s o d x).1) (h : Frame ω r s) :
    Frame ω r (s.gated core num op waits gateWait pinWait run) := by
  unfold State.gated
  try dsimp only
  with_reducible repeat' first | assumption | apply State.noteSkip_frame (hw.mono (by decide)) | (refine Frame.fst_of (by assumption) (hf _ _ _ _ ?_)) | apply State.descFault_frame (hw.mono (by decide)) | apply State.drain_frame (hw.mono (by decide)) | apply State.count_frame (hw.mono (by decide)) | apply State.issue_frame (hw.mono (by decide)) | apply State.updErr_frame (hw.mono (by decide)) | apply State.setRec_frame (hw.mono (by decide)) | apply State.verWait_frame (hw.mono (by decide)) | apply State.orReg_frame (hw.mono (by decide)) | refine Frame.foldl ?_ (fun s a h => ?_) | split

theorem overVecs_frame {r s : State} {d} {f : State → Nat → State} (hf : ∀ s n, Frame ω r s → Frame ω r (f s n)) (h : Frame ω r s) : Frame ω r (overVecs d s f) :=
  Frame.foldl h hf

theorem execSgdMom_frame (hw : Within 0x172ed7e040 ω) {r s : State} {core} {list} {gateWait} (h : Frame ω r s) : FrameO ω r (execSgdMom core list gateWait s) := by
  unfold execSgdMom
  try dsimp only
  with_reducible repeat' first | assumption | apply FrameO.next | refine State.gated_frame (hw.mono (by decide)) (fun s o d x h => ?_) ?_ | dsimp only | refine overVecs_frame (fun s n h => ?_) ?_ | apply State.sgdVec_frame (hw.mono (by decide)) | refine Frame.foldl ?_ (fun s a h => ?_) | split

theorem execAdamMom_frame (hw : Within 0x172ed7e040 ω) {r s : State} {core} {list} {gateWait} (h : Frame ω r s) : FrameO ω r (execAdamMom core list gateWait s) := by
  unfold execAdamMom
  try dsimp only
  with_reducible repeat' first | assumption | apply FrameO.next | refine State.gated_frame (hw.mono (by decide)) (fun s o d x h => ?_) ?_ | dsimp only | refine overVecs_frame (fun s n h => ?_) ?_ | apply State.adamVec_frame (hw.mono (by decide)) | refine Frame.foldl ?_ (fun s a h => ?_) | split

theorem execApplyUpd_frame (hw : Within 0x172ed7e040 ω) {r s : State} {core list gateWait pinWait} (h : Frame ω r s) : FrameO ω r (execApplyUpd core list gateWait pinWait s) := by
  unfold execApplyUpd
  apply FrameO.next
  refine State.gated_frame (hw.mono (by decide)) (fun s o d x h => ?_) h
  refine foldl_keeps (P := fun (o : State × Bool) => Frame ω r o.1) (fun o i k => ?_) h
  split
  · split
    · exact State.applyVec_frame (hw.mono (by decide)) (by assumption) k
    · exact k
  · exact k

theorem execChScales_frame (hw : Within 0x172ed7e040 ω) {r s : State} {core list gateWait pinWait} (h : Frame ω r s) : FrameO ω r (execChScales core list gateWait pinWait s) := by
  unfold execChScales
  apply FrameO.next
  refine State.gated_frame (hw.mono (by decide)) (fun s o d x h => ?_) h
  split
  · exact State.chScales_frame (hw.mono (by decide)) (by assumption) h
  · exact h

theorem execQuant_frame (hw : Within 0x172ed7e040 ω) {r s : State} {core} {list} {gateWait} {pinWait} (h : Frame ω r s) : FrameO ω r (execQuant core list gateWait pinWait s) := by
  unfold execQuant
  try dsimp only
  with_reducible repeat' first | assumption | apply FrameO.next | refine State.gated_frame (hw.mono (by decide)) (fun s o d x h => ?_) ?_ | dsimp only | refine overVecs_frame (fun s n h => ?_) ?_ | apply State.quantVec_frame (hw.mono (by decide)) | refine Frame.foldl ?_ (fun s a h => ?_) | split

theorem execGmov_frame (hw : Within 0x172ed7e040 ω) {r s : State} {core} {list} {gateWait} (h : Frame ω r s) : FrameO ω r (execGmov core list gateWait s) := by
  unfold execGmov
  try dsimp only
  with_reducible repeat' first | assumption | apply FrameO.next | refine State.gated_frame (hw.mono (by decide)) (fun s o d x h => ?_) ?_ | dsimp only | refine overVecs_frame (fun s n h => ?_) ?_ | apply State.gmovVec_frame (hw.mono (by decide)) | refine Frame.foldl ?_ (fun s a h => ?_) | split

theorem execGradPass_frame (hw : Within 0x1626d78040 ω) {r s : State} {core} {list} {gateWait} (h : Frame ω r s) : FrameO ω r (execGradPass core list gateWait s) := by
  unfold execGradPass
  try dsimp only
  with_reducible repeat' first | assumption | apply FrameO.next | refine State.gated_frame (hw.mono (by decide)) (fun s o d x h => ?_) ?_ | dsimp only | refine Frame.foldl ?_ (fun s a h => ?_) | split

theorem State.verCommit_frame (hw : Within 0x1626d78040 ω) {r s : State} {core} {num} {gateWait} (h : Frame ω r s) : Frame ω r (State.verCommit s core num gateWait) := by
  unfold State.verCommit
  try dsimp only
  with_reducible repeat' first | assumption | refine State.gated_frame (hw.mono (by decide)) (fun s o d x h => ?_) ?_ | dsimp only | apply State.updErr_frame (hw.mono (by decide)) | apply State.issue_frame (hw.mono (by decide)) | apply State.count_frame (hw.mono (by decide)) | refine State.gated_frame (hw.mono (by decide)) (fun s o d x h => ?_) ?_ | dsimp only | apply State.setRec_frame (hw.mono (by decide)) | refine Frame.foldl ?_ (fun s a h => ?_) | split

theorem execVerCommit_frame (hw : Within 0x1626d78040 ω) {r s : State} {core} {list} {gateWait} (h : Frame ω r s) : FrameO ω r (execVerCommit core list gateWait s) := by
  unfold execVerCommit
  try dsimp only
  with_reducible repeat' first | assumption | apply FrameO.next | apply State.verCommit_frame (hw.mono (by decide)) | refine Frame.foldl ?_ (fun s a h => ?_) | split

theorem execVerPin_frame (hw : Within 0x1626d78040 ω) {r s : State} {core} {list} {wait} (h : Frame ω r s) : FrameO ω r (execVerPin core list wait s) := by
  unfold execVerPin
  try dsimp only
  with_reducible repeat' first | assumption | apply FrameO.next | refine State.gated_frame (hw.mono (by decide)) (fun s o d x h => ?_) ?_ | dsimp only | apply State.descFault_frame (hw.mono (by decide)) | apply State.updErr_frame (hw.mono (by decide)) | apply State.issue_frame (hw.mono (by decide)) | apply State.verWait_frame (hw.mono (by decide)) | apply State.orReg_frame (hw.mono (by decide)) | apply State.drain_frame (hw.mono (by decide)) | apply State.setRec_frame (hw.mono (by decide)) | refine Frame.foldl ?_ (fun s a h => ?_) | split

theorem execVerUnpin_frame (hw : Within 0x1626d78040 ω) {r s : State} {core} {list} (h : Frame ω r s) : FrameO ω r (execVerUnpin core list s) := by
  unfold execVerUnpin
  try dsimp only
  with_reducible repeat' first | assumption | apply FrameO.next | refine State.gated_frame (hw.mono (by decide)) (fun s o d x h => ?_) ?_ | dsimp only | apply State.descFault_frame (hw.mono (by decide)) | apply State.updErr_frame (hw.mono (by decide)) | apply State.issue_frame (hw.mono (by decide)) | apply State.drain_frame (hw.mono (by decide)) | apply State.setRec_frame (hw.mono (by decide)) | refine Frame.foldl ?_ (fun s a h => ?_) | split

end Sys2Proof.Machine
end

