-- ==== Sys2Proof/Laws/Finish.lean ====
section
/-!
SUPPORT. Frames of the operations of Machine/Finish.lean (Laws/Frame.lean says what a frame is).
-/
namespace Sys2Proof.Machine

variable {ω : Nat}

theorem State.settle_frame (hw : Within 0x171ed7e040 ω) {r s : State} {core} (h : Frame ω r s) : Frame ω r (State.settle s core) := by
  unfold State.settle
  try dsimp only
  with_reducible repeat' first | assumption | apply State.reelGo_frame (hw.mono (by decide)) | apply State.pumpShelf_frame (hw.mono (by decide)) | apply State.pumpCore_frame (hw.mono (by decide)) | refine Frame.foldl ?_ (fun s a h => ?_) | split

theorem State.completeDesc_frame (hw : Within 0x171ed7e040 ω) {r s : State} {a1} (h : Frame ω r s) : Frame ω r (State.completeDesc s a1) := by
  unfold State.completeDesc
  try dsimp only
  with_reducible repeat' first | assumption | apply State.descDone_frame (hw.mono (by decide)) | apply State.settle_frame (hw.mono (by decide)) | apply State.skipWaiters_frame (hw.mono (by decide)) | refine Frame.foldl ?_ (fun s a h => ?_) | split

theorem execDescDone_frame (hw : Within 0x171ed7e040 ω) {r s : State} {core} {list} {idx} (h : Frame ω r s) : FrameO ω r (execDescDone core list idx s) := by
  unfold execDescDone
  try dsimp only
  with_reducible repeat' first | assumption | apply FrameO.next | apply State.completeDesc_frame (hw.mono (by decide)) | refine Frame.foldl ?_ (fun s a h => ?_) | split

theorem State.passesGo_frame (hw : Within 0x171ed7e040 ω) {r s : State}  (h : Frame ω r s) : Frame ω r (State.passesGo s) := by
  unfold State.passesGo
  try dsimp only
  with_reducible repeat' first | assumption | apply State.reelGo_frame (hw.mono (by decide)) | refine Frame.foldl ?_ (fun s a h => ?_) | split

theorem execChunkMoveDone_frame (hw : Within 0x171ed7e040 ω) {r s : State} {shelf} {idx} (h : Frame ω r s) : FrameO ω r (execChunkMoveDone shelf idx s) := by
  unfold execChunkMoveDone
  try dsimp only
  with_reducible repeat' first | assumption | apply FrameO.next | apply State.passesGo_frame (hw.mono (by decide)) | apply State.pumpShelf_frame (hw.mono (by decide)) | refine Frame.foldl ?_ (fun s a h => ?_) | simp only [Frame.set_shelf (hw.mono (by decide))] | split

end Sys2Proof.Machine
end

