-- ==== Sys2Proof/Laws/Tmk.lean ====
section
/-!
SUPPORT. Frames of the operations of Machine/Tmk.lean (Laws/Frame.lean says what a frame is).
-/
namespace Sys2Proof.Machine

variable {ω : Nat}

theorem State.tmk_frame (hw : Within 0x2820040 ω) {r s : State} {core num op} {act : State → DList → Desc → State} (hf : ∀ s l d, Frame ω r s → Frame ω r (act s l d))
    (h : Frame ω r s) : Frame ω r (s.tmk core num op act) := by
  unfold State.tmk
  with_reducible repeat' first | assumption | apply hf | apply State.descFault_frame (hw.mono (by decide)) | apply State.issue_frame (hw.mono (by decide)) | refine Frame.foldl ?_ (fun s a h => ?_) | split

theorem State.addMark_frame (hw : Within 0x20000 ω) {r s : State} {core} {id} (h : Frame ω r s) : Frame ω r (State.addMark s core id) := by
  unfold State.addMark
  try dsimp only
  with_reducible repeat' first | assumption | refine Frame.foldl ?_ (fun s a h => ?_) | simp only [Frame.set_tide (hw.mono (by decide))] | split

theorem State.bindMark_frame (hw : Within 0x4000000 ω) {r s : State} {core} {id} (h : Frame ω r s) : Frame ω r (State.bindMark s core id) := by
  unfold State.bindMark
  try dsimp only
  with_reducible repeat' first | assumption | apply State.setArr_frame (hw.mono (by decide)) | refine Frame.foldl ?_ (fun s a h => ?_) | split

theorem State.stepMarkAt_frame (hw : Within 0x20000 ω) {r s : State} {id} (h : Frame ω r s) : Frame ω r (State.stepMarkAt s id) := by
  unfold State.stepMarkAt
  try dsimp only
  with_reducible repeat' first | assumption | refine Frame.foldl ?_ (fun s a h => ?_) | simp only [Frame.set_tide (hw.mono (by decide))] | split

theorem State.positionMark_frame (hw : Within 0x4000000 ω) {r s : State} {core} {count} (h : Frame ω r s) : Frame ω r (State.positionMark s core count) := by
  unfold State.positionMark
  try dsimp only
  with_reducible repeat' first | assumption | apply State.setArr_frame (hw.mono (by decide)) | refine Frame.foldl ?_ (fun s a h => ?_) | split

theorem State.markEffect_frame (hw : Within 0x4020000 ω) {r s : State} {core} {d} (h : Frame ω r s) : Frame ω r (State.markEffect s core d) := by
  unfold State.markEffect
  try dsimp only
  with_reducible repeat' first | assumption | apply State.bindMark_frame (hw.mono (by decide)) | apply State.stepMarkAt_frame (hw.mono (by decide)) | apply State.positionMark_frame (hw.mono (by decide)) | refine Frame.foldl ?_ (fun s a h => ?_) | split

theorem execLocalMark_frame (hw : Within 0x171ed7e040 ω) {r s : State} {core} {list} (h : Frame ω r s) : FrameO ω r (execLocalMark core list s) := by
  unfold execLocalMark
  try dsimp only
  with_reducible repeat' first | assumption | apply FrameO.next | refine State.tmk_frame (hw.mono (by decide)) (fun s l d h => ?_) ?_ | apply State.completeDesc_frame (hw.mono (by decide)) | apply State.markEffect_frame (hw.mono (by decide)) | apply State.addMark_frame (hw.mono (by decide)) | refine Frame.foldl ?_ (fun s a h => ?_) | split

theorem execWaitBeat_frame (hw : Within 0x171ed7e040 ω) {r s : State} {core} {list} (h : Frame ω r s) : FrameO ω r (execWaitBeat core list s) := by
  unfold execWaitBeat
  try dsimp only
  with_reducible repeat' first | assumption | apply FrameO.next | refine State.tmk_frame (hw.mono (by decide)) (fun s l d h => ?_) ?_ | apply State.completeDesc_frame (hw.mono (by decide)) | refine Frame.foldl ?_ (fun s a h => ?_) | split

theorem execWaitBeatReached_frame (hw : Within 0x171ed7e040 ω) {r s : State} {core} {list} (h : Frame ω r s) : FrameO ω r (execWaitBeatReached core list s) := by
  unfold execWaitBeatReached
  try dsimp only
  with_reducible repeat' first | assumption | apply FrameO.next | apply State.completeDesc_frame (hw.mono (by decide)) | refine Frame.foldl ?_ (fun s a h => ?_) | split

theorem State.evtAdd_frame (hw : Within 0x1000000 ω) {r s : State} {core} {a2} {n} (h : Frame ω r s) : Frame ω r (State.evtAdd s core a2 n) := by
  unfold State.evtAdd
  try dsimp only
  with_reducible repeat' first | assumption | refine Frame.foldl ?_ (fun s a h => ?_) | simp only [Frame.set_evts (hw.mono (by decide))] | split

theorem State.evtWaiters_frame (hw : Within 0x171ed7e040 ω) {r s : State} {core} (h : Frame ω r s) : Frame ω r (State.evtWaiters s core) := by
  unfold State.evtWaiters
  try dsimp only
  with_reducible repeat' first | assumption | apply execWaitBeatReached_frame (hw.mono (by decide)) | apply State.completeDesc_frame (hw.mono (by decide)) | refine Frame.foldl ?_ (fun s a h => ?_) | split

theorem execTmkSignal_frame (hw : Within 0x171ed7e040 ω) {r s : State} {core} {list} (h : Frame ω r s) : FrameO ω r (execTmkSignal core list s) := by
  unfold execTmkSignal
  try dsimp only
  with_reducible repeat' first | assumption | apply FrameO.next | refine State.tmk_frame (hw.mono (by decide)) (fun s l d h => ?_) ?_ | apply State.emit_frame (hw.mono (by decide)) | apply State.completeDesc_frame (hw.mono (by decide)) | refine Frame.foldl ?_ (fun s a h => ?_) | simp only [Frame.set_str (hw.mono (by decide))] | split

theorem execEvtCounterAdd_frame (hw : Within 0x171fd7e040 ω) {r s : State} {core} {k} (h : Frame ω r s) : FrameO ω r (execEvtCounterAdd core k s) := by
  unfold execEvtCounterAdd
  try dsimp only
  with_reducible repeat' first | assumption | apply FrameO.next | apply State.evtWaiters_frame (hw.mono (by decide)) | apply State.evtAdd_frame (hw.mono (by decide)) | apply State.completeDesc_frame (hw.mono (by decide)) | refine Frame.foldl ?_ (fun s a h => ?_) | simp only [Frame.set_str (hw.mono (by decide))] | split

theorem execWaitEvent_frame (hw : Within 0x171ed7e040 ω) {r s : State} {core} {list} (h : Frame ω r s) : FrameO ω r (execWaitEvent core list s) := by
  unfold execWaitEvent
  try dsimp only
  with_reducible repeat' first | assumption | apply FrameO.next | refine State.tmk_frame (hw.mono (by decide)) (fun s l d h => ?_) ?_ | apply State.completeDesc_frame (hw.mono (by decide)) | refine Frame.foldl ?_ (fun s a h => ?_) | split

theorem State.setBarrier_frame (hw : Within 0x40000000 ω) {r s : State} {b} (h : Frame ω r s) : Frame ω r (State.setBarrier s b) := by
  unfold State.setBarrier
  try dsimp only
  with_reducible repeat' first | assumption | refine Frame.foldl ?_ (fun s a h => ?_) | simp only [Frame.set_bkt (hw.mono (by decide))] | split

theorem State.needBarrier_frame (hw : Within 0x40000000 ω) {r s : State} {id} {tide} (h : Frame ω r s) : Frame ω r (State.needBarrier s id tide) := by
  unfold State.needBarrier
  try dsimp only
  with_reducible repeat' first | assumption | refine Frame.foldl ?_ (fun s a h => ?_) | simp only [Frame.set_bkt (hw.mono (by decide))] | split

theorem State.releaseBarrier_frame (hw : Within 0x175ed7e040 ω) {r s : State} {id} {tide} (h : Frame ω r s) : Frame ω r (State.releaseBarrier s id tide) := by
  unfold State.releaseBarrier
  try dsimp only
  with_reducible repeat' first | assumption | apply State.toChildren_frame (hw.mono (by decide)) | apply State.checkId_frame (hw.mono (by decide)) | apply State.completeDesc_frame (hw.mono (by decide)) | apply State.setReg_frame (hw.mono (by decide)) | apply State.count_frame (hw.mono (by decide)) | refine Frame.foldl ?_ (fun s a h => ?_) | simp only [Frame.set_bkt (hw.mono (by decide))] | split

theorem State.noteArrival_frame (hw : Within 0x175ed7e040 ω) {r s : State} {id} {tide} (h : Frame ω r s) : Frame ω r (State.noteArrival s id tide) := by
  unfold State.noteArrival
  try dsimp only
  with_reducible repeat' first | assumption | apply State.releaseBarrier_frame (hw.mono (by decide)) | apply State.setBarrier_frame (hw.mono (by decide)) | refine Frame.foldl ?_ (fun s a h => ?_) | split

theorem State.barrierGo_frame (hw : Within 0x175ed7e040 ω) {r s : State} {id} {tide} (h : Frame ω r s) : Frame ω r (State.barrierGo s id tide) := by
  unfold State.barrierGo
  try dsimp only
  with_reducible repeat' first | assumption | apply State.noteArrival_frame (hw.mono (by decide)) | apply State.releaseBarrier_frame (hw.mono (by decide)) | apply State.originate_frame (hw.mono (by decide)) | apply State.setBarrier_frame (hw.mono (by decide)) | refine Frame.foldl ?_ (fun s a h => ?_) | split

theorem State.barriersGo_frame (hw : Within 0x175ed7e040 ω) {r s : State}  (h : Frame ω r s) : Frame ω r (State.barriersGo s) := by
  unfold State.barriersGo
  try dsimp only
  with_reducible repeat' first | assumption | apply State.barrierGo_frame (hw.mono (by decide)) | refine Frame.foldl ?_ (fun s a h => ?_) | split

theorem execGroupBarrier_frame (hw : Within 0x175ed7e040 ω) {r s : State} {core} {list} (h : Frame ω r s) : FrameO ω r (execGroupBarrier core list s) := by
  unfold execGroupBarrier
  try dsimp only
  with_reducible repeat' first | assumption | apply FrameO.next | refine State.tmk_frame (hw.mono (by decide)) (fun s l d h => ?_) ?_ | apply State.completeDesc_frame (hw.mono (by decide)) | apply State.barrierGo_frame (hw.mono (by decide)) | apply State.needBarrier_frame (hw.mono (by decide)) | refine Frame.foldl ?_ (fun s a h => ?_) | split

theorem State.barrierArrive_frame (hw : Within 0x175ed7e040 ω) {r s : State} {p} (h : Frame ω r s) : Frame ω r (State.barrierArrive s p) := by
  unfold State.barrierArrive
  try dsimp only
  with_reducible repeat' first | assumption | apply State.bktError_frame (hw.mono (by decide)) | apply State.needBarrier_frame (hw.mono (by decide)) | apply State.releaseBarrier_frame (hw.mono (by decide)) | apply State.barrierGo_frame (hw.mono (by decide)) | apply State.setBarrier_frame (hw.mono (by decide)) | refine Frame.foldl ?_ (fun s a h => ?_) | split

theorem execBarrierArrive_frame (hw : Within 0x175ed7e040 ω) {r s : State} {l} {resent} {p} (h : Frame ω r s) : FrameO ω r (execBarrierArrive l resent p s) := by
  unfold execBarrierArrive
  try dsimp only
  with_reducible repeat' first | assumption | apply FrameO.next | refine State.arrive_frame (hw.mono (by decide)) (fun s p h => ?_) ?_ | apply State.barrierArrive_frame (hw.mono (by decide)) | refine Frame.foldl ?_ (fun s a h => ?_) | split

theorem execBarrierRelease_frame (hw : Within 0x175ed7e040 ω) {r s : State} {l} {resent} {p} (h : Frame ω r s) : FrameO ω r (execBarrierRelease l resent p s) := by
  unfold execBarrierRelease
  try dsimp only
  with_reducible repeat' first | assumption | apply FrameO.next | refine State.arrive_frame (hw.mono (by decide)) (fun s p h => ?_) ?_ | apply State.releaseBarrier_frame (hw.mono (by decide)) | refine Frame.foldl ?_ (fun s a h => ?_) | split

end Sys2Proof.Machine
end

