-- ==== Sys2Proof/Laws/Holds.lean ====
section
/-!
SUPPORT. Frames of the operations of Machine/Holds.lean (Laws/Frame.lean says what a frame is).
-/
namespace Sys2Proof.Machine

variable {ω : Nat}

theorem State.sendHold_frame (hw : Within 0x1606578040 ω) {r s : State} {k} (h : Frame ω r s) : Frame ω r (State.sendHold s k) := by
  unfold State.sendHold
  try dsimp only
  with_reducible repeat' first | assumption | apply State.broadcast_frame (hw.mono (by decide)) | refine Frame.foldl ?_ (fun s a h => ?_) | split

theorem State.selfHold_frame (hw : Within 0x1606578040 ω) {r s : State} {k} (h : Frame ω r s) : Frame ω r (State.selfHold s k) := by
  unfold State.selfHold
  try dsimp only
  with_reducible repeat' first | assumption | apply State.sendHold_frame (hw.mono (by decide)) | refine Frame.foldl ?_ (fun s a h => ?_) | simp only [Frame.set_tide (hw.mono (by decide))] | split

theorem State.ownDone_frame (hw : Within 0x1606578040 ω) {r s : State}  (h : Frame ω r s) : Frame ω r (State.ownDone s) := by
  unfold State.ownDone
  try dsimp only
  with_reducible repeat' first | assumption | apply State.broadcast_frame (hw.mono (by decide)) | (refine State.ownRelease_frame (hw.mono (by decide)) (by assumption) ?_) | refine Frame.foldl ?_ (fun s a h => ?_) | split

theorem State.lateHold_frame (hw : Within 0x1606578040 ω) {r s : State} {k} (h : Frame ω r s) : Frame ω r (State.lateHold s k) := by
  unfold State.lateHold
  try dsimp only
  with_reducible repeat' first | assumption | apply State.selfHold_frame (hw.mono (by decide)) | refine Frame.foldl ?_ (fun s a h => ?_) | split

theorem State.noteHolder_frame (hw : Within 0x20040 ω) {r s : State} {dev} {k} {release} (h : Frame ω r s) : Frame ω r (State.noteHolder s dev k release) := by
  unfold State.noteHolder
  try dsimp only
  with_reducible repeat' first | assumption | apply State.orReg_frame (hw.mono (by decide)) | refine Frame.foldl ?_ (fun s a h => ?_) | simp only [Frame.set_tide (hw.mono (by decide))] | split

theorem execHoldMsg_frame (hw : Within 0x1606578040 ω) {r s : State} {l} {resent} {p} (h : Frame ω r s) : FrameO ω r (execHoldMsg l resent p s) := by
  unfold execHoldMsg
  try dsimp only
  with_reducible repeat' first | assumption | apply FrameO.next | refine State.arrive_frame (hw.mono (by decide)) (fun s p h => ?_) ?_ | apply State.noteHolder_frame (hw.mono (by decide)) | apply State.relay_frame (hw.mono (by decide)) | refine Frame.foldl ?_ (fun s a h => ?_) | split

theorem execReleaseMsg_frame (hw : Within 0x1606578040 ω) {r s : State} {l} {resent} {p} (h : Frame ω r s) : FrameO ω r (execReleaseMsg l resent p s) := by
  unfold execReleaseMsg
  try dsimp only
  with_reducible repeat' first | assumption | apply FrameO.next | refine State.arrive_frame (hw.mono (by decide)) (fun s p h => ?_) ?_ | apply State.noteHolder_frame (hw.mono (by decide)) | apply State.relay_frame (hw.mono (by decide)) | refine Frame.foldl ?_ (fun s a h => ?_) | split

theorem execHoldDecision_frame (hw : Within 0x1606578040 ω) {r s : State}  (h : Frame ω r s) : FrameO ω r (execHoldDecision s) := by
  unfold execHoldDecision
  try dsimp only
  with_reducible repeat' first | assumption | apply FrameO.next | apply State.selfHold_frame (hw.mono (by decide)) | refine Frame.foldl ?_ (fun s a h => ?_) | split

theorem execEngineReport_frame (hw : Within 0x1606578040 ω) {r s : State} {core} {working} {a2} (h : Frame ω r s) : FrameO ω r (execEngineReport core working a2 s) := by
  unfold execEngineReport
  try dsimp only
  with_reducible repeat' first | assumption | apply FrameO.next | apply State.ownDone_frame (hw.mono (by decide)) | apply State.count_frame (hw.mono (by decide)) | apply State.addReport_frame (hw.mono (by decide)) | refine Frame.foldl ?_ (fun s a h => ?_) | split

theorem State.nominalFalls_frame (hw : Within 0x20000 ω) {r s : State} {g} (h : Frame ω r s) : Frame ω r (State.nominalFalls s g) := by
  unfold State.nominalFalls
  try dsimp only
  with_reducible repeat' first | assumption | refine Frame.foldl ?_ (fun s a h => ?_) | simp only [Frame.set_tide (hw.mono (by decide))] | split

theorem execNominalBoundary_frame (hw : Within 0x20000 ω) {r s : State}  (h : Frame ω r s) : FrameO ω r (execNominalBoundary s) := by
  unfold execNominalBoundary
  try dsimp only
  with_reducible repeat' first | assumption | apply FrameO.next | apply State.nominalFalls_frame (hw.mono (by decide)) | refine Frame.foldl ?_ (fun s a h => ?_) | split

theorem execTideMarkEmit_frame (hw : Within 0x16065f8040 ω) {r s : State}  (h : Frame ω r s) : FrameO ω r (execTideMarkEmit s) := by
  unfold execTideMarkEmit
  try dsimp only
  with_reducible repeat' first | assumption | apply FrameO.next | apply State.toChildren_frame (hw.mono (by decide)) | apply State.checkId_frame (hw.mono (by decide)) | refine Frame.foldl ?_ (fun s a h => ?_) | simp only [Frame.set_group (hw.mono (by decide))] | split

theorem State.shiftGroup_frame (hw : Within 0x20000 ω) {r s : State} {d} (h : Frame ω r s) : Frame ω r (State.shiftGroup s d) := by
  unfold State.shiftGroup
  try dsimp only
  with_reducible repeat' first | assumption | refine Frame.foldl ?_ (fun s a h => ?_) | simp only [Frame.set_tide (hw.mono (by decide))] | split

theorem State.alignLost_frame (hw : Within 0xb8040 ω) {r s : State} {a1} (h : Frame ω r s) : Frame ω r (State.alignLost s a1) := by
  unfold State.alignLost
  try dsimp only
  with_reducible repeat' first | assumption | apply State.orReg_frame (hw.mono (by decide)) | apply State.log__frame (hw.mono (by decide)) | refine Frame.foldl ?_ (fun s a h => ?_) | simp only [Frame.set_tide_group (hw.mono (by decide))] | split

theorem State.align_frame (hw : Within 0xb8040 ω) {r s : State} {p} (h : Frame ω r s) : Frame ω r (State.align s p) := by
  unfold State.align
  try dsimp only
  with_reducible repeat' first | assumption | apply State.setReg_frame (hw.mono (by decide)) | apply State.shiftGroup_frame (hw.mono (by decide)) | apply State.orReg_frame (hw.mono (by decide)) | apply State.alignLost_frame (hw.mono (by decide)) | refine Frame.foldl ?_ (fun s a h => ?_) | simp only [Frame.set_group (hw.mono (by decide))] | split

theorem execTideMark_frame (hw : Within 0x16065f8040 ω) {r s : State} {l} {resent} {p} (h : Frame ω r s) : FrameO ω r (execTideMark l resent p s) := by
  unfold execTideMark
  try dsimp only
  with_reducible repeat' first | assumption | apply FrameO.next | refine State.arrive_frame (hw.mono (by decide)) (fun s p h => ?_) ?_ | apply State.toChildren_frame (hw.mono (by decide)) | apply State.align_frame (hw.mono (by decide)) | refine Frame.foldl ?_ (fun s a h => ?_) | split

end Sys2Proof.Machine
end

