-- ==== Sys2Proof/Laws/Tables.lean ====
section
/-!
SUPPORT. Frames of the operations of Machine/Tables.lean (Laws/Frame.lean says what a frame is).
-/
namespace Sys2Proof.Machine

variable {ω : Nat}

theorem State.putScaleRec_frame (hw : Within 0x100006000 ω) {r s : State} {base} {a2} {v} (h : Frame ω r s) : Frame ω r (State.putScaleRec s base a2 v) := by
  unfold State.putScaleRec
  try dsimp only
  with_reducible repeat' first | assumption | apply State.store_frame (hw.mono (by decide)) | refine Frame.foldl ?_ (fun s a h => ?_) | split

theorem State.eachRec_frame (hw : Within 0x170657e040 ω) {r s : State} {base} {count} {f} (h : Frame ω r s) : Frame ω r (State.eachRec s base count f) := by
  unfold State.eachRec
  try dsimp only
  with_reducible repeat' first | assumption | apply State.putScaleRec_frame (hw.mono (by decide)) | apply State.scaleFault_frame (hw.mono (by decide)) | refine Frame.foldl ?_ (fun s a h => ?_) | split

theorem State.countJit_frame (hw : Within 0x40 ω) {r s : State} {base} {count} (h : Frame ω r s) : Frame ω r (State.countJit s base count) := by
  unfold State.countJit
  try dsimp only
  with_reducible repeat' first | assumption | apply State.setReg_frame (hw.mono (by decide)) | apply State.orReg_frame (hw.mono (by decide)) | refine Frame.foldl ?_ (fun s a h => ?_) | split

theorem State.jitAll_frame (hw : Within 0x170657e040 ω) {r s : State} {base} {count} (h : Frame ω r s) : Frame ω r (State.jitAll s base count) := by
  unfold State.jitAll
  try dsimp only
  with_reducible repeat' first | assumption | apply State.countJit_frame (hw.mono (by decide)) | apply State.eachRec_frame (hw.mono (by decide)) | apply State.orReg_frame (hw.mono (by decide)) | refine Frame.foldl ?_ (fun s a h => ?_) | split

theorem State.refreshCopies_frame (hw : Within 0x8100000 ω) {r s : State}  (h : Frame ω r s) : Frame ω r (State.refreshCopies s) := by
  unfold State.refreshCopies
  try dsimp only
  with_reducible repeat' first | assumption | refine Frame.foldl ?_ (fun s a h => ?_) | simp only [Frame.set_job_nums (hw.mono (by decide))] | split

theorem State.foldOne_frame (hw : Within 0x170e57e040 ω) {r s : State} {base} {rec_} {m} (h : Frame ω r s) : Frame ω r (State.foldOne s base rec_ m) := by
  unfold State.foldOne
  try dsimp only
  with_reducible repeat' first | assumption | apply State.putScaleRec_frame (hw.mono (by decide)) | apply State.scaleFault_frame (hw.mono (by decide)) | refine Frame.foldl ?_ (fun s a h => ?_) | simp only [Frame.set_nums (hw.mono (by decide))] | split

theorem State.foldCore_frame (hw : Within 0x170e57e040 ω) {r s : State} {core} (h : Frame ω r s) : Frame ω r (State.foldCore s core) := by
  unfold State.foldCore
  try dsimp only
  with_reducible repeat' first | assumption | apply State.foldOne_frame (hw.mono (by decide)) | apply State.setArr_frame (hw.mono (by decide)) | refine Frame.foldl ?_ (fun s a h => ?_) | split

theorem State.foldAll_frame (hw : Within 0x170e57e040 ω) {r s : State} {b} (h : Frame ω r s) : Frame ω r (State.foldAll s b) := by
  unfold State.foldAll
  try dsimp only
  with_reducible repeat' first | assumption | apply State.foldCore_frame (hw.mono (by decide)) | refine Frame.foldl ?_ (fun s a h => ?_) | split

theorem State.writeDynamic_frame (hw : Within 0x100006000 ω) {r s : State} {base} {u} (h : Frame ω r s) : Frame ω r (State.writeDynamic s base u) := by
  unfold State.writeDynamic
  try dsimp only
  with_reducible repeat' first | assumption | apply State.store_frame (hw.mono (by decide)) | refine Frame.foldl ?_ (fun s a h => ?_) | split

theorem State.latchHp_frame (hw : Within 0x20018040 ω) {r s : State} {base} (h : Frame ω r s) : Frame ω r (State.latchHp s base) := by
  unfold State.latchHp
  try dsimp only
  with_reducible repeat' first | assumption | apply State.log__frame (hw.mono (by decide)) | apply State.orReg_frame (hw.mono (by decide)) | refine Frame.foldl ?_ (fun s a h => ?_) | simp only [Frame.set_upd (hw.mono (by decide))] | split

end Sys2Proof.Machine
end

