-- ==== Sys2Proof/Laws/Jobs.lean ====
section
/-!
SUPPORT. Frames of the operations of Machine/Jobs.lean (Laws/Frame.lean says what a frame is).
-/
namespace Sys2Proof.Machine

variable {ω : Nat}

theorem State.queueBasic_frame (hw : Within 0x1100 ω) {r s : State} {k} {v} (h : Frame ω r s) : Frame ω r (State.queueBasic s k v) := by
  unfold State.queueBasic
  try dsimp only
  with_reducible repeat' first | assumption | apply State.basic_frame (hw.mono (by decide)) | apply State.queueReg_frame (hw.mono (by decide)) | refine Frame.foldl ?_ (fun s a h => ?_) | split

theorem cmdJobCreate_framed (hw : Within 0x172e57f140 ω) : cmdJobCreate.Framed ω := by
  intro r s q h
  dsimp only [cmdJobCreate]
  with_reducible repeat' first | assumption | apply State.queueBasic_frame (hw.mono (by decide)) | apply State.jitAll_frame (hw.mono (by decide)) | apply State.latchHp_frame (hw.mono (by decide)) | apply State.queueBasic_frame (hw.mono (by decide)) | apply State.jitAll_frame (hw.mono (by decide)) | apply State.latchHp_frame (hw.mono (by decide)) | refine Frame.foldl ?_ (fun s a h => ?_) | simp only [Frame.set_job_nums_upd (hw.mono (by decide))] | split

theorem cmdJobCursor_framed  : cmdJobCursor.Framed ω := by
  intro r s q h
  dsimp only [cmdJobCursor]
  with_reducible repeat' first | assumption | refine Frame.foldl ?_ (fun s a h => ?_) | split

theorem cmdJobEnd_framed (hw : Within 0x120000 ω) : cmdJobEnd.Framed ω := by
  intro r s q h
  dsimp only [cmdJobEnd]
  with_reducible repeat' first | assumption | refine Frame.foldl ?_ (fun s a h => ?_) | simp only [Frame.set_tide_job (hw.mono (by decide))] | split

theorem cmdJobGroupForm_framed (hw : Within 0x81100 ω) : cmdJobGroupForm.Framed ω := by
  intro r s q h
  dsimp only [cmdJobGroupForm]
  with_reducible repeat' first | assumption | apply State.queueBasic_frame (hw.mono (by decide)) | apply State.queueBasic_frame (hw.mono (by decide)) | refine Frame.foldl ?_ (fun s a h => ?_) | simp only [Frame.set_group (hw.mono (by decide))] | split

theorem cmdJobGroupLeave_framed (hw : Within 0x80000 ω) : cmdJobGroupLeave.Framed ω := by
  intro r s q h
  dsimp only [cmdJobGroupLeave]
  with_reducible repeat' first | assumption | refine Frame.foldl ?_ (fun s a h => ?_) | simp only [Frame.set_group (hw.mono (by decide))] | split

theorem cmdJobStatus_framed  : cmdJobStatus.Framed ω := by
  intro r s q h
  dsimp only [cmdJobStatus]
  with_reducible repeat' first | assumption | refine Frame.foldl ?_ (fun s a h => ?_) | split

theorem execJobCreate_frame (hw : Within 0x172e57f140 ω) {r s : State} {a0} (h : Frame ω r s) : FrameO ω r (execJobCreate a0 s) := by
  unfold execJobCreate
  try dsimp only
  with_reducible repeat' first | assumption | apply FrameO.next | apply Cmd.serve_frame (hw.mono (by decide)) (cmdJobCreate_framed (hw.mono (by decide))) | refine Frame.foldl ?_ (fun s a h => ?_) | split

theorem execJobGroupForm_frame (hw : Within 0x89100 ω) {r s : State} {a0} (h : Frame ω r s) : FrameO ω r (execJobGroupForm a0 s) := by
  unfold execJobGroupForm
  try dsimp only
  with_reducible repeat' first | assumption | apply FrameO.next | apply Cmd.serve_frame (hw.mono (by decide)) (cmdJobGroupForm_framed (hw.mono (by decide))) | refine Frame.foldl ?_ (fun s a h => ?_) | split

theorem execJobGroupLeave_frame (hw : Within 0x88000 ω) {r s : State} {a0} (h : Frame ω r s) : FrameO ω r (execJobGroupLeave a0 s) := by
  unfold execJobGroupLeave
  try dsimp only
  with_reducible repeat' first | assumption | apply FrameO.next | apply Cmd.serve_frame (hw.mono (by decide)) (cmdJobGroupLeave_framed (hw.mono (by decide))) | refine Frame.foldl ?_ (fun s a h => ?_) | split

theorem execJobCursor_frame (hw : Within 0x8000 ω) {r s : State} {a0} (h : Frame ω r s) : FrameO ω r (execJobCursor a0 s) := by
  unfold execJobCursor
  try dsimp only
  with_reducible repeat' first | assumption | apply FrameO.next | apply Cmd.serve_frame (hw.mono (by decide)) (cmdJobCursor_framed) | refine Frame.foldl ?_ (fun s a h => ?_) | split

theorem execJobStatus_frame (hw : Within 0x8000 ω) {r s : State} {a0} (h : Frame ω r s) : FrameO ω r (execJobStatus a0 s) := by
  unfold execJobStatus
  try dsimp only
  with_reducible repeat' first | assumption | apply FrameO.next | apply Cmd.serve_frame (hw.mono (by decide)) (cmdJobStatus_framed) | refine Frame.foldl ?_ (fun s a h => ?_) | split

theorem execJobEnd_frame (hw : Within 0x128000 ω) {r s : State} {a0} (h : Frame ω r s) : FrameO ω r (execJobEnd a0 s) := by
  unfold execJobEnd
  try dsimp only
  with_reducible repeat' first | assumption | apply FrameO.next | apply Cmd.serve_frame (hw.mono (by decide)) (cmdJobEnd_framed (hw.mono (by decide))) | refine Frame.foldl ?_ (fun s a h => ?_) | split

end Sys2Proof.Machine
end

