-- ==== Sys2Proof/Laws/TideCmd.lean ====
section
/-!
SUPPORT. Frames of the operations of Machine/TideCmd.lean (Laws/Frame.lean says what a frame is).
-/
namespace Sys2Proof.Machine

variable {ω : Nat}

theorem cmdTideConfig_framed (hw : Within 0x1140 ω) : cmdTideConfig.Framed ω := by
  intro r s q h
  dsimp only [cmdTideConfig]
  with_reducible repeat' first | assumption | apply State.queueBasic_frame (hw.mono (by decide)) | apply State.basic_frame (hw.mono (by decide)) | apply State.setReg_frame (hw.mono (by decide)) | apply State.queueBasic_frame (hw.mono (by decide)) | apply State.basic_frame (hw.mono (by decide)) | apply State.setReg_frame (hw.mono (by decide)) | refine Frame.foldl ?_ (fun s a h => ?_) | split

theorem cmdTideDisarm_framed (hw : Within 0x40000 ω) : cmdTideDisarm.Framed ω := by
  intro r s q h
  dsimp only [cmdTideDisarm]
  with_reducible repeat' first | assumption | apply State.setImage_frame (hw.mono (by decide)) | apply State.setImage_frame (hw.mono (by decide)) | refine Frame.foldl ?_ (fun s a h => ?_) | split

theorem cmdTideHold_framed (hw : Within 0x1606578040 ω) : cmdTideHold.Framed ω := by
  intro r s q h
  dsimp only [cmdTideHold]
  with_reducible repeat' first | assumption | apply State.lateHold_frame (hw.mono (by decide)) | apply State.lateHold_frame (hw.mono (by decide)) | refine Frame.foldl ?_ (fun s a h => ?_) | simp only [Frame.set_tide (hw.mono (by decide))] | split

theorem cmdTideLoad_framed (hw : Within 0x40000 ω) : cmdTideLoad.Framed ω := by
  intro r s q h
  dsimp only [cmdTideLoad]
  with_reducible repeat' first | assumption | apply State.setImage_frame (hw.mono (by decide)) | apply State.setImage_frame (hw.mono (by decide)) | refine Frame.foldl ?_ (fun s a h => ?_) | split

theorem cmdTideRelease_framed (hw : Within 0x1606578040 ω) : cmdTideRelease.Framed ω := by
  intro r s q h
  dsimp only [cmdTideRelease]
  with_reducible repeat' first | assumption | apply State.ownDone_frame (hw.mono (by decide)) | apply State.ownDone_frame (hw.mono (by decide)) | refine Frame.foldl ?_ (fun s a h => ?_) | simp only [Frame.set_tide (hw.mono (by decide))] | split

theorem cmdTideRun_framed (hw : Within 0x20000 ω) : cmdTideRun.Framed ω := by
  intro r s q h
  dsimp only [cmdTideRun]
  with_reducible repeat' first | assumption | refine Frame.foldl ?_ (fun s a h => ?_) | simp only [Frame.set_tide (hw.mono (by decide))] | split

theorem cmdTideStatus_framed  : cmdTideStatus.Framed ω := by
  intro r s q h
  dsimp only [cmdTideStatus]
  with_reducible repeat' first | assumption | refine Frame.foldl ?_ (fun s a h => ?_) | split

theorem cmdTideStop_framed (hw : Within 0x20000 ω) : cmdTideStop.Framed ω := by
  intro r s q h
  dsimp only [cmdTideStop]
  with_reducible repeat' first | assumption | refine Frame.foldl ?_ (fun s a h => ?_) | simp only [Frame.set_tide (hw.mono (by decide))] | split

theorem cmdTideUnload_framed (hw : Within 0x40000 ω) : cmdTideUnload.Framed ω := by
  intro r s q h
  dsimp only [cmdTideUnload]
  with_reducible repeat' first | assumption | apply State.setImage_frame (hw.mono (by decide)) | apply State.setImage_frame (hw.mono (by decide)) | refine Frame.foldl ?_ (fun s a h => ?_) | split

theorem execTideLoad_frame (hw : Within 0x48000 ω) {r s : State} {a0} (h : Frame ω r s) : FrameO ω r (execTideLoad a0 s) := by
  unfold execTideLoad
  try dsimp only
  with_reducible repeat' first | assumption | apply FrameO.next | apply Cmd.serve_frame (hw.mono (by decide)) (cmdTideLoad_framed (hw.mono (by decide))) | refine Frame.foldl ?_ (fun s a h => ?_) | split

theorem execTideDisarm_frame (hw : Within 0x48000 ω) {r s : State} {a0} (h : Frame ω r s) : FrameO ω r (execTideDisarm a0 s) := by
  unfold execTideDisarm
  try dsimp only
  with_reducible repeat' first | assumption | apply FrameO.next | apply Cmd.serve_frame (hw.mono (by decide)) (cmdTideDisarm_framed (hw.mono (by decide))) | refine Frame.foldl ?_ (fun s a h => ?_) | split

theorem execTideUnload_frame (hw : Within 0x48000 ω) {r s : State} {a0} (h : Frame ω r s) : FrameO ω r (execTideUnload a0 s) := by
  unfold execTideUnload
  try dsimp only
  with_reducible repeat' first | assumption | apply FrameO.next | apply Cmd.serve_frame (hw.mono (by decide)) (cmdTideUnload_framed (hw.mono (by decide))) | refine Frame.foldl ?_ (fun s a h => ?_) | split

theorem execTideRun_frame (hw : Within 0x28000 ω) {r s : State} {a0} (h : Frame ω r s) : FrameO ω r (execTideRun a0 s) := by
  unfold execTideRun
  try dsimp only
  with_reducible repeat' first | assumption | apply FrameO.next | apply Cmd.serve_frame (hw.mono (by decide)) (cmdTideRun_framed (hw.mono (by decide))) | refine Frame.foldl ?_ (fun s a h => ?_) | split

theorem execTideStop_frame (hw : Within 0x28000 ω) {r s : State} {a0} (h : Frame ω r s) : FrameO ω r (execTideStop a0 s) := by
  unfold execTideStop
  try dsimp only
  with_reducible repeat' first | assumption | apply FrameO.next | apply Cmd.serve_frame (hw.mono (by decide)) (cmdTideStop_framed (hw.mono (by decide))) | refine Frame.foldl ?_ (fun s a h => ?_) | split

theorem execTideHold_frame (hw : Within 0x1606578040 ω) {r s : State} {a0} (h : Frame ω r s) : FrameO ω r (execTideHold a0 s) := by
  unfold execTideHold
  try dsimp only
  with_reducible repeat' first | assumption | apply FrameO.next | apply Cmd.serve_frame (hw.mono (by decide)) (cmdTideHold_framed (hw.mono (by decide))) | refine Frame.foldl ?_ (fun s a h => ?_) | split

theorem execTideRelease_frame (hw : Within 0x1606578040 ω) {r s : State} {a0} (h : Frame ω r s) : FrameO ω r (execTideRelease a0 s) := by
  unfold execTideRelease
  try dsimp only
  with_reducible repeat' first | assumption | apply FrameO.next | apply Cmd.serve_frame (hw.mono (by decide)) (cmdTideRelease_framed (hw.mono (by decide))) | refine Frame.foldl ?_ (fun s a h => ?_) | split

theorem execTideConfig_frame (hw : Within 0x9140 ω) {r s : State} {a0} (h : Frame ω r s) : FrameO ω r (execTideConfig a0 s) := by
  unfold execTideConfig
  try dsimp only
  with_reducible repeat' first | assumption | apply FrameO.next | apply Cmd.serve_frame (hw.mono (by decide)) (cmdTideConfig_framed (hw.mono (by decide))) | refine Frame.foldl ?_ (fun s a h => ?_) | split

theorem execTideStatus_frame (hw : Within 0x8000 ω) {r s : State} {a0} (h : Frame ω r s) : FrameO ω r (execTideStatus a0 s) := by
  unfold execTideStatus
  try dsimp only
  with_reducible repeat' first | assumption | apply FrameO.next | apply Cmd.serve_frame (hw.mono (by decide)) (cmdTideStatus_framed) | refine Frame.foldl ?_ (fun s a h => ?_) | split

end Sys2Proof.Machine
end

