-- ==== Sys2Proof/Laws/Admit.lean ====
section
/-!
SUPPORT. Frames of the operations of Machine/Admit.lean (Laws/Frame.lean says what a frame is).
-/
namespace Sys2Proof.Machine

variable {ω : Nat}

theorem State.measureImage_frame (hw : Within 0x400000000 ω) {r s : State} {a} {k0} (h : Frame ω r s) : Frame ω r (State.measureImage s a k0) := by
  unfold State.measureImage
  try dsimp only
  with_reducible repeat' first | assumption | refine Frame.foldl ?_ (fun s a h => ?_) | simp only [Frame.set_lys (hw.mono (by decide))] | split

theorem State.armRefused_frame (hw : Within 0x18000 ω) {r s : State} {a1} {a2} {x} {t : State} (e : State.armRefused s a1 a2 = (t, x)) (h : Frame ω r s) : Frame ω r t := by
  unfold State.armRefused at e
  try dsimp only at e
  repeat' (split at e)
  all_goals first | cases e | skip
  all_goals with_reducible repeat' first | assumption | apply State.logFull_frame (hw.mono (by decide)) | refine Frame.foldl ?_ (fun s a h => ?_) | split

theorem State.armRefused_frame1 (hw : Within 0x18000 ω) {r s : State} {a1} {a2} (h : Frame ω r s) : Frame ω r (State.armRefused s a1 a2).1 :=
  State.armRefused_frame (hw.mono (by decide)) rfl h

theorem State.admitImage_frame (hw : Within 0x400040000 ω) {r s : State} {n} {i} (h : Frame ω r s) : Frame ω r (State.admitImage s n i) := by
  unfold State.admitImage
  try dsimp only
  with_reducible repeat' first | assumption | apply State.measureImage_frame (hw.mono (by decide)) | apply State.setImage_frame (hw.mono (by decide)) | refine Frame.foldl ?_ (fun s a h => ?_) | split

theorem cmdTideArm_framed (hw : Within 0x400058000 ω) : cmdTideArm.Framed ω := by
  intro r s q h
  dsimp only [cmdTideArm]
  with_reducible repeat' first | assumption | apply State.armRefused_frame1 (hw.mono (by decide)) | apply State.admitImage_frame (hw.mono (by decide)) | apply State.armRefused_frame1 (hw.mono (by decide)) | apply State.admitImage_frame (hw.mono (by decide)) | (refine State.armRefused_frame (hw.mono (by decide)) (by assumption) ?_) | (refine State.armRefused_frame (hw.mono (by decide)) (by assumption) ?_) | refine Frame.foldl ?_ (fun s a h => ?_) | split

theorem execTideArm_frame (hw : Within 0x400058000 ω) {r s : State} {a0} (h : Frame ω r s) : FrameO ω r (execTideArm a0 s) := by
  unfold execTideArm
  try dsimp only
  with_reducible repeat' first | assumption | apply FrameO.next | apply Cmd.serve_frame (hw.mono (by decide)) (cmdTideArm_framed (hw.mono (by decide))) | refine Frame.foldl ?_ (fun s a h => ?_) | split

end Sys2Proof.Machine
end

