-- ==== Sys2Proof/Laws/Memory.lean ====
section
/-!
SUPPORT. Frames of the operations of Machine/Memory.lean (Laws/Frame.lean says what a frame is).
-/
namespace Sys2Proof.Machine

variable {ω : Nat}

theorem State.correctable_frame (hw : Within 0x100000044 ω) {r s : State} {a} (h : Frame ω r s) : Frame ω r (State.correctable s a) := by
  unfold State.correctable
  try dsimp only
  with_reducible repeat' first | assumption | apply State.count_frame (hw.mono (by decide)) | apply State.orReg_frame (hw.mono (by decide)) | refine Frame.foldl ?_ (fun s a h => ?_) | simp only [Frame.set_memc (hw.mono (by decide))] | split | (refine Frame.set_kept (hw.mono (by decide)) ?_) | (refine Frame.set_kept_memc (hw.mono (by decide)) ?_)

theorem State.recordUe_frame (hw : Within 0x100018040 ω) {r s : State} {a} {addressCheck} (h : Frame ω r s) : Frame ω r (State.recordUe s a addressCheck) := by
  unfold State.recordUe
  try dsimp only
  with_reducible repeat' first | assumption | apply State.count_frame (hw.mono (by decide)) | apply State.setReg_frame (hw.mono (by decide)) | apply State.log__frame (hw.mono (by decide)) | apply State.orReg_frame (hw.mono (by decide)) | refine Frame.foldl ?_ (fun s a h => ?_) | simp only [Frame.set_memc (hw.mono (by decide))] | split

theorem State.pcExhausted_frame (hw : Within 0x300018040 ω) {r s : State} {st} {p} (h : Frame ω r s) : Frame ω r (State.pcExhausted s st p) := by
  unfold State.pcExhausted
  try dsimp only
  with_reducible repeat' first | assumption | apply State.log__frame (hw.mono (by decide)) | apply State.trouble_frame (hw.mono (by decide)) | apply State.orReg_frame (hw.mono (by decide)) | refine Frame.foldl ?_ (fun s a h => ?_) | simp only [Frame.set_memc (hw.mono (by decide))] | split

theorem State.pcPending_frame (hw : Within 0x1706578040 ω) {r s : State} {st} {p} (h : Frame ω r s) : Frame ω r (State.pcPending s st p) := by
  unfold State.pcPending
  try dsimp only
  with_reducible repeat' first | assumption | apply State.setField_frame (hw.mono (by decide)) | apply State.log__frame (hw.mono (by decide)) | apply State.trouble_frame (hw.mono (by decide)) | apply State.snapRequest_frame (hw.mono (by decide)) | refine Frame.foldl ?_ (fun s a h => ?_) | simp only [Frame.set_memc (hw.mono (by decide))] | split

theorem State.pcThreshold_frame (hw : Within 0x1706578040 ω) {r s : State} {st} (h : Frame ω r s) : Frame ω r (State.pcThreshold s st) := by
  unfold State.pcThreshold
  try dsimp only
  with_reducible repeat' first | assumption | apply State.pcPending_frame (hw.mono (by decide)) | apply State.pcExhausted_frame (hw.mono (by decide)) | refine Frame.foldl ?_ (fun s a h => ?_) | split

theorem State.startPcCopies_frame (hw : Within 0x100000040 ω) {r s : State} {tideline} (h : Frame ω r s) : Frame ω r (State.startPcCopies s tideline) := by
  unfold State.startPcCopies
  try dsimp only
  with_reducible repeat' first | assumption | apply State.setReg_frame (hw.mono (by decide)) | apply State.setField_frame (hw.mono (by decide)) | refine Frame.foldl ?_ (fun s a h => ?_) | simp only [Frame.set_memc (hw.mono (by decide))] | split

theorem State.blockCopied_frame (hw : Within 0x100018044 ω) {r s : State} {st} {a2} (h : Frame ω r s) : Frame ω r (State.blockCopied s st a2) := by
  unfold State.blockCopied
  try dsimp only
  with_reducible repeat' first | assumption | apply State.correctable_frame (hw.mono (by decide)) | apply State.recordUe_frame (hw.mono (by decide)) | apply State.count_frame (hw.mono (by decide)) | refine Frame.foldl ?_ (fun s a h => ?_) | simp only [Frame.set_memc (hw.mono (by decide))] | split

theorem State.pcCopied_frame (hw : Within 0x1606578044 ω) {r s : State} {st} (h : Frame ω r s) : Frame ω r (State.pcCopied s st) := by
  unfold State.pcCopied
  try dsimp only
  with_reducible repeat' first | assumption | apply State.setReg_frame (hw.mono (by decide)) | apply State.setField_frame (hw.mono (by decide)) | apply State.log__frame (hw.mono (by decide)) | apply State.orReg_frame (hw.mono (by decide)) | apply State.spareUsed_frame (hw.mono (by decide)) | refine Frame.foldl ?_ (fun s a h => ?_) | split

theorem State.sliceThreshold_frame (hw : Within 0x300000040 ω) {r s : State} {n} (h : Frame ω r s) : Frame ω r (State.sliceThreshold s n) := by
  unfold State.sliceThreshold
  try dsimp only
  with_reducible repeat' first | assumption | apply State.trouble_frame (hw.mono (by decide)) | apply State.orReg_frame (hw.mono (by decide)) | refine Frame.foldl ?_ (fun s a h => ?_) | simp only [Frame.set_memc (hw.mono (by decide))] | split

theorem State.startSliceCopies_frame (hw : Within 0x100000000 ω) {r s : State}  (h : Frame ω r s) : Frame ω r (State.startSliceCopies s) := by
  unfold State.startSliceCopies
  try dsimp only
  with_reducible repeat' first | assumption | refine Frame.foldl ?_ (fun s a h => ?_) | simp only [Frame.set_memc (hw.mono (by decide))] | split

theorem State.lineCopied_frame (hw : Within 0x100000000 ω) {r s : State} {a1} (h : Frame ω r s) : Frame ω r (State.lineCopied s a1) := by
  unfold State.lineCopied
  try dsimp only
  with_reducible repeat' first | assumption | refine Frame.foldl ?_ (fun s a h => ?_) | simp only [Frame.set_memc (hw.mono (by decide))] | split

theorem State.sliceCopied_frame (hw : Within 0x1706578044 ω) {r s : State} {a1} (h : Frame ω r s) : Frame ω r (State.sliceCopied s a1) := by
  unfold State.sliceCopied
  try dsimp only
  with_reducible repeat' first | assumption | apply State.spareUsed_frame (hw.mono (by decide)) | apply State.orReg_frame (hw.mono (by decide)) | refine Frame.foldl ?_ (fun s a h => ?_) | split | (refine Frame.set_kept_memc (hw.mono (by decide)) ?_)

theorem State.newWindows_frame (hw : Within 0x100000000 ω) {r s : State}  (h : Frame ω r s) : Frame ω r (State.newWindows s) := by
  unfold State.newWindows
  try dsimp only
  with_reducible repeat' first | assumption | refine Frame.foldl ?_ (fun s a h => ?_) | simp only [Frame.set_memc (hw.mono (by decide))] | split

theorem State.stackTemp_frame (hw : Within 0x40 ω) {r s : State} {st} {a2} (h : Frame ω r s) : Frame ω r (State.stackTemp s st a2) := by
  unfold State.stackTemp
  try dsimp only
  with_reducible repeat' first | assumption | apply State.setReg_frame (hw.mono (by decide)) | apply State.setField_frame (hw.mono (by decide)) | refine Frame.foldl ?_ (fun s a h => ?_) | split

theorem State.scrub_frame (hw : Within 0x100018044 ω) {r s : State} {c} {a2} (h : Frame ω r s) : Frame ω r (State.scrub s c a2) := by
  unfold State.scrub
  try dsimp only
  with_reducible repeat' first | assumption | apply State.count_frame (hw.mono (by decide)) | apply State.correctable_frame (hw.mono (by decide)) | apply State.recordUe_frame (hw.mono (by decide)) | refine Frame.foldl ?_ (fun s a h => ?_) | simp only [Frame.set_memc (hw.mono (by decide))] | split

theorem cmdMemFill_framed (hw : Within 0x100006000 ω) : cmdMemFill.Framed ω := by
  intro r s q h
  dsimp only [cmdMemFill]
  with_reducible repeat' first | assumption | apply State.store_frame (hw.mono (by decide)) | apply State.store_frame (hw.mono (by decide)) | refine Frame.foldl ?_ (fun s a h => ?_) | split

theorem cmdMemInfo_framed  : cmdMemInfo.Framed ω := by
  intro r s q h
  dsimp only [cmdMemInfo]
  with_reducible repeat' first | assumption | refine Frame.foldl ?_ (fun s a h => ?_) | split

theorem cmdMemScrub_framed (hw : Within 0x1040 ω) : cmdMemScrub.Framed ω := by
  intro r s q h
  dsimp only [cmdMemScrub]
  with_reducible repeat' first | assumption | apply State.basic_frame (hw.mono (by decide)) | apply State.setField_frame (hw.mono (by decide)) | apply State.basic_frame (hw.mono (by decide)) | apply State.setField_frame (hw.mono (by decide)) | refine Frame.foldl ?_ (fun s a h => ?_) | split

theorem cmdMemShelfLimit_framed (hw : Within 0x1100 ω) : cmdMemShelfLimit.Framed ω := by
  intro r s q h
  dsimp only [cmdMemShelfLimit]
  with_reducible repeat' first | assumption | apply State.basic_frame (hw.mono (by decide)) | apply State.queueReg_frame (hw.mono (by decide)) | apply State.basic_frame (hw.mono (by decide)) | apply State.queueReg_frame (hw.mono (by decide)) | refine Frame.foldl ?_ (fun s a h => ?_) | split

theorem cmdMemWindowClose_framed (hw : Within 0x400000000 ω) : cmdMemWindowClose.Framed ω := by
  intro r s q h
  dsimp only [cmdMemWindowClose]
  with_reducible repeat' first | assumption | refine Frame.foldl ?_ (fun s a h => ?_) | simp only [Frame.set_lys (hw.mono (by decide))] | split

theorem cmdMemWindowOpen_framed (hw : Within 0x400000000 ω) : cmdMemWindowOpen.Framed ω := by
  intro r s q h
  dsimp only [cmdMemWindowOpen]
  with_reducible repeat' first | assumption | refine Frame.foldl ?_ (fun s a h => ?_) | simp only [Frame.set_lys (hw.mono (by decide))] | split

theorem cmdMemWrite_framed (hw : Within 0x100006000 ω) : cmdMemWrite.Framed ω := by
  intro r s q h
  dsimp only [cmdMemWrite]
  with_reducible repeat' first | assumption | apply State.store_frame (hw.mono (by decide)) | apply State.store_frame (hw.mono (by decide)) | refine Frame.foldl ?_ (fun s a h => ?_) | split

theorem execMemWindowOpen_frame (hw : Within 0x400008000 ω) {r s : State} {a0} (h : Frame ω r s) : FrameO ω r (execMemWindowOpen a0 s) := by
  unfold execMemWindowOpen
  try dsimp only
  with_reducible repeat' first | assumption | apply FrameO.next | apply Cmd.serve_frame (hw.mono (by decide)) (cmdMemWindowOpen_framed (hw.mono (by decide))) | refine Frame.foldl ?_ (fun s a h => ?_) | split

theorem execMemWindowClose_frame (hw : Within 0x400008000 ω) {r s : State} {a0} (h : Frame ω r s) : FrameO ω r (execMemWindowClose a0 s) := by
  unfold execMemWindowClose
  try dsimp only
  with_reducible repeat' first | assumption | apply FrameO.next | apply Cmd.serve_frame (hw.mono (by decide)) (cmdMemWindowClose_framed (hw.mono (by decide))) | refine Frame.foldl ?_ (fun s a h => ?_) | split

theorem execMemWrite_frame (hw : Within 0x10000e000 ω) {r s : State} {a0} (h : Frame ω r s) : FrameO ω r (execMemWrite a0 s) := by
  unfold execMemWrite
  try dsimp only
  with_reducible repeat' first | assumption | apply FrameO.next | apply Cmd.serve_frame (hw.mono (by decide)) (cmdMemWrite_framed (hw.mono (by decide))) | refine Frame.foldl ?_ (fun s a h => ?_) | split

theorem execMemFill_frame (hw : Within 0x10000e000 ω) {r s : State} {a0} (h : Frame ω r s) : FrameO ω r (execMemFill a0 s) := by
  unfold execMemFill
  try dsimp only
  with_reducible repeat' first | assumption | apply FrameO.next | apply Cmd.serve_frame (hw.mono (by decide)) (cmdMemFill_framed (hw.mono (by decide))) | refine Frame.foldl ?_ (fun s a h => ?_) | split

theorem execMemInfo_frame (hw : Within 0x8000 ω) {r s : State} {a0} (h : Frame ω r s) : FrameO ω r (execMemInfo a0 s) := by
  unfold execMemInfo
  try dsimp only
  with_reducible repeat' first | assumption | apply FrameO.next | apply Cmd.serve_frame (hw.mono (by decide)) (cmdMemInfo_framed) | refine Frame.foldl ?_ (fun s a h => ?_) | split

theorem execMemScrub_frame (hw : Within 0x9040 ω) {r s : State} {a0} (h : Frame ω r s) : FrameO ω r (execMemScrub a0 s) := by
  unfold execMemScrub
  try dsimp only
  with_reducible repeat' first | assumption | apply FrameO.next | apply Cmd.serve_frame (hw.mono (by decide)) (cmdMemScrub_framed (hw.mono (by decide))) | refine Frame.foldl ?_ (fun s a h => ?_) | split

theorem execMemShelfLimit_frame (hw : Within 0x9100 ω) {r s : State} {a0} (h : Frame ω r s) : FrameO ω r (execMemShelfLimit a0 s) := by
  unfold execMemShelfLimit
  try dsimp only
  with_reducible repeat' first | assumption | apply FrameO.next | apply Cmd.serve_frame (hw.mono (by decide)) (cmdMemShelfLimit_framed (hw.mono (by decide))) | refine Frame.foldl ?_ (fun s a h => ?_) | split

theorem execHbmRefresh_frame  {r s : State}  (h : Frame ω r s) : FrameO ω r (execHbmRefresh s) := by
  unfold execHbmRefresh
  try dsimp only
  with_reducible repeat' first | assumption | apply FrameO.next | refine Frame.foldl ?_ (fun s a h => ?_) | split

theorem execDdr5Refresh_frame  {r s : State}  (h : Frame ω r s) : FrameO ω r (execDdr5Refresh s) := by
  unfold execDdr5Refresh
  try dsimp only
  with_reducible repeat' first | assumption | apply FrameO.next | refine Frame.foldl ?_ (fun s a h => ?_) | split

theorem execStackTempRead_frame (hw : Within 0x40 ω) {r s : State} {temps} (h : Frame ω r s) : FrameO ω r (execStackTempRead temps s) := by
  unfold execStackTempRead
  try dsimp only
  with_reducible repeat' first | assumption | apply FrameO.next | apply State.stackTemp_frame (hw.mono (by decide)) | refine Frame.foldl ?_ (fun s a h => ?_) | split

theorem execPcCeWindow_frame (hw : Within 0x100000000 ω) {r s : State}  (h : Frame ω r s) : FrameO ω r (execPcCeWindow s) := by
  unfold execPcCeWindow
  try dsimp only
  with_reducible repeat' first | assumption | apply FrameO.next | apply State.newWindows_frame (hw.mono (by decide)) | refine Frame.foldl ?_ (fun s a h => ?_) | split

theorem execPcThreshold_frame (hw : Within 0x1706578040 ω) {r s : State} {st} (h : Frame ω r s) : FrameO ω r (execPcThreshold st s) := by
  unfold execPcThreshold
  try dsimp only
  with_reducible repeat' first | assumption | apply FrameO.next | apply State.pcThreshold_frame (hw.mono (by decide)) | refine Frame.foldl ?_ (fun s a h => ?_) | split

theorem execPcCopyDone_frame (hw : Within 0x1606578044 ω) {r s : State} {st} (h : Frame ω r s) : FrameO ω r (execPcCopyDone st s) := by
  unfold execPcCopyDone
  try dsimp only
  with_reducible repeat' first | assumption | apply FrameO.next | apply State.pcCopied_frame (hw.mono (by decide)) | refine Frame.foldl ?_ (fun s a h => ?_) | split

theorem execSliceThreshold_frame (hw : Within 0x300000040 ω) {r s : State} {n} (h : Frame ω r s) : FrameO ω r (execSliceThreshold n s) := by
  unfold execSliceThreshold
  try dsimp only
  with_reducible repeat' first | assumption | apply FrameO.next | apply State.sliceThreshold_frame (hw.mono (by decide)) | refine Frame.foldl ?_ (fun s a h => ?_) | split

theorem execSliceCopyDone_frame (hw : Within 0x1706578044 ω) {r s : State} {a0} (h : Frame ω r s) : FrameO ω r (execSliceCopyDone a0 s) := by
  unfold execSliceCopyDone
  try dsimp only
  with_reducible repeat' first | assumption | apply FrameO.next | apply State.sliceCopied_frame (hw.mono (by decide)) | refine Frame.foldl ?_ (fun s a h => ?_) | split

end Sys2Proof.Machine
end

