-- ==== Sys2Proof/Laws/Snap.lean ====
section
/-!
SUPPORT. Frames of the operations of Machine/Snap.lean (Laws/Frame.lean says what a frame is).
-/
namespace Sys2Proof.Machine

variable {ω : Nat}

theorem State.cleanEnt_frame (hw : Within 0x4000 ω) {r s : State} {a1} (h : Frame ω r s) : Frame ω r (State.cleanEnt s a1) := by
  unfold State.cleanEnt
  try dsimp only
  with_reducible repeat' first | assumption | refine Frame.foldl ?_ (fun s a h => ?_) | simp only [Frame.set_dirty (hw.mono (by decide))] | split

theorem State.logMethod_frame (hw : Within 0x18000 ω) {r s : State} {c} (h : Frame ω r s) : Frame ω r (State.logMethod s c) := by
  unfold State.logMethod
  try dsimp only
  with_reducible repeat' first | assumption | apply State.log__frame (hw.mono (by decide)) | refine Frame.foldl ?_ (fun s a h => ?_) | split

theorem State.freeze_frame (hw : Within 0x20003c000 ω) {r s : State} {closed} (h : Frame ω r s) : Frame ω r (State.freeze s closed) := by
  unfold State.freeze
  try dsimp only
  with_reducible repeat' first | assumption | apply State.logMethod_frame (hw.mono (by decide)) | apply State.cleanEnt_frame (hw.mono (by decide)) | refine Frame.foldl ?_ (fun s a h => ?_) | simp only [Frame.set_tide_snap (hw.mono (by decide))] | split

theorem State.sendDelta_frame (hw : Within 0x400000000 ω) {r s : State} {b} {new} (h : Frame ω r s) : Frame ω r (State.sendDelta s b new) := by
  unfold State.sendDelta
  try dsimp only
  with_reducible repeat' first | assumption | apply State.emit_frame (hw.mono (by decide)) | refine Frame.foldl ?_ (fun s a h => ?_) | split

theorem State.sendCopy_frame (hw : Within 0x400000000 ω) {r s : State} {c} (h : Frame ω r s) : Frame ω r (State.sendCopy s c) := by
  unfold State.sendCopy
  try dsimp only
  with_reducible repeat' first | assumption | apply State.emit_frame (hw.mono (by decide)) | apply State.sendDelta_frame (hw.mono (by decide)) | refine Frame.foldl ?_ (fun s a h => ?_) | split

theorem State.startTransfer_frame (hw : Within 0x600000000 ω) {r s : State}  (h : Frame ω r s) : Frame ω r (State.startTransfer s) := by
  unfold State.startTransfer
  try dsimp only
  with_reducible repeat' first | assumption | apply State.emit_frame (hw.mono (by decide)) | apply State.sendCopy_frame (hw.mono (by decide)) | refine Frame.foldl ?_ (fun s a h => ?_) | simp only [Frame.set_snap (hw.mono (by decide))] | split

theorem State.commit_frame (hw : Within 0x600018040 ω) {r s : State}  (h : Frame ω r s) : Frame ω r (State.commit s) := by
  unfold State.commit
  try dsimp only
  with_reducible repeat' first | assumption | apply State.startTransfer_frame (hw.mono (by decide)) | apply State.count_frame (hw.mono (by decide)) | apply State.orReg_frame (hw.mono (by decide)) | apply State.setReg_frame (hw.mono (by decide)) | apply State.snapEntry_frame (hw.mono (by decide)) | refine Frame.foldl ?_ (fun s a h => ?_) | simp only [Frame.set_snap (hw.mono (by decide))] | split

theorem State.masterCommit_frame (hw : Within 0x1606578040 ω) {r s : State}  (h : Frame ω r s) : Frame ω r (State.masterCommit s) := by
  unfold State.masterCommit
  try dsimp only
  with_reducible repeat' first | assumption | apply State.startTransfer_frame (hw.mono (by decide)) | apply State.commit_frame (hw.mono (by decide)) | apply State.broadcast_frame (hw.mono (by decide)) | refine Frame.foldl ?_ (fun s a h => ?_) | split

theorem State.noteDone_frame (hw : Within 0x200000000 ω) {r s : State} {dev} (h : Frame ω r s) : Frame ω r (State.noteDone s dev) := by
  unfold State.noteDone
  try dsimp only
  with_reducible repeat' first | assumption | refine Frame.foldl ?_ (fun s a h => ?_) | simp only [Frame.set_snap (hw.mono (by decide))] | split

theorem State.transferDone_frame (hw : Within 0x1606578040 ω) {r s : State}  (h : Frame ω r s) : Frame ω r (State.transferDone s) := by
  unfold State.transferDone
  try dsimp only
  with_reducible repeat' first | assumption | apply State.startTransfer_frame (hw.mono (by decide)) | apply State.masterCommit_frame (hw.mono (by decide)) | apply State.noteDone_frame (hw.mono (by decide)) | apply State.originate_frame (hw.mono (by decide)) | refine Frame.foldl ?_ (fun s a h => ?_) | split

theorem State.checkTree_frame (hw : Within 0x1606578040 ω) {r s : State}  (h : Frame ω r s) : Frame ω r (State.checkTree s) := by
  unfold State.checkTree
  try dsimp only
  with_reducible repeat' first | assumption | apply State.checkRoute_frame (hw.mono (by decide)) | apply State.checkId_frame (hw.mono (by decide)) | refine Frame.foldl ?_ (fun s a h => ?_) | split

theorem State.snapFails_frame (hw : Within 0x1606578040 ω) {r s : State}  (h : Frame ω r s) : Frame ω r (State.snapFails s) := by
  unfold State.snapFails
  try dsimp only
  with_reducible repeat' first | assumption | apply State.startTransfer_frame (hw.mono (by decide)) | apply State.originate_frame (hw.mono (by decide)) | apply State.masterAbort_frame (hw.mono (by decide)) | apply State.checkTree_frame (hw.mono (by decide)) | refine Frame.foldl ?_ (fun s a h => ?_) | split

theorem cmdSnapConfig_framed (hw : Within 0x200001040 ω) : cmdSnapConfig.Framed ω := by
  intro r s q h
  dsimp only [cmdSnapConfig]
  with_reducible repeat' first | assumption | apply State.setReg_frame (hw.mono (by decide)) | apply State.basic_frame (hw.mono (by decide)) | apply State.setReg_frame (hw.mono (by decide)) | apply State.basic_frame (hw.mono (by decide)) | refine Frame.foldl ?_ (fun s a h => ?_) | simp only [Frame.set_snap (hw.mono (by decide))] | split

theorem cmdSnapInterval_framed (hw : Within 0x1040 ω) : cmdSnapInterval.Framed ω := by
  intro r s q h
  dsimp only [cmdSnapInterval]
  with_reducible repeat' first | assumption | apply State.basic_frame (hw.mono (by decide)) | apply State.setReg_frame (hw.mono (by decide)) | apply State.basic_frame (hw.mono (by decide)) | apply State.setReg_frame (hw.mono (by decide)) | refine Frame.foldl ?_ (fun s a h => ?_) | split

theorem cmdSnapNow_framed (hw : Within 0x1606578040 ω) : cmdSnapNow.Framed ω := by
  intro r s q h
  dsimp only [cmdSnapNow]
  with_reducible repeat' first | assumption | apply State.snapRequest_frame (hw.mono (by decide)) | apply State.snapRequest_frame (hw.mono (by decide)) | refine Frame.foldl ?_ (fun s a h => ?_) | split

theorem cmdSnapPolicy_framed (hw : Within 0x1040 ω) : cmdSnapPolicy.Framed ω := by
  intro r s q h
  dsimp only [cmdSnapPolicy]
  with_reducible repeat' first | assumption | apply State.basic_frame (hw.mono (by decide)) | apply State.setReg_frame (hw.mono (by decide)) | apply State.basic_frame (hw.mono (by decide)) | apply State.setReg_frame (hw.mono (by decide)) | refine Frame.foldl ?_ (fun s a h => ?_) | split

theorem cmdSnapStatus_framed  : cmdSnapStatus.Framed ω := by
  intro r s q h
  dsimp only [cmdSnapStatus]
  with_reducible repeat' first | assumption | refine Frame.foldl ?_ (fun s a h => ?_) | split

theorem execSnapConfig_frame (hw : Within 0x200009040 ω) {r s : State} {a0} (h : Frame ω r s) : FrameO ω r (execSnapConfig a0 s) := by
  unfold execSnapConfig
  try dsimp only
  with_reducible repeat' first | assumption | apply FrameO.next | apply Cmd.serve_frame (hw.mono (by decide)) (cmdSnapConfig_framed (hw.mono (by decide))) | refine Frame.foldl ?_ (fun s a h => ?_) | split

theorem execSnapPolicy_frame (hw : Within 0x9040 ω) {r s : State} {a0} (h : Frame ω r s) : FrameO ω r (execSnapPolicy a0 s) := by
  unfold execSnapPolicy
  try dsimp only
  with_reducible repeat' first | assumption | apply FrameO.next | apply Cmd.serve_frame (hw.mono (by decide)) (cmdSnapPolicy_framed (hw.mono (by decide))) | refine Frame.foldl ?_ (fun s a h => ?_) | split

theorem execSnapInterval_frame (hw : Within 0x9040 ω) {r s : State} {a0} (h : Frame ω r s) : FrameO ω r (execSnapInterval a0 s) := by
  unfold execSnapInterval
  try dsimp only
  with_reducible repeat' first | assumption | apply FrameO.next | apply Cmd.serve_frame (hw.mono (by decide)) (cmdSnapInterval_framed (hw.mono (by decide))) | refine Frame.foldl ?_ (fun s a h => ?_) | split

theorem execSnapNow_frame (hw : Within 0x1606578040 ω) {r s : State} {a0} (h : Frame ω r s) : FrameO ω r (execSnapNow a0 s) := by
  unfold execSnapNow
  try dsimp only
  with_reducible repeat' first | assumption | apply FrameO.next | apply Cmd.serve_frame (hw.mono (by decide)) (cmdSnapNow_framed (hw.mono (by decide))) | refine Frame.foldl ?_ (fun s a h => ?_) | split

theorem execSnapStatus_frame (hw : Within 0x8000 ω) {r s : State} {a0} (h : Frame ω r s) : FrameO ω r (execSnapStatus a0 s) := by
  unfold execSnapStatus
  try dsimp only
  with_reducible repeat' first | assumption | apply FrameO.next | apply Cmd.serve_frame (hw.mono (by decide)) (cmdSnapStatus_framed) | refine Frame.foldl ?_ (fun s a h => ?_) | split

theorem execSnapIntervalExpire_frame (hw : Within 0x200000000 ω) {r s : State}  (h : Frame ω r s) : FrameO ω r (execSnapIntervalExpire s) := by
  unfold execSnapIntervalExpire
  try dsimp only
  with_reducible repeat' first | assumption | apply FrameO.next | refine Frame.foldl ?_ (fun s a h => ?_) | simp only [Frame.set_snap (hw.mono (by decide))] | split

theorem execSnapReq_frame (hw : Within 0x1606578040 ω) {r s : State} {l} {resent} {p} (h : Frame ω r s) : FrameO ω r (execSnapReq l resent p s) := by
  unfold execSnapReq
  try dsimp only
  with_reducible repeat' first | assumption | apply FrameO.next | refine State.arrive_frame (hw.mono (by decide)) (fun s p h => ?_) ?_ | apply State.addRequest_frame (hw.mono (by decide)) | apply State.relay_frame (hw.mono (by decide)) | refine Frame.foldl ?_ (fun s a h => ?_) | split

theorem execSnapTransferDone_frame (hw : Within 0x1606578040 ω) {r s : State}  (h : Frame ω r s) : FrameO ω r (execSnapTransferDone s) := by
  unfold execSnapTransferDone
  try dsimp only
  with_reducible repeat' first | assumption | apply FrameO.next | apply State.transferDone_frame (hw.mono (by decide)) | refine Frame.foldl ?_ (fun s a h => ?_) | split

theorem execSnapDone_frame (hw : Within 0x1606578040 ω) {r s : State} {l} {resent} {p} (h : Frame ω r s) : FrameO ω r (execSnapDone l resent p s) := by
  unfold execSnapDone
  try dsimp only
  with_reducible repeat' first | assumption | apply FrameO.next | refine State.arrive_frame (hw.mono (by decide)) (fun s p h => ?_) ?_ | apply State.noteDone_frame (hw.mono (by decide)) | apply State.masterCommit_frame (hw.mono (by decide)) | refine Frame.foldl ?_ (fun s a h => ?_) | split

theorem execSnapCommit_frame (hw : Within 0x1606578040 ω) {r s : State} {l} {resent} {p} (h : Frame ω r s) : FrameO ω r (execSnapCommit l resent p s) := by
  unfold execSnapCommit
  try dsimp only
  with_reducible repeat' first | assumption | apply FrameO.next | refine State.arrive_frame (hw.mono (by decide)) (fun s p h => ?_) ?_ | apply State.relay_frame (hw.mono (by decide)) | apply State.commit_frame (hw.mono (by decide)) | refine Frame.foldl ?_ (fun s a h => ?_) | split

theorem execSnapFail_frame (hw : Within 0x1606578040 ω) {r s : State} {l} {resent} {p} (h : Frame ω r s) : FrameO ω r (execSnapFail l resent p s) := by
  unfold execSnapFail
  try dsimp only
  with_reducible repeat' first | assumption | apply FrameO.next | refine State.arrive_frame (hw.mono (by decide)) (fun s p h => ?_) ?_ | apply State.masterAbort_frame (hw.mono (by decide)) | apply State.checkTree_frame (hw.mono (by decide)) | refine Frame.foldl ?_ (fun s a h => ?_) | split

theorem execSnapAbort_frame (hw : Within 0x1606578040 ω) {r s : State} {l} {resent} {p} (h : Frame ω r s) : FrameO ω r (execSnapAbort l resent p s) := by
  unfold execSnapAbort
  try dsimp only
  with_reducible repeat' first | assumption | apply FrameO.next | refine State.arrive_frame (hw.mono (by decide)) (fun s p h => ?_) ?_ | apply State.relay_frame (hw.mono (by decide)) | apply State.abandon_frame (hw.mono (by decide)) | refine Frame.foldl ?_ (fun s a h => ?_) | split

end Sys2Proof.Machine
end

