-- ==== Sys2Proof/Laws/Replay.lean ====
section
/-!
SUPPORT. Frames of the operations of Machine/Replay.lean (Laws/Frame.lean says what a frame is).
-/
namespace Sys2Proof.Machine

variable {ω : Nat}

theorem State.keepOpening_frame (hw : Within 0x80000000 ω) {r s : State}  (h : Frame ω r s) : Frame ω r (State.keepOpening s) := by
  unfold State.keepOpening
  try dsimp only
  with_reducible repeat' first | assumption | refine Frame.foldl ?_ (fun s a h => ?_) | simp only [Frame.set_opening (hw.mono (by decide))] | split

theorem State.reopen_frame (hw : Within 0x75000040 ω) {r s : State}  (h : Frame ω r s) : Frame ω r (State.reopen s) := by
  unfold State.reopen
  try dsimp only
  with_reducible repeat' first | assumption | apply State.setReg_frame (hw.mono (by decide)) | apply State.countChunks_frame (hw.mono (by decide)) | refine Frame.foldl ?_ (fun s a h => ?_) | simp only [Frame.set_evts_cores_shelf_upd_bkt (hw.mono (by decide))] | split

theorem State.countFlush_frame (hw : Within 0x40 ω) {r s : State}  (h : Frame ω r s) : Frame ω r (State.countFlush s) := by
  unfold State.countFlush
  try dsimp only
  with_reducible repeat' first | assumption | apply State.count_frame (hw.mono (by decide)) | refine Frame.foldl ?_ (fun s a h => ?_) | split

theorem State.flushTide_frame (hw : Within 0x2800040 ω) {r s : State} (h : Frame ω r s) : Frame ω r s.flushTide := by
  have k := State.countFlush_frame (hw.mono (by decide)) (State.cancelRunAheads_frame (hw.mono (by decide)) (p := fun _ => true) h)
  unfold State.flushTide
  dsimp only
  generalize (s.cancelRunAheads (fun _ => true)).countFlush = e at k ⊢
  exact Frame.of k (regs := fun w => by dsimp only; exact Sparse.dropKeys_wf _ _ _ w)

theorem State.replayStart_frame (hw : Within 0x1677d78040 ω) {r s : State}  (h : Frame ω r s) : Frame ω r (State.replayStart s) := by
  unfold State.replayStart
  try dsimp only
  with_reducible repeat' first | assumption | apply State.reopen_frame (hw.mono (by decide)) | apply State.flushTide_frame (hw.mono (by decide)) | apply State.lateHold_frame (hw.mono (by decide)) | refine Frame.foldl ?_ (fun s a h => ?_) | split

theorem State.replay_frame (hw : Within 0x1677d78040 ω) {r s : State}  (h : Frame ω r s) : Frame ω r (State.replay s) := by
  unfold State.replay
  try dsimp only
  with_reducible repeat' first | assumption | apply State.replayStart_frame (hw.mono (by decide)) | apply State.count_frame (hw.mono (by decide)) | apply State.orReg_frame (hw.mono (by decide)) | refine Frame.foldl ?_ (fun s a h => ?_) | simp only [Frame.set_tide (hw.mono (by decide))] | split

theorem State.orderSpare_frame (hw : Within 0x1800018040 ω) {r s : State} {core} (h : Frame ω r s) : Frame ω r (State.orderSpare s core) := by
  unfold State.orderSpare
  try dsimp only
  with_reducible repeat' first | assumption | apply State.draw_frame1 (hw.mono (by decide)) | apply State.bayOutcome_frame (hw.mono (by decide)) | apply State.schedule_frame (hw.mono (by decide)) | (refine State.draw_frame (hw.mono (by decide)) (by assumption) ?_) | refine Frame.foldl ?_ (fun s a h => ?_) | split

theorem State.coreFault_frame (hw : Within 0x1e77d78044 ω) {r s : State} {core} {ue} (h : Frame ω r s) : Frame ω r (State.coreFault s core ue) := by
  unfold State.coreFault
  try dsimp only
  with_reducible repeat' first | assumption | apply State.restart_frame (hw.mono (by decide)) | apply State.orderSpare_frame (hw.mono (by decide)) | apply State.replayStart_frame (hw.mono (by decide)) | apply State.threadSpare_frame (hw.mono (by decide)) | apply State.replay_frame (hw.mono (by decide)) | refine Frame.foldl ?_ (fun s a h => ?_) | simp only [Frame.set_tide (hw.mono (by decide))] | split

theorem execCoreFault_frame (hw : Within 0x1e77d78044 ω) {r s : State} {core} {ue} (h : Frame ω r s) : FrameO ω r (execCoreFault core ue s) := by
  unfold execCoreFault
  try dsimp only
  with_reducible repeat' first | assumption | apply FrameO.next | apply State.coreFault_frame (hw.mono (by decide)) | refine Frame.foldl ?_ (fun s a h => ?_) | split

theorem State.hang_frame (hw : Within 0x1e77d78044 ω) {r s : State} {a1} {ue} (h : Frame ω r s) : Frame ω r (State.hang s a1 ue) := by
  unfold State.hang
  try dsimp only
  with_reducible repeat' first | assumption | apply State.logCore_frame (hw.mono (by decide)) | apply State.orReg_frame (hw.mono (by decide)) | apply State.coreFault_frame (hw.mono (by decide)) | refine Frame.foldl ?_ (fun s a h => ?_) | simp only [Frame.set_tide (hw.mono (by decide))] | split

theorem execTideHang_frame (hw : Within 0x1e77d78044 ω) {r s : State} {ue} (h : Frame ω r s) : FrameO ω r (execTideHang ue s) := by
  unfold execTideHang
  try dsimp only
  with_reducible repeat' first | assumption | apply FrameO.next | apply State.hang_frame (hw.mono (by decide)) | refine Frame.foldl ?_ (fun s a h => ?_) | split

theorem State.storeUe_frame (hw : Within 0x1606578040 ω) {r s : State}  (h : Frame ω r s) : Frame ω r (State.storeUe s) := by
  unfold State.storeUe
  try dsimp only
  with_reducible repeat' first | assumption | apply State.orReg_frame (hw.mono (by decide)) | apply State.snapFails_frame (hw.mono (by decide)) | refine Frame.foldl ?_ (fun s a h => ?_) | simp only [Frame.set_snap (hw.mono (by decide))] | split

theorem State.ueHandle_frame (hw : Within 0x1777d7e040 ω) {r s : State} {core} {a} (h : Frame ω r s) : Frame ω r (State.ueHandle s core a) := by
  unfold State.ueHandle
  try dsimp only
  with_reducible repeat' first | assumption | apply State.storeUe_frame (hw.mono (by decide)) | apply State.log__frame (hw.mono (by decide)) | apply State.store_frame (hw.mono (by decide)) | apply State.restart_frame (hw.mono (by decide)) | apply State.replay_frame (hw.mono (by decide)) | refine Frame.foldl ?_ (fun s a h => ?_) | split

theorem State.meetRead_frame (hw : Within 0x1777d7e044 ω) {r s : State} {a} {n} (h : Frame ω r s) : Frame ω r (State.meetRead s a n) := by
  unfold State.meetRead
  try dsimp only
  with_reducible repeat' first | assumption | apply State.correctable_frame (hw.mono (by decide)) | apply State.ueHandle_frame (hw.mono (by decide)) | apply State.recordUe_frame (hw.mono (by decide)) | refine Frame.foldl ?_ (fun s a h => ?_) | split

end Sys2Proof.Machine
end

