-- ==== Sys2Proof/Laws/Bucket.lean ====
section
/-!
SUPPORT. Frames of the operations of Machine/Bucket.lean (Laws/Frame.lean says what a frame is).
-/
namespace Sys2Proof.Machine

variable {ω : Nat}

theorem State.bktErrAt_frame (hw : Within 0x1606d78040 ω) {r s : State} {l} {d} {code} (h : Frame ω r s) : Frame ω r (State.bktErrAt s l d code) := by
  unfold State.bktErrAt
  try dsimp only
  with_reducible repeat' first | assumption | apply State.bktError_frame (hw.mono (by decide)) | apply State.issue_frame (hw.mono (by decide)) | refine Frame.foldl ?_ (fun s a h => ?_) | split

theorem State.bktDo_frame (hw : Within 0x2800040 ω) {r s : State} {l} {act : State → State} (hf : ∀ s, Frame ω r s → Frame ω r (act s)) (h : Frame ω r s) : Frame ω r (s.bktDo l act) :=
  State.drain_frame (hw.mono (by decide)) (hf _ (State.issue_frame (hw.mono (by decide)) h))

theorem State.openBucket_frame (hw : Within 0x40000040 ω) {r s : State} {core} {d} (h : Frame ω r s) : Frame ω r (State.openBucket s core d) := by
  unfold State.openBucket
  try dsimp only
  with_reducible repeat' first | assumption | apply State.setBucket_frame (hw.mono (by decide)) | apply State.setBucketFlag_frame (hw.mono (by decide)) | apply State.setBucketState_frame (hw.mono (by decide)) | refine Frame.foldl ?_ (fun s a h => ?_) | split

theorem execBktOpen_frame (hw : Within 0x1646d78040 ω) {r s : State} {core} {list} (h : Frame ω r s) : FrameO ω r (execBktOpen core list s) := by
  unfold execBktOpen
  try dsimp only
  with_reducible repeat' first | assumption | apply FrameO.next | apply State.descFault_frame (hw.mono (by decide)) | apply State.bktErrAt_frame (hw.mono (by decide)) | apply State.restart_frame (hw.mono (by decide)) | apply State.issue_frame (hw.mono (by decide)) | refine State.bktDo_frame (hw.mono (by decide)) (fun s h => ?_) ?_ | apply State.openBucket_frame (hw.mono (by decide)) | refine Frame.foldl ?_ (fun s a h => ?_) | split

theorem execBktContrib_frame (hw : Within 0x1646d78040 ω) {r s : State} {core} {list} (h : Frame ω r s) : FrameO ω r (execBktContrib core list s) := by
  unfold execBktContrib
  try dsimp only
  with_reducible repeat' first | assumption | apply FrameO.next | apply execBktOpen_frame (hw.mono (by decide)) | apply State.descFault_frame (hw.mono (by decide)) | apply State.bktErrAt_frame (hw.mono (by decide)) | refine State.bktDo_frame (hw.mono (by decide)) (fun s h => ?_) ?_ | apply State.setBucket_frame (hw.mono (by decide)) | refine Frame.foldl ?_ (fun s a h => ?_) | split

theorem State.bucketDone_frame (hw : Within 0x1606578040 ω) {r s : State} {b} {flag} (h : Frame ω r s) : Frame ω r (State.bucketDone s b flag) := by
  unfold State.bucketDone
  try dsimp only
  with_reducible repeat' first | assumption | apply State.count_frame (hw.mono (by decide)) | apply State.setBucketFlag_frame (hw.mono (by decide)) | apply State.setBucketState_frame (hw.mono (by decide)) | apply State.orReg_frame (hw.mono (by decide)) | apply State.bktError_frame (hw.mono (by decide)) | refine Frame.foldl ?_ (fun s a h => ?_) | split

theorem execBucketLaunch_frame (hw : Within 0x1646578040 ω) {r s : State} {b} (h : Frame ω r s) : FrameO ω r (execBucketLaunch b s) := by
  unfold execBucketLaunch
  try dsimp only
  with_reducible repeat' first | assumption | apply FrameO.next | apply State.setBucketState_frame (hw.mono (by decide)) | apply State.setBucket_frame (hw.mono (by decide)) | apply State.bktError_frame (hw.mono (by decide)) | apply State.bucketDone_frame (hw.mono (by decide)) | refine Frame.foldl ?_ (fun s a h => ?_) | split

theorem State.writeBucket_frame (hw : Within 0x100006000 ω) {r s : State} {a1} {off} {bs} (h : Frame ω r s) : Frame ω r (State.writeBucket s a1 off bs) := by
  unfold State.writeBucket
  try dsimp only
  with_reducible repeat' first | assumption | apply State.store_frame (hw.mono (by decide)) | refine Frame.foldl ?_ (fun s a h => ?_) | split

theorem State.setRed_frame (hw : Within 0x40000000 ω) {r s : State} {a1} (h : Frame ω r s) : Frame ω r (State.setRed s a1) := by
  unfold State.setRed
  try dsimp only
  with_reducible repeat' first | assumption | refine Frame.foldl ?_ (fun s a h => ?_) | simp only [Frame.set_bkt (hw.mono (by decide))] | split

theorem State.addCredits_frame (hw : Within 0x40000000 ω) {r s : State} {step} {b} {i} {ringB} {n} (h : Frame ω r s) : Frame ω r (State.addCredits s step b i ringB n) := by
  unfold State.addCredits
  try dsimp only
  with_reducible repeat' first | assumption | refine Frame.foldl ?_ (fun s a h => ?_) | simp only [Frame.set_bkt (hw.mono (by decide))] | split

theorem State.takeCredit_frame (hw : Within 0x40000000 ω) {r s : State} {b} {i} {ringB} (h : Frame ω r s) : Frame ω r (State.takeCredit s b i ringB) := by
  unfold State.takeCredit
  try dsimp only
  with_reducible repeat' first | assumption | refine Frame.foldl ?_ (fun s a h => ?_) | simp only [Frame.set_bkt (hw.mono (by decide))] | split

theorem State.grant_frame (hw : Within 0x1606578040 ω) {r s : State} {b} {i} {ringB} {n} (h : Frame ω r s) : Frame ω r (State.grant s b i ringB n) := by
  unfold State.grant
  try dsimp only
  with_reducible repeat' first | assumption | apply State.originate_frame (hw.mono (by decide)) | refine Frame.foldl ?_ (fun s a h => ?_) | split

theorem State.sendPiece_frame (hw : Within 0x1777d7e044 ω) {r s : State} {a1} {o} (h : Frame ω r s) : Frame ω r (State.sendPiece s a1 o) := by
  unfold State.sendPiece
  try dsimp only
  with_reducible repeat' first | assumption | apply State.meetRead_frame (hw.mono (by decide)) | apply State.originate_frame (hw.mono (by decide)) | apply State.count_frame (hw.mono (by decide)) | apply State.grant_frame (hw.mono (by decide)) | refine Frame.foldl ?_ (fun s a h => ?_) | split

theorem State.sendPieces_frame (hw : Within 0x1777d7e044 ω) {n : Nat} {b} {i} {ringB} {r s : State} (h : Frame ω r s) : Frame ω r (s.sendPieces b i ringB n) := by
  induction n generalizing s with
  | zero => exact h
  | succ n ih =>
    unfold State.sendPieces
    try dsimp only
    with_reducible repeat' first | assumption | apply State.checkId_frame (hw.mono (by decide)) | apply ih | apply State.sendPiece_frame (hw.mono (by decide)) | apply State.setRed_frame (hw.mono (by decide)) | apply State.takeCredit_frame (hw.mono (by decide)) | refine Frame.foldl ?_ (fun s a h => ?_) | split

theorem State.handle_frame (hw : Within 0x1777d7e044 ω) {r s : State} {a1} {ps} {i} {p} {j} {k} {data} (h : Frame ω r s) : Frame ω r (State.handle s a1 ps i p j k data) := by
  unfold State.handle
  try dsimp only
  with_reducible repeat' first | assumption | apply State.meetRead_frame (hw.mono (by decide)) | apply State.count_frame (hw.mono (by decide)) | apply State.writeBucket_frame (hw.mono (by decide)) | apply State.setRed_frame (hw.mono (by decide)) | apply State.grant_frame (hw.mono (by decide)) | refine Frame.foldl ?_ (fun s a h => ?_) | split

theorem State.handleAll_frame (hw : Within 0x1777d7e044 ω) {n : Nat} {b} {i} {r s : State} (h : Frame ω r s) : Frame ω r (s.handleAll b i n) := by
  induction n generalizing s with
  | zero => exact h
  | succ n ih =>
    unfold State.handleAll
    try dsimp only
    with_reducible repeat' first | assumption | apply ih | apply State.handle_frame (hw.mono (by decide)) | apply State.setRed_frame (hw.mono (by decide)) | refine Frame.foldl ?_ (fun s a h => ?_) | split

theorem State.scratch_frame (hw : Within 0x1100006000 ω) {r s : State} {core} {rx} {work} (h : Frame ω r s) : Frame ω r (State.scratch s core rx work) := by
  unfold State.scratch
  try dsimp only
  with_reducible repeat' first | assumption | apply State.drawBytes_frame1 (hw.mono (by decide)) | apply State.store_frame (hw.mono (by decide)) | (refine State.drawBytes_frame (hw.mono (by decide)) (by assumption) ?_) | refine Frame.foldl ?_ (fun s a h => ?_) | split

theorem State.redEnd_frame (hw : Within 0x1777d7e044 ω) {r s : State} {b} {i} (h : Frame ω r s) : Frame ω r (State.redEnd s b i) := by
  unfold State.redEnd
  try dsimp only
  with_reducible repeat' first | assumption | apply State.sendPieces_frame (hw.mono (by decide)) | apply State.drain_frame (hw.mono (by decide)) | apply State.scratch_frame (hw.mono (by decide)) | apply State.setBucket_frame (hw.mono (by decide)) | apply State.bucketDone_frame (hw.mono (by decide)) | refine Frame.foldl ?_ (fun s a h => ?_) | simp only [Frame.set_bkt (hw.mono (by decide))] | split

theorem State.redGo_frame (hw : Within 0x1777d7e044 ω) {r s : State} {b} {i} (h : Frame ω r s) : Frame ω r (State.redGo s b i) := by
  unfold State.redGo
  try dsimp only
  with_reducible repeat' first | assumption | apply State.sendPieces_frame (hw.mono (by decide)) | apply State.handleAll_frame (hw.mono (by decide)) | apply State.redEnd_frame (hw.mono (by decide)) | apply State.sendPieces_frame (hw.mono (by decide)) | refine Frame.foldl ?_ (fun s a h => ?_) | split

theorem State.startReducer_frame (hw : Within 0x1777d7e044 ω) {r s : State} {own} {d} (h : Frame ω r s) : Frame ω r (State.startReducer s own d) := by
  unfold State.startReducer
  try dsimp only
  with_reducible repeat' first | assumption | apply State.scratch_frame (hw.mono (by decide)) | apply State.grant_frame (hw.mono (by decide)) | apply State.redGo_frame (hw.mono (by decide)) | refine Frame.foldl ?_ (fun s a h => ?_) | simp only [Frame.set_bkt (hw.mono (by decide))] | split

theorem execBktReduce_frame (hw : Within 0x1777d7e044 ω) {r s : State} {core} {list} (h : Frame ω r s) : FrameO ω r (execBktReduce core list s) := by
  unfold execBktReduce
  try dsimp only
  with_reducible repeat' first | assumption | apply FrameO.next | apply execBktOpen_frame (hw.mono (by decide)) | apply State.descFault_frame (hw.mono (by decide)) | apply State.bktErrAt_frame (hw.mono (by decide)) | apply State.startReducer_frame (hw.mono (by decide)) | apply State.issue_frame (hw.mono (by decide)) | refine Frame.foldl ?_ (fun s a h => ?_) | split

theorem State.setGate_frame (hw : Within 0x40000040 ω) {r s : State}  (h : Frame ω r s) : Frame ω r (State.setGate s) := by
  unfold State.setGate
  try dsimp only
  with_reducible repeat' first | assumption | apply State.orReg_frame (hw.mono (by decide)) | apply State.setField_frame (hw.mono (by decide)) | refine Frame.foldl ?_ (fun s a h => ?_) | simp only [Frame.set_bkt (hw.mono (by decide))] | split

theorem execDecideGate_frame (hw : Within 0x1646d78040 ω) {r s : State} {core} {list} (h : Frame ω r s) : FrameO ω r (execDecideGate core list s) := by
  unfold execDecideGate
  try dsimp only
  with_reducible repeat' first | assumption | apply FrameO.next | apply execBktOpen_frame (hw.mono (by decide)) | apply State.descFault_frame (hw.mono (by decide)) | apply State.bktErrAt_frame (hw.mono (by decide)) | refine State.bktDo_frame (hw.mono (by decide)) (fun s h => ?_) ?_ | apply State.setGate_frame (hw.mono (by decide)) | refine Frame.foldl ?_ (fun s a h => ?_) | split

theorem State.takePiece_frame (hw : Within 0x1777d7e044 ω) {r s : State} {p} (h : Frame ω r s) : Frame ω r (State.takePiece s p) := by
  unfold State.takePiece
  try dsimp only
  with_reducible repeat' first | assumption | apply State.count_frame (hw.mono (by decide)) | apply State.bktError_frame (hw.mono (by decide)) | apply State.redGo_frame (hw.mono (by decide)) | apply State.setRed_frame (hw.mono (by decide)) | refine Frame.foldl ?_ (fun s a h => ?_) | split

theorem execPiece_frame (hw : Within 0x1777d7e044 ω) {r s : State} {l} {resent} {p} (h : Frame ω r s) : FrameO ω r (execPiece l resent p s) := by
  unfold execPiece
  try dsimp only
  with_reducible repeat' first | assumption | apply FrameO.next | refine State.arrive_frame (hw.mono (by decide)) (fun s p h => ?_) ?_ | apply State.takePiece_frame (hw.mono (by decide)) | refine Frame.foldl ?_ (fun s a h => ?_) | split

theorem State.takeCredits_frame (hw : Within 0x1777d7e044 ω) {r s : State} {cycles} {p} (h : Frame ω r s) : Frame ω r (State.takeCredits s cycles p) := by
  unfold State.takeCredits
  try dsimp only
  with_reducible repeat' first | assumption | apply State.count_frame (hw.mono (by decide)) | apply State.redGo_frame (hw.mono (by decide)) | apply State.addCredits_frame (hw.mono (by decide)) | refine Frame.foldl ?_ (fun s a h => ?_) | split

theorem execPieceCredit_frame (hw : Within 0x1777d7e044 ω) {r s : State} {l} {resent} {p} {cycles} (h : Frame ω r s) : FrameO ω r (execPieceCredit l resent p cycles s) := by
  unfold execPieceCredit
  try dsimp only
  with_reducible repeat' first | assumption | apply FrameO.next | refine State.arrive_frame (hw.mono (by decide)) (fun s p h => ?_) ?_ | apply State.takeCredits_frame (hw.mono (by decide)) | refine Frame.foldl ?_ (fun s a h => ?_) | split

theorem State.resetBuckets_frame (hw : Within 0x1646578040 ω) {r s : State} {newStep} (h : Frame ω r s) : Frame ω r (State.resetBuckets s newStep) := by
  unfold State.resetBuckets
  try dsimp only
  with_reducible repeat' first | assumption | apply State.bktError_frame (hw.mono (by decide)) | apply State.setReg_frame (hw.mono (by decide)) | refine Frame.foldl ?_ (fun s a h => ?_) | simp only [Frame.set_bkt (hw.mono (by decide))] | split

end Sys2Proof.Machine
end

