-- ==== Sys2Proof/Laws/Restore.lean ====
section
/-!
SUPPORT. Frames of the operations of Machine/Restore.lean (Laws/Frame.lean says what a frame is).
-/
namespace Sys2Proof.Machine

variable {ω : Nat}

theorem State.fill_frame (hw : Within 0x100006000 ω) {r s : State} {base len cells} (h : Frame ω r s) : Frame ω r (s.fill base len cells) := by
  apply State.markDirty_frame (hw.mono (by decide))
  apply State.freshCheck_frame (hw.mono (by decide))
  refine Frame.of h (mem := fun w => ?_)
  refine foldl_keeps (P := fun m => Memory.wf m = true) (fun m c w => ?_) (Memory.dropKeys_wf s.mem _ w)
  split
  · exact Memory.put_wf m _ _ w
  · exact w

theorem State.restoreEnt_frame (hw : Within 0x100006000 ω) {r s : State} {c} (h : Frame ω r s) : Frame ω r (State.restoreEnt s c) := by
  unfold State.restoreEnt
  try dsimp only
  with_reducible repeat' first | assumption | apply State.fill_frame (hw.mono (by decide)) | refine Frame.foldl ?_ (fun s a h => ?_) | split

theorem State.restoreMap_frame (hw : Within 0x1100006000 ω) {r s : State} {a1} (h : Frame ω r s) : Frame ω r (State.restoreMap s a1) := by
  unfold State.restoreMap
  try dsimp only
  with_reducible repeat' first | assumption | apply State.drawBytes_frame1 (hw.mono (by decide)) | apply State.store_frame (hw.mono (by decide)) | (refine State.drawBytes_frame (hw.mono (by decide)) (by assumption) ?_) | refine Frame.foldl ?_ (fun s a h => ?_) | split

theorem State.clearUnits_frame (hw : Within 0x50000040 ω) {r s : State}  (h : Frame ω r s) : Frame ω r (State.clearUnits s) := by
  unfold State.clearUnits
  try dsimp only
  with_reducible repeat' first | assumption | apply State.setReg_frame (hw.mono (by decide)) | apply State.countChunks_frame (hw.mono (by decide)) | refine Frame.foldl ?_ (fun s a h => ?_) | simp only [Frame.set_shelf_bkt (hw.mono (by decide))] | split

theorem State.skew_frame (hw : Within 0x18040 ω) {r s : State} {a1} (h : Frame ω r s) : Frame ω r (State.skew s a1) := by
  unfold State.skew
  try dsimp only
  with_reducible repeat' first | assumption | apply State.log__frame (hw.mono (by decide)) | apply State.count_frame (hw.mono (by decide)) | apply State.orReg_frame (hw.mono (by decide)) | refine Frame.foldl ?_ (fun s a h => ?_) | split

theorem State.restoreJob_frame (hw : Within 0x32c11e040 ω) {r s : State} {b} (h : Frame ω r s) : Frame ω r (State.restoreJob s b) := by
  unfold State.restoreJob
  try dsimp only
  with_reducible repeat' first | assumption | apply State.store_frame (hw.mono (by decide)) | apply State.countJit_frame (hw.mono (by decide)) | apply State.skew_frame (hw.mono (by decide)) | apply State.setField_frame (hw.mono (by decide)) | refine Frame.foldl ?_ (fun s a h => ?_) | simp only [Frame.set_job_cores_nums_upd_snap (hw.mono (by decide))] | split

theorem State.restoreApply_frame (hw : Within 0x137c11e040 ω) {r s : State}  (h : Frame ω r s) : Frame ω r (State.restoreApply s) := by
  unfold State.restoreApply
  try dsimp only
  with_reducible repeat' first | assumption | apply State.clearUnits_frame (hw.mono (by decide)) | apply State.restoreEnt_frame (hw.mono (by decide)) | apply State.restoreJob_frame (hw.mono (by decide)) | apply State.restoreMap_frame (hw.mono (by decide)) | refine Frame.foldl ?_ (fun s a h => ?_) | simp only [Frame.set_snap (hw.mono (by decide))] | split

theorem cmdRestorePrepare_framed (hw : Within 0x1606578040 ω) : cmdRestorePrepare.Framed ω := by
  intro r s q h
  dsimp only [cmdRestorePrepare]
  with_reducible repeat' first | assumption | apply State.restart_frame (hw.mono (by decide)) | apply State.restart_frame (hw.mono (by decide)) | refine Frame.foldl ?_ (fun s a h => ?_) | simp only [Frame.set_snap (hw.mono (by decide))] | split

theorem cmdRestoreRun_framed (hw : Within 0x200000000 ω) : cmdRestoreRun.Framed ω := by
  intro r s q h
  dsimp only [cmdRestoreRun]
  with_reducible repeat' first | assumption | refine Frame.foldl ?_ (fun s a h => ?_) | simp only [Frame.set_snap (hw.mono (by decide))] | split

theorem cmdRestoreStatus_framed  : cmdRestoreStatus.Framed ω := by
  intro r s q h
  dsimp only [cmdRestoreStatus]
  with_reducible repeat' first | assumption | refine Frame.foldl ?_ (fun s a h => ?_) | split

theorem cmdRestoreVerify_framed  : cmdRestoreVerify.Framed ω := by
  intro r s q h
  dsimp only [cmdRestoreVerify]
  with_reducible repeat' first | assumption | refine Frame.foldl ?_ (fun s a h => ?_) | split

theorem execRestorePrepare_frame (hw : Within 0x1606578040 ω) {r s : State} {a0} (h : Frame ω r s) : FrameO ω r (execRestorePrepare a0 s) := by
  unfold execRestorePrepare
  try dsimp only
  with_reducible repeat' first | assumption | apply FrameO.next | apply Cmd.serve_frame (hw.mono (by decide)) (cmdRestorePrepare_framed (hw.mono (by decide))) | refine Frame.foldl ?_ (fun s a h => ?_) | split

theorem execRestoreRun_frame (hw : Within 0x200008000 ω) {r s : State} {a0} (h : Frame ω r s) : FrameO ω r (execRestoreRun a0 s) := by
  unfold execRestoreRun
  try dsimp only
  with_reducible repeat' first | assumption | apply FrameO.next | apply Cmd.serve_frame (hw.mono (by decide)) (cmdRestoreRun_framed (hw.mono (by decide))) | refine Frame.foldl ?_ (fun s a h => ?_) | split

theorem execRestoreStatus_frame (hw : Within 0x8000 ω) {r s : State} {a0} (h : Frame ω r s) : FrameO ω r (execRestoreStatus a0 s) := by
  unfold execRestoreStatus
  try dsimp only
  with_reducible repeat' first | assumption | apply FrameO.next | apply Cmd.serve_frame (hw.mono (by decide)) (cmdRestoreStatus_framed) | refine Frame.foldl ?_ (fun s a h => ?_) | split

theorem execRestoreVerify_frame (hw : Within 0x8000 ω) {r s : State} {a0} (h : Frame ω r s) : FrameO ω r (execRestoreVerify a0 s) := by
  unfold execRestoreVerify
  try dsimp only
  with_reducible repeat' first | assumption | apply FrameO.next | apply Cmd.serve_frame (hw.mono (by decide)) (cmdRestoreVerify_framed) | refine Frame.foldl ?_ (fun s a h => ?_) | split

theorem State.restoreDone_frame (hw : Within 0x170657e040 ω) {r s : State}  (h : Frame ω r s) : Frame ω r (State.restoreDone s) := by
  unfold State.restoreDone
  try dsimp only
  with_reducible repeat' first | assumption | apply State.countJit_frame (hw.mono (by decide)) | apply State.eachRec_frame (hw.mono (by decide)) | apply State.orReg_frame (hw.mono (by decide)) | refine Frame.foldl ?_ (fun s a h => ?_) | simp only [Frame.set_tide_job_snap (hw.mono (by decide))] | split

theorem execRestoreDone_frame (hw : Within 0x170657e040 ω) {r s : State}  (h : Frame ω r s) : FrameO ω r (execRestoreDone s) := by
  unfold execRestoreDone
  try dsimp only
  with_reducible repeat' first | assumption | apply FrameO.next | apply State.restoreDone_frame (hw.mono (by decide)) | refine Frame.foldl ?_ (fun s a h => ?_) | split

end Sys2Proof.Machine
end

