-- ==== Sys2Proof/Laws/Close.lean ====
section
/-!
SUPPORT. Frames of the operations of Machine/Close.lean (Laws/Frame.lean says what a frame is).
-/
namespace Sys2Proof.Machine

variable {ω : Nat}

theorem State.heldEntry_frame (hw : Within 0x18040 ω) {r s : State} {n} {g} (h : Frame ω r s) : Frame ω r (State.heldEntry s n g) := by
  unfold State.heldEntry
  try dsimp only
  with_reducible repeat' first | assumption | apply State.logCore_frame (hw.mono (by decide)) | apply State.setReg_frame (hw.mono (by decide)) | apply State.count_frame (hw.mono (by decide)) | apply State.orReg_frame (hw.mono (by decide)) | refine Frame.foldl ?_ (fun s a h => ?_) | split

theorem State.clearCounts_frame (hw : Within 0x8000000 ω) {r s : State}  (h : Frame ω r s) : Frame ω r (State.clearCounts s) := by
  unfold State.clearCounts
  try dsimp only
  with_reducible repeat' first | assumption | refine Frame.foldl ?_ (fun s a h => ?_) | simp only [Frame.set_nums (hw.mono (by decide))] | split

theorem State.raiseAlarm_frame (hw : Within 0x18040 ω) {r s : State} {a} (h : Frame ω r s) : Frame ω r (State.raiseAlarm s a) := by
  unfold State.raiseAlarm
  try dsimp only
  with_reducible repeat' first | assumption | apply State.log__frame (hw.mono (by decide)) | apply State.count_frame (hw.mono (by decide)) | apply State.orReg_frame (hw.mono (by decide)) | refine Frame.foldl ?_ (fun s a h => ?_) | split

theorem State.putRecord_frame (hw : Within 0x100016000 ω) {r s : State} {bs} {x} {t : State} (e : State.putRecord s bs = (x, t)) (h : Frame ω r s) : Frame ω r t := by
  unfold State.putRecord at e
  try dsimp only at e
  repeat' (split at e)
  all_goals first | cases e | skip
  all_goals with_reducible repeat' first | assumption | apply State.store_frame (hw.mono (by decide)) | refine Frame.foldl ?_ (fun s a h => ?_) | simp only [Frame.set_log (hw.mono (by decide))] | split

theorem State.putRecord_frame1 (hw : Within 0x100016000 ω) {r s : State} {bs} (h : Frame ω r s) : Frame ω r (State.putRecord s bs).2 :=
  State.putRecord_frame (hw.mono (by decide)) rfl h

theorem State.closeTide_frame (hw : Within 0x170e57e040 ω) {r s : State} {g} (h : Frame ω r s) : Frame ω r (State.closeTide s g) := by
  unfold State.closeTide
  try dsimp only
  with_reducible repeat' first | assumption | apply State.heldEntry_frame (hw.mono (by decide)) | apply State.foldAll_frame (hw.mono (by decide)) | apply State.raiseAlarm_frame (hw.mono (by decide)) | apply State.putRecord_frame1 (hw.mono (by decide)) | apply State.clearCounts_frame (hw.mono (by decide)) | apply State.log__frame (hw.mono (by decide)) | (refine State.putRecord_frame (hw.mono (by decide)) (by assumption) ?_) | refine Frame.foldl ?_ (fun s a h => ?_) | split

theorem State.closeNone_frame (hw : Within 0x18040 ω) {r s : State} {g} (h : Frame ω r s) : Frame ω r (State.closeNone s g) := by
  unfold State.closeNone
  try dsimp only
  with_reducible repeat' first | assumption | apply State.heldEntry_frame (hw.mono (by decide)) | refine Frame.foldl ?_ (fun s a h => ?_) | split

end Sys2Proof.Machine
end

