-- ==== Sys2Proof/Laws/Advance.lean ====
section
/-!
SUPPORT. Frames of the operations of Machine/Advance.lean (Laws/Frame.lean says what a frame is).
-/
namespace Sys2Proof.Machine

variable {ω : Nat}

theorem State.rescale_frame (hw : Within 0x170e57e040 ω) {r s : State}  (h : Frame ω r s) : Frame ω r (State.rescale s) := by
  unfold State.rescale
  try dsimp only
  with_reducible repeat' first | assumption | apply State.refreshCopies_frame (hw.mono (by decide)) | apply State.countJit_frame (hw.mono (by decide)) | apply State.eachRec_frame (hw.mono (by decide)) | refine Frame.foldl ?_ (fun s a h => ?_) | split

theorem State.advanceScales_frame (hw : Within 0x170e57e040 ω) {r s : State} {step} {skipped} (h : Frame ω r s) : Frame ω r (State.advanceScales s step skipped) := by
  unfold State.advanceScales
  try dsimp only
  with_reducible repeat' first | assumption | apply State.refreshCopies_frame (hw.mono (by decide)) | apply State.countJit_frame (hw.mono (by decide)) | apply State.eachRec_frame (hw.mono (by decide)) | refine Frame.foldl ?_ (fun s a h => ?_) | split

theorem State.noteSkipped_frame (hw : Within 0x18040 ω) {r s : State}  (h : Frame ω r s) : Frame ω r (State.noteSkipped s) := by
  unfold State.noteSkipped
  try dsimp only
  with_reducible repeat' first | assumption | apply State.log__frame (hw.mono (by decide)) | apply State.orReg_frame (hw.mono (by decide)) | apply State.count_frame (hw.mono (by decide)) | refine Frame.foldl ?_ (fun s a h => ?_) | split

theorem State.recError_frame (hw : Within 0x1606578040 ω) {r s : State} {code} {u} (h : Frame ω r s) : Frame ω r (State.recError s code u) := by
  unfold State.recError
  try dsimp only
  with_reducible repeat' first | assumption | apply State.updError_frame (hw.mono (by decide)) | refine Frame.foldl ?_ (fun s a h => ?_) | split

theorem State.checkRecs_frame (hw : Within 0x1606578040 ω) {r s : State} {quiescent} (h : Frame ω r s) : Frame ω r (State.checkRecs s quiescent) := by
  unfold State.checkRecs
  try dsimp only
  with_reducible repeat' first | assumption | apply State.recError_frame (hw.mono (by decide)) | refine Frame.foldl ?_ (fun s a h => ?_) | split

theorem State.writeBack_frame (hw : Within 0x100006000 ω) {r s : State}  (h : Frame ω r s) : Frame ω r (State.writeBack s) := by
  unfold State.writeBack
  try dsimp only
  with_reducible repeat' first | assumption | apply State.writeDynamic_frame (hw.mono (by decide)) | refine Frame.foldl ?_ (fun s a h => ?_) | split

theorem State.nextStep_frame (hw : Within 0x24118040 ω) {r s : State}  (h : Frame ω r s) : Frame ω r (State.nextStep s) := by
  unfold State.nextStep
  try dsimp only
  with_reducible repeat' first | assumption | apply State.setField_frame (hw.mono (by decide)) | apply State.latchHp_frame (hw.mono (by decide)) | refine Frame.foldl ?_ (fun s a h => ?_) | simp only [Frame.set_job_cores_upd (hw.mono (by decide))] | split

theorem State.dropFrame_frame (hw : Within 0x10018040 ω) {r s : State} {shelf} {depth} (h : Frame ω r s) : Frame ω r (State.dropFrame s shelf depth) := by
  unfold State.dropFrame
  try dsimp only
  with_reducible repeat' first | assumption | apply State.log__frame (hw.mono (by decide)) | apply State.releaseFrame_frame (hw.mono (by decide)) | apply State.orReg_frame (hw.mono (by decide)) | apply State.count_frame (hw.mono (by decide)) | refine Frame.foldl ?_ (fun s a h => ?_) | split

theorem State.leftovers_frame (hw : Within 0x10018040 ω) {r s : State} {quiescent} {g} (h : Frame ω r s) : Frame ω r (State.leftovers s quiescent g) := by
  unfold State.leftovers
  try dsimp only
  with_reducible repeat' first | assumption | apply State.dropFrame_frame (hw.mono (by decide)) | refine Frame.foldl ?_ (fun s a h => ?_) | simp only [Frame.set_shelf (hw.mono (by decide))] | split

theorem State.gateNone_frame (hw : Within 0x40 ω) {r s : State}  (h : Frame ω r s) : Frame ω r (State.gateNone s) := by
  unfold State.gateNone
  try dsimp only
  with_reducible repeat' first | assumption | apply State.count_frame (hw.mono (by decide)) | apply State.orReg_frame (hw.mono (by decide)) | refine Frame.foldl ?_ (fun s a h => ?_) | split

theorem State.stepAdvance_frame (hw : Within 0x177e57e040 ω) {r s : State} {g} (h : Frame ω r s) : Frame ω r (State.stepAdvance s g) := by
  unfold State.stepAdvance
  try dsimp only
  with_reducible repeat' first | assumption | apply State.advanceScales_frame (hw.mono (by decide)) | apply State.gateNone_frame (hw.mono (by decide)) | apply State.noteSkipped_frame (hw.mono (by decide)) | apply State.leftovers_frame (hw.mono (by decide)) | apply State.nextStep_frame (hw.mono (by decide)) | apply State.writeBack_frame (hw.mono (by decide)) | apply State.checkRecs_frame (hw.mono (by decide)) | apply State.resetBuckets_frame (hw.mono (by decide)) | apply State.snapRequest_frame (hw.mono (by decide)) | refine Frame.foldl ?_ (fun s a h => ?_) | simp only [Frame.set_nums (hw.mono (by decide))] | simp only [Frame.set_nums_snap (hw.mono (by decide))] | simp only [Frame.set_snap (hw.mono (by decide))] | simp only [Frame.set_tide_snap (hw.mono (by decide))] | split

theorem State.tideline_frame (hw : Within 0x1777d7e044 ω) {r s : State} {due} {closed} {n} {g} (h : Frame ω r s) : Frame ω r (State.tideline s due closed n g) := by
  unfold State.tideline
  try dsimp only
  with_reducible repeat' first | assumption | apply State.meetRead_frame (hw.mono (by decide)) | apply State.freeze_frame (hw.mono (by decide)) | apply State.selfHold_frame (hw.mono (by decide)) | apply State.heldEntry_frame (hw.mono (by decide)) | apply State.count_frame (hw.mono (by decide)) | apply State.orReg_frame (hw.mono (by decide)) | refine Frame.foldl ?_ (fun s a h => ?_) | simp only [Frame.set_snap (hw.mono (by decide))] | simp only [Frame.set_tide (hw.mono (by decide))] | split

end Sys2Proof.Machine
end

