-- ==== Sys2Proof/Laws/MailboxEvents.lean ====
section
/-!
SUPPORT. Frames of the operations of Machine/MailboxEvents.lean (Laws/Frame.lean says what a frame is).
-/
namespace Sys2Proof.Machine

variable {ω : Nat}

theorem State.reexecute_frame (hw : Within 0x608000 ω) {r s : State}  (h : Frame ω r s) : Frame ω r (State.reexecute s) := by
  unfold State.reexecute
  try dsimp only
  with_reducible repeat' first | assumption | refine Frame.foldl ?_ (fun s a h => ?_) | simp only [Frame.set_enm_pwr_link (hw.mono (by decide))] | split

theorem State.enmoraFail_frame (hw : Within 0x1606778044 ω) {r s : State} {c} (h : Frame ω r s) : Frame ω r (State.enmoraFail s c) := by
  unfold State.enmoraFail
  try dsimp only
  with_reducible repeat' first | assumption | apply State.spareUsed_frame (hw.mono (by decide)) | apply State.restart_frame (hw.mono (by decide)) | apply State.reexecute_frame (hw.mono (by decide)) | apply State.log__frame (hw.mono (by decide)) | refine Frame.foldl ?_ (fun s a h => ?_) | split | (refine Frame.set_kept_enm (hw.mono (by decide)) ?_)

theorem execEnmoraCoreFail_frame (hw : Within 0x1606778044 ω) {r s : State} {core} (h : Frame ω r s) : FrameO ω r (execEnmoraCoreFail core s) := by
  unfold execEnmoraCoreFail
  try dsimp only
  with_reducible repeat' first | assumption | apply FrameO.next | apply State.enmoraFail_frame (hw.mono (by decide)) | refine Frame.foldl ?_ (fun s a h => ?_) | split

theorem State.mbxIrq_frame (hw : Within 0x8000 ω) {r s : State} {i} (h : Frame ω r s) : Frame ω r (State.mbxIrq s i) := by
  unfold State.mbxIrq
  try dsimp only
  with_reducible repeat' first | assumption | refine Frame.foldl ?_ (fun s a h => ?_) | simp only [Frame.set_enm (hw.mono (by decide))] | split

theorem State.ringE2h_frame (hw : Within 0x4000080c0 ω) {r s : State} {n} (h : Frame ω r s) : Frame ω r (State.ringE2h s n) := by
  unfold State.ringE2h
  try dsimp only
  with_reducible repeat' first | assumption | apply State.orReg_frame (hw.mono (by decide)) | apply State.notify_frame (hw.mono (by decide)) | refine Frame.foldl ?_ (fun s a h => ?_) | split

theorem State.storeSlot_frame (hw : Within 0x40 ω) {r s : State} {full} {reject} {slot} {n} {msg} (h : Frame ω r s) : Frame ω r (State.storeSlot s full reject slot n msg) := by
  unfold State.storeSlot
  try dsimp only
  with_reducible repeat' first | assumption | apply State.orReg_frame (hw.mono (by decide)) | apply State.setSlot_frame (hw.mono (by decide)) | refine Frame.foldl ?_ (fun s a h => ?_) | split

theorem execE2hDoorbell_frame (hw : Within 0x4000080c0 ω) {r s : State} {n} {msg} (h : Frame ω r s) : FrameO ω r (execE2hDoorbell n msg s) := by
  unfold execE2hDoorbell
  try dsimp only
  with_reducible repeat' first | assumption | apply FrameO.next | apply State.ringE2h_frame (hw.mono (by decide)) | apply State.storeSlot_frame (hw.mono (by decide)) | refine Frame.foldl ?_ (fun s a h => ?_) | split

theorem State.wakeBay_frame (hw : Within 0x200040 ω) {r s : State} {b} (h : Frame ω r s) : Frame ω r (State.wakeBay s b) := by
  unfold State.wakeBay
  try dsimp only
  with_reducible repeat' first | assumption | apply State.setRegionMode_frame (hw.mono (by decide)) | apply State.ungateBay_frame (hw.mono (by decide)) | refine Frame.foldl ?_ (fun s a h => ?_) | split

theorem State.ringE2b_frame (hw : Within 0x800200040 ω) {r s : State} {b} (h : Frame ω r s) : Frame ω r (State.ringE2b s b) := by
  unfold State.ringE2b
  try dsimp only
  with_reducible repeat' first | assumption | apply State.orReg_frame (hw.mono (by decide)) | apply State.wakeBay_frame (hw.mono (by decide)) | refine Frame.foldl ?_ (fun s a h => ?_) | simp only [Frame.set_bay (hw.mono (by decide))] | split

theorem execE2bDoorbell_frame (hw : Within 0x800200040 ω) {r s : State} {b} {msg} (h : Frame ω r s) : FrameO ω r (execE2bDoorbell b msg s) := by
  unfold execE2bDoorbell
  try dsimp only
  with_reducible repeat' first | assumption | apply FrameO.next | apply State.ringE2b_frame (hw.mono (by decide)) | apply State.storeSlot_frame (hw.mono (by decide)) | refine Frame.foldl ?_ (fun s a h => ?_) | split

theorem State.release_frame (hw : Within 0x800008040 ω) {r s : State} {a1} {v} (h : Frame ω r s) : Frame ω r (State.release s a1 v) := by
  unfold State.release
  try dsimp only
  with_reducible repeat' first | assumption | apply State.andNotReg_frame (hw.mono (by decide)) | apply State.mbxIrq_frame (hw.mono (by decide)) | refine Frame.foldl ?_ (fun s a h => ?_) | simp only [Frame.set_bay (hw.mono (by decide))] | split

theorem execMailboxRelease_frame (hw : Within 0x800008040 ω) {r s : State} {a0} {v} (h : Frame ω r s) : FrameO ω r (execMailboxRelease a0 v s) := by
  unfold execMailboxRelease
  try dsimp only
  with_reducible repeat' first | assumption | apply FrameO.next | apply State.release_frame (hw.mono (by decide)) | refine Frame.foldl ?_ (fun s a h => ?_) | split

theorem State.mailboxWrite_frame (hw : Within 0xc002080c0 ω) {r s : State} {k} {v} {t : State} (e : State.mailboxWrite s k v = some t) (h : Frame ω r s) : Frame ω r t := by
  unfold State.mailboxWrite at e
  try dsimp only at e
  repeat' (split at e)
  all_goals first | cases e | skip
  all_goals with_reducible repeat' first | assumption | apply State.ringE2h_frame (hw.mono (by decide)) | apply State.ringE2b_frame (hw.mono (by decide)) | apply State.release_frame (hw.mono (by decide)) | apply State.orReg_frame (hw.mono (by decide)) | refine Frame.foldl ?_ (fun s a h => ?_) | split

theorem execH2eNextRead_frame (hw : Within 0x180c0 ω) {r s : State} {q} (h : Frame ω r s) : FrameO ω r (execH2eNextRead q s) := by
  unfold execH2eNextRead
  try dsimp only
  with_reducible repeat' first | assumption | apply FrameO.next | apply State.readEffect_frame (hw.mono (by decide)) | refine Frame.foldl ?_ (fun s a h => ?_) | split

theorem State.enmoraIdle_frame (hw : Within 0x8000 ω) {r s : State}  (h : Frame ω r s) : Frame ω r (State.enmoraIdle s) := by
  unfold State.enmoraIdle
  try dsimp only
  with_reducible repeat' first | assumption | refine Frame.foldl ?_ (fun s a h => ?_) | simp only [Frame.set_enm (hw.mono (by decide))] | split

theorem State.postResponse_frame (hw : Within 0x4000080c0 ω) {r s : State} {m} (h : Frame ω r s) : Frame ω r (State.postResponse s m) := by
  unfold State.postResponse
  try dsimp only
  with_reducible repeat' first | assumption | apply State.enmoraIdle_frame (hw.mono (by decide)) | apply State.orReg_frame (hw.mono (by decide)) | apply State.setSlot_frame (hw.mono (by decide)) | apply State.notify_frame (hw.mono (by decide)) | apply State.andNotReg_frame (hw.mono (by decide)) | refine Frame.foldl ?_ (fun s a h => ?_) | simp only [Frame.set_enm (hw.mono (by decide))] | split

theorem execResponsePost_frame (hw : Within 0x4000080c0 ω) {r s : State} {mb} (h : Frame ω r s) : FrameO ω r (execResponsePost mb s) := by
  unfold execResponsePost
  try dsimp only
  with_reducible repeat' first | assumption | apply FrameO.next | apply State.postResponse_frame (hw.mono (by decide)) | refine Frame.foldl ?_ (fun s a h => ?_) | split

theorem execEventPost_frame (hw : Within 0x4000080c0 ω) {r s : State}  (h : Frame ω r s) : FrameO ω r (execEventPost s) := by
  unfold execEventPost
  try dsimp only
  with_reducible repeat' first | assumption | apply FrameO.next | apply State.notify_frame (hw.mono (by decide)) | apply State.orReg_frame (hw.mono (by decide)) | apply State.setSlot_frame (hw.mono (by decide)) | refine Frame.foldl ?_ (fun s a h => ?_) | simp only [Frame.set_enm (hw.mono (by decide))] | split

theorem execE2bTimeout_frame (hw : Within 0x800018000 ω) {r s : State} {b} (h : Frame ω r s) : FrameO ω r (execE2bTimeout b s) := by
  unfold execE2bTimeout
  try dsimp only
  with_reducible repeat' first | assumption | apply FrameO.next | apply State.log__frame (hw.mono (by decide)) | refine Frame.foldl ?_ (fun s a h => ?_) | simp only [Frame.set_bay (hw.mono (by decide))] | split

end Sys2Proof.Machine
end

