-- ==== Sys2Proof/Laws/Lysholt.lean ====
section
/-!
SUPPORT. Frames of the operations of Machine/Lysholt.lean (Laws/Frame.lean says what a frame is).
-/
namespace Sys2Proof.Machine

variable {ω : Nat}

theorem State.codewords_frame (hw : Within 0x40 ω) {r s : State} {p} {fixed} {uncorr} (h : Frame ω r s) : Frame ω r (State.codewords s p fixed uncorr) := by
  unfold State.codewords
  try dsimp only
  with_reducible repeat' first | assumption | apply State.count_frame (hw.mono (by decide)) | refine Frame.foldl ?_ (fun s a h => ?_) | split

theorem State.tagFail_frame (hw : Within 0x4000080c0 ω) {r s : State} {n} {a2} (h : Frame ω r s) : Frame ω r (State.tagFail s n a2) := by
  unfold State.tagFail
  try dsimp only
  with_reducible repeat' first | assumption | apply State.orReg_frame (hw.mono (by decide)) | apply State.count_frame (hw.mono (by decide)) | apply State.setSession_frame (hw.mono (by decide)) | apply State.closeSession_frame (hw.mono (by decide)) | refine Frame.foldl ?_ (fun s a h => ?_) | split

theorem State.receive_frame (hw : Within 0x4000080c0 ω) {r s : State} {f} {legal} {lenOk request} {act : State → State} (hf : ∀ s, Frame ω r s → Frame ω r (act s)) (h : Frame ω r s) :
    Frame ω r (s.receive f legal lenOk request act) := by
  unfold State.receive
  try dsimp only
  with_reducible repeat' first | assumption | apply hf | apply State.codewords_frame (hw.mono (by decide)) | apply State.tagFail_frame (hw.mono (by decide)) | apply State.setSession_frame (hw.mono (by decide)) | apply State.count_frame (hw.mono (by decide)) | apply State.sendAck_frame (hw.mono (by decide)) | apply State.complete_frame (hw.mono (by decide)) | apply State.seqLimit_frame (hw.mono (by decide)) | refine Frame.foldl ?_ (fun s a h => ?_) | split

theorem State.helloRefuse_frame (hw : Within 0x400000040 ω) {r s : State} {p} {status} (h : Frame ω r s) : Frame ω r (State.helloRefuse s p status) := by
  unfold State.helloRefuse
  try dsimp only
  with_reducible repeat' first | assumption | apply State.emit_frame (hw.mono (by decide)) | apply State.count_frame (hw.mono (by decide)) | refine Frame.foldl ?_ (fun s a h => ?_) | split

theorem State.drbgRequest_frame (hw : Within 0x1400000000 ω) {r s : State}  (h : Frame ω r s) : Frame ω r (State.drbgRequest s) := by
  unfold State.drbgRequest
  try dsimp only
  with_reducible repeat' first | assumption | apply State.drawBytes_frame1 (hw.mono (by decide)) | (refine State.drawBytes_frame (hw.mono (by decide)) (by assumption) ?_) | refine Frame.foldl ?_ (fun s a h => ?_) | simp only [Frame.set_lys (hw.mono (by decide))] | split

theorem State.drbgUsed_frame (hw : Within 0x1400000000 ω) {r s : State}  (h : Frame ω r s) : Frame ω r (State.drbgUsed s) := by
  unfold State.drbgUsed
  try dsimp only
  with_reducible repeat' first | assumption | apply State.drbgRequest_frame (hw.mono (by decide)) | refine Frame.foldl ?_ (fun s a h => ?_) | split

theorem State.imgStatus_frame (hw : Within 0x4000080c0 ω) {r s : State}  (h : Frame ω r s) : Frame ω r (State.imgStatus s) := by
  unfold State.imgStatus
  try dsimp only
  with_reducible repeat' first | assumption | apply State.seqLimit_frame (hw.mono (by decide)) | apply State.sendFrame_frame (hw.mono (by decide)) | refine Frame.foldl ?_ (fun s a h => ?_) | split

theorem State.idleOther_frame (hw : Within 0x40 ω) {r s : State} {p} (h : Frame ω r s) : Frame ω r (State.idleOther s p) := by
  unfold State.idleOther
  try dsimp only
  with_reducible repeat' first | assumption | apply State.setField_frame (hw.mono (by decide)) | refine Frame.foldl ?_ (fun s a h => ?_) | split

theorem State.helloAccept_frame (hw : Within 0x14000080c0 ω) {r s : State} {p} {n} {boot} {pay} (h : Frame ω r s) : Frame ω r (State.helloAccept s p n boot pay) := by
  unfold State.helloAccept
  try dsimp only
  with_reducible repeat' first | assumption | apply State.drawBytes_frame1 (hw.mono (by decide)) | apply State.setSession_frame (hw.mono (by decide)) | apply State.drbgUsed_frame (hw.mono (by decide)) | apply State.emit_frame (hw.mono (by decide)) | apply State.count_frame (hw.mono (by decide)) | apply State.syncPort_frame (hw.mono (by decide)) | apply State.setField_frame (hw.mono (by decide)) | apply State.idleOther_frame (hw.mono (by decide)) | apply State.imgStatus_frame (hw.mono (by decide)) | (refine State.drawBytes_frame (hw.mono (by decide)) (by assumption) ?_) | refine Frame.foldl ?_ (fun s a h => ?_) | simp only [Frame.set_lys (hw.mono (by decide))] | split

theorem execHello_frame (hw : Within 0x14000080c0 ω) {r s : State} {p} {pay} (h : Frame ω r s) : FrameO ω r (execHello p pay s) := by
  unfold execHello
  try dsimp only
  with_reducible repeat' first | assumption | apply FrameO.next | apply State.helloRefuse_frame (hw.mono (by decide)) | apply State.helloAccept_frame (hw.mono (by decide)) | refine Frame.foldl ?_ (fun s a h => ?_) | split

theorem State.notifyFull_frame (hw : Within 0x400000040 ω) {r s : State} {n} (h : Frame ω r s) : Frame ω r (State.notifyFull s n) := by
  unfold State.notifyFull
  try dsimp only
  with_reducible repeat' first | assumption | apply State.sendFrame_frame (hw.mono (by decide)) | refine Frame.foldl ?_ (fun s a h => ?_) | split

theorem execAuth_frame (hw : Within 0x4000080c0 ω) {r s : State} {f} (h : Frame ω r s) : FrameO ω r (execAuth f s) := by
  unfold execAuth
  try dsimp only
  with_reducible repeat' first | assumption | apply FrameO.next | refine State.receive_frame (hw.mono (by decide)) (fun s h => ?_) ?_ | refine State.receive_frame (hw.mono (by decide)) (fun s h => ?_) ?_ | apply State.setSession_frame (hw.mono (by decide)) | apply State.notifyFull_frame (hw.mono (by decide)) | apply State.sendFrame_frame (hw.mono (by decide)) | apply State.syncPort_frame (hw.mono (by decide)) | apply State.count_frame (hw.mono (by decide)) | apply State.closeSession_frame (hw.mono (by decide)) | apply State.orReg_frame (hw.mono (by decide)) | refine Frame.foldl ?_ (fun s a h => ?_) | split

theorem State.sendWaiting_frame (hw : Within 0x400000040 ω) {n : Nat} {k} {r s : State} (h : Frame ω r s) : Frame ω r (s.sendWaiting k n) := by
  induction n generalizing s with
  | zero => exact h
  | succ n ih =>
    unfold State.sendWaiting
    try dsimp only
    with_reducible repeat' first | assumption | apply ih | apply State.emit_frame (hw.mono (by decide)) | apply State.count_frame (hw.mono (by decide)) | apply State.setSession_frame (hw.mono (by decide)) | refine Frame.foldl ?_ (fun s a h => ?_) | split

theorem execFrameAck_frame (hw : Within 0x4000080c0 ω) {r s : State} {f} (h : Frame ω r s) : FrameO ω r (execFrameAck f s) := by
  unfold execFrameAck
  try dsimp only
  with_reducible repeat' first | assumption | apply FrameO.next | apply State.codewords_frame (hw.mono (by decide)) | refine State.receive_frame (hw.mono (by decide)) (fun s h => ?_) ?_ | apply State.tagFail_frame (hw.mono (by decide)) | apply State.setSession_frame (hw.mono (by decide)) | apply State.count_frame (hw.mono (by decide)) | apply State.sendWaiting_frame (hw.mono (by decide)) | refine Frame.foldl ?_ (fun s a h => ?_) | split

theorem State.resend_frame (hw : Within 0x4000080c0 ω) {r s : State} {n} {a2} {a3} (h : Frame ω r s) : Frame ω r (State.resend s n a2 a3) := by
  unfold State.resend
  try dsimp only
  with_reducible repeat' first | assumption | apply State.closeSession_frame (hw.mono (by decide)) | apply State.count_frame (hw.mono (by decide)) | apply State.setSession_frame (hw.mono (by decide)) | apply State.emit_frame (hw.mono (by decide)) | refine Frame.foldl ?_ (fun s a h => ?_) | split

theorem execFrameResend_frame (hw : Within 0x4000080c0 ω) {r s : State} {session} {seq} (h : Frame ω r s) : FrameO ω r (execFrameResend session seq s) := by
  unfold execFrameResend
  try dsimp only
  with_reducible repeat' first | assumption | apply FrameO.next | refine State.receive_frame (hw.mono (by decide)) (fun s h => ?_) ?_ | apply State.resend_frame (hw.mono (by decide)) | refine Frame.foldl ?_ (fun s a h => ?_) | split

theorem execCloseFrame_frame (hw : Within 0x4000080c0 ω) {r s : State} {f} (h : Frame ω r s) : FrameO ω r (execCloseFrame f s) := by
  unfold execCloseFrame
  try dsimp only
  with_reducible repeat' first | assumption | apply FrameO.next | refine State.receive_frame (hw.mono (by decide)) (fun s h => ?_) ?_ | apply State.closeSession_frame (hw.mono (by decide)) | refine Frame.foldl ?_ (fun s a h => ?_) | split

theorem State.h2ePost_frame (hw : Within 0x8040 ω) {r s : State} {n} {mb} {msg} (h : Frame ω r s) : Frame ω r (State.h2ePost s n mb msg) := by
  unfold State.h2ePost
  try dsimp only
  with_reducible repeat' first | assumption | apply State.orReg_frame (hw.mono (by decide)) | apply State.setSlot_frame (hw.mono (by decide)) | apply State.mbxIrq_frame (hw.mono (by decide)) | refine Frame.foldl ?_ (fun s a h => ?_) | simp only [Frame.set_enm (hw.mono (by decide))] | split

theorem execMbxPost_frame (hw : Within 0x4000080c0 ω) {r s : State} {f} (h : Frame ω r s) : FrameO ω r (execMbxPost f s) := by
  unfold execMbxPost
  try dsimp only
  with_reducible repeat' first | assumption | apply FrameO.next | refine State.receive_frame (hw.mono (by decide)) (fun s h => ?_) ?_ | apply State.complete_frame (hw.mono (by decide)) | apply State.orReg_frame (hw.mono (by decide)) | apply State.h2ePost_frame (hw.mono (by decide)) | refine Frame.foldl ?_ (fun s a h => ?_) | split

theorem execMbxRead_frame (hw : Within 0x4000080c0 ω) {r s : State} {f} (h : Frame ω r s) : FrameO ω r (execMbxRead f s) := by
  unfold execMbxRead
  try dsimp only
  with_reducible repeat' first | assumption | apply FrameO.next | refine State.receive_frame (hw.mono (by decide)) (fun s h => ?_) ?_ | apply State.complete_frame (hw.mono (by decide)) | refine Frame.foldl ?_ (fun s a h => ?_) | split

theorem execMbxRelease_frame (hw : Within 0xc000080c0 ω) {r s : State} {f} (h : Frame ω r s) : FrameO ω r (execMbxRelease f s) := by
  unfold execMbxRelease
  try dsimp only
  with_reducible repeat' first | assumption | apply FrameO.next | refine State.receive_frame (hw.mono (by decide)) (fun s h => ?_) ?_ | apply State.complete_frame (hw.mono (by decide)) | apply State.release_frame (hw.mono (by decide)) | refine Frame.foldl ?_ (fun s a h => ?_) | split

theorem execWinRead_frame (hw : Within 0x1777d7e0c4 ω) {r s : State} {f} (h : Frame ω r s) : FrameO ω r (execWinRead f s) := by
  unfold execWinRead
  try dsimp only
  with_reducible repeat' first | assumption | apply FrameO.next | refine State.receive_frame (hw.mono (by decide)) (fun s h => ?_) ?_ | apply State.complete_frame (hw.mono (by decide)) | apply State.meetRead_frame (hw.mono (by decide)) | refine Frame.foldl ?_ (fun s a h => ?_) | split

theorem execWinWrite_frame (hw : Within 0x50000e0c0 ω) {r s : State} {f} (h : Frame ω r s) : FrameO ω r (execWinWrite f s) := by
  unfold execWinWrite
  try dsimp only
  with_reducible repeat' first | assumption | apply FrameO.next | refine State.receive_frame (hw.mono (by decide)) (fun s h => ?_) ?_ | apply State.complete_frame (hw.mono (by decide)) | apply State.store_frame (hw.mono (by decide)) | refine Frame.foldl ?_ (fun s a h => ?_) | split

theorem execRegRd_frame (hw : Within 0x4000180c0 ω) {r s : State} {f} (h : Frame ω r s) : FrameO ω r (execRegRd f s) := by
  unfold execRegRd
  try dsimp only
  with_reducible repeat' first | assumption | apply FrameO.next | refine State.receive_frame (hw.mono (by decide)) (fun s h => ?_) ?_ | apply State.imgStatus_frame (hw.mono (by decide)) | apply State.complete_frame (hw.mono (by decide)) | apply State.readRegs_frame1 (hw.mono (by decide)) | (refine State.readRegs_frame (hw.mono (by decide)) (by assumption) ?_) | refine Frame.foldl ?_ (fun s a h => ?_) | split

theorem execRegWr_frame (hw : Within 0x400709dc0 ω) {r s : State} {f} (h : Frame ω r s) : FrameO ω r (execRegWr f s) := by
  unfold execRegWr
  try dsimp only
  with_reducible repeat' first | assumption | apply FrameO.next | refine State.receive_frame (hw.mono (by decide)) (fun s h => ?_) ?_ | apply State.imgStatus_frame (hw.mono (by decide)) | apply State.complete_frame (hw.mono (by decide)) | apply State.writeRegs_frame (hw.mono (by decide)) | refine Frame.foldl ?_ (fun s a h => ?_) | split

theorem execKeys_frame (hw : Within 0x4000080c0 ω) {r s : State} {f} (h : Frame ω r s) : FrameO ω r (execKeys f s) := by
  unfold execKeys
  try dsimp only
  with_reducible repeat' first | assumption | apply FrameO.next | refine State.receive_frame (hw.mono (by decide)) (fun s h => ?_) ?_ | apply State.setSession_frame (hw.mono (by decide)) | refine Frame.foldl ?_ (fun s a h => ?_) | simp only [Frame.set_lys (hw.mono (by decide))] | split

theorem State.imgStore_frame (hw : Within 0x400000000 ω) {r s : State} {off} {data} (h : Frame ω r s) : Frame ω r (State.imgStore s off data) := by
  unfold State.imgStore
  try dsimp only
  with_reducible repeat' first | assumption | refine Frame.foldl ?_ (fun s a h => ?_) | simp only [Frame.set_lys (hw.mono (by decide))] | split

theorem execImageFrame_frame (hw : Within 0x4000080c0 ω) {r s : State} {f} (h : Frame ω r s) : FrameO ω r (execImageFrame f s) := by
  unfold execImageFrame
  try dsimp only
  with_reducible repeat' first | assumption | apply FrameO.next | refine State.receive_frame (hw.mono (by decide)) (fun s h => ?_) ?_ | apply State.complete_frame (hw.mono (by decide)) | apply State.imgStatus_frame (hw.mono (by decide)) | apply State.imageFail_frame (hw.mono (by decide)) | apply State.imgStore_frame (hw.mono (by decide)) | apply State.setField_frame (hw.mono (by decide)) | refine Frame.foldl ?_ (fun s a h => ?_) | simp only [Frame.set_lys (hw.mono (by decide))] | split

theorem State.imgAccept_frame (hw : Within 0x16067780c4 ω) {r s : State}  (h : Frame ω r s) : Frame ω r (State.imgAccept s) := by
  unfold State.imgAccept
  try dsimp only
  with_reducible repeat' first | assumption | apply State.setReg_frame (hw.mono (by decide)) | apply State.enterEnmora_frame (hw.mono (by decide)) | apply State.closeSessions_frame (hw.mono (by decide)) | refine Frame.foldl ?_ (fun s a h => ?_) | simp only [Frame.set_lys (hw.mono (by decide))] | split

theorem execImageVerify_frame (hw : Within 0x16067780c4 ω) {r s : State}  (h : Frame ω r s) : FrameO ω r (execImageVerify s) := by
  unfold execImageVerify
  try dsimp only
  with_reducible repeat' first | assumption | apply FrameO.next | apply State.imgStatus_frame (hw.mono (by decide)) | apply State.imgStatus_frame (hw.mono (by decide)) | apply State.imageFail_frame (hw.mono (by decide)) | apply State.imgAccept_frame (hw.mono (by decide)) | refine Frame.foldl ?_ (fun s a h => ?_) | split

end Sys2Proof.Machine
end

