-- ==== Sys2Proof/Laws/Boot.lean ====
section
/-!
SUPPORT. Frames of the operations of Machine/Boot.lean (Laws/Frame.lean says what a frame is).
-/
namespace Sys2Proof.Machine

variable {ω : Nat}

/-- The registers that a pin reset keeps are in the canonical form. -/
theorem State.keptRegs_wf (s : State) : Sparse.wf regReset s.keptRegs = true := by
  have h0 : Frame 0x1FFFFFFFFFF { State.reset with regs := [] } { State.reset with regs := [] } := Frame.refl _
  unfold State.keptRegs
  refine (Frame.foldl (Frame.foldl (Frame.foldl h0 (l := List.range 256) fun t n h => ?_) (l := List.range 8) fun t k h => ?_)
    (l := s.kept.spareSlotOf) fun t x h => ?_).regsWf (by decide)
  · exact State.setField_frame (ω := 0x1FFFFFFFFFF) (by decide) (State.setField_frame (ω := 0x1FFFFFFFFFF) (by decide) h)
  · split
    · exact State.setField_frame (ω := 0x1FFFFFFFFFF) (by decide) (State.setReg_frame (ω := 0x1FFFFFFFFFF) (by decide) h)
    · exact h
  · exact State.setReg_frame (ω := 0x1FFFFFFFFFF) (by decide) h

theorem State.inReset_frame0 {s : State} {kept regs rst} (h : Sparse.wf regReset regs = true) : Frame0 s (s.inReset kept regs rst) :=
  ⟨rfl, rfl, fun _ => rfl, fun _ => h⟩

theorem State.pinReset_frame0 {s : State} : Frame0 s s.pinReset :=
  (State.inReset_frame0 s.keptRegs_wf).trans (State.setReg_frame (ω := 0x1FFFFFFFFFF) (by decide) (Frame.refl _)).toFrame0

theorem execResetNAssert_frame0 {s : State} : Frame0O s (execResetNAssert s) := by
  apply Frame0O.next
  split
  · exact ⟨rfl, rfl, id, id⟩
  · exact State.pinReset_frame0

theorem execPowerOnAssert_frame0 {s : State} : Frame0O s (execPowerOnAssert s) :=
  Frame0O.next ((State.inReset_frame0 rfl).trans (State.setReg_frame (ω := 0x1FFFFFFFFFF) (by decide) (Frame.refl _)).toFrame0)

theorem State.beginRelease_frame0 {s : State} {bootsel clkmode} : Frame0 s (s.beginRelease bootsel clkmode) := by
  unfold State.beginRelease
  split
  · exact Frame0.refl s
  · refine Frame0.trans (s := { s with rst := { s.rst with asserted := false } }) ⟨rfl, rfl, id, id⟩ ?_
    dsimp only
    refine (Frame.toFrame0 (ω := 0x1FFFFFFFFFF) ?_)
    split
    · exact State.setField_frame (ω := 0x1FFFFFFFFFF) (by decide) (State.setField_frame (ω := 0x1FFFFFFFFFF) (by decide) (State.setReg_frame (ω := 0x1FFFFFFFFFF) (by decide) (Frame.refl _)))
    · exact State.setField_frame (ω := 0x1FFFFFFFFFF) (by decide) (State.setReg_frame (ω := 0x1FFFFFFFFFF) (by decide) (Frame.refl _))

theorem execResetNRelease_frame0 {s : State} {bootsel clkmode} : Frame0O s (execResetNRelease bootsel clkmode s) :=
  Frame0O.next (Frame0.trans (s := { s with rst := { s.rst with pinLow := false } }) ⟨rfl, rfl, id, id⟩ State.beginRelease_frame0)

theorem execPowerOnRelease_frame0 {s : State} {bootsel clkmode} : Frame0O s (execPowerOnRelease bootsel clkmode s) := by
  unfold execPowerOnRelease
  dsimp only
  have h : Frame0 s (if s.rst.powerOn then s.setReg R.resetCause 1 else s) := by
    split
    · exact Frame.toFrame0 (State.setReg_frame (ω := 0x1FFFFFFFFFF) (by decide) (Frame.refl s))
    · exact Frame0.refl s
  generalize (if s.rst.powerOn then s.setReg R.resetCause 1 else s) = t at h ⊢
  exact Frame0O.next (h.trans (Frame0.trans (s := { t with rst := { t.rst with powerOn := false } }) ⟨rfl, rfl, id, id⟩ State.beginRelease_frame0))

theorem State.releaseRegion_frame (hw : Within 0x40 ω) {r s : State} {a1} (h : Frame ω r s) : Frame ω r (State.releaseRegion s a1) := by
  unfold State.releaseRegion
  try dsimp only
  with_reducible repeat' first | assumption | apply State.setReg_frame (hw.mono (by decide)) | refine Frame.foldl ?_ (fun s a h => ?_) | split

theorem State.domainValid_frame0 {s : State} {d} : Frame0 s (s.domainValid d) := by
  unfold State.domainValid
  split
  · exact ⟨rfl, rfl, id, id⟩
  · dsimp only
    refine (Frame.toFrame0 (ω := 0x1FFFFFFFFFF) ?_)
    have h := State.releaseRegion_frame (ω := 0x1FFFFFFFFFF) (by decide) (a1 := d) (Frame.refl s)
    with_reducible repeat' first | assumption | apply State.startGen_frame (ω := 0x1FFFFFFFFFF) (by decide) | apply State.setField_frame (ω := 0x1FFFFFFFFFF) (by decide) | apply State.trainPorts_frame (ω := 0x1FFFFFFFFFF) (by decide) | apply State.centre_frame (ω := 0x1FFFFFFFFFF) (by decide) | refine Frame.foldl ?_ (fun s a h => ?_) | split

theorem execDomainClockValid_frame0 {s : State} {d} : Frame0O s (execDomainClockValid d s) := by
  apply Frame0O.next
  split
  · exact State.domainValid_frame0
  · exact Frame0.refl s

theorem State.clockless_frame (hw : Within 0x44 ω) {r s : State} {d} (h : Frame ω r s) : Frame ω r (State.clockless s d) := by
  unfold State.clockless
  try dsimp only
  with_reducible repeat' first | assumption | apply State.domainFail_frame (hw.mono (by decide)) | apply State.bootStop_frame (hw.mono (by decide)) | refine Frame.foldl ?_ (fun s a h => ?_) | split

theorem State.standbyAtBoot_frame (hw : Within 0x1606778044 ω) {r s : State} {a1} (h : Frame ω r s) : Frame ω r (State.standbyAtBoot s a1) := by
  unfold State.standbyAtBoot
  try dsimp only
  with_reducible repeat' first | assumption | apply State.setField_frame (hw.mono (by decide)) | apply State.recordGen_frame (hw.mono (by decide)) | apply State.orReg_frame (hw.mono (by decide)) | apply State.spareUsed_frame (hw.mono (by decide)) | refine Frame.foldl ?_ (fun s a h => ?_) | split | (refine Frame.set_kept_pwr (hw.mono (by decide)) ?_)

theorem execDomainClockFail_frame (hw : Within 0x1606778044 ω) {r s : State} {d} (h : Frame ω r s) : FrameO ω r (execDomainClockFail d s) := by
  unfold execDomainClockFail
  try dsimp only
  with_reducible repeat' first | assumption | apply FrameO.next | apply State.clockless_frame (hw.mono (by decide)) | apply State.recordGen_frame (hw.mono (by decide)) | apply State.standbyAtBoot_frame (hw.mono (by decide)) | refine Frame.foldl ?_ (fun s a h => ?_) | split

theorem execRomSelftestDone_frame (hw : Within 0x40 ω) {r s : State} {ok} (h : Frame ω r s) : FrameO ω r (execRomSelftestDone ok s) := by
  unfold execRomSelftestDone
  try dsimp only
  with_reducible repeat' first | assumption | apply FrameO.next | apply State.bootStop_frame (hw.mono (by decide)) | apply State.trainPorts_frame (hw.mono (by decide)) | apply State.setField_frame (hw.mono (by decide)) | refine Frame.foldl ?_ (fun s a h => ?_) | split

theorem execEnmoraStageDone_frame (hw : Within 0x40 ω) {r s : State}  (h : Frame ω r s) : FrameO ω r (execEnmoraStageDone s) := by
  unfold execEnmoraStageDone
  try dsimp only
  with_reducible repeat' first | assumption | apply FrameO.next | apply State.setField_frame (hw.mono (by decide)) | refine Frame.foldl ?_ (fun s a h => ?_) | split

theorem State.ddrTrained_frame (hw : Within 0x40 ω) {r s : State} {ds} (h : Frame ω r s) : Frame ω r (State.ddrTrained s ds) := by
  unfold State.ddrTrained
  try dsimp only
  with_reducible repeat' first | assumption | apply State.setReg_frame (hw.mono (by decide)) | apply State.orReg_frame (hw.mono (by decide)) | refine Frame.foldl ?_ (fun s a h => ?_) | split

theorem State.hbmTrained_frame (hw : Within 0x40 ω) {r s : State}  (h : Frame ω r s) : Frame ω r (State.hbmTrained s) := by
  unfold State.hbmTrained
  try dsimp only
  with_reducible repeat' first | assumption | apply State.setField_frame (hw.mono (by decide)) | apply State.setReg_frame (hw.mono (by decide)) | refine Frame.foldl ?_ (fun s a h => ?_) | split

theorem State.reportSpared_frame (hw : Within 0x200218000 ω) {r s : State}  (h : Frame ω r s) : Frame ω r (State.reportSpared s) := by
  unfold State.reportSpared
  try dsimp only
  with_reducible repeat' first | assumption | apply State.log__frame (hw.mono (by decide)) | apply State.trouble_frame (hw.mono (by decide)) | refine Frame.foldl ?_ (fun s a h => ?_) | simp only [Frame.set_pwr (hw.mono (by decide))] | split

theorem State.ready_frame (hw : Within 0x200218040 ω) {r s : State} {us} (h : Frame ω r s) : Frame ω r (State.ready s us) := by
  unfold State.ready
  try dsimp only
  with_reducible repeat' first | assumption | apply State.setField_frame (hw.mono (by decide)) | apply State.setReg_frame (hw.mono (by decide)) | apply State.reportSpared_frame (hw.mono (by decide)) | apply State.gate_frame (hw.mono (by decide)) | refine Frame.foldl ?_ (fun s a h => ?_) | split

theorem execMemoryTrained_frame (hw : Within 0x200218040 ω) {r s : State} {hbm} {dimms} {us} (h : Frame ω r s) : FrameO ω r (execMemoryTrained hbm dimms us s) := by
  unfold execMemoryTrained
  try dsimp only
  with_reducible repeat' first | assumption | apply FrameO.next | apply State.bootStop_frame (hw.mono (by decide)) | apply State.ready_frame (hw.mono (by decide)) | apply State.ddrTrained_frame (hw.mono (by decide)) | apply State.hbmTrained_frame (hw.mono (by decide)) | refine Frame.foldl ?_ (fun s a h => ?_) | split

theorem execPortAcquireDone_frame (hw : Within 0x48 ω) {r s : State} {p} (h : Frame ω r s) : FrameO ω r (execPortAcquireDone p s) := by
  unfold execPortAcquireDone
  apply FrameO.next
  split
  · exact h
  · split
    · exact State.setField_frame (hw.mono (by decide)) h
    · exact State.setField_frame (hw.mono (by decide)) (Frame.of h)

theorem execPortAlignDone_frame (hw : Within 0x40 ω) {r s : State} {p} (h : Frame ω r s) : FrameO ω r (execPortAlignDone p s) := by
  unfold execPortAlignDone
  try dsimp only
  with_reducible repeat' first | assumption | apply FrameO.next | apply State.setField_frame (hw.mono (by decide)) | refine Frame.foldl ?_ (fun s a h => ?_) | split

theorem State.portDown_frame (hw : Within 0x4000080c0 ω) {r s : State} {p} (h : Frame ω r s) : Frame ω r (State.portDown s p) := by
  unfold State.portDown
  try dsimp only
  with_reducible repeat' first | assumption | apply State.setField_frame (hw.mono (by decide)) | apply State.orReg_frame (hw.mono (by decide)) | apply State.closeSessions_frame (hw.mono (by decide)) | refine Frame.foldl ?_ (fun s a h => ?_) | split

theorem execPortLightLoss_frame (hw : Within 0x4000080c0 ω) {r s : State} {p} (h : Frame ω r s) : FrameO ω r (execPortLightLoss p s) := by
  unfold execPortLightLoss
  try dsimp only
  with_reducible repeat' first | assumption | apply FrameO.next | apply State.portDown_frame (hw.mono (by decide)) | refine Frame.foldl ?_ (fun s a h => ?_) | split

theorem execPortFecLoss_frame (hw : Within 0x4000080c0 ω) {r s : State} {a0} (h : Frame ω r s) : FrameO ω r (execPortFecLoss a0 s) := by
  unfold execPortFecLoss
  try dsimp only
  with_reducible repeat' first | assumption | apply FrameO.next | apply State.portDown_frame (hw.mono (by decide)) | apply State.codewords_frame (hw.mono (by decide)) | refine Frame.foldl ?_ (fun s a h => ?_) | split

theorem execLighthouseError_frame (hw : Within 0x14065780c4 ω) {r s : State} {test} (h : Frame ω r s) : FrameO ω r (execLighthouseError test s) := by
  unfold execLighthouseError
  try dsimp only
  with_reducible repeat' first | assumption | apply FrameO.next | apply State.lighthouseFail_frame (hw.mono (by decide)) | refine Frame.foldl ?_ (fun s a h => ?_) | split

theorem State.wake_frame (hw : Within 0x100208040 ω) {r s : State} {mb} {tag} (h : Frame ω r s) : Frame ω r (State.wake s mb tag) := by
  unfold State.wake
  try dsimp only
  with_reducible repeat' first | assumption | apply State.gate_frame (hw.mono (by decide)) | apply State.centre_frame (hw.mono (by decide)) | apply State.respond_frame (hw.mono (by decide)) | refine Frame.foldl ?_ (fun s a h => ?_) | simp only [Frame.set_pwr_memc (hw.mono (by decide))] | split

theorem execWakeDone_frame (hw : Within 0x100208040 ω) {r s : State}  (h : Frame ω r s) : FrameO ω r (execWakeDone s) := by
  unfold execWakeDone
  try dsimp only
  with_reducible repeat' first | assumption | apply FrameO.next | apply State.wake_frame (hw.mono (by decide)) | refine Frame.foldl ?_ (fun s a h => ?_) | split

end Sys2Proof.Machine
end

