-- ==== Sys2Proof/Laws/Device.lean ====
section
/-!
SUPPORT. Frames of the operations of Machine/Device.lean (Laws/Frame.lean says what a frame is).
-/
namespace Sys2Proof.Machine

variable {ω : Nat}

theorem State.queueArrayCtrl_frame (hw : Within 0x100 ω) {r s : State} {mask} {lo} {len} {v} (h : Frame ω r s) : Frame ω r (State.queueArrayCtrl s mask lo len v) := by
  unfold State.queueArrayCtrl
  try dsimp only
  with_reducible repeat' first | assumption | apply State.queueField_frame (hw.mono (by decide)) | refine Frame.foldl ?_ (fun s a h => ?_) | split

theorem State.overrideMask_frame (hw : Within 0x1000 ω) {r s : State} {mask} {name} {on} (h : Frame ω r s) : Frame ω r (State.overrideMask s mask name on) := by
  unfold State.overrideMask
  try dsimp only
  with_reducible repeat' first | assumption | apply State.override_frame (hw.mono (by decide)) | apply State.basic_frame (hw.mono (by decide)) | refine Frame.foldl ?_ (fun s a h => ?_) | split

theorem cmdDevArrayCheck_framed (hw : Within 0x1100 ω) : cmdDevArrayCheck.Framed ω := by
  intro r s q h
  dsimp only [cmdDevArrayCheck]
  with_reducible repeat' first | assumption | apply State.overrideMask_frame (hw.mono (by decide)) | apply State.queueArrayCtrl_frame (hw.mono (by decide)) | apply State.overrideMask_frame (hw.mono (by decide)) | apply State.queueArrayCtrl_frame (hw.mono (by decide)) | refine Frame.foldl ?_ (fun s a h => ?_) | split

theorem cmdDevCaps_framed  : cmdDevCaps.Framed ω := by
  intro r s q h
  dsimp only [cmdDevCaps]
  with_reducible repeat' first | assumption | refine Frame.foldl ?_ (fun s a h => ?_) | split

theorem cmdDevEcho_framed  : cmdDevEcho.Framed ω := by
  intro r s q h
  dsimp only [cmdDevEcho]
  with_reducible repeat' first | assumption | refine Frame.foldl ?_ (fun s a h => ?_) | split

theorem cmdDevIdentify_framed  : cmdDevIdentify.Framed ω := by
  intro r s q h
  dsimp only [cmdDevIdentify]
  with_reducible repeat' first | assumption | refine Frame.foldl ?_ (fun s a h => ?_) | split

theorem cmdDevResetCause_framed  : cmdDevResetCause.Framed ω := by
  intro r s q h
  dsimp only [cmdDevResetCause]
  with_reducible repeat' first | assumption | refine Frame.foldl ?_ (fun s a h => ?_) | split

theorem cmdDevSleep_framed (hw : Within 0x200000 ω) : cmdDevSleep.Framed ω := by
  intro r s q h
  dsimp only [cmdDevSleep]
  with_reducible repeat' first | assumption | refine Frame.foldl ?_ (fun s a h => ?_) | simp only [Frame.set_pwr (hw.mono (by decide))] | split

theorem cmdDevSpares_framed  : cmdDevSpares.Framed ω := by
  intro r s q h
  dsimp only [cmdDevSpares]
  with_reducible repeat' first | assumption | refine Frame.foldl ?_ (fun s a h => ?_) | split

theorem cmdDevStatus_framed  : cmdDevStatus.Framed ω := by
  intro r s q h
  dsimp only [cmdDevStatus]
  with_reducible repeat' first | assumption | refine Frame.foldl ?_ (fun s a h => ?_) | split

theorem cmdDevWake_framed (hw : Within 0x200040 ω) : cmdDevWake.Framed ω := by
  intro r s q h
  dsimp only [cmdDevWake]
  with_reducible repeat' first | assumption | apply State.setField_frame (hw.mono (by decide)) | apply State.setField_frame (hw.mono (by decide)) | refine Frame.foldl ?_ (fun s a h => ?_) | simp only [Frame.set_pwr (hw.mono (by decide))] | split

theorem execDevIdentify_frame (hw : Within 0x8000 ω) {r s : State} {a0} (h : Frame ω r s) : FrameO ω r (execDevIdentify a0 s) := by
  unfold execDevIdentify
  try dsimp only
  with_reducible repeat' first | assumption | apply FrameO.next | apply Cmd.serve_frame (hw.mono (by decide)) (cmdDevIdentify_framed) | refine Frame.foldl ?_ (fun s a h => ?_) | split

theorem execDevStatus_frame (hw : Within 0x8000 ω) {r s : State} {a0} (h : Frame ω r s) : FrameO ω r (execDevStatus a0 s) := by
  unfold execDevStatus
  try dsimp only
  with_reducible repeat' first | assumption | apply FrameO.next | apply Cmd.serve_frame (hw.mono (by decide)) (cmdDevStatus_framed) | refine Frame.foldl ?_ (fun s a h => ?_) | split

theorem execDevCaps_frame (hw : Within 0x8000 ω) {r s : State} {a0} (h : Frame ω r s) : FrameO ω r (execDevCaps a0 s) := by
  unfold execDevCaps
  try dsimp only
  with_reducible repeat' first | assumption | apply FrameO.next | apply Cmd.serve_frame (hw.mono (by decide)) (cmdDevCaps_framed) | refine Frame.foldl ?_ (fun s a h => ?_) | split

theorem execDevResetCause_frame (hw : Within 0x8000 ω) {r s : State} {a0} (h : Frame ω r s) : FrameO ω r (execDevResetCause a0 s) := by
  unfold execDevResetCause
  try dsimp only
  with_reducible repeat' first | assumption | apply FrameO.next | apply Cmd.serve_frame (hw.mono (by decide)) (cmdDevResetCause_framed) | refine Frame.foldl ?_ (fun s a h => ?_) | split

theorem execDevSpares_frame (hw : Within 0x8000 ω) {r s : State} {a0} (h : Frame ω r s) : FrameO ω r (execDevSpares a0 s) := by
  unfold execDevSpares
  try dsimp only
  with_reducible repeat' first | assumption | apply FrameO.next | apply Cmd.serve_frame (hw.mono (by decide)) (cmdDevSpares_framed) | refine Frame.foldl ?_ (fun s a h => ?_) | split

theorem execDevSleep_frame (hw : Within 0x208000 ω) {r s : State} {a0} (h : Frame ω r s) : FrameO ω r (execDevSleep a0 s) := by
  unfold execDevSleep
  try dsimp only
  with_reducible repeat' first | assumption | apply FrameO.next | apply Cmd.serve_frame (hw.mono (by decide)) (cmdDevSleep_framed (hw.mono (by decide))) | refine Frame.foldl ?_ (fun s a h => ?_) | split

theorem execDevWake_frame (hw : Within 0x208040 ω) {r s : State} {a0} (h : Frame ω r s) : FrameO ω r (execDevWake a0 s) := by
  unfold execDevWake
  try dsimp only
  with_reducible repeat' first | assumption | apply FrameO.next | apply Cmd.serve_frame (hw.mono (by decide)) (cmdDevWake_framed (hw.mono (by decide))) | refine Frame.foldl ?_ (fun s a h => ?_) | split

theorem execDevEcho_frame (hw : Within 0x8000 ω) {r s : State} {a0} (h : Frame ω r s) : FrameO ω r (execDevEcho a0 s) := by
  unfold execDevEcho
  try dsimp only
  with_reducible repeat' first | assumption | apply FrameO.next | apply Cmd.serve_frame (hw.mono (by decide)) (cmdDevEcho_framed) | refine Frame.foldl ?_ (fun s a h => ?_) | split

theorem execDevArrayCheck_frame (hw : Within 0x9100 ω) {r s : State} {a0} (h : Frame ω r s) : FrameO ω r (execDevArrayCheck a0 s) := by
  unfold execDevArrayCheck
  try dsimp only
  with_reducible repeat' first | assumption | apply FrameO.next | apply Cmd.serve_frame (hw.mono (by decide)) (cmdDevArrayCheck_framed (hw.mono (by decide))) | refine Frame.foldl ?_ (fun s a h => ?_) | split

end Sys2Proof.Machine
end

