-- ==== Sys2Proof/Laws/Prof.lean ====
section
/-!
SUPPORT. Frames of the operations of Machine/Prof.lean (Laws/Frame.lean says what a frame is).
-/
namespace Sys2Proof.Machine

variable {ω : Nat}

theorem cmdProfGet_framed  : cmdProfGet.Framed ω := by
  intro r s q h
  dsimp only [cmdProfGet]
  with_reducible repeat' first | assumption | refine Frame.foldl ?_ (fun s a h => ?_) | split

theorem cmdProfHistory_framed  : cmdProfHistory.Framed ω := by
  intro r s q h
  dsimp only [cmdProfHistory]
  with_reducible repeat' first | assumption | refine Frame.foldl ?_ (fun s a h => ?_) | split

theorem cmdProfLimits_framed  : cmdProfLimits.Framed ω := by
  intro r s q h
  dsimp only [cmdProfLimits]
  with_reducible repeat' first | assumption | refine Frame.foldl ?_ (fun s a h => ?_) | split

theorem cmdProfRamp_framed (hw : Within 0x1100 ω) : cmdProfRamp.Framed ω := by
  intro r s q h
  dsimp only [cmdProfRamp]
  with_reducible repeat' first | assumption | apply State.overrideMask_frame (hw.mono (by decide)) | apply State.queueArrayCtrl_frame (hw.mono (by decide)) | apply State.overrideMask_frame (hw.mono (by decide)) | apply State.queueArrayCtrl_frame (hw.mono (by decide)) | refine Frame.foldl ?_ (fun s a h => ?_) | split

theorem cmdProfSet_framed (hw : Within 0x201040 ω) : cmdProfSet.Framed ω := by
  intro r s q h
  dsimp only [cmdProfSet]
  with_reducible repeat' first | assumption | apply State.basic_frame (hw.mono (by decide)) | apply State.acceptProf_frame (hw.mono (by decide)) | apply State.basic_frame (hw.mono (by decide)) | apply State.acceptProf_frame (hw.mono (by decide)) | refine Frame.foldl ?_ (fun s a h => ?_) | split

theorem execProfSet_frame (hw : Within 0x209040 ω) {r s : State} {a0} (h : Frame ω r s) : FrameO ω r (execProfSet a0 s) := by
  unfold execProfSet
  try dsimp only
  with_reducible repeat' first | assumption | apply FrameO.next | apply Cmd.serve_frame (hw.mono (by decide)) (cmdProfSet_framed (hw.mono (by decide))) | refine Frame.foldl ?_ (fun s a h => ?_) | split

theorem execProfGet_frame (hw : Within 0x8000 ω) {r s : State} {a0} (h : Frame ω r s) : FrameO ω r (execProfGet a0 s) := by
  unfold execProfGet
  try dsimp only
  with_reducible repeat' first | assumption | apply FrameO.next | apply Cmd.serve_frame (hw.mono (by decide)) (cmdProfGet_framed) | refine Frame.foldl ?_ (fun s a h => ?_) | split

theorem execProfLimits_frame (hw : Within 0x8000 ω) {r s : State} {a0} (h : Frame ω r s) : FrameO ω r (execProfLimits a0 s) := by
  unfold execProfLimits
  try dsimp only
  with_reducible repeat' first | assumption | apply FrameO.next | apply Cmd.serve_frame (hw.mono (by decide)) (cmdProfLimits_framed) | refine Frame.foldl ?_ (fun s a h => ?_) | split

theorem execProfRamp_frame (hw : Within 0x9100 ω) {r s : State} {a0} (h : Frame ω r s) : FrameO ω r (execProfRamp a0 s) := by
  unfold execProfRamp
  try dsimp only
  with_reducible repeat' first | assumption | apply FrameO.next | apply Cmd.serve_frame (hw.mono (by decide)) (cmdProfRamp_framed (hw.mono (by decide))) | refine Frame.foldl ?_ (fun s a h => ?_) | split

theorem execProfHistory_frame (hw : Within 0x8000 ω) {r s : State} {a0} (h : Frame ω r s) : FrameO ω r (execProfHistory a0 s) := by
  unfold execProfHistory
  try dsimp only
  with_reducible repeat' first | assumption | apply FrameO.next | apply Cmd.serve_frame (hw.mono (by decide)) (cmdProfHistory_framed) | refine Frame.foldl ?_ (fun s a h => ?_) | split

end Sys2Proof.Machine
end

