-- ==== Sys2Proof/Laws/Change.lean ====
section
/-!
SUPPORT. Frames of the operations of Machine/Change.lean (Laws/Frame.lean says what a frame is).
-/
namespace Sys2Proof.Machine

variable {ω : Nat}

theorem State.applyShadow_frame (hw : Within 0x500340 ω) {r s : State} {b} {a2} (h : Frame ω r s) : Frame ω r (State.applyShadow b s a2) := by
  unfold State.applyShadow
  try dsimp only
  with_reducible repeat' first | assumption | apply State.storedAt_frame (hw.mono (by decide)) | apply State.setRoute_frame (hw.mono (by decide)) | apply State.orReg_frame (hw.mono (by decide)) | apply State.setReg_frame (hw.mono (by decide)) | refine Frame.foldl ?_ (fun s a h => ?_) | simp only [Frame.set_shadow (hw.mono (by decide))] | split

theorem State.applyShadows_frame (hw : Within 0x500340 ω) {r s : State} {b} (h : Frame ω r s) : Frame ω r (State.applyShadows s b) := by
  unfold State.applyShadows
  try dsimp only
  with_reducible repeat' first | assumption | apply State.applyShadow_frame (hw.mono (by decide)) | refine Frame.foldl ?_ (fun s a h => ?_) | simp only [Frame.set_shadow (hw.mono (by decide))] | split

theorem State.recheckImage_frame (hw : Within 0x2058040 ω) {r s : State} {b} {a2} (h : Frame ω r s) : Frame ω r (State.recheckImage b s a2) := by
  unfold State.recheckImage
  try dsimp only
  with_reducible repeat' first | assumption | apply State.setImage_frame (hw.mono (by decide)) | apply State.withdraw_frame (hw.mono (by decide)) | refine Frame.foldl ?_ (fun s a h => ?_) | split

theorem State.recheck_frame (hw : Within 0x2058040 ω) {r s : State} {b} (h : Frame ω r s) : Frame ω r (State.recheck s b) := by
  unfold State.recheck
  try dsimp only
  with_reducible repeat' first | assumption | apply State.recheckImage_frame (hw.mono (by decide)) | refine Frame.foldl ?_ (fun s a h => ?_) | split

theorem State.setProf_frame (hw : Within 0x40 ω) {r s : State} {v} (h : Frame ω r s) : Frame ω r (State.setProf s v) := by
  unfold State.setProf
  try dsimp only
  with_reducible repeat' first | assumption | apply State.setField_frame (hw.mono (by decide)) | refine Frame.foldl ?_ (fun s a h => ?_) | split

theorem State.profChange_frame (hw : Within 0x218000 ω) {r s : State} {a1} {cause} {old} {new} (h : Frame ω r s) : Frame ω r (State.profChange s a1 cause old new) := by
  unfold State.profChange
  try dsimp only
  with_reducible repeat' first | assumption | apply State.log__frame (hw.mono (by decide)) | refine Frame.foldl ?_ (fun s a h => ?_) | simp only [Frame.set_pwr (hw.mono (by decide))] | split

theorem State.splitEvent_frame (hw : Within 0x18000 ω) {r s : State} {entered} (h : Frame ω r s) : Frame ω r (State.splitEvent s entered) := by
  unfold State.splitEvent
  try dsimp only
  with_reducible repeat' first | assumption | apply State.logFull_frame (hw.mono (by decide)) | refine Frame.foldl ?_ (fun s a h => ?_) | split

theorem State.splitWithdraw_frame (hw : Within 0x2058040 ω) {r s : State} {b} {a2} (h : Frame ω r s) : Frame ω r (State.splitWithdraw b s a2) := by
  unfold State.splitWithdraw
  try dsimp only
  with_reducible repeat' first | assumption | apply State.withdraw_frame (hw.mono (by decide)) | refine Frame.foldl ?_ (fun s a h => ?_) | split

theorem State.splitEntry_frame (hw : Within 0x2258040 ω) {r s : State} {b} (h : Frame ω r s) : Frame ω r (State.splitEntry s b) := by
  unfold State.splitEntry
  try dsimp only
  with_reducible repeat' first | assumption | apply State.splitEvent_frame (hw.mono (by decide)) | apply State.orReg_frame (hw.mono (by decide)) | apply State.setReg_frame (hw.mono (by decide)) | apply State.splitWithdraw_frame (hw.mono (by decide)) | apply State.dropStrait_frame (hw.mono (by decide)) | refine Frame.foldl ?_ (fun s a h => ?_) | split

theorem State.splitExit_frame (hw : Within 0x18040 ω) {r s : State}  (h : Frame ω r s) : Frame ω r (State.splitExit s) := by
  unfold State.splitExit
  try dsimp only
  with_reducible repeat' first | assumption | apply State.splitEvent_frame (hw.mono (by decide)) | apply State.setReg_frame (hw.mono (by decide)) | refine Frame.foldl ?_ (fun s a h => ?_) | split

theorem State.busyHalf_frame (hw : Within 0x200000 ω) {r s : State} {a1} {lowered} (h : Frame ω r s) : Frame ω r (State.busyHalf s a1 lowered) := by
  unfold State.busyHalf
  try dsimp only
  with_reducible repeat' first | assumption | refine Frame.foldl ?_ (fun s a h => ?_) | simp only [Frame.set_pwr (hw.mono (by decide))] | split

theorem State.forceOne_frame (hw : Within 0x218040 ω) {r s : State} {a0} {f} (h : Frame ω r s) : Frame ω r (State.forceOne a0 s f) := by
  unfold State.forceOne
  try dsimp only
  with_reducible repeat' first | assumption | apply State.profChange_frame (hw.mono (by decide)) | apply State.setProf_frame (hw.mono (by decide)) | apply State.count_frame (hw.mono (by decide)) | apply State.busyHalf_frame (hw.mono (by decide)) | refine Frame.foldl ?_ (fun s a h => ?_) | split

theorem State.commandOne_frame (hw : Within 0x218040 ω) {r s : State} {a1} {p} (h : Frame ω r s) : Frame ω r (State.commandOne s a1 p) := by
  unfold State.commandOne
  try dsimp only
  with_reducible repeat' first | assumption | apply State.setProf_frame (hw.mono (by decide)) | apply State.profChange_frame (hw.mono (by decide)) | refine Frame.foldl ?_ (fun s a h => ?_) | split

theorem State.profKey_frame (hw : Within 0x2258040 ω) {r s : State} {b} {a1} {k} (h : Frame ω r s) : Frame ω r (State.profKey b a1 s k) := by
  unfold State.profKey
  try dsimp only
  with_reducible repeat' first | assumption | apply State.splitEntry_frame (hw.mono (by decide)) | apply State.forceOne_frame (hw.mono (by decide)) | apply State.commandOne_frame (hw.mono (by decide)) | apply State.setProf_frame (hw.mono (by decide)) | apply State.splitExit_frame (hw.mono (by decide)) | refine Frame.foldl ?_ (fun s a h => ?_) | split

theorem State.applyProfiles_frame (hw : Within 0x2278040 ω) {r s : State} {b} {a2} (h : Frame ω r s) : Frame ω r (State.applyProfiles s b a2) := by
  unfold State.applyProfiles
  try dsimp only
  with_reducible repeat' first | assumption | apply State.profKey_frame (hw.mono (by decide)) | apply State.centrePairs_frame (hw.mono (by decide)) | apply State.holdThrottled_frame (hw.mono (by decide)) | apply State.syncProf_frame (hw.mono (by decide)) | refine Frame.foldl ?_ (fun s a h => ?_) | simp only [Frame.set_pwr (hw.mono (by decide))] | simp only [Frame.set_tide_pwr (hw.mono (by decide))] | split

theorem State.settlePoint_frame (hw : Within 0x200000 ω) {r s : State}  (h : Frame ω r s) : Frame ω r (State.settlePoint s) := by
  unfold State.settlePoint
  try dsimp only
  with_reducible repeat' first | assumption | refine Frame.foldl ?_ (fun s a h => ?_) | simp only [Frame.set_pwr (hw.mono (by decide))] | split

theorem State.setConfig_frame (hw : Within 0x40 ω) {r s : State} {k} (h : Frame ω r s) : Frame ω r (State.setConfig s k) := by
  unfold State.setConfig
  try dsimp only
  with_reducible repeat' first | assumption | apply State.setReg_frame (hw.mono (by decide)) | refine Frame.foldl ?_ (fun s a h => ?_) | split

theorem State.leaveGroup_frame (hw : Within 0xa1040 ω) {r s : State} {b} (h : Frame ω r s) : Frame ω r (State.leaveGroup s b) := by
  unfold State.leaveGroup
  try dsimp only
  with_reducible repeat' first | assumption | apply State.basic_frame (hw.mono (by decide)) | apply State.setReg_frame (hw.mono (by decide)) | refine Frame.foldl ?_ (fun s a h => ?_) | simp only [Frame.set_tide_group (hw.mono (by decide))] | split

theorem State.stopLost_frame (hw : Within 0x1606578040 ω) {r s : State}  (h : Frame ω r s) : Frame ω r (State.stopLost s) := by
  unfold State.stopLost
  try dsimp only
  with_reducible repeat' first | assumption | apply State.restart_frame (hw.mono (by decide)) | refine Frame.foldl ?_ (fun s a h => ?_) | simp only [Frame.set_tide (hw.mono (by decide))] | split

theorem State.powerDown_frame (hw : Within 0xe402040 ω) {r s : State} {retain} (h : Frame ω r s) : Frame ω r (s.powerDown retain) := by
  have k : Frame ω r ((List.range 16).foldl State.loseBay ((List.range 20).foldl (fun s r => s.setRegionMode r 2) s)) :=
    Frame.foldl (Frame.foldl h fun s a h => State.setRegionMode_frame (hw.mono (by decide)) h) fun s a h => State.loseBay_frame (hw.mono (by decide)) h
  unfold State.powerDown
  dsimp only
  generalize (List.range 16).foldl State.loseBay ((List.range 20).foldl (fun s r => s.setRegionMode r 2) s) = e at k ⊢
  rw [Frame.set_nums (hw.mono (by decide))]
  refine Frame.foldl ?_ fun s a h => State.setLstate_frame (hw.mono (by decide)) (State.setLink_frame (hw.mono (by decide)) h)
  split
  · exact k
  · exact Frame.of k (mem := fun w => by dsimp only; exact Memory.dropKeys_wf _ _ w)

theorem State.enterSleep_frame (hw : Within 0xe622040 ω) {r s : State} {b} (h : Frame ω r s) : Frame ω r (State.enterSleep s b) := by
  unfold State.enterSleep
  try dsimp only
  with_reducible repeat' first | assumption | apply State.powerDown_frame (hw.mono (by decide)) | refine Frame.foldl ?_ (fun s a h => ?_) | simp only [Frame.set_tide_pwr (hw.mono (by decide))] | split

theorem State.applyChanges_frame (hw : Within 0x1f0e7ff344 ω) {r s : State} {b} {a2} (h : Frame ω r s) : Frame ω r (State.applyChanges s b a2) := by
  unfold State.applyChanges
  try dsimp only
  with_reducible repeat' first | assumption | apply State.applyProfiles_frame (hw.mono (by decide)) | apply State.recheck_frame (hw.mono (by decide)) | apply State.applyShadows_frame (hw.mono (by decide)) | apply State.rowsDue_frame (hw.mono (by decide)) | apply State.applyRows_frame (hw.mono (by decide)) | apply State.applyOrders_frame (hw.mono (by decide)) | apply State.leaveGroup_frame (hw.mono (by decide)) | apply State.retryPaths_frame (hw.mono (by decide)) | apply State.pump_frame (hw.mono (by decide)) | apply State.reroute_frame (hw.mono (by decide)) | apply State.rescale_frame (hw.mono (by decide)) | refine Frame.foldl ?_ (fun s a h => ?_) | split

theorem State.step3_frame (hw : Within 0x1f7ffff344 ω) {r s : State} {due} {n g} (h : Frame ω r s) : Frame ω r (State.step3 s due n g) := by
  unfold State.step3
  extract_lets b closed s1 t0 s2 s3 s4 s5 s6
  have k1 : Frame ω r s1 := State.applyChanges_frame (hw.mono (by decide)) h
  clear_value s1
  have k2 : Frame ω r s2 := (Frame.set_tide_evts (hw.mono (by decide))).2 k1
  clear_value s2
  have k3 : Frame ω r s3 := State.gateBays_frame (hw.mono (by decide)) (State.setConfig_frame (hw.mono (by decide)) k2)
  have k4 : Frame ω r s4 := Frame.ite (State.stepAdvance_frame (hw.mono (by decide)) k3) k3
  have k5 : Frame ω r s5 := State.returnChunks_frame (hw.mono (by decide)) (State.startSliceCopies_frame (hw.mono (by decide)) (State.startPcCopies_frame (hw.mono (by decide)) k4))
  have k6 : Frame ω r s6 := Frame.ite (State.restoreApply_frame (hw.mono (by decide)) k5) k5
  exact State.tideline_frame (hw.mono (by decide)) (State.enterSleep_frame (hw.mono (by decide)) (State.stopLost_frame (hw.mono (by decide)) k6))

end Sys2Proof.Machine
end

