-- ==== Sys2Proof/Laws/Boundary.lean ====
section
/-!
SUPPORT. Frames of the operations of Machine/Boundary.lean (Laws/Frame.lean says what a frame is).
-/
namespace Sys2Proof.Machine

variable {ω : Nat}

theorem State.startCores_frame (hw : Within 0x16000040 ω) {r s : State} {kept} {new} {k} (h : Frame ω r s) : Frame ω r (State.startCores s kept new k) := by
  unfold State.startCores
  dsimp only
  exact Frame.of h (regs := fun w => by dsimp only; exact Sparse.dropKeys_wf _ _ _ w)

theorem State.openTide_frame (hw : Within 0x17ded7e040 ω) {r s : State} {k} (h : Frame ω r s) : Frame ω r (State.openTide s k) := by
  unfold State.openTide
  try dsimp only
  with_reducible repeat' first | assumption | apply State.startCores_frame (hw.mono (by decide)) | apply State.orReg_frame (hw.mono (by decide)) | apply State.ownDone_frame (hw.mono (by decide)) | apply State.barriersGo_frame (hw.mono (by decide)) | apply State.keepOpening_frame (hw.mono (by decide)) | refine Frame.foldl ?_ (fun s a h => ?_) | simp only [Frame.set_tide (hw.mono (by decide))] | simp only [Frame.set_tide_images_lists_bkt (hw.mono (by decide))] | split

theorem State.stopTide_frame (hw : Within 0x56860040 ω) {r s : State} {k} (h : Frame ω r s) : Frame ω r (State.stopTide s k) := by
  unfold State.stopTide
  try dsimp only
  with_reducible repeat' first | assumption | apply State.startCores_frame (hw.mono (by decide)) | refine Frame.foldl ?_ (fun s a h => ?_) | simp only [Frame.set_tide_images_lists_bkt (hw.mono (by decide))] | split

theorem State.endWait_frame (hw : Within 0x38040 ω) {r s : State}  (h : Frame ω r s) : Frame ω r (State.endWait s) := by
  unfold State.endWait
  try dsimp only
  with_reducible repeat' first | assumption | apply State.heldEntry_frame (hw.mono (by decide)) | refine Frame.foldl ?_ (fun s a h => ?_) | simp only [Frame.set_tide (hw.mono (by decide))] | split

theorem State.step4_frame (hw : Within 0x17def7e040 ω) {r s : State}  (h : Frame ω r s) : Frame ω r (State.step4 s) := by
  unfold State.step4
  try dsimp only
  with_reducible repeat' first | assumption | apply State.endWait_frame (hw.mono (by decide)) | apply State.settlePoint_frame (hw.mono (by decide)) | apply State.stopTide_frame (hw.mono (by decide)) | apply State.openTide_frame (hw.mono (by decide)) | refine Frame.foldl ?_ (fun s a h => ?_) | split

theorem State.tryOpen_frame (hw : Within 0x17def7e040 ω) {r s : State}  (h : Frame ω r s) : Frame ω r (State.tryOpen s) := by
  unfold State.tryOpen
  try dsimp only
  with_reducible repeat' first | assumption | apply State.step4_frame (hw.mono (by decide)) | refine Frame.foldl ?_ (fun s a h => ?_) | split

theorem State.runBoundary_frame (hw : Within 0x1ffffff344 ω) {r s : State}  (h : Frame ω r s) : Frame ω r (State.runBoundary s) := by
  unfold State.runBoundary
  try dsimp only
  with_reducible repeat' first | assumption | apply State.step3_frame (hw.mono (by decide)) | apply State.closeTide_frame (hw.mono (by decide)) | apply State.closeNone_frame (hw.mono (by decide)) | apply State.tryOpen_frame (hw.mono (by decide)) | refine Frame.foldl ?_ (fun s a h => ?_) | simp only [Frame.set_tide (hw.mono (by decide))] | split

theorem execTideBoundary_frame (hw : Within 0x1ffffff344 ω) {r s : State}  (h : Frame ω r s) : FrameO ω r (execTideBoundary s) := by
  unfold execTideBoundary
  try dsimp only
  with_reducible repeat' first | assumption | apply FrameO.next | apply State.tryOpen_frame (hw.mono (by decide)) | apply State.runBoundary_frame (hw.mono (by decide)) | refine Frame.foldl ?_ (fun s a h => ?_) | split

theorem execFreqSettleEnd_frame (hw : Within 0x17def7e040 ω) {r s : State}  (h : Frame ω r s) : FrameO ω r (execFreqSettleEnd s) := by
  unfold execFreqSettleEnd
  try dsimp only
  with_reducible repeat' first | assumption | apply FrameO.next | apply State.endWait_frame (hw.mono (by decide)) | apply State.tryOpen_frame (hw.mono (by decide)) | apply State.settlePoint_frame (hw.mono (by decide)) | refine Frame.foldl ?_ (fun s a h => ?_) | simp only [Frame.set_tide_pwr (hw.mono (by decide))] | split

theorem State.stoppedSettle_frame (hw : Within 0x220000 ω) {r s : State} {last} (h : Frame ω r s) : Frame ω r (State.stoppedSettle s last) := by
  unfold State.stoppedSettle
  try dsimp only
  with_reducible repeat' first | assumption | apply State.settlePoint_frame (hw.mono (by decide)) | refine Frame.foldl ?_ (fun s a h => ?_) | simp only [Frame.set_tide (hw.mono (by decide))] | split

theorem State.stoppedApply_frame (hw : Within 0x1f0e7ff344 ω) {r s : State}  (h : Frame ω r s) : Frame ω r (State.stoppedApply s) := by
  unfold State.stoppedApply
  try dsimp only
  with_reducible repeat' first | assumption | apply State.stoppedSettle_frame (hw.mono (by decide)) | apply State.enterSleep_frame (hw.mono (by decide)) | apply State.applyChanges_frame (hw.mono (by decide)) | refine Frame.foldl ?_ (fun s a h => ?_) | split

theorem execStoppedApply_frame (hw : Within 0x1f0e7ff344 ω) {r s : State}  (h : Frame ω r s) : FrameO ω r (execStoppedApply s) := by
  unfold execStoppedApply
  try dsimp only
  with_reducible repeat' first | assumption | apply FrameO.next | apply State.stoppedApply_frame (hw.mono (by decide)) | refine Frame.foldl ?_ (fun s a h => ?_) | split

theorem execSleepEntryDone_frame (hw : Within 0x200040 ω) {r s : State}  (h : Frame ω r s) : FrameO ω r (execSleepEntryDone s) := by
  unfold execSleepEntryDone
  try dsimp only
  with_reducible repeat' first | assumption | apply FrameO.next | apply State.setRegionMode_frame (hw.mono (by decide)) | refine Frame.foldl ?_ (fun s a h => ?_) | simp only [Frame.set_pwr (hw.mono (by decide))] | split

theorem State.releaseFreeze_frame (hw : Within 0x1606578040 ω) {r s : State}  (h : Frame ω r s) : Frame ω r (State.releaseFreeze s) := by
  unfold State.releaseFreeze
  try dsimp only
  with_reducible repeat' first | assumption | apply State.broadcast_frame (hw.mono (by decide)) | refine Frame.foldl ?_ (fun s a h => ?_) | simp only [Frame.set_tide (hw.mono (by decide))] | split

theorem execSnapFreezeDone_frame (hw : Within 0x17def7e040 ω) {r s : State}  (h : Frame ω r s) : FrameO ω r (execSnapFreezeDone s) := by
  unfold execSnapFreezeDone
  try dsimp only
  with_reducible repeat' first | assumption | apply FrameO.next | apply State.setReg_frame (hw.mono (by decide)) | apply State.startTransfer_frame (hw.mono (by decide)) | apply State.tryOpen_frame (hw.mono (by decide)) | apply State.releaseFreeze_frame (hw.mono (by decide)) | refine Frame.foldl ?_ (fun s a h => ?_) | simp only [Frame.set_snap (hw.mono (by decide))] | split

end Sys2Proof.Machine
end

