-- ==== Sys2Proof/Laws/MemEvents.lean ====
section
/-!
SUPPORT. Frames of the operations of Machine/MemEvents.lean (Laws/Frame.lean says what a frame is).
-/
namespace Sys2Proof.Machine

variable {ω : Nat}

theorem cmdMemRead_framed (hw : Within 0x1777d7e044 ω) : cmdMemRead.Framed ω := by
  intro r s q h
  dsimp only [cmdMemRead]
  with_reducible repeat' first | assumption | apply State.meetRead_frame (hw.mono (by decide)) | apply State.meetRead_frame (hw.mono (by decide)) | refine Frame.foldl ?_ (fun s a h => ?_) | split

theorem execMemRead_frame (hw : Within 0x1777d7e044 ω) {r s : State} {a0} (h : Frame ω r s) : FrameO ω r (execMemRead a0 s) := by
  unfold execMemRead
  try dsimp only
  with_reducible repeat' first | assumption | apply FrameO.next | apply Cmd.serve_frame (hw.mono (by decide)) (cmdMemRead_framed (hw.mono (by decide))) | refine Frame.foldl ?_ (fun s a h => ?_) | split

theorem badRead_frame (hw : Within 0x1777d7e040 ω) {r s : State} {core} {a} (h : Frame ω r s) : Frame ω r (badRead core a s) := by
  unfold badRead
  try dsimp only
  with_reducible repeat' first | assumption | apply State.ueHandle_frame (hw.mono (by decide)) | apply State.recordUe_frame (hw.mono (by decide)) | refine Frame.foldl ?_ (fun s a h => ?_) | split

theorem execRld_frame (hw : Within 0x177fd7e040 ω) {r s : State} {core} {list} (h : Frame ω r s) : FrameO ω r (execRld core list s) := by
  unfold execRld
  try dsimp only
  with_reducible repeat' first | assumption | apply FrameO.next | refine State.rld_frame (hw.mono (by decide)) (fun c a s h => ?_) ?_ | apply badRead_frame (hw.mono (by decide)) | refine Frame.foldl ?_ (fun s a h => ?_) | split

theorem State.sdTurn_frame (hw : Within 0x177fd7e040 ω) {r s : State} {core} {num} {again} (h : Frame ω r s) : Frame ω r (State.sdTurn s core num again) := by
  unfold State.sdTurn
  try dsimp only
  with_reducible repeat' first | assumption | apply State.settle_frame (hw.mono (by decide)) | refine State.tryArm_frame (hw.mono (by decide)) (fun c a s h => ?_) ?_ | apply badRead_frame (hw.mono (by decide)) | refine Frame.foldl ?_ (fun s a h => ?_) | split

theorem execSd_frame (hw : Within 0x177fd7e040 ω) {r s : State} {core} {list} (h : Frame ω r s) : FrameO ω r (execSd core list s) := by
  unfold execSd
  try dsimp only
  with_reducible repeat' first | assumption | apply FrameO.next | apply State.sdTurn_frame (hw.mono (by decide)) | refine Frame.foldl ?_ (fun s a h => ?_) | split

theorem execSdArmRetry_frame (hw : Within 0x177fd7e040 ω) {r s : State} {core} {list} (h : Frame ω r s) : FrameO ω r (execSdArmRetry core list s) := by
  unfold execSdArmRetry
  try dsimp only
  with_reducible repeat' first | assumption | apply FrameO.next | apply State.sdTurn_frame (hw.mono (by decide)) | refine Frame.foldl ?_ (fun s a h => ?_) | split

theorem execSdComplete_frame (hw : Within 0x171ed7e040 ω) {r s : State} {core} {queue} {entry} (h : Frame ω r s) : FrameO ω r (execSdComplete core queue entry s) := by
  unfold execSdComplete
  try dsimp only
  with_reducible repeat' first | assumption | apply FrameO.next | apply State.settle_frame (hw.mono (by decide)) | apply State.sdComplete_frame (hw.mono (by decide)) | refine Frame.foldl ?_ (fun s a h => ?_) | split

theorem State.headEnds_frame (hw : Within 0x2000000 ω) {r s : State} {o} {a2} (h : Frame ω r s) : Frame ω r (State.headEnds s o a2) := by
  unfold State.headEnds
  try dsimp only
  with_reducible repeat' first | assumption | apply State.setHead_frame (hw.mono (by decide)) | apply State.endOp_frame (hw.mono (by decide)) | refine Frame.foldl ?_ (fun s a h => ?_) | split

theorem State.headFails_frame (hw : Within 0x1777d7e040 ω) {r s : State} {o} {a2} {a} (h : Frame ω r s) : Frame ω r (State.headFails s o a2 a) := by
  unfold State.headFails
  try dsimp only
  with_reducible repeat' first | assumption | apply State.setHead_frame (hw.mono (by decide)) | apply State.endOp_frame (hw.mono (by decide)) | apply badRead_frame (hw.mono (by decide)) | apply State.streamErr_frame (hw.mono (by decide)) | refine Frame.foldl ?_ (fun s a h => ?_) | split

theorem State.opDone_frame (hw : Within 0x171ed7e040 ω) {r s : State} {o} {data} (h : Frame ω r s) : Frame ω r (State.opDone s o data) := by
  unfold State.opDone
  try dsimp only
  with_reducible repeat' first | assumption | apply State.settle_frame (hw.mono (by decide)) | apply State.headEnds_frame (hw.mono (by decide)) | apply State.opEnds_frame (hw.mono (by decide)) | refine Frame.foldl ?_ (fun s a h => ?_) | split

theorem State.opBad_frame (hw : Within 0x177fd7e040 ω) {r s : State} {o} {k} (h : Frame ω r s) : Frame ω r (State.opBad s o k) := by
  unfold State.opBad
  try dsimp only
  with_reducible repeat' first | assumption | apply State.opDone_frame (hw.mono (by decide)) | apply State.headFails_frame (hw.mono (by decide)) | refine State.opFails_frame (hw.mono (by decide)) (fun s h => ?_) ?_ | apply badRead_frame (hw.mono (by decide)) | refine Frame.foldl ?_ (fun s a h => ?_) | split

theorem State.opComplete_frame (hw : Within 0x177fd7e044 ω) {r s : State} {o} {a2} (h : Frame ω r s) : Frame ω r (State.opComplete s o a2) := by
  unfold State.opComplete
  try dsimp only
  with_reducible repeat' first | assumption | refine State.opFails_frame (hw.mono (by decide)) (fun s h => ?_) ?_ | apply State.ueHandle_frame (hw.mono (by decide)) | apply State.opDone_frame (hw.mono (by decide)) | apply State.correctable_frame (hw.mono (by decide)) | apply State.opBad_frame (hw.mono (by decide)) | refine Frame.foldl ?_ (fun s a h => ?_) | split

theorem execMemOpComplete_frame (hw : Within 0x177fd7e044 ω) {r s : State} {op} {outcome} (h : Frame ω r s) : FrameO ω r (execMemOpComplete op outcome s) := by
  unfold execMemOpComplete
  try dsimp only
  with_reducible repeat' first | assumption | apply FrameO.next | apply State.opComplete_frame (hw.mono (by decide)) | refine Frame.foldl ?_ (fun s a h => ?_) | split

theorem State.serveRead_frame (hw : Within 0x177fd7e044 ω) {r s : State} {p} {outcome} (h : Frame ω r s) : Frame ω r (State.serveRead s p outcome) := by
  unfold State.serveRead
  try dsimp only
  with_reducible repeat' first | assumption | apply State.originate_frame (hw.mono (by decide)) | apply State.opComplete_frame (hw.mono (by decide)) | apply State.correctable_frame (hw.mono (by decide)) | apply State.ueHandle_frame (hw.mono (by decide)) | apply State.recordUe_frame (hw.mono (by decide)) | refine Frame.foldl ?_ (fun s a h => ?_) | split

theorem execReadReq_frame (hw : Within 0x177fd7e044 ω) {r s : State} {l} {resent} {p} {outcome} (h : Frame ω r s) : FrameO ω r (execReadReq l resent p outcome s) := by
  unfold execReadReq
  try dsimp only
  with_reducible repeat' first | assumption | apply FrameO.next | refine State.arrive_frame (hw.mono (by decide)) (fun s p h => ?_) ?_ | apply State.serveRead_frame (hw.mono (by decide)) | refine Frame.foldl ?_ (fun s a h => ?_) | split

theorem State.remoteFails_frame (hw : Within 0x1706d7e040 ω) {r s : State} {o} (h : Frame ω r s) : Frame ω r (State.remoteFails s o) := by
  unfold State.remoteFails
  try dsimp only
  with_reducible repeat' first | assumption | refine State.opFails_frame (hw.mono (by decide)) (fun s h => ?_) ?_ | apply State.restart_frame (hw.mono (by decide)) | refine Frame.foldl ?_ (fun s a h => ?_) | split

theorem execReadData_frame (hw : Within 0x177fd7e044 ω) {r s : State} {l} {resent} {p} (h : Frame ω r s) : FrameO ω r (execReadData l resent p s) := by
  unfold execReadData
  try dsimp only
  with_reducible repeat' first | assumption | apply FrameO.next | refine State.arrive_frame (hw.mono (by decide)) (fun s p h => ?_) ?_ | apply execMemOpComplete_frame (hw.mono (by decide)) | apply State.remoteFails_frame (hw.mono (by decide)) | apply State.opDone_frame (hw.mono (by decide)) | refine Frame.foldl ?_ (fun s a h => ?_) | split

theorem execWritePkt_frame (hw : Within 0x170657e040 ω) {r s : State} {l} {resent} {p} (h : Frame ω r s) : FrameO ω r (execWritePkt l resent p s) := by
  unfold execWritePkt
  try dsimp only
  with_reducible repeat' first | assumption | apply FrameO.next | refine State.arrive_frame (hw.mono (by decide)) (fun s p h => ?_) ?_ | apply State.originate_frame (hw.mono (by decide)) | apply State.store_frame (hw.mono (by decide)) | refine Frame.foldl ?_ (fun s a h => ?_) | split

theorem execWriteAck_frame (hw : Within 0x177fd7e044 ω) {r s : State} {l} {resent} {p} (h : Frame ω r s) : FrameO ω r (execWriteAck l resent p s) := by
  unfold execWriteAck
  try dsimp only
  with_reducible repeat' first | assumption | apply FrameO.next | refine State.arrive_frame (hw.mono (by decide)) (fun s p h => ?_) ?_ | apply execMemOpComplete_frame (hw.mono (by decide)) | apply State.remoteFails_frame (hw.mono (by decide)) | apply State.opDone_frame (hw.mono (by decide)) | refine Frame.foldl ?_ (fun s a h => ?_) | split

theorem State.takeUnreach_frame (hw : Within 0x177fd7e044 ω) {r s : State} {p} (h : Frame ω r s) : Frame ω r (State.takeUnreach s p) := by
  unfold State.takeUnreach
  try dsimp only
  with_reducible repeat' first | assumption | apply State.bktError_frame (hw.mono (by decide)) | apply execMemOpComplete_frame (hw.mono (by decide)) | apply State.opUnreachable_frame (hw.mono (by decide)) | refine Frame.foldl ?_ (fun s a h => ?_) | split

theorem execUnreach_frame (hw : Within 0x177fd7e044 ω) {r s : State} {l} {resent} {p} (h : Frame ω r s) : FrameO ω r (execUnreach l resent p s) := by
  unfold execUnreach
  try dsimp only
  with_reducible repeat' first | assumption | apply FrameO.next | refine State.arrive_frame (hw.mono (by decide)) (fun s p h => ?_) ?_ | apply State.takeUnreach_frame (hw.mono (by decide)) | refine Frame.foldl ?_ (fun s a h => ?_) | split

theorem State.sliceLine_frame (hw : Within 0x177fd7e044 ω) {r s : State} {a1} {a2} (h : Frame ω r s) : Frame ω r (State.sliceLine s a1 a2) := by
  unfold State.sliceLine
  try dsimp only
  with_reducible repeat' first | assumption | apply State.opComplete_frame (hw.mono (by decide)) | apply State.correctable_frame (hw.mono (by decide)) | apply State.lineCopied_frame (hw.mono (by decide)) | refine Frame.foldl ?_ (fun s a h => ?_) | simp only [Frame.set_memc (hw.mono (by decide))] | split

theorem execBlockCopyDone_frame (hw : Within 0x177fd7e044 ω) {r s : State} {target} {outcome} (h : Frame ω r s) : FrameO ω r (execBlockCopyDone target outcome s) := by
  unfold execBlockCopyDone
  try dsimp only
  with_reducible repeat' first | assumption | apply FrameO.next | apply State.blockCopied_frame (hw.mono (by decide)) | apply State.sliceLine_frame (hw.mono (by decide)) | refine Frame.foldl ?_ (fun s a h => ?_) | split

theorem execPatrolScrub_frame (hw : Within 0x1777d7e044 ω) {r s : State} {channel} {outcome} (h : Frame ω r s) : FrameO ω r (execPatrolScrub channel outcome s) := by
  unfold execPatrolScrub
  try dsimp only
  with_reducible repeat' first | assumption | apply FrameO.next | apply State.scrub_frame (hw.mono (by decide)) | apply State.ueHandle_frame (hw.mono (by decide)) | refine Frame.foldl ?_ (fun s a h => ?_) | split

end Sys2Proof.Machine
end

