-- ==== Sys2Proof/Laws/RegCmd.lean ====
section
/-!
SUPPORT. Frames of the operations of Machine/RegCmd.lean (Laws/Frame.lean says what a frame is).
-/
namespace Sys2Proof.Machine

variable {ω : Nat}

theorem cmdRegModify_framed (hw : Within 0x719dc0 ω) : cmdRegModify.Framed ω := by
  intro r s q h
  dsimp only [cmdRegModify]
  with_reducible repeat' first | assumption | apply State.writeReg_frame (hw.mono (by decide)) | apply State.readEffect_frame (hw.mono (by decide)) | apply State.writeReg_frame (hw.mono (by decide)) | apply State.readEffect_frame (hw.mono (by decide)) | refine Frame.foldl ?_ (fun s a h => ?_) | split

theorem cmdRegPoll_framed (hw : Within 0x180c0 ω) : cmdRegPoll.Framed ω := by
  intro r s q h
  dsimp only [cmdRegPoll]
  with_reducible repeat' first | assumption | apply State.readEffect_frame (hw.mono (by decide)) | apply State.readEffect_frame (hw.mono (by decide)) | refine Frame.foldl ?_ (fun s a h => ?_) | simp only [Frame.set_enm (hw.mono (by decide))] | split

theorem cmdRegRead_framed (hw : Within 0x180c0 ω) : cmdRegRead.Framed ω := by
  intro r s q h
  dsimp only [cmdRegRead]
  with_reducible repeat' first | assumption | apply State.readRegs_frame1 (hw.mono (by decide)) | apply State.readRegs_frame1 (hw.mono (by decide)) | (refine State.readRegs_frame (hw.mono (by decide)) (by assumption) ?_) | (refine State.readRegs_frame (hw.mono (by decide)) (by assumption) ?_) | refine Frame.foldl ?_ (fun s a h => ?_) | split

theorem cmdRegWrite_framed (hw : Within 0x701dc0 ω) : cmdRegWrite.Framed ω := by
  intro r s q h
  dsimp only [cmdRegWrite]
  with_reducible repeat' first | assumption | apply State.writeRegs_frame (hw.mono (by decide)) | apply State.writeRegs_frame (hw.mono (by decide)) | refine Frame.foldl ?_ (fun s a h => ?_) | split

theorem execRegRead_frame (hw : Within 0x180c0 ω) {r s : State} {a0} (h : Frame ω r s) : FrameO ω r (execRegRead a0 s) := by
  unfold execRegRead
  try dsimp only
  with_reducible repeat' first | assumption | apply FrameO.next | apply Cmd.serve_frame (hw.mono (by decide)) (cmdRegRead_framed (hw.mono (by decide))) | refine Frame.foldl ?_ (fun s a h => ?_) | split

theorem execRegWrite_frame (hw : Within 0x709dc0 ω) {r s : State} {a0} (h : Frame ω r s) : FrameO ω r (execRegWrite a0 s) := by
  unfold execRegWrite
  try dsimp only
  with_reducible repeat' first | assumption | apply FrameO.next | apply Cmd.serve_frame (hw.mono (by decide)) (cmdRegWrite_framed (hw.mono (by decide))) | refine Frame.foldl ?_ (fun s a h => ?_) | split

theorem execRegModify_frame (hw : Within 0x719dc0 ω) {r s : State} {a0} (h : Frame ω r s) : FrameO ω r (execRegModify a0 s) := by
  unfold execRegModify
  try dsimp only
  with_reducible repeat' first | assumption | apply FrameO.next | apply Cmd.serve_frame (hw.mono (by decide)) (cmdRegModify_framed (hw.mono (by decide))) | refine Frame.foldl ?_ (fun s a h => ?_) | split

theorem execRegPoll_frame (hw : Within 0x180c0 ω) {r s : State} {a0} (h : Frame ω r s) : FrameO ω r (execRegPoll a0 s) := by
  unfold execRegPoll
  try dsimp only
  with_reducible repeat' first | assumption | apply FrameO.next | apply Cmd.serve_frame (hw.mono (by decide)) (cmdRegPoll_framed (hw.mono (by decide))) | refine Frame.foldl ?_ (fun s a h => ?_) | split

theorem State.pollEnd_frame (hw : Within 0x180c0 ω) {r s : State} {p} {timedOut} (h : Frame ω r s) : Frame ω r (State.pollEnd s p timedOut) := by
  unfold State.pollEnd
  try dsimp only
  with_reducible repeat' first | assumption | apply State.readEffect_frame (hw.mono (by decide)) | apply State.respond_frame (hw.mono (by decide)) | refine Frame.foldl ?_ (fun s a h => ?_) | simp only [Frame.set_enm (hw.mono (by decide))] | split

theorem execRegPollEnd_frame (hw : Within 0x180c0 ω) {r s : State} {mb} {timedOut} (h : Frame ω r s) : FrameO ω r (execRegPollEnd mb timedOut s) := by
  unfold execRegPollEnd
  try dsimp only
  with_reducible repeat' first | assumption | apply FrameO.next | apply State.pollEnd_frame (hw.mono (by decide)) | refine Frame.foldl ?_ (fun s a h => ?_) | split

theorem State.accessRead_frame (hw : Within 0x180c0 ω) {r s : State} {q} {k} (h : Frame ω r s) : Frame ω r (State.accessRead s q k) := by
  unfold State.accessRead
  try dsimp only
  with_reducible repeat' first | assumption | apply State.readEffect_frame (hw.mono (by decide)) | refine Frame.foldl ?_ (fun s a h => ?_) | split

theorem execBeatCountLoRead_frame (hw : Within 0x180c0 ω) {r s : State} {q} (h : Frame ω r s) : FrameO ω r (execBeatCountLoRead q s) := by
  unfold execBeatCountLoRead
  try dsimp only
  with_reducible repeat' first | assumption | apply FrameO.next | apply State.accessRead_frame (hw.mono (by decide)) | refine Frame.foldl ?_ (fun s a h => ?_) | split

theorem execTideCountLoRead_frame (hw : Within 0x180c0 ω) {r s : State} {q} (h : Frame ω r s) : FrameO ω r (execTideCountLoRead q s) := by
  unfold execTideCountLoRead
  try dsimp only
  with_reducible repeat' first | assumption | apply FrameO.next | apply State.accessRead_frame (hw.mono (by decide)) | refine Frame.foldl ?_ (fun s a h => ?_) | split

theorem execStepNumberLoRead_frame (hw : Within 0x180c0 ω) {r s : State} {q} (h : Frame ω r s) : FrameO ω r (execStepNumberLoRead q s) := by
  unfold execStepNumberLoRead
  try dsimp only
  with_reducible repeat' first | assumption | apply FrameO.next | apply State.accessRead_frame (hw.mono (by decide)) | refine Frame.foldl ?_ (fun s a h => ?_) | split

theorem execTjPeakRead_frame (hw : Within 0x180c0 ω) {r s : State} {q} (h : Frame ω r s) : FrameO ω r (execTjPeakRead q s) := by
  unfold execTjPeakRead
  try dsimp only
  with_reducible repeat' first | assumption | apply FrameO.next | apply State.accessRead_frame (hw.mono (by decide)) | refine Frame.foldl ?_ (fun s a h => ?_) | split

theorem execOpsPeakRead_frame (hw : Within 0x180c0 ω) {r s : State} {q} {core} (h : Frame ω r s) : FrameO ω r (execOpsPeakRead q core s) := by
  unfold execOpsPeakRead
  try dsimp only
  with_reducible repeat' first | assumption | apply FrameO.next | apply State.accessRead_frame (hw.mono (by decide)) | refine Frame.foldl ?_ (fun s a h => ?_) | split

theorem execMaxSlipRead_frame (hw : Within 0x180c0 ω) {r s : State} {q} {region} (h : Frame ω r s) : FrameO ω r (execMaxSlipRead q region s) := by
  unfold execMaxSlipRead
  try dsimp only
  with_reducible repeat' first | assumption | apply FrameO.next | apply State.accessRead_frame (hw.mono (by decide)) | refine Frame.foldl ?_ (fun s a h => ?_) | split

theorem execHbmChunksPeakRead_frame (hw : Within 0x180c0 ω) {r s : State} {q} (h : Frame ω r s) : FrameO ω r (execHbmChunksPeakRead q s) := by
  unfold execHbmChunksPeakRead
  try dsimp only
  with_reducible repeat' first | assumption | apply FrameO.next | apply State.accessRead_frame (hw.mono (by decide)) | refine Frame.foldl ?_ (fun s a h => ?_) | split

theorem State.accessWrite_frame (hw : Within 0xc00709dc0 ω) {r s : State} {q k} {v} (h : Frame ω r s) : Frame ω r (s.accessWrite q k v) := by
  unfold State.accessWrite
  split
  · exact h
  · split
    · cases e : s.mailboxWrite k v with
      | none => exact State.writeReg_frame (hw.mono (by decide)) h
      | some t => exact State.mailboxWrite_frame (hw.mono (by decide)) e h
    · exact State.writeReg_frame (hw.mono (by decide)) h

theorem execProfTargetWrite_frame (hw : Within 0xc00709dc0 ω) {r s : State} {q} {v} (h : Frame ω r s) : FrameO ω r (execProfTargetWrite q v s) := by
  unfold execProfTargetWrite
  try dsimp only
  with_reducible repeat' first | assumption | apply FrameO.next | apply State.accessWrite_frame (hw.mono (by decide)) | refine Frame.foldl ?_ (fun s a h => ?_) | split

theorem execRouteDataWrite_frame (hw : Within 0xc00709dc0 ω) {r s : State} {q} {v} (h : Frame ω r s) : FrameO ω r (execRouteDataWrite q v s) := by
  unfold execRouteDataWrite
  try dsimp only
  with_reducible repeat' first | assumption | apply FrameO.next | apply State.accessWrite_frame (hw.mono (by decide)) | refine Frame.foldl ?_ (fun s a h => ?_) | split

theorem execRouteDataCWrite_frame (hw : Within 0xc00709dc0 ω) {r s : State} {q} {v} (h : Frame ω r s) : FrameO ω r (execRouteDataCWrite q v s) := by
  unfold execRouteDataCWrite
  try dsimp only
  with_reducible repeat' first | assumption | apply FrameO.next | apply State.accessWrite_frame (hw.mono (by decide)) | refine Frame.foldl ?_ (fun s a h => ?_) | split

theorem execDevIdWrite_frame (hw : Within 0xc00709dc0 ω) {r s : State} {q} {v} (h : Frame ω r s) : FrameO ω r (execDevIdWrite q v s) := by
  unfold execDevIdWrite
  try dsimp only
  with_reducible repeat' first | assumption | apply FrameO.next | apply State.accessWrite_frame (hw.mono (by decide)) | refine Frame.foldl ?_ (fun s a h => ?_) | split

theorem execLaneMapWrite_frame (hw : Within 0xc00709dc0 ω) {r s : State} {q} {link} {v} (h : Frame ω r s) : FrameO ω r (execLaneMapWrite q link v s) := by
  unfold execLaneMapWrite
  try dsimp only
  with_reducible repeat' first | assumption | apply FrameO.next | apply State.accessWrite_frame (hw.mono (by decide)) | refine Frame.foldl ?_ (fun s a h => ?_) | split

theorem execRegisterWrite_frame (hw : Within 0xc00709dc0 ω) {r s : State} {q} {block} {off} {v} (h : Frame ω r s) : FrameO ω r (execRegisterWrite q block off v s) := by
  unfold execRegisterWrite
  try dsimp only
  with_reducible repeat' first | assumption | apply FrameO.next | apply State.accessWrite_frame (hw.mono (by decide)) | refine Frame.foldl ?_ (fun s a h => ?_) | split

end Sys2Proof.Machine
end

