-- ==== Sys2Proof/Laws/SecCmd.lean ====
section
/-!
SUPPORT. Frames of the operations of Machine/SecCmd.lean (Laws/Frame.lean says what a frame is).
-/
namespace Sys2Proof.Machine

variable {ω : Nat}

theorem State.expertFail_frame (hw : Within 0x4000180c0 ω) {r s : State} {n} {a2} (h : Frame ω r s) : Frame ω r (State.expertFail s n a2) := by
  unfold State.expertFail
  try dsimp only
  with_reducible repeat' first | assumption | apply State.setSession_frame (hw.mono (by decide)) | apply State.log__frame (hw.mono (by decide)) | apply State.orReg_frame (hw.mono (by decide)) | apply State.closeSession_frame (hw.mono (by decide)) | refine Frame.foldl ?_ (fun s a h => ?_) | split

theorem cmdSecAttest_framed (hw : Within 0x1400000000 ω) : cmdSecAttest.Framed ω := by
  intro r s q h
  dsimp only [cmdSecAttest]
  with_reducible repeat' first | assumption | apply State.drawBytes_frame1 (hw.mono (by decide)) | apply State.setSession_frame (hw.mono (by decide)) | apply State.drawBytes_frame1 (hw.mono (by decide)) | apply State.setSession_frame (hw.mono (by decide)) | (refine State.drawBytes_frame (hw.mono (by decide)) (by assumption) ?_) | (refine State.drawBytes_frame (hw.mono (by decide)) (by assumption) ?_) | refine Frame.foldl ?_ (fun s a h => ?_) | split

theorem cmdSecCertGet_framed  : cmdSecCertGet.Framed ω := by
  intro r s q h
  dsimp only [cmdSecCertGet]
  with_reducible repeat' first | assumption | refine Frame.foldl ?_ (fun s a h => ?_) | split

theorem cmdSecDrop_framed (hw : Within 0x1400000000 ω) : cmdSecDrop.Framed ω := by
  intro r s q h
  dsimp only [cmdSecDrop]
  with_reducible repeat' first | assumption | apply State.setSession_frame (hw.mono (by decide)) | apply State.setSession_frame (hw.mono (by decide)) | refine Frame.foldl ?_ (fun s a h => ?_) | split

theorem cmdSecExpert_framed (hw : Within 0x14000180c0 ω) : cmdSecExpert.Framed ω := by
  intro r s q h
  dsimp only [cmdSecExpert]
  with_reducible repeat' first | assumption | apply State.setSession_frame (hw.mono (by decide)) | apply State.expertFail_frame (hw.mono (by decide)) | apply State.setSession_frame (hw.mono (by decide)) | apply State.expertFail_frame (hw.mono (by decide)) | refine Frame.foldl ?_ (fun s a h => ?_) | simp only [Frame.set_lys (hw.mono (by decide))] | split

theorem cmdSecMeasureLog_framed  : cmdSecMeasureLog.Framed ω := by
  intro r s q h
  dsimp only [cmdSecMeasureLog]
  with_reducible repeat' first | assumption | refine Frame.foldl ?_ (fun s a h => ?_) | split

theorem execSecCertGet_frame (hw : Within 0x8000 ω) {r s : State} {a0} (h : Frame ω r s) : FrameO ω r (execSecCertGet a0 s) := by
  unfold execSecCertGet
  try dsimp only
  with_reducible repeat' first | assumption | apply FrameO.next | apply Cmd.serve_frame (hw.mono (by decide)) (cmdSecCertGet_framed) | refine Frame.foldl ?_ (fun s a h => ?_) | split

theorem execSecAttest_frame (hw : Within 0x1400008000 ω) {r s : State} {a0} (h : Frame ω r s) : FrameO ω r (execSecAttest a0 s) := by
  unfold execSecAttest
  try dsimp only
  with_reducible repeat' first | assumption | apply FrameO.next | apply Cmd.serve_frame (hw.mono (by decide)) (cmdSecAttest_framed (hw.mono (by decide))) | refine Frame.foldl ?_ (fun s a h => ?_) | split

theorem execSecMeasureLog_frame (hw : Within 0x8000 ω) {r s : State} {a0} (h : Frame ω r s) : FrameO ω r (execSecMeasureLog a0 s) := by
  unfold execSecMeasureLog
  try dsimp only
  with_reducible repeat' first | assumption | apply FrameO.next | apply Cmd.serve_frame (hw.mono (by decide)) (cmdSecMeasureLog_framed) | refine Frame.foldl ?_ (fun s a h => ?_) | split

theorem execSecExpert_frame (hw : Within 0x14000180c0 ω) {r s : State} {a0} (h : Frame ω r s) : FrameO ω r (execSecExpert a0 s) := by
  unfold execSecExpert
  try dsimp only
  with_reducible repeat' first | assumption | apply FrameO.next | apply Cmd.serve_frame (hw.mono (by decide)) (cmdSecExpert_framed (hw.mono (by decide))) | refine Frame.foldl ?_ (fun s a h => ?_) | split

theorem execSecDrop_frame (hw : Within 0x1400008000 ω) {r s : State} {a0} (h : Frame ω r s) : FrameO ω r (execSecDrop a0 s) := by
  unfold execSecDrop
  try dsimp only
  with_reducible repeat' first | assumption | apply FrameO.next | apply Cmd.serve_frame (hw.mono (by decide)) (cmdSecDrop_framed (hw.mono (by decide))) | refine Frame.foldl ?_ (fun s a h => ?_) | split

theorem cmdSecSelftest_framed (hw : Within 0x14065780c4 ω) (failed : Option Byte) : (cmdSecSelftest failed).Framed ω := by
  intro r s q h
  dsimp only [cmdSecSelftest]
  with_reducible repeat' first | assumption | apply State.lighthouseFail_frame (hw.mono (by decide)) | apply State.closeSessions_frame (hw.mono (by decide)) | refine Frame.foldl ?_ (fun s a h => ?_) | split

theorem execSecSelftest_frame (hw : Within 0x14065780c4 ω) {r s : State} {q} {failed} (h : Frame ω r s) : FrameO ω r (execSecSelftest q failed s) :=
  Cmd.serve_frame (hw.mono (by decide)) (cmdSecSelftest_framed (hw.mono (by decide)) failed) h

end Sys2Proof.Machine
end

