-- ==== Sys2Proof/Laws/State.lean ====
section
/-!
SUPPORT. What the shared operations on the state write, one lemma for each field of State, so that no proof unfolds a record update; the value a
register, a byte or a requester's copy holds after a write; and the three outcomes of serving a mailbox command.
-/
namespace Sys2Proof.Machine

/-! ### State.setReg -/

@[simp] theorem State.setReg_pending (s : State) (k : Nat) (v : Word) : (s.setReg k v).pending = s.pending := rfl
@[simp] theorem State.setReg_part (s : State) (k : Nat) (v : Word) : (s.setReg k v).part = s.part := rfl
@[simp] theorem State.setReg_kept (s : State) (k : Nat) (v : Word) : (s.setReg k v).kept = s.kept := rfl
@[simp] theorem State.setReg_rst (s : State) (k : Nat) (v : Word) : (s.setReg k v).rst = s.rst := rfl
@[simp] theorem State.setReg_beat (s : State) (k : Nat) (v : Word) : (s.setReg k v).beat = s.beat := rfl
@[simp] theorem State.setReg_beatOn (s : State) (k : Nat) (v : Word) : (s.setReg k v).beatOn = s.beatOn := rfl
@[simp] theorem State.setReg_reqRegs (s : State) (k : Nat) (v : Word) : (s.setReg k v).reqRegs = s.reqRegs := rfl
@[simp] theorem State.setReg_shadow (s : State) (k : Nat) (v : Word) : (s.setReg k v).shadow = s.shadow := rfl
@[simp] theorem State.setReg_routes (s : State) (k : Nat) (v : Word) : (s.setReg k v).routes = s.routes := rfl
@[simp] theorem State.setReg_alarmHi (s : State) (k : Nat) (v : Word) : (s.setReg k v).alarmHi = s.alarmHi := rfl
@[simp] theorem State.setReg_alarmLo (s : State) (k : Nat) (v : Word) : (s.setReg k v).alarmLo = s.alarmLo := rfl
@[simp] theorem State.setReg_overrides (s : State) (k : Nat) (v : Word) : (s.setReg k v).overrides = s.overrides := rfl
@[simp] theorem State.setReg_mem (s : State) (k : Nat) (v : Word) : (s.setReg k v).mem = s.mem := rfl
@[simp] theorem State.setReg_dirty (s : State) (k : Nat) (v : Word) : (s.setReg k v).dirty = s.dirty := rfl
@[simp] theorem State.setReg_enm (s : State) (k : Nat) (v : Word) : (s.setReg k v).enm = s.enm := rfl
@[simp] theorem State.setReg_log (s : State) (k : Nat) (v : Word) : (s.setReg k v).log = s.log := rfl
@[simp] theorem State.setReg_tide (s : State) (k : Nat) (v : Word) : (s.setReg k v).tide = s.tide := rfl
@[simp] theorem State.setReg_images (s : State) (k : Nat) (v : Word) : (s.setReg k v).images = s.images := rfl
@[simp] theorem State.setReg_group (s : State) (k : Nat) (v : Word) : (s.setReg k v).group = s.group := rfl
@[simp] theorem State.setReg_job (s : State) (k : Nat) (v : Word) : (s.setReg k v).job = s.job := rfl
@[simp] theorem State.setReg_pwr (s : State) (k : Nat) (v : Word) : (s.setReg k v).pwr = s.pwr := rfl
@[simp] theorem State.setReg_link (s : State) (k : Nat) (v : Word) : (s.setReg k v).link = s.link := rfl
@[simp] theorem State.setReg_lists (s : State) (k : Nat) (v : Word) : (s.setReg k v).lists = s.lists := rfl
@[simp] theorem State.setReg_evts (s : State) (k : Nat) (v : Word) : (s.setReg k v).evts = s.evts := rfl
@[simp] theorem State.setReg_str (s : State) (k : Nat) (v : Word) : (s.setReg k v).str = s.str := rfl
@[simp] theorem State.setReg_cores (s : State) (k : Nat) (v : Word) : (s.setReg k v).cores = s.cores := rfl
@[simp] theorem State.setReg_nums (s : State) (k : Nat) (v : Word) : (s.setReg k v).nums = s.nums := rfl
@[simp] theorem State.setReg_shelf (s : State) (k : Nat) (v : Word) : (s.setReg k v).shelf = s.shelf := rfl
@[simp] theorem State.setReg_upd (s : State) (k : Nat) (v : Word) : (s.setReg k v).upd = s.upd := rfl
@[simp] theorem State.setReg_bkt (s : State) (k : Nat) (v : Word) : (s.setReg k v).bkt = s.bkt := rfl
@[simp] theorem State.setReg_opening (s : State) (k : Nat) (v : Word) : (s.setReg k v).opening = s.opening := rfl
@[simp] theorem State.setReg_memc (s : State) (k : Nat) (v : Word) : (s.setReg k v).memc = s.memc := rfl
@[simp] theorem State.setReg_snap (s : State) (k : Nat) (v : Word) : (s.setReg k v).snap = s.snap := rfl
@[simp] theorem State.setReg_lys (s : State) (k : Nat) (v : Word) : (s.setReg k v).lys = s.lys := rfl
@[simp] theorem State.setReg_bay (s : State) (k : Nat) (v : Word) : (s.setReg k v).bay = s.bay := rfl
@[simp] theorem State.setReg_free (s : State) (k : Nat) (v : Word) : (s.setReg k v).free = s.free := rfl

/-! ### State.setOwn -/

@[simp] theorem State.setOwn_pending (s : State) (q k : Nat) (v : Word) : (s.setOwn q k v).pending = s.pending := rfl
@[simp] theorem State.setOwn_part (s : State) (q k : Nat) (v : Word) : (s.setOwn q k v).part = s.part := rfl
@[simp] theorem State.setOwn_kept (s : State) (q k : Nat) (v : Word) : (s.setOwn q k v).kept = s.kept := rfl
@[simp] theorem State.setOwn_rst (s : State) (q k : Nat) (v : Word) : (s.setOwn q k v).rst = s.rst := rfl
@[simp] theorem State.setOwn_beat (s : State) (q k : Nat) (v : Word) : (s.setOwn q k v).beat = s.beat := rfl
@[simp] theorem State.setOwn_beatOn (s : State) (q k : Nat) (v : Word) : (s.setOwn q k v).beatOn = s.beatOn := rfl
@[simp] theorem State.setOwn_regs (s : State) (q k : Nat) (v : Word) : (s.setOwn q k v).regs = s.regs := rfl
@[simp] theorem State.setOwn_shadow (s : State) (q k : Nat) (v : Word) : (s.setOwn q k v).shadow = s.shadow := rfl
@[simp] theorem State.setOwn_routes (s : State) (q k : Nat) (v : Word) : (s.setOwn q k v).routes = s.routes := rfl
@[simp] theorem State.setOwn_alarmHi (s : State) (q k : Nat) (v : Word) : (s.setOwn q k v).alarmHi = s.alarmHi := rfl
@[simp] theorem State.setOwn_alarmLo (s : State) (q k : Nat) (v : Word) : (s.setOwn q k v).alarmLo = s.alarmLo := rfl
@[simp] theorem State.setOwn_overrides (s : State) (q k : Nat) (v : Word) : (s.setOwn q k v).overrides = s.overrides := rfl
@[simp] theorem State.setOwn_mem (s : State) (q k : Nat) (v : Word) : (s.setOwn q k v).mem = s.mem := rfl
@[simp] theorem State.setOwn_dirty (s : State) (q k : Nat) (v : Word) : (s.setOwn q k v).dirty = s.dirty := rfl
@[simp] theorem State.setOwn_enm (s : State) (q k : Nat) (v : Word) : (s.setOwn q k v).enm = s.enm := rfl
@[simp] theorem State.setOwn_log (s : State) (q k : Nat) (v : Word) : (s.setOwn q k v).log = s.log := rfl
@[simp] theorem State.setOwn_tide (s : State) (q k : Nat) (v : Word) : (s.setOwn q k v).tide = s.tide := rfl
@[simp] theorem State.setOwn_images (s : State) (q k : Nat) (v : Word) : (s.setOwn q k v).images = s.images := rfl
@[simp] theorem State.setOwn_group (s : State) (q k : Nat) (v : Word) : (s.setOwn q k v).group = s.group := rfl
@[simp] theorem State.setOwn_job (s : State) (q k : Nat) (v : Word) : (s.setOwn q k v).job = s.job := rfl
@[simp] theorem State.setOwn_pwr (s : State) (q k : Nat) (v : Word) : (s.setOwn q k v).pwr = s.pwr := rfl
@[simp] theorem State.setOwn_link (s : State) (q k : Nat) (v : Word) : (s.setOwn q k v).link = s.link := rfl
@[simp] theorem State.setOwn_lists (s : State) (q k : Nat) (v : Word) : (s.setOwn q k v).lists = s.lists := rfl
@[simp] theorem State.setOwn_evts (s : State) (q k : Nat) (v : Word) : (s.setOwn q k v).evts = s.evts := rfl
@[simp] theorem State.setOwn_str (s : State) (q k : Nat) (v : Word) : (s.setOwn q k v).str = s.str := rfl
@[simp] theorem State.setOwn_cores (s : State) (q k : Nat) (v : Word) : (s.setOwn q k v).cores = s.cores := rfl
@[simp] theorem State.setOwn_nums (s : State) (q k : Nat) (v : Word) : (s.setOwn q k v).nums = s.nums := rfl
@[simp] theorem State.setOwn_shelf (s : State) (q k : Nat) (v : Word) : (s.setOwn q k v).shelf = s.shelf := rfl
@[simp] theorem State.setOwn_upd (s : State) (q k : Nat) (v : Word) : (s.setOwn q k v).upd = s.upd := rfl
@[simp] theorem State.setOwn_bkt (s : State) (q k : Nat) (v : Word) : (s.setOwn q k v).bkt = s.bkt := rfl
@[simp] theorem State.setOwn_opening (s : State) (q k : Nat) (v : Word) : (s.setOwn q k v).opening = s.opening := rfl
@[simp] theorem State.setOwn_memc (s : State) (q k : Nat) (v : Word) : (s.setOwn q k v).memc = s.memc := rfl
@[simp] theorem State.setOwn_snap (s : State) (q k : Nat) (v : Word) : (s.setOwn q k v).snap = s.snap := rfl
@[simp] theorem State.setOwn_lys (s : State) (q k : Nat) (v : Word) : (s.setOwn q k v).lys = s.lys := rfl
@[simp] theorem State.setOwn_bay (s : State) (q k : Nat) (v : Word) : (s.setOwn q k v).bay = s.bay := rfl
@[simp] theorem State.setOwn_free (s : State) (q k : Nat) (v : Word) : (s.setOwn q k v).free = s.free := rfl

/-! ### State.dropOwn -/

@[simp] theorem State.dropOwn_pending (s : State) (q : Nat) : (s.dropOwn q).pending = s.pending := rfl
@[simp] theorem State.dropOwn_part (s : State) (q : Nat) : (s.dropOwn q).part = s.part := rfl
@[simp] theorem State.dropOwn_kept (s : State) (q : Nat) : (s.dropOwn q).kept = s.kept := rfl
@[simp] theorem State.dropOwn_rst (s : State) (q : Nat) : (s.dropOwn q).rst = s.rst := rfl
@[simp] theorem State.dropOwn_beat (s : State) (q : Nat) : (s.dropOwn q).beat = s.beat := rfl
@[simp] theorem State.dropOwn_beatOn (s : State) (q : Nat) : (s.dropOwn q).beatOn = s.beatOn := rfl
@[simp] theorem State.dropOwn_regs (s : State) (q : Nat) : (s.dropOwn q).regs = s.regs := rfl
@[simp] theorem State.dropOwn_shadow (s : State) (q : Nat) : (s.dropOwn q).shadow = s.shadow := rfl
@[simp] theorem State.dropOwn_routes (s : State) (q : Nat) : (s.dropOwn q).routes = s.routes := rfl
@[simp] theorem State.dropOwn_alarmHi (s : State) (q : Nat) : (s.dropOwn q).alarmHi = s.alarmHi := rfl
@[simp] theorem State.dropOwn_alarmLo (s : State) (q : Nat) : (s.dropOwn q).alarmLo = s.alarmLo := rfl
@[simp] theorem State.dropOwn_overrides (s : State) (q : Nat) : (s.dropOwn q).overrides = s.overrides := rfl
@[simp] theorem State.dropOwn_mem (s : State) (q : Nat) : (s.dropOwn q).mem = s.mem := rfl
@[simp] theorem State.dropOwn_dirty (s : State) (q : Nat) : (s.dropOwn q).dirty = s.dirty := rfl
@[simp] theorem State.dropOwn_enm (s : State) (q : Nat) : (s.dropOwn q).enm = s.enm := rfl
@[simp] theorem State.dropOwn_log (s : State) (q : Nat) : (s.dropOwn q).log = s.log := rfl
@[simp] theorem State.dropOwn_tide (s : State) (q : Nat) : (s.dropOwn q).tide = s.tide := rfl
@[simp] theorem State.dropOwn_images (s : State) (q : Nat) : (s.dropOwn q).images = s.images := rfl
@[simp] theorem State.dropOwn_group (s : State) (q : Nat) : (s.dropOwn q).group = s.group := rfl
@[simp] theorem State.dropOwn_job (s : State) (q : Nat) : (s.dropOwn q).job = s.job := rfl
@[simp] theorem State.dropOwn_pwr (s : State) (q : Nat) : (s.dropOwn q).pwr = s.pwr := rfl
@[simp] theorem State.dropOwn_link (s : State) (q : Nat) : (s.dropOwn q).link = s.link := rfl
@[simp] theorem State.dropOwn_lists (s : State) (q : Nat) : (s.dropOwn q).lists = s.lists := rfl
@[simp] theorem State.dropOwn_evts (s : State) (q : Nat) : (s.dropOwn q).evts = s.evts := rfl
@[simp] theorem State.dropOwn_str (s : State) (q : Nat) : (s.dropOwn q).str = s.str := rfl
@[simp] theorem State.dropOwn_cores (s : State) (q : Nat) : (s.dropOwn q).cores = s.cores := rfl
@[simp] theorem State.dropOwn_nums (s : State) (q : Nat) : (s.dropOwn q).nums = s.nums := rfl
@[simp] theorem State.dropOwn_shelf (s : State) (q : Nat) : (s.dropOwn q).shelf = s.shelf := rfl
@[simp] theorem State.dropOwn_upd (s : State) (q : Nat) : (s.dropOwn q).upd = s.upd := rfl
@[simp] theorem State.dropOwn_bkt (s : State) (q : Nat) : (s.dropOwn q).bkt = s.bkt := rfl
@[simp] theorem State.dropOwn_opening (s : State) (q : Nat) : (s.dropOwn q).opening = s.opening := rfl
@[simp] theorem State.dropOwn_memc (s : State) (q : Nat) : (s.dropOwn q).memc = s.memc := rfl
@[simp] theorem State.dropOwn_snap (s : State) (q : Nat) : (s.dropOwn q).snap = s.snap := rfl
@[simp] theorem State.dropOwn_lys (s : State) (q : Nat) : (s.dropOwn q).lys = s.lys := rfl
@[simp] theorem State.dropOwn_bay (s : State) (q : Nat) : (s.dropOwn q).bay = s.bay := rfl
@[simp] theorem State.dropOwn_free (s : State) (q : Nat) : (s.dropOwn q).free = s.free := rfl

/-! ### State.queueReg -/

@[simp] theorem State.queueReg_pending (s : State) (k : Nat) (v : Word) : (s.queueReg k v).pending = s.pending := rfl
@[simp] theorem State.queueReg_part (s : State) (k : Nat) (v : Word) : (s.queueReg k v).part = s.part := rfl
@[simp] theorem State.queueReg_kept (s : State) (k : Nat) (v : Word) : (s.queueReg k v).kept = s.kept := rfl
@[simp] theorem State.queueReg_rst (s : State) (k : Nat) (v : Word) : (s.queueReg k v).rst = s.rst := rfl
@[simp] theorem State.queueReg_beat (s : State) (k : Nat) (v : Word) : (s.queueReg k v).beat = s.beat := rfl
@[simp] theorem State.queueReg_beatOn (s : State) (k : Nat) (v : Word) : (s.queueReg k v).beatOn = s.beatOn := rfl
@[simp] theorem State.queueReg_regs (s : State) (k : Nat) (v : Word) : (s.queueReg k v).regs = s.regs := rfl
@[simp] theorem State.queueReg_reqRegs (s : State) (k : Nat) (v : Word) : (s.queueReg k v).reqRegs = s.reqRegs := rfl
@[simp] theorem State.queueReg_routes (s : State) (k : Nat) (v : Word) : (s.queueReg k v).routes = s.routes := rfl
@[simp] theorem State.queueReg_alarmHi (s : State) (k : Nat) (v : Word) : (s.queueReg k v).alarmHi = s.alarmHi := rfl
@[simp] theorem State.queueReg_alarmLo (s : State) (k : Nat) (v : Word) : (s.queueReg k v).alarmLo = s.alarmLo := rfl
@[simp] theorem State.queueReg_overrides (s : State) (k : Nat) (v : Word) : (s.queueReg k v).overrides = s.overrides := rfl
@[simp] theorem State.queueReg_mem (s : State) (k : Nat) (v : Word) : (s.queueReg k v).mem = s.mem := rfl
@[simp] theorem State.queueReg_dirty (s : State) (k : Nat) (v : Word) : (s.queueReg k v).dirty = s.dirty := rfl
@[simp] theorem State.queueReg_enm (s : State) (k : Nat) (v : Word) : (s.queueReg k v).enm = s.enm := rfl
@[simp] theorem State.queueReg_log (s : State) (k : Nat) (v : Word) : (s.queueReg k v).log = s.log := rfl
@[simp] theorem State.queueReg_tide (s : State) (k : Nat) (v : Word) : (s.queueReg k v).tide = s.tide := rfl
@[simp] theorem State.queueReg_images (s : State) (k : Nat) (v : Word) : (s.queueReg k v).images = s.images := rfl
@[simp] theorem State.queueReg_group (s : State) (k : Nat) (v : Word) : (s.queueReg k v).group = s.group := rfl
@[simp] theorem State.queueReg_job (s : State) (k : Nat) (v : Word) : (s.queueReg k v).job = s.job := rfl
@[simp] theorem State.queueReg_pwr (s : State) (k : Nat) (v : Word) : (s.queueReg k v).pwr = s.pwr := rfl
@[simp] theorem State.queueReg_link (s : State) (k : Nat) (v : Word) : (s.queueReg k v).link = s.link := rfl
@[simp] theorem State.queueReg_lists (s : State) (k : Nat) (v : Word) : (s.queueReg k v).lists = s.lists := rfl
@[simp] theorem State.queueReg_evts (s : State) (k : Nat) (v : Word) : (s.queueReg k v).evts = s.evts := rfl
@[simp] theorem State.queueReg_str (s : State) (k : Nat) (v : Word) : (s.queueReg k v).str = s.str := rfl
@[simp] theorem State.queueReg_cores (s : State) (k : Nat) (v : Word) : (s.queueReg k v).cores = s.cores := rfl
@[simp] theorem State.queueReg_nums (s : State) (k : Nat) (v : Word) : (s.queueReg k v).nums = s.nums := rfl
@[simp] theorem State.queueReg_shelf (s : State) (k : Nat) (v : Word) : (s.queueReg k v).shelf = s.shelf := rfl
@[simp] theorem State.queueReg_upd (s : State) (k : Nat) (v : Word) : (s.queueReg k v).upd = s.upd := rfl
@[simp] theorem State.queueReg_bkt (s : State) (k : Nat) (v : Word) : (s.queueReg k v).bkt = s.bkt := rfl
@[simp] theorem State.queueReg_opening (s : State) (k : Nat) (v : Word) : (s.queueReg k v).opening = s.opening := rfl
@[simp] theorem State.queueReg_memc (s : State) (k : Nat) (v : Word) : (s.queueReg k v).memc = s.memc := rfl
@[simp] theorem State.queueReg_snap (s : State) (k : Nat) (v : Word) : (s.queueReg k v).snap = s.snap := rfl
@[simp] theorem State.queueReg_lys (s : State) (k : Nat) (v : Word) : (s.queueReg k v).lys = s.lys := rfl
@[simp] theorem State.queueReg_bay (s : State) (k : Nat) (v : Word) : (s.queueReg k v).bay = s.bay := rfl
@[simp] theorem State.queueReg_free (s : State) (k : Nat) (v : Word) : (s.queueReg k v).free = s.free := rfl

/-! ### State.queueRoute -/

@[simp] theorem State.queueRoute_pending (s : State) (d : Nat) (v : Dword) : (s.queueRoute d v).pending = s.pending := rfl
@[simp] theorem State.queueRoute_part (s : State) (d : Nat) (v : Dword) : (s.queueRoute d v).part = s.part := rfl
@[simp] theorem State.queueRoute_kept (s : State) (d : Nat) (v : Dword) : (s.queueRoute d v).kept = s.kept := rfl
@[simp] theorem State.queueRoute_rst (s : State) (d : Nat) (v : Dword) : (s.queueRoute d v).rst = s.rst := rfl
@[simp] theorem State.queueRoute_beat (s : State) (d : Nat) (v : Dword) : (s.queueRoute d v).beat = s.beat := rfl
@[simp] theorem State.queueRoute_beatOn (s : State) (d : Nat) (v : Dword) : (s.queueRoute d v).beatOn = s.beatOn := rfl
@[simp] theorem State.queueRoute_regs (s : State) (d : Nat) (v : Dword) : (s.queueRoute d v).regs = s.regs := rfl
@[simp] theorem State.queueRoute_reqRegs (s : State) (d : Nat) (v : Dword) : (s.queueRoute d v).reqRegs = s.reqRegs := rfl
@[simp] theorem State.queueRoute_routes (s : State) (d : Nat) (v : Dword) : (s.queueRoute d v).routes = s.routes := rfl
@[simp] theorem State.queueRoute_alarmHi (s : State) (d : Nat) (v : Dword) : (s.queueRoute d v).alarmHi = s.alarmHi := rfl
@[simp] theorem State.queueRoute_alarmLo (s : State) (d : Nat) (v : Dword) : (s.queueRoute d v).alarmLo = s.alarmLo := rfl
@[simp] theorem State.queueRoute_overrides (s : State) (d : Nat) (v : Dword) : (s.queueRoute d v).overrides = s.overrides := rfl
@[simp] theorem State.queueRoute_mem (s : State) (d : Nat) (v : Dword) : (s.queueRoute d v).mem = s.mem := rfl
@[simp] theorem State.queueRoute_dirty (s : State) (d : Nat) (v : Dword) : (s.queueRoute d v).dirty = s.dirty := rfl
@[simp] theorem State.queueRoute_enm (s : State) (d : Nat) (v : Dword) : (s.queueRoute d v).enm = s.enm := rfl
@[simp] theorem State.queueRoute_log (s : State) (d : Nat) (v : Dword) : (s.queueRoute d v).log = s.log := rfl
@[simp] theorem State.queueRoute_tide (s : State) (d : Nat) (v : Dword) : (s.queueRoute d v).tide = s.tide := rfl
@[simp] theorem State.queueRoute_images (s : State) (d : Nat) (v : Dword) : (s.queueRoute d v).images = s.images := rfl
@[simp] theorem State.queueRoute_group (s : State) (d : Nat) (v : Dword) : (s.queueRoute d v).group = s.group := rfl
@[simp] theorem State.queueRoute_job (s : State) (d : Nat) (v : Dword) : (s.queueRoute d v).job = s.job := rfl
@[simp] theorem State.queueRoute_pwr (s : State) (d : Nat) (v : Dword) : (s.queueRoute d v).pwr = s.pwr := rfl
@[simp] theorem State.queueRoute_link (s : State) (d : Nat) (v : Dword) : (s.queueRoute d v).link = s.link := rfl
@[simp] theorem State.queueRoute_lists (s : State) (d : Nat) (v : Dword) : (s.queueRoute d v).lists = s.lists := rfl
@[simp] theorem State.queueRoute_evts (s : State) (d : Nat) (v : Dword) : (s.queueRoute d v).evts = s.evts := rfl
@[simp] theorem State.queueRoute_str (s : State) (d : Nat) (v : Dword) : (s.queueRoute d v).str = s.str := rfl
@[simp] theorem State.queueRoute_cores (s : State) (d : Nat) (v : Dword) : (s.queueRoute d v).cores = s.cores := rfl
@[simp] theorem State.queueRoute_nums (s : State) (d : Nat) (v : Dword) : (s.queueRoute d v).nums = s.nums := rfl
@[simp] theorem State.queueRoute_shelf (s : State) (d : Nat) (v : Dword) : (s.queueRoute d v).shelf = s.shelf := rfl
@[simp] theorem State.queueRoute_upd (s : State) (d : Nat) (v : Dword) : (s.queueRoute d v).upd = s.upd := rfl
@[simp] theorem State.queueRoute_bkt (s : State) (d : Nat) (v : Dword) : (s.queueRoute d v).bkt = s.bkt := rfl
@[simp] theorem State.queueRoute_opening (s : State) (d : Nat) (v : Dword) : (s.queueRoute d v).opening = s.opening := rfl
@[simp] theorem State.queueRoute_memc (s : State) (d : Nat) (v : Dword) : (s.queueRoute d v).memc = s.memc := rfl
@[simp] theorem State.queueRoute_snap (s : State) (d : Nat) (v : Dword) : (s.queueRoute d v).snap = s.snap := rfl
@[simp] theorem State.queueRoute_lys (s : State) (d : Nat) (v : Dword) : (s.queueRoute d v).lys = s.lys := rfl
@[simp] theorem State.queueRoute_bay (s : State) (d : Nat) (v : Dword) : (s.queueRoute d v).bay = s.bay := rfl
@[simp] theorem State.queueRoute_free (s : State) (d : Nat) (v : Dword) : (s.queueRoute d v).free = s.free := rfl

/-! ### State.setRoute -/

@[simp] theorem State.setRoute_pending (s : State) (d : Nat) (v : Dword) : (s.setRoute d v).pending = s.pending := rfl
@[simp] theorem State.setRoute_part (s : State) (d : Nat) (v : Dword) : (s.setRoute d v).part = s.part := rfl
@[simp] theorem State.setRoute_kept (s : State) (d : Nat) (v : Dword) : (s.setRoute d v).kept = s.kept := rfl
@[simp] theorem State.setRoute_rst (s : State) (d : Nat) (v : Dword) : (s.setRoute d v).rst = s.rst := rfl
@[simp] theorem State.setRoute_beat (s : State) (d : Nat) (v : Dword) : (s.setRoute d v).beat = s.beat := rfl
@[simp] theorem State.setRoute_beatOn (s : State) (d : Nat) (v : Dword) : (s.setRoute d v).beatOn = s.beatOn := rfl
@[simp] theorem State.setRoute_regs (s : State) (d : Nat) (v : Dword) : (s.setRoute d v).regs = s.regs := rfl
@[simp] theorem State.setRoute_reqRegs (s : State) (d : Nat) (v : Dword) : (s.setRoute d v).reqRegs = s.reqRegs := rfl
@[simp] theorem State.setRoute_shadow (s : State) (d : Nat) (v : Dword) : (s.setRoute d v).shadow = s.shadow := rfl
@[simp] theorem State.setRoute_alarmHi (s : State) (d : Nat) (v : Dword) : (s.setRoute d v).alarmHi = s.alarmHi := rfl
@[simp] theorem State.setRoute_alarmLo (s : State) (d : Nat) (v : Dword) : (s.setRoute d v).alarmLo = s.alarmLo := rfl
@[simp] theorem State.setRoute_overrides (s : State) (d : Nat) (v : Dword) : (s.setRoute d v).overrides = s.overrides := rfl
@[simp] theorem State.setRoute_mem (s : State) (d : Nat) (v : Dword) : (s.setRoute d v).mem = s.mem := rfl
@[simp] theorem State.setRoute_dirty (s : State) (d : Nat) (v : Dword) : (s.setRoute d v).dirty = s.dirty := rfl
@[simp] theorem State.setRoute_enm (s : State) (d : Nat) (v : Dword) : (s.setRoute d v).enm = s.enm := rfl
@[simp] theorem State.setRoute_log (s : State) (d : Nat) (v : Dword) : (s.setRoute d v).log = s.log := rfl
@[simp] theorem State.setRoute_tide (s : State) (d : Nat) (v : Dword) : (s.setRoute d v).tide = s.tide := rfl
@[simp] theorem State.setRoute_images (s : State) (d : Nat) (v : Dword) : (s.setRoute d v).images = s.images := rfl
@[simp] theorem State.setRoute_group (s : State) (d : Nat) (v : Dword) : (s.setRoute d v).group = s.group := rfl
@[simp] theorem State.setRoute_job (s : State) (d : Nat) (v : Dword) : (s.setRoute d v).job = s.job := rfl
@[simp] theorem State.setRoute_pwr (s : State) (d : Nat) (v : Dword) : (s.setRoute d v).pwr = s.pwr := rfl
@[simp] theorem State.setRoute_link (s : State) (d : Nat) (v : Dword) : (s.setRoute d v).link = s.link := rfl
@[simp] theorem State.setRoute_lists (s : State) (d : Nat) (v : Dword) : (s.setRoute d v).lists = s.lists := rfl
@[simp] theorem State.setRoute_evts (s : State) (d : Nat) (v : Dword) : (s.setRoute d v).evts = s.evts := rfl
@[simp] theorem State.setRoute_str (s : State) (d : Nat) (v : Dword) : (s.setRoute d v).str = s.str := rfl
@[simp] theorem State.setRoute_cores (s : State) (d : Nat) (v : Dword) : (s.setRoute d v).cores = s.cores := rfl
@[simp] theorem State.setRoute_nums (s : State) (d : Nat) (v : Dword) : (s.setRoute d v).nums = s.nums := rfl
@[simp] theorem State.setRoute_shelf (s : State) (d : Nat) (v : Dword) : (s.setRoute d v).shelf = s.shelf := rfl
@[simp] theorem State.setRoute_upd (s : State) (d : Nat) (v : Dword) : (s.setRoute d v).upd = s.upd := rfl
@[simp] theorem State.setRoute_bkt (s : State) (d : Nat) (v : Dword) : (s.setRoute d v).bkt = s.bkt := rfl
@[simp] theorem State.setRoute_opening (s : State) (d : Nat) (v : Dword) : (s.setRoute d v).opening = s.opening := rfl
@[simp] theorem State.setRoute_memc (s : State) (d : Nat) (v : Dword) : (s.setRoute d v).memc = s.memc := rfl
@[simp] theorem State.setRoute_snap (s : State) (d : Nat) (v : Dword) : (s.setRoute d v).snap = s.snap := rfl
@[simp] theorem State.setRoute_lys (s : State) (d : Nat) (v : Dword) : (s.setRoute d v).lys = s.lys := rfl
@[simp] theorem State.setRoute_bay (s : State) (d : Nat) (v : Dword) : (s.setRoute d v).bay = s.bay := rfl
@[simp] theorem State.setRoute_free (s : State) (d : Nat) (v : Dword) : (s.setRoute d v).free = s.free := rfl

/-! ### State.poke -/

@[simp] theorem State.poke_pending (s : State) (a : Nat) (bs : List Byte) : (s.poke a bs).pending = s.pending := rfl
@[simp] theorem State.poke_part (s : State) (a : Nat) (bs : List Byte) : (s.poke a bs).part = s.part := rfl
@[simp] theorem State.poke_kept (s : State) (a : Nat) (bs : List Byte) : (s.poke a bs).kept = s.kept := rfl
@[simp] theorem State.poke_rst (s : State) (a : Nat) (bs : List Byte) : (s.poke a bs).rst = s.rst := rfl
@[simp] theorem State.poke_beat (s : State) (a : Nat) (bs : List Byte) : (s.poke a bs).beat = s.beat := rfl
@[simp] theorem State.poke_beatOn (s : State) (a : Nat) (bs : List Byte) : (s.poke a bs).beatOn = s.beatOn := rfl
@[simp] theorem State.poke_regs (s : State) (a : Nat) (bs : List Byte) : (s.poke a bs).regs = s.regs := rfl
@[simp] theorem State.poke_reqRegs (s : State) (a : Nat) (bs : List Byte) : (s.poke a bs).reqRegs = s.reqRegs := rfl
@[simp] theorem State.poke_shadow (s : State) (a : Nat) (bs : List Byte) : (s.poke a bs).shadow = s.shadow := rfl
@[simp] theorem State.poke_routes (s : State) (a : Nat) (bs : List Byte) : (s.poke a bs).routes = s.routes := rfl
@[simp] theorem State.poke_alarmHi (s : State) (a : Nat) (bs : List Byte) : (s.poke a bs).alarmHi = s.alarmHi := rfl
@[simp] theorem State.poke_alarmLo (s : State) (a : Nat) (bs : List Byte) : (s.poke a bs).alarmLo = s.alarmLo := rfl
@[simp] theorem State.poke_overrides (s : State) (a : Nat) (bs : List Byte) : (s.poke a bs).overrides = s.overrides := rfl
@[simp] theorem State.poke_dirty (s : State) (a : Nat) (bs : List Byte) : (s.poke a bs).dirty = s.dirty := rfl
@[simp] theorem State.poke_enm (s : State) (a : Nat) (bs : List Byte) : (s.poke a bs).enm = s.enm := rfl
@[simp] theorem State.poke_log (s : State) (a : Nat) (bs : List Byte) : (s.poke a bs).log = s.log := rfl
@[simp] theorem State.poke_tide (s : State) (a : Nat) (bs : List Byte) : (s.poke a bs).tide = s.tide := rfl
@[simp] theorem State.poke_images (s : State) (a : Nat) (bs : List Byte) : (s.poke a bs).images = s.images := rfl
@[simp] theorem State.poke_group (s : State) (a : Nat) (bs : List Byte) : (s.poke a bs).group = s.group := rfl
@[simp] theorem State.poke_job (s : State) (a : Nat) (bs : List Byte) : (s.poke a bs).job = s.job := rfl
@[simp] theorem State.poke_pwr (s : State) (a : Nat) (bs : List Byte) : (s.poke a bs).pwr = s.pwr := rfl
@[simp] theorem State.poke_link (s : State) (a : Nat) (bs : List Byte) : (s.poke a bs).link = s.link := rfl
@[simp] theorem State.poke_lists (s : State) (a : Nat) (bs : List Byte) : (s.poke a bs).lists = s.lists := rfl
@[simp] theorem State.poke_evts (s : State) (a : Nat) (bs : List Byte) : (s.poke a bs).evts = s.evts := rfl
@[simp] theorem State.poke_str (s : State) (a : Nat) (bs : List Byte) : (s.poke a bs).str = s.str := rfl
@[simp] theorem State.poke_cores (s : State) (a : Nat) (bs : List Byte) : (s.poke a bs).cores = s.cores := rfl
@[simp] theorem State.poke_nums (s : State) (a : Nat) (bs : List Byte) : (s.poke a bs).nums = s.nums := rfl
@[simp] theorem State.poke_shelf (s : State) (a : Nat) (bs : List Byte) : (s.poke a bs).shelf = s.shelf := rfl
@[simp] theorem State.poke_upd (s : State) (a : Nat) (bs : List Byte) : (s.poke a bs).upd = s.upd := rfl
@[simp] theorem State.poke_bkt (s : State) (a : Nat) (bs : List Byte) : (s.poke a bs).bkt = s.bkt := rfl
@[simp] theorem State.poke_opening (s : State) (a : Nat) (bs : List Byte) : (s.poke a bs).opening = s.opening := rfl
@[simp] theorem State.poke_memc (s : State) (a : Nat) (bs : List Byte) : (s.poke a bs).memc = s.memc := rfl
@[simp] theorem State.poke_snap (s : State) (a : Nat) (bs : List Byte) : (s.poke a bs).snap = s.snap := rfl
@[simp] theorem State.poke_lys (s : State) (a : Nat) (bs : List Byte) : (s.poke a bs).lys = s.lys := rfl
@[simp] theorem State.poke_bay (s : State) (a : Nat) (bs : List Byte) : (s.poke a bs).bay = s.bay := rfl
@[simp] theorem State.poke_free (s : State) (a : Nat) (bs : List Byte) : (s.poke a bs).free = s.free := rfl

/-! ### State.emit -/

@[simp] theorem State.emit_pending (s : State) (o : Out) : (s.emit o).pending = s.pending := rfl
@[simp] theorem State.emit_part (s : State) (o : Out) : (s.emit o).part = s.part := rfl
@[simp] theorem State.emit_kept (s : State) (o : Out) : (s.emit o).kept = s.kept := rfl
@[simp] theorem State.emit_rst (s : State) (o : Out) : (s.emit o).rst = s.rst := rfl
@[simp] theorem State.emit_beat (s : State) (o : Out) : (s.emit o).beat = s.beat := rfl
@[simp] theorem State.emit_beatOn (s : State) (o : Out) : (s.emit o).beatOn = s.beatOn := rfl
@[simp] theorem State.emit_regs (s : State) (o : Out) : (s.emit o).regs = s.regs := rfl
@[simp] theorem State.emit_reqRegs (s : State) (o : Out) : (s.emit o).reqRegs = s.reqRegs := rfl
@[simp] theorem State.emit_shadow (s : State) (o : Out) : (s.emit o).shadow = s.shadow := rfl
@[simp] theorem State.emit_routes (s : State) (o : Out) : (s.emit o).routes = s.routes := rfl
@[simp] theorem State.emit_alarmHi (s : State) (o : Out) : (s.emit o).alarmHi = s.alarmHi := rfl
@[simp] theorem State.emit_alarmLo (s : State) (o : Out) : (s.emit o).alarmLo = s.alarmLo := rfl
@[simp] theorem State.emit_overrides (s : State) (o : Out) : (s.emit o).overrides = s.overrides := rfl
@[simp] theorem State.emit_mem (s : State) (o : Out) : (s.emit o).mem = s.mem := rfl
@[simp] theorem State.emit_dirty (s : State) (o : Out) : (s.emit o).dirty = s.dirty := rfl
@[simp] theorem State.emit_enm (s : State) (o : Out) : (s.emit o).enm = s.enm := rfl
@[simp] theorem State.emit_log (s : State) (o : Out) : (s.emit o).log = s.log := rfl
@[simp] theorem State.emit_tide (s : State) (o : Out) : (s.emit o).tide = s.tide := rfl
@[simp] theorem State.emit_images (s : State) (o : Out) : (s.emit o).images = s.images := rfl
@[simp] theorem State.emit_group (s : State) (o : Out) : (s.emit o).group = s.group := rfl
@[simp] theorem State.emit_job (s : State) (o : Out) : (s.emit o).job = s.job := rfl
@[simp] theorem State.emit_pwr (s : State) (o : Out) : (s.emit o).pwr = s.pwr := rfl
@[simp] theorem State.emit_link (s : State) (o : Out) : (s.emit o).link = s.link := rfl
@[simp] theorem State.emit_lists (s : State) (o : Out) : (s.emit o).lists = s.lists := rfl
@[simp] theorem State.emit_evts (s : State) (o : Out) : (s.emit o).evts = s.evts := rfl
@[simp] theorem State.emit_str (s : State) (o : Out) : (s.emit o).str = s.str := rfl
@[simp] theorem State.emit_cores (s : State) (o : Out) : (s.emit o).cores = s.cores := rfl
@[simp] theorem State.emit_nums (s : State) (o : Out) : (s.emit o).nums = s.nums := rfl
@[simp] theorem State.emit_shelf (s : State) (o : Out) : (s.emit o).shelf = s.shelf := rfl
@[simp] theorem State.emit_upd (s : State) (o : Out) : (s.emit o).upd = s.upd := rfl
@[simp] theorem State.emit_bkt (s : State) (o : Out) : (s.emit o).bkt = s.bkt := rfl
@[simp] theorem State.emit_opening (s : State) (o : Out) : (s.emit o).opening = s.opening := rfl
@[simp] theorem State.emit_memc (s : State) (o : Out) : (s.emit o).memc = s.memc := rfl
@[simp] theorem State.emit_snap (s : State) (o : Out) : (s.emit o).snap = s.snap := rfl
@[simp] theorem State.emit_bay (s : State) (o : Out) : (s.emit o).bay = s.bay := rfl
@[simp] theorem State.emit_free (s : State) (o : Out) : (s.emit o).free = s.free := rfl

/-! ### State.setSession -/

@[simp] theorem State.setSession_pending (s : State) (n : Nat) (x : Option Session) : (s.setSession n x).pending = s.pending := rfl
@[simp] theorem State.setSession_part (s : State) (n : Nat) (x : Option Session) : (s.setSession n x).part = s.part := rfl
@[simp] theorem State.setSession_kept (s : State) (n : Nat) (x : Option Session) : (s.setSession n x).kept = s.kept := rfl
@[simp] theorem State.setSession_rst (s : State) (n : Nat) (x : Option Session) : (s.setSession n x).rst = s.rst := rfl
@[simp] theorem State.setSession_beat (s : State) (n : Nat) (x : Option Session) : (s.setSession n x).beat = s.beat := rfl
@[simp] theorem State.setSession_beatOn (s : State) (n : Nat) (x : Option Session) : (s.setSession n x).beatOn = s.beatOn := rfl
@[simp] theorem State.setSession_regs (s : State) (n : Nat) (x : Option Session) : (s.setSession n x).regs = s.regs := rfl
@[simp] theorem State.setSession_reqRegs (s : State) (n : Nat) (x : Option Session) : (s.setSession n x).reqRegs = s.reqRegs := rfl
@[simp] theorem State.setSession_shadow (s : State) (n : Nat) (x : Option Session) : (s.setSession n x).shadow = s.shadow := rfl
@[simp] theorem State.setSession_routes (s : State) (n : Nat) (x : Option Session) : (s.setSession n x).routes = s.routes := rfl
@[simp] theorem State.setSession_alarmHi (s : State) (n : Nat) (x : Option Session) : (s.setSession n x).alarmHi = s.alarmHi := rfl
@[simp] theorem State.setSession_alarmLo (s : State) (n : Nat) (x : Option Session) : (s.setSession n x).alarmLo = s.alarmLo := rfl
@[simp] theorem State.setSession_overrides (s : State) (n : Nat) (x : Option Session) : (s.setSession n x).overrides = s.overrides := rfl
@[simp] theorem State.setSession_mem (s : State) (n : Nat) (x : Option Session) : (s.setSession n x).mem = s.mem := rfl
@[simp] theorem State.setSession_dirty (s : State) (n : Nat) (x : Option Session) : (s.setSession n x).dirty = s.dirty := rfl
@[simp] theorem State.setSession_enm (s : State) (n : Nat) (x : Option Session) : (s.setSession n x).enm = s.enm := rfl
@[simp] theorem State.setSession_log (s : State) (n : Nat) (x : Option Session) : (s.setSession n x).log = s.log := rfl
@[simp] theorem State.setSession_tide (s : State) (n : Nat) (x : Option Session) : (s.setSession n x).tide = s.tide := rfl
@[simp] theorem State.setSession_images (s : State) (n : Nat) (x : Option Session) : (s.setSession n x).images = s.images := rfl
@[simp] theorem State.setSession_group (s : State) (n : Nat) (x : Option Session) : (s.setSession n x).group = s.group := rfl
@[simp] theorem State.setSession_job (s : State) (n : Nat) (x : Option Session) : (s.setSession n x).job = s.job := rfl
@[simp] theorem State.setSession_pwr (s : State) (n : Nat) (x : Option Session) : (s.setSession n x).pwr = s.pwr := rfl
@[simp] theorem State.setSession_link (s : State) (n : Nat) (x : Option Session) : (s.setSession n x).link = s.link := rfl
@[simp] theorem State.setSession_lists (s : State) (n : Nat) (x : Option Session) : (s.setSession n x).lists = s.lists := rfl
@[simp] theorem State.setSession_evts (s : State) (n : Nat) (x : Option Session) : (s.setSession n x).evts = s.evts := rfl
@[simp] theorem State.setSession_str (s : State) (n : Nat) (x : Option Session) : (s.setSession n x).str = s.str := rfl
@[simp] theorem State.setSession_cores (s : State) (n : Nat) (x : Option Session) : (s.setSession n x).cores = s.cores := rfl
@[simp] theorem State.setSession_nums (s : State) (n : Nat) (x : Option Session) : (s.setSession n x).nums = s.nums := rfl
@[simp] theorem State.setSession_shelf (s : State) (n : Nat) (x : Option Session) : (s.setSession n x).shelf = s.shelf := rfl
@[simp] theorem State.setSession_upd (s : State) (n : Nat) (x : Option Session) : (s.setSession n x).upd = s.upd := rfl
@[simp] theorem State.setSession_bkt (s : State) (n : Nat) (x : Option Session) : (s.setSession n x).bkt = s.bkt := rfl
@[simp] theorem State.setSession_opening (s : State) (n : Nat) (x : Option Session) : (s.setSession n x).opening = s.opening := rfl
@[simp] theorem State.setSession_memc (s : State) (n : Nat) (x : Option Session) : (s.setSession n x).memc = s.memc := rfl
@[simp] theorem State.setSession_snap (s : State) (n : Nat) (x : Option Session) : (s.setSession n x).snap = s.snap := rfl
@[simp] theorem State.setSession_bay (s : State) (n : Nat) (x : Option Session) : (s.setSession n x).bay = s.bay := rfl
@[simp] theorem State.setSession_free (s : State) (n : Nat) (x : Option Session) : (s.setSession n x).free = s.free := rfl

/-! ### State.respond -/

@[simp] theorem State.respond_pending (s : State) (mb op : Nat) (tag : Half) (p : Reply) : (s.respond mb op tag p).pending = s.pending := rfl
@[simp] theorem State.respond_part (s : State) (mb op : Nat) (tag : Half) (p : Reply) : (s.respond mb op tag p).part = s.part := rfl
@[simp] theorem State.respond_kept (s : State) (mb op : Nat) (tag : Half) (p : Reply) : (s.respond mb op tag p).kept = s.kept := rfl
@[simp] theorem State.respond_rst (s : State) (mb op : Nat) (tag : Half) (p : Reply) : (s.respond mb op tag p).rst = s.rst := rfl
@[simp] theorem State.respond_beat (s : State) (mb op : Nat) (tag : Half) (p : Reply) : (s.respond mb op tag p).beat = s.beat := rfl
@[simp] theorem State.respond_beatOn (s : State) (mb op : Nat) (tag : Half) (p : Reply) : (s.respond mb op tag p).beatOn = s.beatOn := rfl
@[simp] theorem State.respond_regs (s : State) (mb op : Nat) (tag : Half) (p : Reply) : (s.respond mb op tag p).regs = s.regs := rfl
@[simp] theorem State.respond_reqRegs (s : State) (mb op : Nat) (tag : Half) (p : Reply) : (s.respond mb op tag p).reqRegs = s.reqRegs := rfl
@[simp] theorem State.respond_shadow (s : State) (mb op : Nat) (tag : Half) (p : Reply) : (s.respond mb op tag p).shadow = s.shadow := rfl
@[simp] theorem State.respond_routes (s : State) (mb op : Nat) (tag : Half) (p : Reply) : (s.respond mb op tag p).routes = s.routes := rfl
@[simp] theorem State.respond_alarmHi (s : State) (mb op : Nat) (tag : Half) (p : Reply) : (s.respond mb op tag p).alarmHi = s.alarmHi := rfl
@[simp] theorem State.respond_alarmLo (s : State) (mb op : Nat) (tag : Half) (p : Reply) : (s.respond mb op tag p).alarmLo = s.alarmLo := rfl
@[simp] theorem State.respond_overrides (s : State) (mb op : Nat) (tag : Half) (p : Reply) : (s.respond mb op tag p).overrides = s.overrides := rfl
@[simp] theorem State.respond_mem (s : State) (mb op : Nat) (tag : Half) (p : Reply) : (s.respond mb op tag p).mem = s.mem := rfl
@[simp] theorem State.respond_dirty (s : State) (mb op : Nat) (tag : Half) (p : Reply) : (s.respond mb op tag p).dirty = s.dirty := rfl
@[simp] theorem State.respond_log (s : State) (mb op : Nat) (tag : Half) (p : Reply) : (s.respond mb op tag p).log = s.log := rfl
@[simp] theorem State.respond_tide (s : State) (mb op : Nat) (tag : Half) (p : Reply) : (s.respond mb op tag p).tide = s.tide := rfl
@[simp] theorem State.respond_images (s : State) (mb op : Nat) (tag : Half) (p : Reply) : (s.respond mb op tag p).images = s.images := rfl
@[simp] theorem State.respond_group (s : State) (mb op : Nat) (tag : Half) (p : Reply) : (s.respond mb op tag p).group = s.group := rfl
@[simp] theorem State.respond_job (s : State) (mb op : Nat) (tag : Half) (p : Reply) : (s.respond mb op tag p).job = s.job := rfl
@[simp] theorem State.respond_pwr (s : State) (mb op : Nat) (tag : Half) (p : Reply) : (s.respond mb op tag p).pwr = s.pwr := rfl
@[simp] theorem State.respond_link (s : State) (mb op : Nat) (tag : Half) (p : Reply) : (s.respond mb op tag p).link = s.link := rfl
@[simp] theorem State.respond_lists (s : State) (mb op : Nat) (tag : Half) (p : Reply) : (s.respond mb op tag p).lists = s.lists := rfl
@[simp] theorem State.respond_evts (s : State) (mb op : Nat) (tag : Half) (p : Reply) : (s.respond mb op tag p).evts = s.evts := rfl
@[simp] theorem State.respond_str (s : State) (mb op : Nat) (tag : Half) (p : Reply) : (s.respond mb op tag p).str = s.str := rfl
@[simp] theorem State.respond_cores (s : State) (mb op : Nat) (tag : Half) (p : Reply) : (s.respond mb op tag p).cores = s.cores := rfl
@[simp] theorem State.respond_nums (s : State) (mb op : Nat) (tag : Half) (p : Reply) : (s.respond mb op tag p).nums = s.nums := rfl
@[simp] theorem State.respond_shelf (s : State) (mb op : Nat) (tag : Half) (p : Reply) : (s.respond mb op tag p).shelf = s.shelf := rfl
@[simp] theorem State.respond_upd (s : State) (mb op : Nat) (tag : Half) (p : Reply) : (s.respond mb op tag p).upd = s.upd := rfl
@[simp] theorem State.respond_bkt (s : State) (mb op : Nat) (tag : Half) (p : Reply) : (s.respond mb op tag p).bkt = s.bkt := rfl
@[simp] theorem State.respond_opening (s : State) (mb op : Nat) (tag : Half) (p : Reply) : (s.respond mb op tag p).opening = s.opening := rfl
@[simp] theorem State.respond_memc (s : State) (mb op : Nat) (tag : Half) (p : Reply) : (s.respond mb op tag p).memc = s.memc := rfl
@[simp] theorem State.respond_snap (s : State) (mb op : Nat) (tag : Half) (p : Reply) : (s.respond mb op tag p).snap = s.snap := rfl
@[simp] theorem State.respond_lys (s : State) (mb op : Nat) (tag : Half) (p : Reply) : (s.respond mb op tag p).lys = s.lys := rfl
@[simp] theorem State.respond_bay (s : State) (mb op : Nat) (tag : Half) (p : Reply) : (s.respond mb op tag p).bay = s.bay := rfl
@[simp] theorem State.respond_free (s : State) (mb op : Nat) (tag : Half) (p : Reply) : (s.respond mb op tag p).free = s.free := rfl

/-! ### The log: an entry writes the log and Enmora's events -/

@[simp] theorem State.logRaw_pending (s : State) (e : LogEntry) (more : List Byte) : (s.logRaw e more).pending = s.pending := rfl
@[simp] theorem State.logRaw_part (s : State) (e : LogEntry) (more : List Byte) : (s.logRaw e more).part = s.part := rfl
@[simp] theorem State.logRaw_kept (s : State) (e : LogEntry) (more : List Byte) : (s.logRaw e more).kept = s.kept := rfl
@[simp] theorem State.logRaw_rst (s : State) (e : LogEntry) (more : List Byte) : (s.logRaw e more).rst = s.rst := rfl
@[simp] theorem State.logRaw_beat (s : State) (e : LogEntry) (more : List Byte) : (s.logRaw e more).beat = s.beat := rfl
@[simp] theorem State.logRaw_beatOn (s : State) (e : LogEntry) (more : List Byte) : (s.logRaw e more).beatOn = s.beatOn := rfl
@[simp] theorem State.logRaw_regs (s : State) (e : LogEntry) (more : List Byte) : (s.logRaw e more).regs = s.regs := rfl
@[simp] theorem State.logRaw_reqRegs (s : State) (e : LogEntry) (more : List Byte) : (s.logRaw e more).reqRegs = s.reqRegs := rfl
@[simp] theorem State.logRaw_shadow (s : State) (e : LogEntry) (more : List Byte) : (s.logRaw e more).shadow = s.shadow := rfl
@[simp] theorem State.logRaw_routes (s : State) (e : LogEntry) (more : List Byte) : (s.logRaw e more).routes = s.routes := rfl
@[simp] theorem State.logRaw_alarmHi (s : State) (e : LogEntry) (more : List Byte) : (s.logRaw e more).alarmHi = s.alarmHi := rfl
@[simp] theorem State.logRaw_alarmLo (s : State) (e : LogEntry) (more : List Byte) : (s.logRaw e more).alarmLo = s.alarmLo := rfl
@[simp] theorem State.logRaw_overrides (s : State) (e : LogEntry) (more : List Byte) : (s.logRaw e more).overrides = s.overrides := rfl
@[simp] theorem State.logRaw_mem (s : State) (e : LogEntry) (more : List Byte) : (s.logRaw e more).mem = s.mem := rfl
@[simp] theorem State.logRaw_dirty (s : State) (e : LogEntry) (more : List Byte) : (s.logRaw e more).dirty = s.dirty := rfl
@[simp] theorem State.logRaw_tide (s : State) (e : LogEntry) (more : List Byte) : (s.logRaw e more).tide = s.tide := rfl
@[simp] theorem State.logRaw_images (s : State) (e : LogEntry) (more : List Byte) : (s.logRaw e more).images = s.images := rfl
@[simp] theorem State.logRaw_group (s : State) (e : LogEntry) (more : List Byte) : (s.logRaw e more).group = s.group := rfl
@[simp] theorem State.logRaw_job (s : State) (e : LogEntry) (more : List Byte) : (s.logRaw e more).job = s.job := rfl
@[simp] theorem State.logRaw_pwr (s : State) (e : LogEntry) (more : List Byte) : (s.logRaw e more).pwr = s.pwr := rfl
@[simp] theorem State.logRaw_link (s : State) (e : LogEntry) (more : List Byte) : (s.logRaw e more).link = s.link := rfl
@[simp] theorem State.logRaw_lists (s : State) (e : LogEntry) (more : List Byte) : (s.logRaw e more).lists = s.lists := rfl
@[simp] theorem State.logRaw_evts (s : State) (e : LogEntry) (more : List Byte) : (s.logRaw e more).evts = s.evts := rfl
@[simp] theorem State.logRaw_str (s : State) (e : LogEntry) (more : List Byte) : (s.logRaw e more).str = s.str := rfl
@[simp] theorem State.logRaw_cores (s : State) (e : LogEntry) (more : List Byte) : (s.logRaw e more).cores = s.cores := rfl
@[simp] theorem State.logRaw_nums (s : State) (e : LogEntry) (more : List Byte) : (s.logRaw e more).nums = s.nums := rfl
@[simp] theorem State.logRaw_shelf (s : State) (e : LogEntry) (more : List Byte) : (s.logRaw e more).shelf = s.shelf := rfl
@[simp] theorem State.logRaw_upd (s : State) (e : LogEntry) (more : List Byte) : (s.logRaw e more).upd = s.upd := rfl
@[simp] theorem State.logRaw_bkt (s : State) (e : LogEntry) (more : List Byte) : (s.logRaw e more).bkt = s.bkt := rfl
@[simp] theorem State.logRaw_opening (s : State) (e : LogEntry) (more : List Byte) : (s.logRaw e more).opening = s.opening := rfl
@[simp] theorem State.logRaw_memc (s : State) (e : LogEntry) (more : List Byte) : (s.logRaw e more).memc = s.memc := rfl
@[simp] theorem State.logRaw_snap (s : State) (e : LogEntry) (more : List Byte) : (s.logRaw e more).snap = s.snap := rfl
@[simp] theorem State.logRaw_lys (s : State) (e : LogEntry) (more : List Byte) : (s.logRaw e more).lys = s.lys := rfl
@[simp] theorem State.logRaw_bay (s : State) (e : LogEntry) (more : List Byte) : (s.logRaw e more).bay = s.bay := rfl
@[simp] theorem State.logRaw_free (s : State) (e : LogEntry) (more : List Byte) : (s.logRaw e more).free = s.free := rfl

@[simp] theorem State.logHigh_pending (s : State) (before : Nat) : (s.logHigh before).pending = s.pending := by unfold State.logHigh; split <;> rfl
@[simp] theorem State.logHigh_part (s : State) (before : Nat) : (s.logHigh before).part = s.part := by unfold State.logHigh; split <;> rfl
@[simp] theorem State.logHigh_kept (s : State) (before : Nat) : (s.logHigh before).kept = s.kept := by unfold State.logHigh; split <;> rfl
@[simp] theorem State.logHigh_rst (s : State) (before : Nat) : (s.logHigh before).rst = s.rst := by unfold State.logHigh; split <;> rfl
@[simp] theorem State.logHigh_beat (s : State) (before : Nat) : (s.logHigh before).beat = s.beat := by unfold State.logHigh; split <;> rfl
@[simp] theorem State.logHigh_beatOn (s : State) (before : Nat) : (s.logHigh before).beatOn = s.beatOn := by unfold State.logHigh; split <;> rfl
@[simp] theorem State.logHigh_regs (s : State) (before : Nat) : (s.logHigh before).regs = s.regs := by unfold State.logHigh; split <;> rfl
@[simp] theorem State.logHigh_reqRegs (s : State) (before : Nat) : (s.logHigh before).reqRegs = s.reqRegs := by unfold State.logHigh; split <;> rfl
@[simp] theorem State.logHigh_shadow (s : State) (before : Nat) : (s.logHigh before).shadow = s.shadow := by unfold State.logHigh; split <;> rfl
@[simp] theorem State.logHigh_routes (s : State) (before : Nat) : (s.logHigh before).routes = s.routes := by unfold State.logHigh; split <;> rfl
@[simp] theorem State.logHigh_alarmHi (s : State) (before : Nat) : (s.logHigh before).alarmHi = s.alarmHi := by unfold State.logHigh; split <;> rfl
@[simp] theorem State.logHigh_alarmLo (s : State) (before : Nat) : (s.logHigh before).alarmLo = s.alarmLo := by unfold State.logHigh; split <;> rfl
@[simp] theorem State.logHigh_overrides (s : State) (before : Nat) : (s.logHigh before).overrides = s.overrides := by unfold State.logHigh; split <;> rfl
@[simp] theorem State.logHigh_mem (s : State) (before : Nat) : (s.logHigh before).mem = s.mem := by unfold State.logHigh; split <;> rfl
@[simp] theorem State.logHigh_dirty (s : State) (before : Nat) : (s.logHigh before).dirty = s.dirty := by unfold State.logHigh; split <;> rfl
@[simp] theorem State.logHigh_tide (s : State) (before : Nat) : (s.logHigh before).tide = s.tide := by unfold State.logHigh; split <;> rfl
@[simp] theorem State.logHigh_images (s : State) (before : Nat) : (s.logHigh before).images = s.images := by unfold State.logHigh; split <;> rfl
@[simp] theorem State.logHigh_group (s : State) (before : Nat) : (s.logHigh before).group = s.group := by unfold State.logHigh; split <;> rfl
@[simp] theorem State.logHigh_job (s : State) (before : Nat) : (s.logHigh before).job = s.job := by unfold State.logHigh; split <;> rfl
@[simp] theorem State.logHigh_pwr (s : State) (before : Nat) : (s.logHigh before).pwr = s.pwr := by unfold State.logHigh; split <;> rfl
@[simp] theorem State.logHigh_link (s : State) (before : Nat) : (s.logHigh before).link = s.link := by unfold State.logHigh; split <;> rfl
@[simp] theorem State.logHigh_lists (s : State) (before : Nat) : (s.logHigh before).lists = s.lists := by unfold State.logHigh; split <;> rfl
@[simp] theorem State.logHigh_evts (s : State) (before : Nat) : (s.logHigh before).evts = s.evts := by unfold State.logHigh; split <;> rfl
@[simp] theorem State.logHigh_str (s : State) (before : Nat) : (s.logHigh before).str = s.str := by unfold State.logHigh; split <;> rfl
@[simp] theorem State.logHigh_cores (s : State) (before : Nat) : (s.logHigh before).cores = s.cores := by unfold State.logHigh; split <;> rfl
@[simp] theorem State.logHigh_nums (s : State) (before : Nat) : (s.logHigh before).nums = s.nums := by unfold State.logHigh; split <;> rfl
@[simp] theorem State.logHigh_shelf (s : State) (before : Nat) : (s.logHigh before).shelf = s.shelf := by unfold State.logHigh; split <;> rfl
@[simp] theorem State.logHigh_upd (s : State) (before : Nat) : (s.logHigh before).upd = s.upd := by unfold State.logHigh; split <;> rfl
@[simp] theorem State.logHigh_bkt (s : State) (before : Nat) : (s.logHigh before).bkt = s.bkt := by unfold State.logHigh; split <;> rfl
@[simp] theorem State.logHigh_opening (s : State) (before : Nat) : (s.logHigh before).opening = s.opening := by unfold State.logHigh; split <;> rfl
@[simp] theorem State.logHigh_memc (s : State) (before : Nat) : (s.logHigh before).memc = s.memc := by unfold State.logHigh; split <;> rfl
@[simp] theorem State.logHigh_snap (s : State) (before : Nat) : (s.logHigh before).snap = s.snap := by unfold State.logHigh; split <;> rfl
@[simp] theorem State.logHigh_lys (s : State) (before : Nat) : (s.logHigh before).lys = s.lys := by unfold State.logHigh; split <;> rfl
@[simp] theorem State.logHigh_bay (s : State) (before : Nat) : (s.logHigh before).bay = s.bay := by unfold State.logHigh; split <;> rfl
@[simp] theorem State.logHigh_free (s : State) (before : Nat) : (s.logHigh before).free = s.free := by unfold State.logHigh; split <;> rfl

@[simp] theorem State.logFull_pending (s : State) (source : Half) (code : Nat) (core tag : Half) (detail more : List Byte) : (s.logFull source code core tag detail more).pending = s.pending := by simp [State.logFull]
@[simp] theorem State.logFull_part (s : State) (source : Half) (code : Nat) (core tag : Half) (detail more : List Byte) : (s.logFull source code core tag detail more).part = s.part := by simp [State.logFull]
@[simp] theorem State.logFull_kept (s : State) (source : Half) (code : Nat) (core tag : Half) (detail more : List Byte) : (s.logFull source code core tag detail more).kept = s.kept := by simp [State.logFull]
@[simp] theorem State.logFull_rst (s : State) (source : Half) (code : Nat) (core tag : Half) (detail more : List Byte) : (s.logFull source code core tag detail more).rst = s.rst := by simp [State.logFull]
@[simp] theorem State.logFull_beat (s : State) (source : Half) (code : Nat) (core tag : Half) (detail more : List Byte) : (s.logFull source code core tag detail more).beat = s.beat := by simp [State.logFull]
@[simp] theorem State.logFull_beatOn (s : State) (source : Half) (code : Nat) (core tag : Half) (detail more : List Byte) : (s.logFull source code core tag detail more).beatOn = s.beatOn := by simp [State.logFull]
@[simp] theorem State.logFull_regs (s : State) (source : Half) (code : Nat) (core tag : Half) (detail more : List Byte) : (s.logFull source code core tag detail more).regs = s.regs := by simp [State.logFull]
@[simp] theorem State.logFull_reqRegs (s : State) (source : Half) (code : Nat) (core tag : Half) (detail more : List Byte) : (s.logFull source code core tag detail more).reqRegs = s.reqRegs := by simp [State.logFull]
@[simp] theorem State.logFull_shadow (s : State) (source : Half) (code : Nat) (core tag : Half) (detail more : List Byte) : (s.logFull source code core tag detail more).shadow = s.shadow := by simp [State.logFull]
@[simp] theorem State.logFull_routes (s : State) (source : Half) (code : Nat) (core tag : Half) (detail more : List Byte) : (s.logFull source code core tag detail more).routes = s.routes := by simp [State.logFull]
@[simp] theorem State.logFull_alarmHi (s : State) (source : Half) (code : Nat) (core tag : Half) (detail more : List Byte) : (s.logFull source code core tag detail more).alarmHi = s.alarmHi := by simp [State.logFull]
@[simp] theorem State.logFull_alarmLo (s : State) (source : Half) (code : Nat) (core tag : Half) (detail more : List Byte) : (s.logFull source code core tag detail more).alarmLo = s.alarmLo := by simp [State.logFull]
@[simp] theorem State.logFull_overrides (s : State) (source : Half) (code : Nat) (core tag : Half) (detail more : List Byte) : (s.logFull source code core tag detail more).overrides = s.overrides := by simp [State.logFull]
@[simp] theorem State.logFull_mem (s : State) (source : Half) (code : Nat) (core tag : Half) (detail more : List Byte) : (s.logFull source code core tag detail more).mem = s.mem := by simp [State.logFull]
@[simp] theorem State.logFull_dirty (s : State) (source : Half) (code : Nat) (core tag : Half) (detail more : List Byte) : (s.logFull source code core tag detail more).dirty = s.dirty := by simp [State.logFull]
@[simp] theorem State.logFull_tide (s : State) (source : Half) (code : Nat) (core tag : Half) (detail more : List Byte) : (s.logFull source code core tag detail more).tide = s.tide := by simp [State.logFull]
@[simp] theorem State.logFull_images (s : State) (source : Half) (code : Nat) (core tag : Half) (detail more : List Byte) : (s.logFull source code core tag detail more).images = s.images := by simp [State.logFull]
@[simp] theorem State.logFull_group (s : State) (source : Half) (code : Nat) (core tag : Half) (detail more : List Byte) : (s.logFull source code core tag detail more).group = s.group := by simp [State.logFull]
@[simp] theorem State.logFull_job (s : State) (source : Half) (code : Nat) (core tag : Half) (detail more : List Byte) : (s.logFull source code core tag detail more).job = s.job := by simp [State.logFull]
@[simp] theorem State.logFull_pwr (s : State) (source : Half) (code : Nat) (core tag : Half) (detail more : List Byte) : (s.logFull source code core tag detail more).pwr = s.pwr := by simp [State.logFull]
@[simp] theorem State.logFull_link (s : State) (source : Half) (code : Nat) (core tag : Half) (detail more : List Byte) : (s.logFull source code core tag detail more).link = s.link := by simp [State.logFull]
@[simp] theorem State.logFull_lists (s : State) (source : Half) (code : Nat) (core tag : Half) (detail more : List Byte) : (s.logFull source code core tag detail more).lists = s.lists := by simp [State.logFull]
@[simp] theorem State.logFull_evts (s : State) (source : Half) (code : Nat) (core tag : Half) (detail more : List Byte) : (s.logFull source code core tag detail more).evts = s.evts := by simp [State.logFull]
@[simp] theorem State.logFull_str (s : State) (source : Half) (code : Nat) (core tag : Half) (detail more : List Byte) : (s.logFull source code core tag detail more).str = s.str := by simp [State.logFull]
@[simp] theorem State.logFull_cores (s : State) (source : Half) (code : Nat) (core tag : Half) (detail more : List Byte) : (s.logFull source code core tag detail more).cores = s.cores := by simp [State.logFull]
@[simp] theorem State.logFull_nums (s : State) (source : Half) (code : Nat) (core tag : Half) (detail more : List Byte) : (s.logFull source code core tag detail more).nums = s.nums := by simp [State.logFull]
@[simp] theorem State.logFull_shelf (s : State) (source : Half) (code : Nat) (core tag : Half) (detail more : List Byte) : (s.logFull source code core tag detail more).shelf = s.shelf := by simp [State.logFull]
@[simp] theorem State.logFull_upd (s : State) (source : Half) (code : Nat) (core tag : Half) (detail more : List Byte) : (s.logFull source code core tag detail more).upd = s.upd := by simp [State.logFull]
@[simp] theorem State.logFull_bkt (s : State) (source : Half) (code : Nat) (core tag : Half) (detail more : List Byte) : (s.logFull source code core tag detail more).bkt = s.bkt := by simp [State.logFull]
@[simp] theorem State.logFull_opening (s : State) (source : Half) (code : Nat) (core tag : Half) (detail more : List Byte) : (s.logFull source code core tag detail more).opening = s.opening := by simp [State.logFull]
@[simp] theorem State.logFull_memc (s : State) (source : Half) (code : Nat) (core tag : Half) (detail more : List Byte) : (s.logFull source code core tag detail more).memc = s.memc := by simp [State.logFull]
@[simp] theorem State.logFull_snap (s : State) (source : Half) (code : Nat) (core tag : Half) (detail more : List Byte) : (s.logFull source code core tag detail more).snap = s.snap := by simp [State.logFull]
@[simp] theorem State.logFull_lys (s : State) (source : Half) (code : Nat) (core tag : Half) (detail more : List Byte) : (s.logFull source code core tag detail more).lys = s.lys := by simp [State.logFull]
@[simp] theorem State.logFull_bay (s : State) (source : Half) (code : Nat) (core tag : Half) (detail more : List Byte) : (s.logFull source code core tag detail more).bay = s.bay := by simp [State.logFull]
@[simp] theorem State.logFull_free (s : State) (source : Half) (code : Nat) (core tag : Half) (detail more : List Byte) : (s.logFull source code core tag detail more).free = s.free := by simp [State.logFull]

/-! ### Register and memory contents after a write -/

/-- The canonical form of the register file is what makes a write read back. -/
theorem State.setReg_reg_self (s : State) (k : Nat) (v : Word) (h : Sparse.wf regReset s.regs = true) : (s.setReg k v).reg k = v :=
  Sparse.get_put_self regReset s.regs k v h

theorem State.setReg_reg_ne (s : State) (k j : Nat) (v : Word) (h : j ≠ k) : (s.setReg k v).reg j = s.reg j :=
  Sparse.get_put_ne (regReset k) (regReset j) s.regs v h

theorem State.setReg_wf (s : State) (k : Nat) (v : Word) (h : Sparse.wf regReset s.regs = true) :
    Sparse.wf regReset (s.setReg k v).regs = true := Sparse.put_wf regReset s.regs k v h

theorem State.reg_congr {s t : State} (h : t.regs = s.regs) (k : Nat) : t.reg k = s.reg k := by unfold State.reg; rw [h]

theorem State.logFull_reg (s : State) (source : Half) (code : Nat) (core tag : Half) (detail more : List Byte) (k : Nat) :
    (s.logFull source code core tag detail more).reg k = s.reg k := State.reg_congr (by simp) k

theorem State.respond_reg (s : State) (mb op : Nat) (tag : Half) (p : Reply) (k : Nat) : (s.respond mb op tag p).reg k = s.reg k := rfl

theorem State.emit_reg (s : State) (o : Out) (k : Nat) : (s.emit o).reg k = s.reg k := rfl

theorem State.poke_reg (s : State) (a : Nat) (bs : List Byte) (k : Nat) : (s.poke a bs).reg k = s.reg k := rfl

/-- A byte outside those stored reads as before. -/
theorem Memory.write_get_out (bs : List Byte) (m : List Host.Cell) (a b : Nat) (h : b < a ∨ a + bs.length ≤ b) :
    Sparse.get memDefault (Memory.write m a bs) b = Sparse.get memDefault m b := by
  induction bs generalizing m a with
  | nil => rfl
  | cons x xs ih =>
    simp only [List.length_cons] at h
    rw [Memory.write, ih _ _ (by omega)]
    exact Sparse.get_put_ne memDefault memDefault m x (by omega)

/-- A stored byte reads back. -/
theorem Memory.write_get_in (bs : List Byte) (m : List Host.Cell) (a i : Nat) (h : Memory.wf m = true) (hi : i < bs.length) :
    Sparse.get memDefault (Memory.write m a bs) (a + i) = bs[i] := by
  induction bs generalizing m a i with
  | nil => exact absurd hi (by simp)
  | cons x xs ih =>
    rw [Memory.write]
    cases i with
    | zero =>
      rw [Memory.write_get_out xs _ (a + 1) (a + 0) (by omega)]
      exact Sparse.get_put_self (fun _ => memDefault) m a x h
    | succ j =>
      have := ih (Memory.put m a x) (a + 1) j (Memory.put_wf m a x h) (by simpa using hi)
      simpa [Nat.add_assoc, Nat.add_comm 1 j] using this

theorem State.poke_byte_out (s : State) (a b : Nat) (bs : List Byte) (h : b < a ∨ a + bs.length ≤ b) : (s.poke a bs).byte b = s.byte b :=
  Memory.write_get_out bs s.mem a b h

theorem State.poke_byte_in (s : State) (a i : Nat) (bs : List Byte) (h : Memory.wf s.mem = true) (hi : i < bs.length) :
    (s.poke a bs).byte (a + i) = bs[i] := Memory.write_get_in bs s.mem a i h hi

/-! ### Changes that wait for a boundary -/

theorem State.queueReg_pendingReg_self (s : State) (k : Nat) (v : Word) : (s.queueReg k v).pendingReg k = some v := by
  simp [State.queueReg, State.pendingReg]

theorem State.queueReg_pendingReg_ne (s : State) (j k : Nat) (v : Word) (h : j ≠ k) : (s.queueReg k v).pendingReg j = s.pendingReg j := by
  simp only [State.queueReg, State.pendingReg, List.reverse_append, List.reverse_cons, List.reverse_nil, List.nil_append, List.singleton_append,
    List.findSome?_cons]
  rw [if_neg (fun e => h e.symm)]
  simp only
  rw [← List.filter_reverse]
  generalize s.shadow.reverse = l
  induction l with
  | nil => rfl
  | cons x xs ih =>
    rw [List.filter_cons]
    cases x with
    | route d w => simpa only [Shadow.isReg, Bool.not_false, if_true, List.findSome?_cons] using ih
    | reg k' w =>
      rw [show Shadow.isReg k (.reg k' w) = (k' == k) from rfl]
      by_cases e : k' = k
      · subst e
        simpa only [beq_self_eq_true, Bool.not_true, Bool.false_eq_true, if_false, List.findSome?_cons, if_neg (Ne.symm h)] using ih
      · rw [if_pos (by simp [e]), List.findSome?_cons, List.findSome?_cons, ih]

theorem State.queueReg_latest_self (s : State) (k : Nat) (v : Word) : (s.queueReg k v).latest k = v := by simp [State.latest, State.queueReg_pendingReg_self]

theorem State.queueReg_latest_ne (s : State) (j k : Nat) (v : Word) (h : j ≠ k) : (s.queueReg k v).latest j = s.latest j := by
  simp only [State.latest, State.queueReg_pendingReg_ne s j k v h]; rfl

@[simp] theorem State.basic_shadow (s : State) (k : Nat) : (s.basic k).shadow = s.shadow := rfl

@[simp] theorem State.override_shadow (s : State) (k : Nat) : (s.override k).shadow = s.shadow := by unfold State.override; split <;> rfl

@[simp] theorem State.override_regs (s : State) (k : Nat) : (s.override k).regs = s.regs := by unfold State.override; split <;> rfl

theorem State.pendingReg_congr {s t : State} (h : t.shadow = s.shadow) (k : Nat) : t.pendingReg k = s.pendingReg k := by unfold State.pendingReg; rw [h]

theorem State.latest_congr {s t : State} (h : t.shadow = s.shadow) (g : t.regs = s.regs) (k : Nat) : t.latest k = s.latest k := by
  unfold State.latest; rw [State.pendingReg_congr h, State.reg_congr g]

/-! ### Serving a mailbox command -/

/-- A command that passes every check of Table 3.6 and answers at once. -/
theorem Cmd.serve_reply {c : Cmd} {r : Req} {s t : State} {p : Reply} (ht : c.taken r s = true) (hc : c.check s r = none) (ha : c.act s r = (t, some p)) :
    c.serve r s = .next (t.respond r.mb c.op r.tag p) := by
  simp [Cmd.serve, ht, Cmd.serveState, hc, ha]

/-- One that passes them and answers later. -/
theorem Cmd.serve_later {c : Cmd} {r : Req} {s t : State} (ht : c.taken r s = true) (hc : c.check s r = none) (ha : c.act s r = (t, none)) :
    c.serve r s = .next { t with enm := { t.enm with taken := Taken.mark t.enm.taken r.mb .begun } } := by
  simp [Cmd.serve, ht, Cmd.serveState, hc, ha]

/-- One that fails a check: the STATUS is answered and nothing else happens. -/
theorem Cmd.serve_status {c : Cmd} {r : Req} {s : State} {st : Nat} (ht : c.taken r s = true) (hc : c.check s r = some st) :
    c.serve r s = .next (s.respond r.mb c.op r.tag (.err st)) := by
  simp [Cmd.serve, ht, Cmd.serveState, hc]

/-- One that nothing takes waits in its slot. -/
theorem Cmd.serve_waits {c : Cmd} {r : Req} {s : State} (ht : c.taken r s = false) : c.serve r s = .next s := by
  simp [Cmd.serve, ht]

/-- The checks pass when each does. -/
theorem Cmd.check_none {c : Cmd} {s : State} {r : Req} (hl : r.pay.length ≤ 240) (hn : c.len r.pay = true) (hx : c.expert = false ∨ s.expertReq r.mb = true)
    (hp : c.param s r = true) (hf : s.servesFamily c.op = true) (hs : s.asleep = false ∨ c.inSleep = true) (hst : c.state s r = true)
    (hd : c.denied s r = false) : c.check s r = none := by
  have e : ¬ 240 < r.pay.length := by omega
  rcases hx with hx | hx <;> rcases hs with hs | hs <;> simp [Cmd.check, e, hn, hx, hp, hf, hs, hst, hd]

end Sys2Proof.Machine
end

