-- ==== Sys2Proof/Laws/TelCmd.lean ====
section
/-!
SUPPORT. Frames of the operations of Machine/TelCmd.lean (Laws/Frame.lean says what a frame is).
-/
namespace Sys2Proof.Machine

variable {ω : Nat}

theorem cmdTelAlarmSet_framed (hw : Within 0x1c00 ω) : cmdTelAlarmSet.Framed ω := by
  intro r s q h
  dsimp only [cmdTelAlarmSet]
  with_reducible repeat' first | assumption | apply State.basic_frame (hw.mono (by decide)) | apply State.basic_frame (hw.mono (by decide)) | refine Frame.foldl ?_ (fun s a h => ?_) | simp only [Frame.set_alarmHi_alarmLo (hw.mono (by decide))] | split

theorem cmdTelAreaSet_framed (hw : Within 0x10000 ω) : cmdTelAreaSet.Framed ω := by
  intro r s q h
  dsimp only [cmdTelAreaSet]
  with_reducible repeat' first | assumption | refine Frame.foldl ?_ (fun s a h => ?_) | simp only [Frame.set_log (hw.mono (by decide))] | split

theorem cmdTelCounters_framed  : cmdTelCounters.Framed ω := by
  intro r s q h
  dsimp only [cmdTelCounters]
  with_reducible repeat' first | assumption | refine Frame.foldl ?_ (fun s a h => ?_) | split

theorem cmdTelEventMask_framed (hw : Within 0x8000 ω) : cmdTelEventMask.Framed ω := by
  intro r s q h
  dsimp only [cmdTelEventMask]
  with_reducible repeat' first | assumption | refine Frame.foldl ?_ (fun s a h => ?_) | simp only [Frame.set_enm (hw.mono (by decide))] | split

theorem cmdTelLogRead_framed (hw : Within 0x18000 ω) : cmdTelLogRead.Framed ω := by
  intro r s q h
  dsimp only [cmdTelLogRead]
  with_reducible repeat' first | assumption | apply State.logHigh_frame (hw.mono (by decide)) | apply State.logHigh_frame (hw.mono (by decide)) | refine Frame.foldl ?_ (fun s a h => ?_) | simp only [Frame.set_log (hw.mono (by decide))] | split

theorem cmdTelLogStatus_framed  : cmdTelLogStatus.Framed ω := by
  intro r s q h
  dsimp only [cmdTelLogStatus]
  with_reducible repeat' first | assumption | refine Frame.foldl ?_ (fun s a h => ?_) | split

theorem execTelLogRead_frame (hw : Within 0x18000 ω) {r s : State} {a0} (h : Frame ω r s) : FrameO ω r (execTelLogRead a0 s) := by
  unfold execTelLogRead
  try dsimp only
  with_reducible repeat' first | assumption | apply FrameO.next | apply Cmd.serve_frame (hw.mono (by decide)) (cmdTelLogRead_framed (hw.mono (by decide))) | refine Frame.foldl ?_ (fun s a h => ?_) | split

theorem execTelLogStatus_frame (hw : Within 0x8000 ω) {r s : State} {a0} (h : Frame ω r s) : FrameO ω r (execTelLogStatus a0 s) := by
  unfold execTelLogStatus
  try dsimp only
  with_reducible repeat' first | assumption | apply FrameO.next | apply Cmd.serve_frame (hw.mono (by decide)) (cmdTelLogStatus_framed) | refine Frame.foldl ?_ (fun s a h => ?_) | split

theorem execTelAreaSet_frame (hw : Within 0x18000 ω) {r s : State} {a0} (h : Frame ω r s) : FrameO ω r (execTelAreaSet a0 s) := by
  unfold execTelAreaSet
  try dsimp only
  with_reducible repeat' first | assumption | apply FrameO.next | apply Cmd.serve_frame (hw.mono (by decide)) (cmdTelAreaSet_framed (hw.mono (by decide))) | refine Frame.foldl ?_ (fun s a h => ?_) | split

theorem execTelAlarmSet_frame (hw : Within 0x9c00 ω) {r s : State} {a0} (h : Frame ω r s) : FrameO ω r (execTelAlarmSet a0 s) := by
  unfold execTelAlarmSet
  try dsimp only
  with_reducible repeat' first | assumption | apply FrameO.next | apply Cmd.serve_frame (hw.mono (by decide)) (cmdTelAlarmSet_framed (hw.mono (by decide))) | refine Frame.foldl ?_ (fun s a h => ?_) | split

theorem execTelCounters_frame (hw : Within 0x8000 ω) {r s : State} {a0} (h : Frame ω r s) : FrameO ω r (execTelCounters a0 s) := by
  unfold execTelCounters
  try dsimp only
  with_reducible repeat' first | assumption | apply FrameO.next | apply Cmd.serve_frame (hw.mono (by decide)) (cmdTelCounters_framed) | refine Frame.foldl ?_ (fun s a h => ?_) | split

theorem execTelEventMask_frame (hw : Within 0x8000 ω) {r s : State} {a0} (h : Frame ω r s) : FrameO ω r (execTelEventMask a0 s) := by
  unfold execTelEventMask
  try dsimp only
  with_reducible repeat' first | assumption | apply FrameO.next | apply Cmd.serve_frame (hw.mono (by decide)) (cmdTelEventMask_framed (hw.mono (by decide))) | refine Frame.foldl ?_ (fun s a h => ?_) | split

end Sys2Proof.Machine
end

