-- ==== Sys2Proof/Laws/VodCmd.lean ====
section
/-!
SUPPORT. Frames of the operations of Machine/VodCmd.lean (Laws/Frame.lean says what a frame is).
-/
namespace Sys2Proof.Machine

variable {ω : Nat}

theorem execVodMov_frame (hw : Within 0x170ed7e040 ω) {r s : State} {core} {list} (h : Frame ω r s) : FrameO ω r (execVodMov core list s) := by
  unfold execVodMov
  try dsimp only
  with_reducible repeat' first | assumption | apply FrameO.next | apply State.vod_frame (hw.mono (by decide)) | refine Frame.foldl ?_ (fun s a h => ?_) | split

theorem execVodAdd_frame (hw : Within 0x170ed7e040 ω) {r s : State} {core} {list} (h : Frame ω r s) : FrameO ω r (execVodAdd core list s) := by
  unfold execVodAdd
  try dsimp only
  with_reducible repeat' first | assumption | apply FrameO.next | apply State.vod_frame (hw.mono (by decide)) | refine Frame.foldl ?_ (fun s a h => ?_) | split

theorem execVodSub_frame (hw : Within 0x170ed7e040 ω) {r s : State} {core} {list} (h : Frame ω r s) : FrameO ω r (execVodSub core list s) := by
  unfold execVodSub
  try dsimp only
  with_reducible repeat' first | assumption | apply FrameO.next | apply State.vod_frame (hw.mono (by decide)) | refine Frame.foldl ?_ (fun s a h => ?_) | split

theorem execVodMul_frame (hw : Within 0x170ed7e040 ω) {r s : State} {core} {list} (h : Frame ω r s) : FrameO ω r (execVodMul core list s) := by
  unfold execVodMul
  try dsimp only
  with_reducible repeat' first | assumption | apply FrameO.next | apply State.vod_frame (hw.mono (by decide)) | refine Frame.foldl ?_ (fun s a h => ?_) | split

theorem execVodFma_frame (hw : Within 0x170ed7e040 ω) {r s : State} {core} {list} (h : Frame ω r s) : FrameO ω r (execVodFma core list s) := by
  unfold execVodFma
  try dsimp only
  with_reducible repeat' first | assumption | apply FrameO.next | apply State.vod_frame (hw.mono (by decide)) | refine Frame.foldl ?_ (fun s a h => ?_) | split

theorem execVodMax_frame (hw : Within 0x170ed7e040 ω) {r s : State} {core} {list} (h : Frame ω r s) : FrameO ω r (execVodMax core list s) := by
  unfold execVodMax
  try dsimp only
  with_reducible repeat' first | assumption | apply FrameO.next | apply State.vod_frame (hw.mono (by decide)) | refine Frame.foldl ?_ (fun s a h => ?_) | split

theorem execVodMin_frame (hw : Within 0x170ed7e040 ω) {r s : State} {core} {list} (h : Frame ω r s) : FrameO ω r (execVodMin core list s) := by
  unfold execVodMin
  try dsimp only
  with_reducible repeat' first | assumption | apply FrameO.next | apply State.vod_frame (hw.mono (by decide)) | refine Frame.foldl ?_ (fun s a h => ?_) | split

theorem execVodAbs_frame (hw : Within 0x170ed7e040 ω) {r s : State} {core} {list} (h : Frame ω r s) : FrameO ω r (execVodAbs core list s) := by
  unfold execVodAbs
  try dsimp only
  with_reducible repeat' first | assumption | apply FrameO.next | apply State.vod_frame (hw.mono (by decide)) | refine Frame.foldl ?_ (fun s a h => ?_) | split

theorem execVodSel_frame (hw : Within 0x170ed7e040 ω) {r s : State} {core} {list} (h : Frame ω r s) : FrameO ω r (execVodSel core list s) := by
  unfold execVodSel
  try dsimp only
  with_reducible repeat' first | assumption | apply FrameO.next | apply State.vod_frame (hw.mono (by decide)) | refine Frame.foldl ?_ (fun s a h => ?_) | split

theorem execVodRcp_frame (hw : Within 0x170ed7e040 ω) {r s : State} {core} {list} (h : Frame ω r s) : FrameO ω r (execVodRcp core list s) := by
  unfold execVodRcp
  try dsimp only
  with_reducible repeat' first | assumption | apply FrameO.next | apply State.vod_frame (hw.mono (by decide)) | refine Frame.foldl ?_ (fun s a h => ?_) | split

theorem execVodRsqrt_frame (hw : Within 0x170ed7e040 ω) {r s : State} {core} {list} (h : Frame ω r s) : FrameO ω r (execVodRsqrt core list s) := by
  unfold execVodRsqrt
  try dsimp only
  with_reducible repeat' first | assumption | apply FrameO.next | apply State.vod_frame (hw.mono (by decide)) | refine Frame.foldl ?_ (fun s a h => ?_) | split

theorem execVodSqrt_frame (hw : Within 0x170ed7e040 ω) {r s : State} {core} {list} (h : Frame ω r s) : FrameO ω r (execVodSqrt core list s) := by
  unfold execVodSqrt
  try dsimp only
  with_reducible repeat' first | assumption | apply FrameO.next | apply State.vod_frame (hw.mono (by decide)) | refine Frame.foldl ?_ (fun s a h => ?_) | split

theorem execVodExp_frame (hw : Within 0x170ed7e040 ω) {r s : State} {core} {list} (h : Frame ω r s) : FrameO ω r (execVodExp core list s) := by
  unfold execVodExp
  try dsimp only
  with_reducible repeat' first | assumption | apply FrameO.next | apply State.vod_frame (hw.mono (by decide)) | refine Frame.foldl ?_ (fun s a h => ?_) | split

theorem execVodLog_frame (hw : Within 0x170ed7e040 ω) {r s : State} {core} {list} (h : Frame ω r s) : FrameO ω r (execVodLog core list s) := by
  unfold execVodLog
  try dsimp only
  with_reducible repeat' first | assumption | apply FrameO.next | apply State.vod_frame (hw.mono (by decide)) | refine Frame.foldl ?_ (fun s a h => ?_) | split

theorem execVodDiv_frame (hw : Within 0x170ed7e040 ω) {r s : State} {core} {list} (h : Frame ω r s) : FrameO ω r (execVodDiv core list s) := by
  unfold execVodDiv
  try dsimp only
  with_reducible repeat' first | assumption | apply FrameO.next | apply State.vod_frame (hw.mono (by decide)) | refine Frame.foldl ?_ (fun s a h => ?_) | split

theorem execVodAct_frame (hw : Within 0x170ed7e040 ω) {r s : State} {core} {list} (h : Frame ω r s) : FrameO ω r (execVodAct core list s) := by
  unfold execVodAct
  try dsimp only
  with_reducible repeat' first | assumption | apply FrameO.next | apply State.vod_frame (hw.mono (by decide)) | refine Frame.foldl ?_ (fun s a h => ?_) | split

theorem execVodRsum_frame (hw : Within 0x170ed7e040 ω) {r s : State} {core} {list} (h : Frame ω r s) : FrameO ω r (execVodRsum core list s) := by
  unfold execVodRsum
  try dsimp only
  with_reducible repeat' first | assumption | apply FrameO.next | apply State.vod_frame (hw.mono (by decide)) | refine Frame.foldl ?_ (fun s a h => ?_) | split

theorem execVodRmax_frame (hw : Within 0x170ed7e040 ω) {r s : State} {core} {list} (h : Frame ω r s) : FrameO ω r (execVodRmax core list s) := by
  unfold execVodRmax
  try dsimp only
  with_reducible repeat' first | assumption | apply FrameO.next | apply State.vod_frame (hw.mono (by decide)) | refine Frame.foldl ?_ (fun s a h => ?_) | split

theorem execVodRamax_frame (hw : Within 0x170ed7e040 ω) {r s : State} {core} {list} (h : Frame ω r s) : FrameO ω r (execVodRamax core list s) := by
  unfold execVodRamax
  try dsimp only
  with_reducible repeat' first | assumption | apply FrameO.next | apply State.vod_frame (hw.mono (by decide)) | refine Frame.foldl ?_ (fun s a h => ?_) | split

theorem execVodRssq_frame (hw : Within 0x170ed7e040 ω) {r s : State} {core} {list} (h : Frame ω r s) : FrameO ω r (execVodRssq core list s) := by
  unfold execVodRssq
  try dsimp only
  with_reducible repeat' first | assumption | apply FrameO.next | apply State.vod_frame (hw.mono (by decide)) | refine Frame.foldl ?_ (fun s a h => ?_) | split

theorem execVodRng_frame (hw : Within 0x170ed7e040 ω) {r s : State} {core} {list} (h : Frame ω r s) : FrameO ω r (execVodRng core list s) := by
  unfold execVodRng
  try dsimp only
  with_reducible repeat' first | assumption | apply FrameO.next | apply State.vod_frame (hw.mono (by decide)) | refine Frame.foldl ?_ (fun s a h => ?_) | split

end Sys2Proof.Machine
end

