-- ==== Sys2Proof/WellFormed.lean ====
section
/-!
DEFINITION. Well-formed commands: the checks on a command's operands that its type does not make. LENGTH is an 8-bit field
(Table 3.5), so a mailbox command carries at most 255 payload bytes; a frame carries at most 4,116 (Table 16.3).
-/
namespace Sys2Proof

def Instr.wf : Instr → Bool
  | .devIdentify r => decide (r.pay.length ≤ 255)
  | .devStatus r => decide (r.pay.length ≤ 255)
  | .devCaps r => decide (r.pay.length ≤ 255)
  | .devResetCause r => decide (r.pay.length ≤ 255)
  | .devSpares r => decide (r.pay.length ≤ 255)
  | .devSleep r => decide (r.pay.length ≤ 255)
  | .devWake r => decide (r.pay.length ≤ 255)
  | .devEcho r => decide (r.pay.length ≤ 255)
  | .devArrayCheck r => decide (r.pay.length ≤ 255)
  | .tideLoad r => decide (r.pay.length ≤ 255)
  | .tideArm r => decide (r.pay.length ≤ 255)
  | .tideDisarm r => decide (r.pay.length ≤ 255)
  | .tideUnload r => decide (r.pay.length ≤ 255)
  | .tideRun r => decide (r.pay.length ≤ 255)
  | .tideStop r => decide (r.pay.length ≤ 255)
  | .tideHold r => decide (r.pay.length ≤ 255)
  | .tideRelease r => decide (r.pay.length ≤ 255)
  | .tideConfig r => decide (r.pay.length ≤ 255)
  | .tideStatus r => decide (r.pay.length ≤ 255)
  | .profSet r => decide (r.pay.length ≤ 255)
  | .profGet r => decide (r.pay.length ≤ 255)
  | .profLimits r => decide (r.pay.length ≤ 255)
  | .profRamp r => decide (r.pay.length ≤ 255)
  | .profHistory r => decide (r.pay.length ≤ 255)
  | .memWindowOpen r => decide (r.pay.length ≤ 255)
  | .memWindowClose r => decide (r.pay.length ≤ 255)
  | .memRead r => decide (r.pay.length ≤ 255)
  | .memWrite r => decide (r.pay.length ≤ 255)
  | .memFill r => decide (r.pay.length ≤ 255)
  | .memInfo r => decide (r.pay.length ≤ 255)
  | .memScrub r => decide (r.pay.length ≤ 255)
  | .memShelfLimit r => decide (r.pay.length ≤ 255)
  | .linkStatus r => decide (r.pay.length ≤ 255)
  | .linkTrain r => decide (r.pay.length ≤ 255)
  | .linkMargin r => decide (r.pay.length ≤ 255)
  | .linkDisable r => decide (r.pay.length ≤ 255)
  | .linkEnable r => decide (r.pay.length ≤ 255)
  | .linkCounters r => decide (r.pay.length ≤ 255)
  | .linkLoopback r => decide (r.pay.length ≤ 255)
  | .jobCreate r => decide (r.pay.length ≤ 255)
  | .jobSetId r => decide (r.pay.length ≤ 255)
  | .jobRouteSet r => decide (r.pay.length ≤ 255)
  | .jobRouteGet r => decide (r.pay.length ≤ 255)
  | .jobMeasure r => decide (r.pay.length ≤ 255)
  | .jobGroupForm r => decide (r.pay.length ≤ 255)
  | .jobGroupLeave r => decide (r.pay.length ≤ 255)
  | .jobCursor r => decide (r.pay.length ≤ 255)
  | .jobStatus r => decide (r.pay.length ≤ 255)
  | .jobEnd r => decide (r.pay.length ≤ 255)
  | .snapConfig r => decide (r.pay.length ≤ 255)
  | .snapPolicy r => decide (r.pay.length ≤ 255)
  | .snapInterval r => decide (r.pay.length ≤ 255)
  | .snapNow r => decide (r.pay.length ≤ 255)
  | .snapStatus r => decide (r.pay.length ≤ 255)
  | .restorePrepare r => decide (r.pay.length ≤ 255)
  | .restoreRun r => decide (r.pay.length ≤ 255)
  | .restoreStatus r => decide (r.pay.length ≤ 255)
  | .restoreVerify r => decide (r.pay.length ≤ 255)
  | .telLogRead r => decide (r.pay.length ≤ 255)
  | .telLogStatus r => decide (r.pay.length ≤ 255)
  | .telAreaSet r => decide (r.pay.length ≤ 255)
  | .telAlarmSet r => decide (r.pay.length ≤ 255)
  | .telCounters r => decide (r.pay.length ≤ 255)
  | .telEventMask r => decide (r.pay.length ≤ 255)
  | .secCertGet r => decide (r.pay.length ≤ 255)
  | .secAttest r => decide (r.pay.length ≤ 255)
  | .secMeasureLog r => decide (r.pay.length ≤ 255)
  | .secExpert r => decide (r.pay.length ≤ 255)
  | .secDrop r => decide (r.pay.length ≤ 255)
  | .secSelftest r _ => decide (r.pay.length ≤ 255)
  | .regRead r => decide (r.pay.length ≤ 255)
  | .regWrite r => decide (r.pay.length ≤ 255)
  | .regModify r => decide (r.pay.length ≤ 255)
  | .regPoll r => decide (r.pay.length ≤ 255)
  | .regPollEnd _ _ => true
  | .bayPower _ _ => true
  | .bayCoreMap _ _ _ => true
  | .bayRowMap _ _ _ _ => true
  | .bayClkgen _ => true
  | .baySelftest _ _ _ => true
  | .sld _ _ => true
  | .apd _ _ _ _ => true
  | .arrayRetry _ lf _ _ _ => !lf.isEmpty
  | .vodMov _ _ => true
  | .vodAdd _ _ => true
  | .vodSub _ _ => true
  | .vodMul _ _ => true
  | .vodFma _ _ => true
  | .vodMax _ _ => true
  | .vodMin _ _ => true
  | .vodAbs _ _ => true
  | .vodSel _ _ => true
  | .vodRcp _ _ => true
  | .vodRsqrt _ _ => true
  | .vodSqrt _ _ => true
  | .vodExp _ _ => true
  | .vodLog _ _ => true
  | .vodDiv _ _ => true
  | .vodAct _ _ => true
  | .vodRsum _ _ => true
  | .vodRmax _ _ => true
  | .vodRamax _ _ => true
  | .vodRssq _ _ => true
  | .vodRng _ _ => true
  | .sgdMom _ _ _ => true
  | .adamMom _ _ _ => true
  | .applyUpd _ _ _ _ => true
  | .chScales _ _ _ _ => true
  | .quant _ _ _ _ => true
  | .gmov _ _ _ => true
  | .gradPass _ _ _ => true
  | .verPin _ _ _ => true
  | .verUnpin _ _ => true
  | .verCommit _ _ _ => true
  | .sd _ _ => true
  | .sdArmRetry _ _ => true
  | .sdComplete _ _ _ => true
  | .memOpComplete _ _ => true
  | .runAheadStart _ _ _ => true
  | .rld _ _ => true
  | .reelVectorLand _ _ => true
  | .reelCreditReturn _ _ => true
  | .commitToken _ _ => true
  | .voidToken _ _ => true
  | .reelStall _ _ _ _ _ => true
  | .shfPush _ _ => true
  | .shfPop _ _ => true
  | .popWaitEnd _ _ _ _ => true
  | .shelfOrder _ _ _ => true
  | .chunkMoveDone _ _ => true
  | .bktOpen _ _ => true
  | .bktContrib _ _ => true
  | .bucketLaunch _ => true
  | .bktReduce _ _ => true
  | .decideGate _ _ => true
  | .piece _ _ p => decide (p.data.length = 64 * p.flits)
  | .pieceCredit _ _ p _ => decide (p.data.length = 64 * p.flits)
  | .localMark _ _ => true
  | .waitBeat _ _ => true
  | .waitBeatReached _ _ => true
  | .tmkSignal _ _ => true
  | .evtCounterAdd _ _ => true
  | .waitEvent _ _ => true
  | .groupBarrier _ _ => true
  | .barrierArrive _ _ p => decide (p.data.length = 64 * p.flits)
  | .barrierRelease _ _ p => decide (p.data.length = 64 * p.flits)
  | .engineReport _ _ _ => true
  | .nominalBoundary => true
  | .holdDecision => true
  | .tideBoundary => true
  | .freqSettleEnd => true
  | .stoppedApply => true
  | .tideHang _ => true
  | .tideMarkEmit => true
  | .tideMark _ _ p => decide (p.data.length = 64 * p.flits)
  | .holdMsg _ _ p => decide (p.data.length = 64 * p.flits)
  | .releaseMsg _ _ p => decide (p.data.length = 64 * p.flits)
  | .coreFault _ _ => true
  | .enmoraCoreFail _ => true
  | .e2bTimeout _ => true
  | .responsePost _ => true
  | .eventPost => true
  | .e2hDoorbell _ _ => true
  | .e2bDoorbell _ _ => true
  | .mailboxRelease _ _ => true
  | .h2eNextRead _ => true
  | .beatCountLoRead _ => true
  | .tideCountLoRead _ => true
  | .stepNumberLoRead _ => true
  | .tjPeakRead _ => true
  | .opsPeakRead _ _ => true
  | .maxSlipRead _ _ => true
  | .hbmChunksPeakRead _ => true
  | .profTargetWrite _ _ => true
  | .routeDataWrite _ _ => true
  | .routeDataCWrite _ _ => true
  | .devIdWrite _ _ => true
  | .laneMapWrite _ _ _ => true
  | .registerWrite _ _ _ _ => true
  | .hello _ _ => true
  | .auth f => decide (f.pay.length ≤ 4116)
  | .frameAck f => decide (f.pay.length ≤ 4116)
  | .closeFrame f => decide (f.pay.length ≤ 4116)
  | .frameResend _ _ => true
  | .mbxPost f => decide (f.pay.length ≤ 4116)
  | .mbxRead f => decide (f.pay.length ≤ 4116)
  | .mbxRelease f => decide (f.pay.length ≤ 4116)
  | .winRead f => decide (f.pay.length ≤ 4116)
  | .winWrite f => decide (f.pay.length ≤ 4116)
  | .regRd f => decide (f.pay.length ≤ 4116)
  | .regWr f => decide (f.pay.length ≤ 4116)
  | .keys f => decide (f.pay.length ≤ 4116)
  | .imageFrame f => decide (f.pay.length ≤ 4116)
  | .imageVerify => true
  | .readReq _ _ p _ => decide (p.data.length = 64 * p.flits)
  | .readData _ _ p => decide (p.data.length = 64 * p.flits)
  | .writePkt _ _ p => decide (p.data.length = 64 * p.flits)
  | .writeAck _ _ p => decide (p.data.length = 64 * p.flits)
  | .unreach _ _ p => decide (p.data.length = 64 * p.flits)
  | .lossReport _ _ p => decide (p.data.length = 64 * p.flits)
  | .lossWaitExpire _ => true
  | .linkAck _ _ _ => true
  | .linkAckSend _ => true
  | .nack _ _ _ => true
  | .nackRepeat _ => true
  | .flitCrcError _ _ => true
  | .rttProbe _ => true
  | .rttEcho _ _ => true
  | .linkDetectDone _ => true
  | .linkEqualiseDone _ => true
  | .linkFecLockDone _ => true
  | .linkDeskewDone _ => true
  | .linkParamDone _ _ _ _ => true
  | .linkStateTimeout _ => true
  | .laneFail _ _ => true
  | .laneSwap _ _ => true
  | .swapMark _ _ => true
  | .swapLockDone _ => true
  | .linkDown _ _ => true
  | .swell _ _ => true
  | .marginLow _ => true
  | .xingHold _ _ => true
  | .genFail _ => true
  | .genFreqWindow _ _ _ => true
  | .fixedPllLoss _ => true
  | .junctionSample x => x.temps.length == 80
  | .ceilingRise _ => true
  | .thermtrip _ _ => true
  | .pmbusPoll reads => reads.length == 8
  | .vrFault _ _ => true
  | .hbmRefresh => true
  | .stackTempRead temps => temps.length == 8
  | .pcCeWindow => true
  | .pcThreshold _ => true
  | .pcCopyDone _ => true
  | .sliceThreshold _ => true
  | .sliceCopyDone _ => true
  | .patrolScrub _ _ => true
  | .snapIntervalExpire => true
  | .snapReq _ _ p => decide (p.data.length = 64 * p.flits)
  | .snapFreezeDone => true
  | .snapTransferDone => true
  | .snapDone _ _ p => decide (p.data.length = 64 * p.flits)
  | .snapCommit _ _ p => decide (p.data.length = 64 * p.flits)
  | .snapFail _ _ p => decide (p.data.length = 64 * p.flits)
  | .snapAbort _ _ p => decide (p.data.length = 64 * p.flits)
  | .restoreDone => true
  | .resetNAssert => true
  | .resetNRelease _ _ => true
  | .powerOnAssert => true
  | .powerOnRelease _ _ => true
  | .domainClockValid _ => true
  | .domainClockFail _ => true
  | .romSelftestDone _ => true
  | .enmoraStageDone => true
  | .memoryTrained _ dimms _ => dimms.length == 8 && dimms.all (fun m => m.all fun d => decide (d.mrdimm = decide (3 ≤ d.rate.val)))
  | .wakeDone => true
  | .portAcquireDone _ => true
  | .portAlignDone _ => true
  | .portLightLoss _ => true
  | .portFecLoss _ => true
  | .lighthouseError _ => true
  | .descDone _ _ _ => true
  | .sleepEntryDone => true
  | .ddr5Refresh => true
  | .blockCopyDone _ _ => true
  | .measureProbe _ _ => true

end Sys2Proof
end

