-- ==== Sys2Proof/Tests/Slice0.lean ====
section
/-!
SUPPORT. Tests: the checks of well-formedness, commands against the spec's own values, and for every statement a state and operands that meet its
hypotheses. `wit_<statement>` takes the clauses of the statement in their order; a clause without hypotheses has none. What an opaque constant of
Config gives (a signature that verifies, an undefined value) cannot be shown, so a clause's hypothesis on one is left out of its witness.
-/
namespace Sys2Proof.Tests

open Sys2Proof.Machine

set_option Elab.async false

/-- `s` with registers written. -/
def withRegs (s : State) (l : List (Nat × Nat)) : State := l.foldl (fun s x => s.setReg x.1 (word x.2)) s

/-- A device that has booted: the stage is READY, the tide sequencer's domain is out of reset, Enmora runs. -/
def ready : State :=
  withRegs { State.reset with rst := { State.reset.rst with asserted := false }, beatOn := true, enm := { State.reset.enm with running := true } } [(R.bootState, 9)]

/-- Fields of so many bytes, little-endian. -/
def pl (l : List (Nat × Nat)) : List Byte := l.flatMap fun x => leBytes x.1 x.2

/-- A request on mailbox 0. -/
def req (l : List (Nat × Nat)) : Req := { mb := 0, tag := 7, pay := pl l }

/-- The command answers a next state of which `p` holds. -/
def gives (c : Instr) (s : State) (p : State → Bool) : Bool := match exec c s with
  | .next t => p t
  | _ => false

/-- The command leaves the state as it is. -/
def stays (c : Instr) (s : State) : Bool := gives c s (· == s)

/-- `s` with the request taken from its mailbox as opcode `op`, and no command before it (R104). -/
def asked (op : Nat) (r : Req) (s : State) : State :=
  { s with enm := { s.enm with taken := [⟨r.mb, BitVec.ofNat 16 op, r.tag, r.pay, .waiting⟩] } }

/-- Enmora begins and serves the command on `s`, awake, and the request and the state meet `p`. -/
abbrev Meets (op : Nat) (r : Req) (s : State) (p : Req → State → Prop) : Prop := Safety.ready op r (asked op r s) = true ∧ p r (asked op r s)

/-- The same in any power state. -/
abbrev Serves (op : Nat) (r : Req) (s : State) (p : Req → State → Prop) : Prop := Safety.serves op r (asked op r s) = true ∧ p r (asked op r s)

def zeros (n : Nat) : List (Nat × Nat) := List.replicate n (1, 0)

/-- The sequencer runs: tide 5 opened at beat 1,000, and boundary 6 is next. -/
def running : State := { ready with tide := { ready.tide with running := true, count := 5, next := 6, openBeat := 1000 } }

/-- Session 0 of port 0 is open, with expert privilege, and posted mailbox 0. -/
def expert : State :=
  { ready with enm := { ready.enm with poster := [(0, 0)] }
               lys := { ready.lys with sessions := ready.lys.sessions.set 0 (some { isOpen := true, expert := true, report := some [] }) } }

/-- A job exists; the second device is a member of a group whose master is device 3. -/
def inJob : State := { ready with job := { ready.job with exists_ := true } }
def member : State := { inJob with group := { inJob.group with member := true, master := 3, size := 2 } }

/- The checks of well-formedness: each has a term that breaks it. -/
theorem test_wf_payload : (Instr.devEcho (req (zeros 256))).wf = false ∧ (Instr.devEcho (req (zeros 255))).wf = true := by and_intros <;> decide +kernel
theorem test_wf_frame : (Instr.winWrite ⟨0, 1, 0, 0, true, List.replicate 4117 0, 0, 0⟩).wf = false
    ∧ (Instr.winWrite ⟨0, 1, 0, 0, true, List.replicate 4116 0, 0, 0⟩).wf = true := by and_intros <;> decide +kernel
theorem test_wf_packet : (Instr.writePkt 0 false { kind := 2, dst := 1, flits := 1, data := List.replicate 63 0 }).wf = false
    ∧ (Instr.writePkt 0 false { kind := 2, dst := 1, flits := 1, data := List.replicate 64 0 }).wf = true := by and_intros <;> decide +kernel
theorem test_wf_readings : (Instr.pmbusPoll (List.replicate 7 none)).wf = false ∧ (Instr.stackTempRead (List.replicate 9 0)).wf = false
    ∧ (Instr.junctionSample ⟨List.replicate 79 0, [], []⟩).wf = false ∧ (Instr.memoryTrained true (List.replicate 7 none) 0).wf = false
    ∧ (Instr.arrayRetry 0 [] [] [] []).wf = false
    ∧ (Instr.memoryTrained true (List.replicate 8 (some ⟨3, false, 0, 0, false, true⟩)) 0).wf = false
    ∧ (Instr.memoryTrained true (List.replicate 8 (some ⟨3, true, 0, 0, false, true⟩)) 0).wf = true := by
  and_intros <;> decide +kernel

/-- Table 3.5: a command taken from the front of the queue is answered, and the queue's rest stays. -/
theorem test_step_front : Safety.isNext (step { ready with pending := [.tideStatus (req []), .devStatus (req [])] }) = true := by decide +kernel

theorem wit_StepRunsTheFront : ({ ready with pending := [.devStatus (req [])] } : State).pending = [.devStatus (req [])] := by rfl
theorem wit_IdleStepIsOneBeat : ready.pending = [] := by rfl
theorem wit_EveryStepKeepsCanonicalForm : Safety.canonical ready = true ∧ step ready = .next { ready with beat := ready.beat + 1 } :=
  ⟨by decide +kernel, rfl⟩
theorem wit_SparesStayInUse : ({ ready with pending := [.resetNAssert] } : State).pending.head? ≠ some .powerOnAssert
    ∧ Safety.isNext (step { ready with pending := [.resetNAssert] }) = true := by and_intros <;> decide +kernel
theorem wit_OnlyResetMovesTheBeat : Instr.hbmRefresh ≠ .resetNAssert ∧ Instr.hbmRefresh ≠ .powerOnAssert ∧ (∀ b k, Instr.hbmRefresh ≠ .resetNRelease b k)
    ∧ (∀ b k, Instr.hbmRefresh ≠ .powerOnRelease b k) ∧ (∀ d, Instr.hbmRefresh ≠ .domainClockValid d) ∧ exec .hbmRefresh ready = .next ready :=
  ⟨nofun, nofun, nofun, nofun, nofun, rfl⟩
theorem wit_RoutesChangeAtBoundaries : Instr.hbmRefresh ≠ .tideBoundary ∧ Instr.hbmRefresh ≠ .stoppedApply ∧ Instr.hbmRefresh ≠ .resetNAssert
    ∧ Instr.hbmRefresh ≠ .powerOnAssert ∧ exec .hbmRefresh ready = .next ready ∧ (∀ r, Instr.hbmRefresh ≠ .jobGroupForm r)
    ∧ (∀ r, Instr.hbmRefresh ≠ .jobGroupLeave r) ∧ (∀ l b p, Instr.hbmRefresh ≠ .tideMark l b p) ∧ Instr.hbmRefresh ≠ .tideMarkEmit :=
  ⟨nofun, nofun, nofun, nofun, rfl, nofun, nofun, nofun, nofun⟩

def logEntry (source : Nat) : LogEntry := ready.entry (BitVec.ofNat 16 source) 1 0 0 []
theorem wit_LogKeepsTheNewest : ([] : List LogEntry).length < 4096 ∧ (List.replicate 4096 (logEntry 0)).length = 4096
    ∧ ∀ x ∈ [logEntry 0].head?, x.beat = (logEntry 0).beat → x.source.toNat ≤ (logEntry 1).source.toNat := by and_intros <;> decide +kernel

def asleep : State := { ready with pwr := { ready.pwr with sleep := true } }
/-- One Enmora core is left. -/
def oneCore : State := { ready with enm := { ready.enm with failed := [0, 1, 2], roleCore := [3, 3, 3] } }
theorem wit_CommandChecksInOrder :
    (Safety.begins 0x020A (req []) ready = false ∧ ready.rst.tripped = false)
    ∧ (Safety.begins 0x020A (req (zeros 241)) (asked 0x020A (req (zeros 241)) ready) = true ∧ 240 < (req (zeros 241)).pay.length)
    ∧ (Safety.begins 0x020A (req (zeros 1)) (asked 0x020A (req (zeros 1)) ready) = true ∧ (req (zeros 1)).pay.length ≠ 0)
    ∧ (Safety.begins 0x0404 (req (zeros 13)) (asked 0x0404 (req (zeros 13)) ready) = true ∧ (req (zeros 13)).pay.length ≠ 12 + (req (zeros 13)).at 8 4)
    ∧ (Safety.begins 0x0304 (req (zeros 33)) (asked 0x0304 (req (zeros 33)) ready) = true ∧ (req (zeros 33)).pay.length = 33
      ∧ (asked 0x0304 (req (zeros 33)) ready).expertReq 0 = false)
    ∧ (Safety.begins 0x0B02 (req (zeros 16)) (asked 0x0B02 (req (zeros 16)) ready) = true ∧ (req (zeros 16)).pay.length = 16 + 4 * (req (zeros 16)).at 8 4
      ∧ (req (zeros 16)).pay.length ≤ 240 ∧ (asked 0x0B02 (req (zeros 16)) ready).expertReq 0 = false)
    ∧ (Safety.begins 0x020A (req []) (asked 0x020A (req []) asleep) = true ∧ (asked 0x020A (req []) asleep).pwr.sleep = true)
    ∧ (Safety.begins 0x0501 (req []) (asked 0x0501 (req []) oneCore) = true ∧ (asked 0x0501 (req []) oneCore).servesFamily 0x0501 = false)
    ∧ (Meets 0x0603 (req (zeros 8)) ready fun r _ => routeSetLen r.pay = false)
    ∧ (∀ x ∈ [(0x0203, 1, 255), (0x0204, 1, 16), (0x0301, 9, 3), (0x0402, 1, 4), (0x0403, 12, 0), (0x0503, 1, 64), (0x0702, 4, 0), (0x0703, 8, 2 ^ 63), (0x0106, 9, 2)],
      Meets x.1 (req [(x.2.1, x.2.2)]) ready fun r s => r.pay.length = x.2.1)
    ∧ (Meets 0x0B01 (req [(8, 0), (8, 57)]) expert fun r s => s.expertReq r.mb = true ∧ 56 < r.at 8 4)
    ∧ (∀ x ∈ [(0x0203, 1, 15), (0x0204, 1, 0), (0x0301, 9, 2), (0x0402, 1, 3), (0x0503, 1, 63), (0x0703, 8, 0)],
      let r := req [(x.2.1, x.2.2)]
      Safety.begins x.1 r (asked x.1 r asleep) = true ∧ r.pay.length = x.2.1 ∧ (asked x.1 r asleep).pwr.sleep = true)
    ∧ (Meets 0x0B01 (req [(8, windowBase + 0x2000000), (8, 1)]) expert fun r s => s.expertReq r.mb = true ∧ 1 ≤ r.at 8 4 ∧ r.at 8 4 ≤ 56 ∧ r.at 12 4 = 0
      ∧ ((regKey (r.at 0 8) (r.at 8 4)).map blockOf) = some 2) := by
  and_intros <;> decide +kernel
/-- R102, Table 3.6: LENGTH 241 is answered ERR_LENGTH (2). -/
theorem test_length : gives (.tideStatus (req (zeros 241))) (asked 0x020A (req (zeros 241)) ready)
    (fun t => t.enm.responses.map (·.status) == [2]) = true := by decide +kernel

theorem wit_DeviceQueriesAnswer : (∀ op ∈ [0x0101, 0x0102, 0x0103, 0x0105], Serves op (req []) ready fun r s => r.pay = [] ∧ s.kept.spares.length = 10)
    ∧ (mayBegin 0x0104 (req []) (asked 0x0104 (req []) ready).enm.taken = true ∧ (asked 0x0104 (req []) ready).commandRuns = true
      ∧ (asked 0x0104 (req []) ready).servesFamily 0x0104 = true)
    ∧ (Serves 0x0108 (req (zeros 240)) asleep fun r _ => r.pay.length ≤ 240) := by and_intros <;> decide +kernel
/-- R555, Table 15.10: DEV_IDENTIFY's payload has 44 bytes. -/
theorem test_identify : gives (.devIdentify (req [])) (asked 0x0101 (req []) ready) (fun t => t.enm.responses.map (·.pay.length) == [44]) = true := by
  decide +kernel

theorem wit_DeviceCommandsAct :
    (∀ k ∈ [6, 7], Meets 0x0106 (req [(1, 1), (8, k)]) running fun r s => r.pay.length = 9 ∧ r.at 0 1 ≤ 1 ∧ s.group.member = false ∧ s.copyRunning = false
      ∧ s.images.any (fun i => i.reaches (s.namedBoundary (r.at 1 8))) = false ∧ s.late (r.at 1 8) = decide (k = 6))
    ∧ (Serves 0x0107 (req []) asleep fun r s => s.pwr.sleep = true ∧ s.pwr.waking = none ∧ r.pay = [] ∧ Safety.canonical s = true)
    ∧ (Serves 0x0109 (req [(1, 1), (32, 2 ^ 255)]) ready fun r _ => r.pay.length = 33 ∧ r.at 0 1 ≤ 1)
    ∧ (Meets 0x0304 (req [(1, 2), (32, 1)]) expert fun r s => r.pay.length = 33 ∧ s.expertReq 0 = true ∧ r.at 0 1 ≤ 2) := by
  and_intros <;> decide +kernel


/-- An image with a header alone, of no engine, in HBM at 0x1000, for the reset period 262,144 (Table 2.3): with its hash (R47). -/
def imageBody (k : Nat) : List Byte :=
  let p (w v : Nat) : List (Nat × Nat) := [(w, v), (w, 2 ^ (8 * w) - 1 - v)]
  padBytes 192 (pl ([(4, k)] ++ p 2 0x0100 ++ p 2 0 ++ p 2 1 ++ p 4 262144 ++ p 4 0 ++ p 32 0 ++ [(4, 256), (4, 256), (4, 256), (4, 0)] ++ p 2 0))
    ++ leBytes 64
      0xbd2019ca19b3d18d1ef9737abb1caf0f1ca424667df0595e0c04df72c57d65139e461a50c3a1dece576f32656c672ed4a84b94c80923376c843b81a5a7e14d58
def withImage : State := running.store 0x1000 (imageBody 0x0154544B)
def handle (st : ImgState) (s : State) : State := { s with images := s.images.set 0 { st, addr := 0x1000, len := 256 } }
def armReq (k0 : Nat) : Req := req [(1, 0), (7, 0), (8, k0)]

theorem wit_ImageCommandsAct :
    (Meets 0x0201 (req [(8, 0x1000), (4, 256)]) withImage fun r s => r.pay.length = 12 ∧ s.loadOk (r.at 0 8) (r.at 8 4) = true ∧ 0 < s.images.length
      ∧ (s.image 0).st = .free ∧ ∀ i < 0, (s.image i).st ≠ .free)
    ∧ (Meets 0x0203 (req [(1, 0)]) (handle .admitted ready) fun r s => r.pay.length = 1 ∧ r.at 0 1 < 16 ∧ (s.image (r.at 0 1)).st = .admitted)
    ∧ (Meets 0x0204 (req [(1, 0)]) (handle .finished ready) fun r s => r.pay.length = 1 ∧ r.at 0 1 < 16 ∧ (s.image (r.at 0 1)).st = .finished)
    ∧ (Meets 0x0204 (req [(1, 0)]) (handle .loaded ready) fun r s => r.pay.length = 1 ∧ r.at 0 1 < 16 ∧ (s.image (r.at 0 1)).st = .loaded)
    ∧ (Meets 0x0202 (armReq 6) (handle .loaded withImage) fun r s => r.pay.length = 16 ∧ r.at 0 1 < 16 ∧ r.at 1 7 = 0 ∧ (s.image (r.at 0 1)).st = .loaded
      ∧ s.armPrivilege r (s.image (r.at 0 1)) (r.at 8 8) = false) := by and_intros <;> decide +kernel
/-- R47, Table 2.1: the image is admitted for k0 = 6, the next boundary; with another MAGIC it is refused for its format (0x01). -/
theorem wit_ImageCommandsAct_admission :
    (handle .loaded withImage).admission ((handle .loaded withImage).image 0) 6 = none
    ∧ (handle .loaded (running.store 0x1000 (imageBody 0))).admission ((handle .loaded withImage).image 0) 6 = some { code := 0x01 } := by
  and_intros <;> decide +kernel

def held : State := { running with tide := { running.tide with hostHolds := [7] } }
theorem wit_TideCommandsAct :
    (Meets 0x0205 (req [(8, 12500)]) ready fun r s => r.pay.length = 8 ∧ s.tide.running = false ∧ s.tide.past3 = false
      ∧ s.groupBeat + 12500 ≤ (BitVec.ofNat 64 (r.at 0 8)).toInt)
    ∧ (∀ k ∈ [6, 7], Meets 0x0206 (req [(8, k)]) running fun r s => r.pay.length = 8 ∧ s.tide.running = true ∧ s.splitsSpan (r.at 0 8) = false
      ∧ s.group.member = false ∧ (r.at 0 8 < s.tide.count.toNat + 2 ↔ k = 6))
    ∧ (Meets 0x0207 (req [(8, 6)]) running fun r s => r.pay.length = 8 ∧ s.tide.count.toNat < r.at 0 8 ∧ s.nextStep3 ≤ r.at 0 8 ∧ s.group.member = false)
    ∧ (Meets 0x0208 (req [(8, 7)]) held fun r s => r.pay.length = 8 ∧ r.at 0 8 ∈ s.tide.hostHolds ∧ s.tide.selfHolds = [])
    ∧ (Meets 0x0209 (req [(4, 0), (2, 30), (2, 0), (4, 0)]) ready fun r s => r.pay.length = 12 ∧ r.at 6 2 = 0 ∧ r.at 0 4 = 0
      ∧ regLegal R.tideSlack (r.at 4 2) = true ∧ r.at 8 4 = 0 ∧ Safety.canonical s = true)
    ∧ (Meets 0x020A (req []) ready fun r _ => r.pay = []) := by and_intros <;> decide +kernel
/-- R81: TIDE_STATUS' response has 40 bytes and 12 for each of the 16 handles. -/
theorem test_tide_status : gives (.tideStatus (req [])) (asked 0x020A (req []) ready) (fun t => t.enm.responses.map (·.pay.length) == [40 + 192]) = true := by
  decide +kernel

/-- An admitted entry of 200,000 cycles of core 0 in tide 8: 195,313 beats and the slack fit at Mean (m = 25), not at Neap (m = 20). -/
def entry8 : Image := { st := .admitted, addr := 0x1000, len := 256, k0 := 8, span := 1, period := 262144, mask := 1, costs := [⟨0, 0, 255000, 0, 1, 0, []⟩] }
def admitted : State := { running with images := running.images.set 0 entry8 }
theorem wit_ProfileCommandsAct :
    (Meets 0x0301 (req [(1, 0), (8, 6)]) running fun r s => r.pay.length = 9 ∧ r.at 0 1 < 3 ∧ s.late (r.at 1 8) = true)
    ∧ (Meets 0x0301 (req [(1, 0), (8, 7)]) running fun r s => r.pay.length = 9 ∧ r.at 0 1 < 3 ∧ s.judgeProf 0 7 = none ∧ Safety.canonical s = true)
    ∧ (Meets 0x0301 (req [(1, 0), (8, 7)]) admitted fun r s => r.pay.length = 9 ∧ r.at 0 1 < 3 ∧ (s.judgeProf 0 7).map (·.1) = some 0x20)
    ∧ (Serves 0x0302 (req []) asleep fun r _ => r.pay = []) ∧ (Meets 0x0303 (req []) ready fun r _ => r.pay = [])
    ∧ (Meets 0x0305 (req []) ready fun r s => r.pay = [] ∧ s.pwr.history.length ≤ 16) := by and_intros <;> decide +kernel

def window (a n : Nat) : List (Nat × Nat) := [(8, a), (8, n), (1, 2), (3, 0)]
def open0 : State := { expert with lys := { expert.lys with windows := expert.lys.windows.set 3 (some ⟨0, 0, 4096, true, true⟩) } }
theorem wit_MemoryCommandsAct :
    (Meets 0x0401 (req (window 4096 8192)) expert fun r s => r.pay.length = 20 ∧ r.at 0 8 % 4096 = 0 ∧ r.at 8 8 % 4096 = 0 ∧ r.at 16 1 ≤ 2 ∧ r.at 17 3 = 0
      ∧ s.rangeOk allTiers (r.at 0 8) (r.at 8 8) = true ∧ s.posterOf r.mb = some 0 ∧ s.lys.windows[0]? = some none ∧ ∀ i < 0, s.lys.windows[i]? ≠ some none)
    ∧ (Meets 0x0402 (req [(1, 3)]) open0 fun r s => r.pay.length = 1 ∧ r.at 0 1 < 4 ∧ s.lys.windows[r.at 0 1]? = some (some ⟨0, 0, 4096, true, true⟩))
    ∧ (Meets 0x0403 (req [(8, 504 * 2 ^ 30 - 224), (4, 224)]) ready fun r s => r.pay.length = 12 ∧ 1 ≤ r.at 8 4 ∧ r.at 8 4 ≤ 224
      ∧ s.rangeOk allTiers (r.at 0 8) (r.at 8 4) = true ∧ (∀ u ∈ s.memc.poison, 32 * u + 32 ≤ r.at 0 8 ∨ r.at 0 8 + r.at 8 4 ≤ 32 * u)
      ∧ ∀ x ∈ s.memc.struck, 32 * x.1 + 32 ≤ r.at 0 8 ∨ r.at 0 8 + r.at 8 4 ≤ 32 * x.1)
    ∧ (Meets 0x0403 (req [(8, 95), (4, 1)]) { ready with memc := { ready.memc with struck := [(2, 0)] } } fun r s => r.pay.length = 12 ∧ 1 ≤ r.at 8 4
      ∧ r.at 8 4 ≤ 224 ∧ s.rangeOk allTiers (r.at 0 8) (r.at 8 4) = true ∧ s.metUnits (r.at 0 8) (r.at 8 4) = [(64, 0)])
    ∧ (Meets 0x0403 (req [(8, 95), (4, 1)]) { ready with memc := { ready.memc with poison := [2] } } fun r s => r.pay.length = 12 ∧ 1 ≤ r.at 8 4
      ∧ r.at 8 4 ≤ 224 ∧ s.rangeOk allTiers (r.at 0 8) (r.at 8 4) = true ∧ ∃ u ∈ s.memc.poison, r.at 0 8 < 32 * u + 32 ∧ 32 * u < r.at 0 8 + r.at 8 4)
    ∧ (Meets 0x0404 (req [(8, 64), (4, 1), (1, 0xA5)]) ready fun r s => r.pay.length = 12 + r.at 8 4 ∧ 1 ≤ r.at 8 4 ∧ r.at 8 4 ≤ 224
      ∧ s.rangeOk allTiers (r.at 0 8) (r.at 8 4) = true ∧ Safety.canonical s = true)
    ∧ (Meets 0x0405 (req [(8, 64), (8, 128), (8, 1)]) ready fun r s => r.pay.length = 24 ∧ r.at 0 8 % 64 = 0 ∧ r.at 8 8 % 64 = 0
      ∧ s.rangeOk allTiers (r.at 0 8) (r.at 8 8) = true ∧ Safety.canonical s = true)
    ∧ (Meets 0x0406 (req []) ready fun r _ => r.pay = [])
    ∧ (Meets 0x0407 (req [(2, 168)]) ready fun r _ => r.pay.length = 2 ∧ r.at 0 2 ≤ 168)
    ∧ (Meets 0x0408 (req [(2, 504)]) (withRegs ready [(R.hbmCapacity, 516096)]) fun r s => r.pay.length = 2 ∧ 1 ≤ r.at 0 2
      ∧ r.at 0 2 * 1024 ≤ (s.reg R.hbmCapacity).toNat) := by and_intros <;> decide +kernel
/-- R461: MEM_WRITE stores its bytes, the first at the address given. -/
theorem test_mem_write : gives (.memWrite (req [(8, 64), (4, 2), (2, 0x1234)])) (asked 0x0404 (req [(8, 64), (4, 2), (2, 0x1234)]) ready)
    (fun t => t.byte 64 == 0x34 && t.byte 65 == 0x12 && t.byte 66 == 0) = true := by decide +kernel

theorem wit_LinkCommandsAct :
    (Meets 0x0501 (req []) ready fun r _ => r.pay = []) ∧ (∀ op ∈ [0x0503, 0x0506], Meets op (req [(1, 63)]) ready fun r _ => r.pay.length = 1 ∧ r.at 0 1 < 64)
    ∧ (Meets 0x0507 (req [(1, 63), (1, 1)]) (withRegs expert [(R.linkState 63, L.active)]) fun r s => r.pay.length = 2 ∧ s.expertReq r.mb = true
      ∧ r.at 0 1 < 64 ∧ r.at 1 1 ≤ 1 ∧ s.lstate (r.at 0 1) = L.active ∧ bit (s.reg (R.linkCtrl (r.at 0 1))) 0 = false)
    ∧ (Meets 0x0502 (req [(8, 2 ^ 63 + 1), (8, 1)]) (withRegs ready [(R.linkState 63, L.down)]) fun r s => r.pay.length = 16 ∧ Safety.canonical s = true
      ∧ ∀ l < 64, (r.at 0 8).testBit l → s.lstate l = L.disabled ∨ s.lstate l = L.down)
    ∧ (Meets 0x0504 (req [(8, 2 ^ 63)]) (withRegs ready [(R.linkState 63, L.active), (R.linkCtrl 63, 1)]) fun r s => r.pay.length = 8
      ∧ ∀ l < 64, (r.at 0 8).testBit l → bit (s.reg (R.linkCtrl l)) 0 = true)
    ∧ (Meets 0x0505 (req [(8, 2 ^ 63)]) (withRegs ready [(R.linkState 63, L.active)]) fun r s => r.pay.length = 8
      ∧ ∀ l < 64, (r.at 0 8).testBit l → s.lstate l = L.active) := by and_intros <;> decide +kernel
/-- R406: LINK_TRAIN takes link 5 to DETECT (state 1). -/
theorem test_link_train : gives (.linkTrain (req [(8, 32), (8, 0)])) (asked 0x0502 (req [(8, 32), (8, 0)]) ready)
    (fun t => t.lstate 5 == 1 && t.lstate 4 == 0) = true := by decide +kernel

def jobReq : Req := req [(4, 1), (6, 2), (2, 0), (1, 0), (1, 32), (1, 4), (1, 0), (8, 0x100000), (2, 2), (2, 0), (8, 0), (8, 0), (8, 0), (2, 0), (2, 0),
  (8, 0), (8, 0), (8, 64), (4, 0), (4, 0), (8, 0)]
def formReq (size : Nat) : Req := req [(4, size), (2, 3), (2, 3), (4, 100), (2, 1), (2, 10), (4, 0), (2, 1), (2, 0), (2, 9)]
theorem wit_JobCommandsAct :
    (Meets 0x0601 jobReq ready fun r s => r.pay.length = 96 ∧ s.jobParamOk r = true ∧ s.job.exists_ = false ∧ r.at 52 2 = 0)
    ∧ (Meets 0x0602 (req [(2, 5), (2, 0xFFFA)]) member fun r s => r.pay.length = 4 ∧ pairOk 16 (r.at 0 2) (r.at 2 2) = true ∧ s.group.member = true)
    ∧ (Meets 0x0602 (req [(2, 5), (2, 0xFFFA)]) ready fun r s => r.pay.length = 4 ∧ pairOk 16 (r.at 0 2) (r.at 2 2) = true ∧ s.group.member = false)
    ∧ (∀ x ∈ [(2, inJob), (1, inJob), (2, withRegs inJob [(R.straps, 0x38)])], Meets 0x0606 (formReq x.1) x.2 fun r s => 24 ≤ r.pay.length
      ∧ r.pay.length = 24 + 2 * r.at 20 2 ∧ r.pay.length ≤ 240 ∧ s.groupParamOk r = true ∧ s.job.exists_ = true ∧ s.group.member = false)
    ∧ (withRegs inJob [(R.straps, 0x38)]).clkmode = 2 ∧ 1 < (formReq 2).at 0 4 ∧ (formReq 1).at 0 4 = 1 ∧ inJob.clkmode ≠ 2
    ∧ (∀ k ∈ [6, 7], Meets 0x0607 (req [(8, k)]) { member with tide := running.tide } fun r s => r.pay.length = 8 ∧ s.group.member = true
      ∧ s.late (r.at 0 8) = decide (k = 6))
    ∧ (Meets 0x060A (req []) inJob fun r s => r.pay = [] ∧ s.job.exists_ = true ∧ s.group.member = false
      ∧ ∀ i ∈ s.images, i.st ≠ .admitted ∧ i.st ≠ .running) := by and_intros <;> decide +kernel
/-- R83: JOB_CREATE sets the job id and seed. -/
theorem test_job_create : gives (.jobCreate jobReq) (asked 0x0601 jobReq ready)
    (fun t => t.job.exists_ && t.job.id == 1 && t.job.seed == 2 && t.job.perStep == 64) = true := by decide +kernel

theorem wit_JobRoutesAndReports :
    (Meets 0x0603 (req [(1, 1), (1, 1), (2, 65535), (4, 0), (8, 0), (4, 7), (4, 0xFFFFFFF8)]) ready fun r _ => r.pay.length ≤ 240
      ∧ routeSetLen r.pay = true ∧ routeSetOk r = true ∧ r.at 0 1 = 1)
    ∧ (Meets 0x0603 (req [(1, 2), (1, 1), (2, 15), (4, 0), (8, 0), (4, 0), (2, 3), (2, 0xFFFC), (2, 4), (2, 0xFFFB), (8, 0)]) ready fun r _ =>
      r.pay.length ≤ 240 ∧ routeSetLen r.pay = true ∧ routeSetOk r = true ∧ r.at 0 1 = 2)
    ∧ (Meets 0x0604 (req [(1, 2), (1, 1), (2, 15)]) ready fun r _ => r.pay.length = 4 ∧ routeRangeOk (r.at 0 1) (r.at 1 1) (r.at 2 2) = true)
    ∧ (Meets 0x0605 (req [(2, 9)]) (withRegs ready [(R.linkState 63, L.active), (R.linkCtrl 63, 1), (R.partner 63, 9)]) fun r s => r.pay.length = 2
      ∧ s.inService 63 = true ∧ bits (s.reg (R.partner 63)) 0 16 = r.at 0 2)
    ∧ (∀ n ∈ [14, 15], ({ ready with link := { ready.link with measures := [⟨0, 7, List.replicate n 5⟩] } } : State).link.measures
      = [⟨(0 : Fin 16).val, 7, List.replicate n 5⟩] ∧ ((List.replicate n 5).length < 15 ↔ n = 14))
    ∧ (Meets 0x0608 (req []) inJob fun r s => r.pay = [] ∧ s.job.exists_ = true) ∧ (Meets 0x0609 (req []) ready fun r _ => r.pay = []) := by
  and_intros <;> decide +kernel

def emptyBlock : JobBlock := ⟨5, 0, 0, 0, 0, 0, [], [], [], []⟩
def withDdr : State := withRegs inJob [(R.ddrCapacity, 65536)]
def snapReq : Req := req [(2, 9), (1, 0xFF), (1, 0), (20, 0), (8, 0), (4, 0), (8, 0x020000000000), (4, 1)]
def snapping : State := { withDdr with snap := { withDdr.snap with configured := true, committed := some ⟨emptyBlock, []⟩, block := some emptyBlock } }
theorem wit_SnapshotCommandsAct :
    (Meets 0x0701 snapReq withDdr fun r s => r.pay.length = 48 ∧ cmdSnapConfig.param s r = true ∧ s.snap.staged = none ∧ 0 < (s.reg R.ddrCapacity).toNat
      ∧ Safety.canonical s = true)
    ∧ (Meets 0x0702 (req [(2, 1), (1, 100), (1, 0)]) ready fun r _ => r.pay.length = 4 ∧ 1 ≤ r.at 0 2 ∧ 1 ≤ r.at 2 1 ∧ r.at 2 1 ≤ 100 ∧ r.at 3 1 = 0)
    ∧ (Meets 0x0703 (req [(4, 3600), (4, 0)]) ready fun r _ => r.pay.length = 8 ∧ r.at 4 4 = 0)
    ∧ (Meets 0x0704 (req []) snapping fun r s => r.pay = [] ∧ s.job.exists_ = true ∧ s.snap.configured = true ∧ s.job.restart = none)
    ∧ (Meets 0x0705 (req []) ready fun r _ => r.pay = []) := by and_intros <;> decide +kernel

def restarting : State := { snapping with job := { snapping.job with restart := some 3 } }
def prepReq : Req := req [(4, 5), (8, 0), (4, 1), (2, 1), (2, 0), (2, 8)]
def prepared : State := { snapping with snap := { snapping.snap with restore := .prepared }, tide := running.tide }
theorem wit_RestoreCommandsAct :
    (∀ x ∈ [restarting, snapping], Meets 0x0801 prepReq x fun r s => 20 ≤ r.pay.length ∧ r.pay.length = 20 + 2 * r.at 16 2 ∧ r.at 16 2 ≤ 64 ∧ r.at 18 2 = 0
      ∧ s.mapOk (r.at 4 8) (r.at 12 4) = true ∧ s.job.lost = false ∧ s.snap.committed.map (·.block.seq) = some (word (r.at 0 4))
      ∧ s.tooManyLost (lostIds r) = false)
    ∧ restarting.job.restart.isSome = true ∧ snapping.job.restart = none
    ∧ (∀ k ∈ [6, 7], Meets 0x0802 (req [(8, k)]) prepared fun r s => r.pay.length = 8 ∧ s.tablesOk = true ∧ s.snap.restore = .prepared
      ∧ s.late (r.at 0 8) = decide (k = 6))
    ∧ (Meets 0x0803 (req []) ready fun r _ => r.pay = [])
    ∧ (Meets 0x0804 (req []) snapping fun r s => r.pay = [] ∧ s.snap.block = some emptyBlock) := by and_intros <;> decide +kernel

def layers : State := withRegs ready [(R.layerCount, 1), (R.scaleCount, 1)]
theorem wit_TelemetryCommandsAct :
    (∀ b ∈ [0, 1], Serves 0x0901 (req [(4, 0), (1, b)]) ready fun r _ => r.pay.length = 5 ∧ r.at 4 1 = b) ∧ (Serves 0x0902 (req []) asleep fun r _ => r.pay = [])
    ∧ (∀ b ∈ [0, 1], Serves 0x0903 (req [(8, 4096), (4, b), (4, 0)]) ready fun r s => r.pay.length = 16 ∧ r.at 12 4 = 0 ∧ r.at 0 8 % 4096 = 0 ∧ r.at 8 4 = b
      ∧ s.rangeOk [.hbm] (r.at 0 8) (r.at 8 4 * 2 ^ 20) = true)
    ∧ (∀ w ∈ [1, 2, 3], Serves 0x0904 (req [(2, 0), (1, w), (1, 0), (4, 1), (4, 0)]) layers fun r s => r.pay.length = 12 ∧ r.at 3 1 = 0 ∧ r.at 2 1 = w
      ∧ r.at 0 2 < (s.reg R.layerCount).toNat ∧ r.at 0 2 < (s.reg R.scaleCount).toNat ∧ r.at 8 4 = 0 ∧ Sparse.wf (fun _ => (0 : Word)) s.alarmHi = true
      ∧ Sparse.wf (fun _ => (0 : Word)) s.alarmLo = true)
    ∧ (∀ x ∈ [(0x18, 63), (0x0A, 0xFF)], Serves 0x0905 (req [(1, x.1), (1, x.2)]) ready fun r _ => r.pay.length = 2 ∧ blockListed (r.at 0 1) = true
      ∧ r.at 0 1 ≠ 0x02)
    ∧ (Serves 0x0906 (req [(2, 1023)]) ready fun r _ => r.pay.length = 2 ∧ r.at 0 2 < 1024) := by and_intros <;> decide +kernel

def attested : State := { expert with lys := { expert.lys with tideMeasures := 1, measures := [(8, List.replicate 64 1)] } }
/-- Session 0 posted mailbox 0, and has closed. -/
def gone : State := { ready with enm := { ready.enm with poster := [(0, 0)] } }
theorem wit_SecurityCommandsAct :
    (Serves 0x0A01 (req [(1, 2), (2, 0)]) ready fun r s => r.pay.length = 3 ∧ r.at 0 1 < 3
      ∧ r.at 1 2 < max 1 (((s.part.certs.getD (r.at 0 1) []).length + 223) / 224))
    ∧ (∀ b ∈ [0, 2], Serves 0x0A02 (req [(1, b), (64, 1)]) expert fun r s => r.pay.length = 65 ∧ s.posterOf r.mb = some 0
      ∧ s.session 0 = some { isOpen := true, expert := true, report := some [] } ∧ r.at 0 1 = b)
    ∧ (∀ i ∈ [0, 1], Serves 0x0A03 (req [(8, i)]) attested fun r s => r.pay.length = 8 ∧ s.lys.tideMeasures.toNat = 1
      ∧ (i = 0 → s.lys.measures[s.lys.tideMeasures.toNat - 1 - r.at 0 8]? = some (8, List.replicate 64 1)))
    ∧ (Serves 0x0A04 (req (zeros 132)) expert fun r s => r.pay.length = 132 ∧ s.posterOf r.mb = some 0 ∧ (s.session 0).isSome = true)
    ∧ (Serves 0x0A04 (req (zeros 132)) gone fun r s => r.pay.length = 132 ∧ s.posterOf r.mb = some 0 ∧ s.session 0 = none)
    ∧ (Serves 0x0A05 (req []) expert fun r s => r.pay = [] ∧ s.posterOf r.mb = some 0 ∧ (s.session 0).isSome = true)
    ∧ (Serves 0x0A05 (req []) gone fun r s => r.pay = [] ∧ s.posterOf r.mb = some 0 ∧ s.session 0 = none)
    ∧ (Serves 0x0A06 (req []) ready fun r _ => r.pay = []) := by and_intros <;> decide +kernel

/-- The word of a register as the expert window numbers it, its count, and reserved zeros. -/
def regReq (k n : Nat) (more : List (Nat × Nat)) : Req := req ([(8, windowBase + k), (4, n), (4, 0)] ++ more)
def poll : Poll := ⟨0, 7, R.pwrCtrl, 1, 1⟩
def polling : State := { expert with enm := { expert.enm with polls := [poll] } }
theorem wit_RegisterCommandsAct :
    (∀ x ∈ [(0x0B01, regReq R.pwrCtrl 1 []), (0x0B02, regReq R.pwrCtrl 1 [(4, 0)]), (0x0B03, regReq R.pwrCtrl 1 [(4, 255), (4, 20)]),
        (0x0B04, regReq R.pwrCtrl 1 [(4, 255), (4, 10)]), (0x0B04, regReq R.pwrCtrl 1 [(4, 255), (4, 11)])], Meets x.1 x.2 expert fun r s =>
      s.expertReq r.mb = true ∧ regKey (r.at 0 8) (r.at 8 4) = some R.pwrCtrl ∧ blockOf R.pwrCtrl ≠ 2 ∧ r.at 12 4 = 0 ∧ r.at 8 4 = 1
      ∧ (x.1 = 0x0B01 → r.pay.length = 16) ∧ (x.1 = 0x0B02 → r.pay.length = 16 + 4 * r.at 8 4 ∧ r.pay.length ≤ 240)
      ∧ (x.1 = 0x0B03 ∨ x.1 = 0x0B04 → r.pay.length = 24) ∧ s.writeRefused R.pwrCtrl = false ∧ ∀ i < r.at 8 4, s.writeRefused (R.pwrCtrl + 4 * i) = false)
    ∧ (polling.expertReq 0 = true ∧ polling.enm.polls.find? (·.mb == (req []).mb.val) = some poll ∧ poll.key = R.pwrCtrl)
    ∧ expert.enm.polls.find? (·.mb == (req []).mb.val) = none := by and_intros <;> decide +kernel
/-- R110: PWR_CTRL reads 0x5A0A at reset; the masked field takes the new value. -/
theorem test_reg_modify : gives (.regModify (regReq R.pwrCtrl 1 [(4, 255), (4, 20)])) (asked 0x0B03 (regReq R.pwrCtrl 1 [(4, 255), (4, 20)]) expert)
    (fun t => t.reg R.pwrCtrl == 0x5A14) = true := by decide +kernel

/-- Requester `q` may access the block of register `k`, as the statements on single register accesses say it. -/
abbrev May (q : Fin 9) (s : State) (k : Nat) : Prop :=
  (q.val = enmoraReq ∨ (s.session q.val).any (fun x => x.isOpen && x.expert) = true) ∧ s.blockOff k = false
/-- A device with region `r` running. -/
def region (r : Nat) (s : State) : State := withRegs s [(R.regionState r, 0x14)]
theorem wit_RegisterReadsAct : Safety.canonical expert = true ∧ Sparse.wf (fun k => regReset (k % 2 ^ 32)) expert.reqRegs = true
    ∧ (∀ q ∈ [(0 : Fin 9), 8], ∀ k ∈ [R.beatCountLo, R.tideCountLo, R.stepNumberLo, R.tjPeak, R.maxSlip 39, R.hbmChunksPeak, R.opsPeak 255],
      May q (region 15 expert) k) ∧ ¬ May 1 expert R.tjPeak := by and_intros <;> decide +kernel

theorem wit_RegisterWritesAct :
    (∀ q ∈ [(0 : Fin 9), 8], ∀ k ∈ [R.routeData, R.routeDataC, R.devId, R.laneMap 63, R.profTarget, R.pwrCtrl, R.numCtrl], May q expert k)
    ∧ ¬ May 1 expert R.devId ∧ ¬ May 0 ready (blk 1 0)
    ∧ (member.group.member = true ∧ ready.group.member = false)
    ∧ (∀ b ∈ [0, 1], (withRegs expert [(R.linkState 63, L.active), (R.linkCtrl 63, b)]).inService 63 = decide (b = 1))
    ∧ (laneMapOk (bits (0x4688 : Word) 0 15) = true ∧ laneMapOk (bits (0x7FFF : Word) 0 15) = false)
    ∧ (bits (3 : Word) 0 2 = 3 ∧ bits (2 : Word) 0 2 < 3 ∧ (admitted.judgeProf 0 7).map (·.1) = some 0x20 ∧ ready.judgeProf 2 0 = none)
    ∧ (regRow (blk 0x7F (4 * 5)) = none ∧ (regRow R.tjWest).map (·.acc) = some .ro)
    ∧ (May 8 expert R.memStatus ∧ (regRow R.memStatus).map (·.acc) = some .w1c ∧ R.memStatus ≠ R.clkStatus ∧ R.memStatus ≠ R.numStatus)
    ∧ (10 ≤ bits (20 : Word) 0 5 ∧ bits (10 : Word) 0 5 ≤ 20 ∧ Safety.canonical expert = true) := by and_intros <;> decide +kernel

def mailed (k n : Nat) (msg : List Byte) (s : State) : State := withRegs s ((List.range 4).map (fun i => (k + 4 * i, bytesAt msg (4 * i) 4)) ++ [(n, 1)])
theorem wit_DoorbellsAndReleasesAct :
    (Safety.canonical ready = true ∧ bit ((withRegs ready [(R.e2hFull, 1)]).reg R.e2hFull) 0 = true ∧ bit (ready.reg R.e2hFull) 15 = false
      ∧ (List.replicate 256 (1 : Byte)).length ≤ 256)
    ∧ (bit ((withRegs ready [(R.e2bFull, 1)]).reg R.e2bFull) 0 = true ∧ bit (ready.reg R.e2bFull) 15 = false
      ∧ ready.regionMode 15 = 3 ∧ (withRegs ready [(R.regionState 15, 1)]).regionMode 15 = 1) := by and_intros <;> decide +kernel

/-- The message stands in H2E 0, and its doorbell in the order. -/
def taking (msg : List Byte) : State :=
  let s := mailed (R.h2eSlot 0) R.h2eFull msg ready
  { s with enm := { s.enm with order := [0] } }
def answering (op : Half) (s : State) : State := { s with enm := { s.enm with responses := [⟨0, op, 7, 0, []⟩], events := [⟨1, 0, []⟩] } }
theorem wit_CommandRoleActs :
    (Safety.canonical ready = true ∧ ready.enm.order = [] ∧ State.reset.commandRuns = false ∧ (7 : Fin 9) ≠ 8)
    ∧ (Safety.canonical (taking (msgBytes 0x0108 7 0 0 [])) = true ∧ (taking (msgBytes 0x0108 7 0 0 [])).commandRuns = true
      ∧ (taking (msgBytes 0x0108 7 0 0 [])).enm.order = [0])
    ∧ ready.enm.responses.find? (·.mb == (15 : Fin 16).val) = none
    ∧ (∀ f ∈ [0, 1], let s := answering 0x0108 (withRegs ready [(R.e2hFull, f)])
       Safety.canonical s = true ∧ s.enm.responses.find? (·.mb == (0 : Fin 16).val) = some ⟨0, 0x0108, 7, 0, []⟩ ∧ s.commandRuns = true ∧ s.rst.tripped = false
        ∧ bit (s.reg R.e2hFull) 0 = decide (f = 1))
    ∧ (let s := answering 0x0104 { ready with rst := { ready.rst with tripped := true } }
       s.commandRuns = true ∧ s.rst.tripped = true ∧ s.enm.responses.find? (·.mb == (0 : Fin 16).val) = some ⟨0, 0x0104, 7, 0, []⟩
        ∧ bit (s.reg R.e2hFull) 0 = false)
    ∧ (∀ f ∈ [0, 0x8000], let s := answering 0x0108 (withRegs ready [(R.e2hFull, f)])
       s.enm.events = [⟨1, 0, []⟩] ∧ bit (s.reg R.e2hFull) 15 = decide (f ≠ 0)) := by and_intros <;> decide +kernel
/-- R102: a message whose PARITY fails (all zeros but its doorbell) is answered ERR_HEADER (1). -/
theorem test_header : gives (.h2eNextRead 8) (taking []) (fun t => t.enm.responses.map (·.status) == [1] && t.log.entries.length == 1) = true := by decide +kernel

def failedCores (l : List Nat) : State := { ready with enm := { ready.enm with failed := l } }
theorem wit_EnmoraCoreFailureActs : (State.reset.enm.running = false ∧ (2 : Fin 4).val ∈ (failedCores [2]).enm.failed)
    ∧ (ready.enm.running = true ∧ ready.enm.failed = [] ∧ ready.enm.roleCore = [0, 1, 2] ∧ (0 : Fin 4).val < 3 ∧ (2 : Fin 4).val < 3 ∧ (3 : Fin 4).val = 3)
    ∧ (∀ l ∈ [[2], [2, 1], [2, 1, 3]], (failedCores l).enm.running = true ∧ (0 : Fin 4).val ∉ (failedCores l).enm.failed
      ∧ 1 ≤ (failedCores l).enm.failed.length ∧ (failedCores l).enm.failed.length ≤ 3) := by and_intros <;> decide +kernel

/-- Bay 0 is running, or gated, with an order in its mailbox. -/
def ordered (op : Nat) (s : State) : State := mailed (R.e2bSlot 0) R.e2bFull (msgBytes op 7 0 0 []) (withRegs s [(R.regionState 0, 0x11)])
def entry5 : Image := { st := .admitted, k0 := 5, span := 1, period := 262144, mask := 1, costs := [⟨0, 0, 100, 0, 1, 0, []⟩] }
def busy0 : State := { running with images := running.images.set 0 entry5 }
theorem wit_BayOrdersAct :
    (let s := mailed (R.e2bSlot 0) R.e2bFull [] (withRegs ready [(R.regionState 0, 0x11)])
     bit (s.reg R.e2bFull) 0 = true ∧ s.regionMode 0 < 2 ∧ headerOk (s.slot (R.e2bSlot 0)) = false ∧ bit (ready.reg R.e2bFull) 0 = false) ∧
    (bit ((ordered 0xC001 busy0).reg R.e2bFull) 0 = true ∧ (ordered 0xC001 busy0).regionMode 0 < 2 ∧ headerOk ((ordered 0xC001 busy0).slot (R.e2bSlot 0)) = true
      ∧ bytesAt ((ordered 0xC001 busy0).slot (R.e2bSlot 0)) 0 2 = 0xC001 ∧ (ordered 0xC001 busy0).hasWork (inBay 0) = true
      ∧ (ordered 0xC001 running).hasWork (inBay 0) = false)
    ∧ (let s := ordered 0xC002 running
       bytesAt (s.slot (R.e2bSlot 0)) 0 2 = 0xC002 ∧ (∀ x ∈ s.kept.spareSlotOf, x.1 ≠ 0) ∧ s.bay.scheduled = [] ∧ s.tide.running = true
        ∧ ∃ x ∈ ({ s.kept with spareSlotOf := [(0, 15)] } : Kept).spareSlotOf, x.1 = 0)
    ∧ (bytesAt ((ordered 0xC003 running).slot (R.e2bSlot 0)) 0 2 = 0xC003 ∧ bit ((ordered 0xC003 running).reg (R.rowMap 15)) 31 = false
      ∧ bit ((ordered 0xC003 (withRegs running [(R.rowMap 15, 0x80000000)])).reg (R.rowMap 15)) 31 = true)
    ∧ (bytesAt ((ordered 0xC004 running).slot (R.e2bSlot 0)) 0 2 = 0xC004 ∧ bit ((ordered 0xC004 running).reg (R.regionState 0)) 4 = true
      ∧ bit ((withRegs running [(R.regionState 0, 1)]).reg (R.regionState 0)) 4 = false)
    ∧ (bytesAt ((ordered 0xC005 running).slot (R.e2bSlot 0)) 0 2 = 0xC005 ∧ (ordered 0xC005 running).images = List.replicate 16 {}) := by
  and_intros <;> decide +kernel

/-- A descriptor from its fields: position and value. -/
def descOf (fs : List (Nat × Nat)) : BitVec 512 := fs.foldl (fun d f => d ||| BitVec.ofNat 512 (f.2 * 2 ^ f.1)) 0

/-- A field with its complement (R12). -/
def pr (w lo loC v : Nat) : List (Nat × Nat) := [(lo, v), (loC, 2 ^ w - 1 - v)]
def hdr (op : Nat) : List (Nat × Nat) := pr 8 0 8 op

/-- List 0 of core 0, released in tide 5, with these descriptors. -/
def listOf (ds : List (BitVec 512)) : DList := { handle := 0, core := 0, num := 0, tide := 5, close := 6, mb := 0, descs := ds }
def listed (l : DList) (s : State) : State := { s with lists := [l] }
def issuing (d : BitVec 512) (s : State) : State := listed (listOf [d]) s

/-- `d` is the next descriptor of list 0 of core 0, and `p` holds of it. -/
def isNext (s : State) (d : BitVec 512) (p : BitVec 512 → Bool) : Bool := s.nextDesc 0 0 p == some (listOf [d], d)

def fenced : BitVec 512 := descOf (hdr 8 ++ [(16, 1)])
def barrierD : BitVec 512 := descOf (hdr 8 ++ pr 4 64 448 4)
def sdFeeds1 : BitVec 512 := descOf (pr 8 0 8 4 ++ [(240, 1)])
theorem wit_DescriptorsIssueInOrder :
    (let l := listOf [fenced]
     running.dlist 0 0 = none ∧ (listed l running).dlist 0 0 = some l ∧ l.descs[l.issued]? = some fenced
      ∧ ({ running with tide := { running.tide with issueStop := true } } : State).tide.issueStop = true
      ∧ 0 ∈ ({ running with tide := { running.tide with faults := [0] } } : State).tide.faults)
    ∧ (let l : DList := { listOf [fenced, fenced] with issued := 1, busy := [0] }
       l.descs[l.issued]? = some fenced ∧ bit fenced 16 = true ∧ l.busy ≠ [])
    ∧ (let l : DList := { listOf [sdFeeds1, barrierD] with issued := 1, busy := [0] }
       l.fedLate l.issued = true)
    ∧ (let l : DList := { listOf [barrierD, fenced] with issued := 1, busy := [0] }
       l.heldAt = true)
    ∧ (let l := listOf [barrierD]
       running.tide.issueStop = false ∧ 0 ∉ running.tide.faults ∧ bit barrierD 16 = false ∧ l.busy = [] ∧ l.fedLate l.issued = false ∧ l.heldAt = false)
    ∧ ((listed (listOf [barrierD]) running).firstReady 0 0 = true ∧ ∀ x ∈ ((listed (listOf [barrierD]) running).arr 0).passes, x.flag = none)
    ∧ (({ running with lists := [{ listOf [barrierD] with num := 1 }, listOf [barrierD]] } : State).firstReady 0 1 = false
      ∧ (({ running with lists := [{ listOf [barrierD] with num := 1 }, listOf [barrierD]] } : State).dlist 0 1).isSome = true)
    ∧ ((0, 1) ≠ ((listOf []).core, (listOf []).num)) := by and_intros <;> decide +kernel

/-- A VOD of one vector over accumulator entries: A in `a`, B in `b`, C in 2, the result to 3. -/
def vodD (op a b : Nat) : BitVec 512 :=
  descOf (hdr 3 ++ pr 32 448 480 0 ++ pr 6 268 274 op ++ [(429, 3), (410, a), (391, b), (372, 2), (306, 1), (304, 1), (302, 1), (300, 1), (308, 1)])
def badVod (op : Nat) : BitVec 512 := descOf (hdr 3 ++ [(268, op), (448, 1)])
theorem wit_VectorOpsRun : ∀ op < 0x15,
    isNext (issuing (vodD op 0 1) running) (vodD op 0 1) (fun d => bits d 0 8 == 3 && bits d 268 6 == op && !(bits d 304 2 == 3)) = true
    ∧ vodPairsOk (vodD op 0 1) = true
    ∧ isNext (issuing (badVod op) running) (badVod op) (fun d => bits d 0 8 == 3 && bits d 268 6 == op && !(bits d 304 2 == 3)) = true
    ∧ vodPairsOk (badVod op) = false ∧ (issuing (vodD op 0 1) running).divRec 0 (vodD op 0 1) = none := by decide +kernel

/-- Lane 0 of the entries 0 to 5 holds 2, 1, 0, 0, NaN and an infinity, of entry 6 minus infinity. -/
def accs : List (Nat × Word) := [(0, 0x40000000), (64, 0x3F800000), (256, 0x7FC00000), (320, 0x7F800000), (384, 0xFF800000)]
def lanes (s : State) : State := s.setArr 0 { acc := accs }
def val (e : Nat) : Val := wval (((lanes running).arr 0).entry e |>.getD 0 0)
theorem wit_VectorLanesCompute : (∀ op < 0x10, let d := vodD op 0 1
      bits d 0 8 = 3 ∧ vodPairsOk d = true ∧ vCount d = 1 ∧ vASp d = 1 ∧ vBSp d = 1 ∧ vCSp d = 1 ∧ vDstSp d = 1 ∧ vAmax d = false ∧ vSr d = false
        ∧ vGated d = false ∧ vOp d = op ∧ isNext (lanes (issuing d running)) d (fun x => x == d) = true)
    ∧ Sparse.wf (fun _ => ({} : ArrCore)) (lanes running).cores = true ∧ Sparse.wf (fun _ => (0 : Word)) ((lanes running).arr 0).acc = true
    ∧ ((val 1).lt (val 0) = true ∧ val 4 = .nan ∧ val 5 = .inf false ∧ val 6 = .inf true ∧ val 3 = .fin false 0 (-149) ∧ (val 3).isZero = true
      ∧ (val 6).lt (.fin false 0 0) = true ∧ (val 0).isZero = false ∧ vFunc (vodD 0x0F 0 1 ||| descOf [(288, 8)]) = 8 ∧ val 0 ≠ .nan ∧ vFunc (vodD 0x0F 0 1) = 0 ∧ vFunc (vodD 0x0F 0 1 ||| descOf [(288, 1)]) = 1) := by
  and_intros <;> decide +kernel
/-- Table 4.7: 2 + 1 = 3, 2 - 1 = 1 and 2 × 1 + 0 = 2, in lane 0. -/
theorem test_vod_add : gives (.vodAdd 0 0) (lanes (issuing (vodD 0x01 0 1) running)) (fun t => ((t.arr 0).entry 3).getD 0 0 == 0x40400000) = true := by decide +kernel
theorem test_vod_sub : gives (.vodSub 0 0) (lanes (issuing (vodD 0x02 0 1) running)) (fun t => ((t.arr 0).entry 3).getD 0 0 == 0x3F800000) = true := by decide +kernel
theorem test_vod_fma : gives (.vodFma 0 0) (lanes (issuing (vodD 0x04 0 1) running)) (fun t => ((t.arr 0).entry 3).getD 0 0 == 0x40000000) = true := by decide +kernel
theorem wit_ReductionsCompute : ∀ op < 0x15, let d := vodD op 0 1
    bits d 0 8 = 3 ∧ vodPairsOk d = true ∧ vCount d = 1 ∧ vASp d = 1 ∧ vDstSp d = 1 ∧ vAmax d = false ∧ vSr d = false ∧ vOp d = op
      ∧ isNext (lanes (issuing d running)) d (fun x => x == d) = true := by decide +kernel

def sldD : BitVec 512 := descOf (hdr 1 ++ pr 32 416 448 0 ++ pr 4 321 325 0 ++ pr 2 317 319 0)
def apdD (m n : Nat) : BitVec 512 := descOf (hdr 2 ++ pr 32 448 480 0 ++ pr 2 384 386 3 ++ pr 4 358 362 Fm.int8 ++ [(375, m), (416, n)])
def passOf (d : BitVec 512) (flag : Option Nat) : PassRun := { own := ⟨0, 0, 0⟩, desc := d, wscale := f32one, vod := none, push := none, taken := 1, flag }
def tileOf : Tile := { fmt := Fm.int8, rows := 64, cols := 64, quad := false, scale := f32one, elems := [], scales := [], check := [] }
def passing (flag : Option Nat) (s : State) : State := s.setArr 0 { tile := some tileOf, passes := [passOf (apdD 64 1) flag] }
theorem wit_ArrayActs :
    (scaleRef (lScale sldD) = none ∧ scaleRef (aScale (apdD 64 1)) = none ∧ isNext (issuing sldD running) sldD (fun d => bits d 0 8 == 1) = true ∧ sldPairsOk sldD = true ∧ ((issuing sldD running).arr 0).passes = []
      ∧ isNext (issuing (descOf (hdr 1)) running) (descOf (hdr 1)) (fun d => bits d 0 8 == 1) = true ∧ sldPairsOk (descOf (hdr 1)) = false
      ∧ isNext (passing none (issuing sldD running)) sldD (fun d => bits d 0 8 == 1) = true ∧ ((passing none (issuing sldD running)).arr 0).passes ≠ []
      ∧ Sparse.wf (fun _ => ({} : ArrCore)) running.cores = true ∧ Safety.canonical running = true)
    ∧ (isNext (issuing (apdD 64 1) running) (apdD 64 1) (fun d => bits d 0 8 == 2) = true ∧ apdPairsOk (apdD 64 1) = true ∧ apdPairsOk (descOf (hdr 2)) = false
      ∧ (∃ p ∈ ((passing (some 0) running).arr 0).passes, p.flag ≠ none) ∧ (listOf [apdD 64 1]).fused 0 = (none, none)
      ∧ aM (apdD 64 1) ≠ 0 ∧ aN (apdD 64 1) ≠ 0 ∧ aM (apdD 0 1) = 0 ∧ aN (apdD 64 0) = 0)
    ∧ ((∀ p ∈ ((passing none running).arr 0).passes, p.flag = none) ∧ ((passing (some 0) running).arr 0).passes = [passOf (apdD 64 1) (some 0)]
      ∧ (passOf (apdD 64 1) (some 0)).taken = bits (apdD 64 1) 416 32 ∧ running.tide.issueStop = false ∧ 0 ∉ running.tide.faults
      ∧ ((passing (some 0) running).arr 0).tile = some tileOf ∧ (5 : Fin 130) < 6)
    ∧ (let s := passing (some 0) running
       let p := passOf (apdD 64 1) (some 0)
       s.vecFails 0 tileOf p 0 (s.passVec 0 p 0).1 (s.passVec 0 p 0).2 (ofPass [(0, 0, 5, 1)] 0) = true) := by and_intros <;> decide +kernel

/-- An update record of SGD with FP32 weights, sound, and one whose pairs fail. -/
def soundRec (more : List (Nat × Nat)) : BitVec 128 :=
  BitVec.ofNat 128 ((pr 2 82 84 0 ++ pr 2 78 80 0 ++ pr 2 74 76 0 ++ pr 2 70 72 0 ++ pr 10 50 60 0 ++ more).foldl (fun n f => n + f.2 * 2 ^ f.1) 0)
def rec0 : UpdRec := { stat := soundRec [] }
def withRec (r : UpdRec) (s : State) : State := { s with upd := { s.upd with recs := Sparse.put {} s.upd.recs 0 r } }
def gated (g : Nat) (s : State) : State := s.setReg R.gate (word g)
/-- An update operation on record 0: one vector, the gradient in entry 0, the update to entry 3, the momentum at 0x400 of local store. -/
def updD (op : Nat) : BitVec 512 :=
  descOf (hdr 3 ++ pr 32 448 480 0 ++ pr 6 268 274 op ++ [(429, 3), (410, 0), (391, 0x400), (306, 1), (304, 1), (308, 1)])
def updating (op g : Nat) (r : UpdRec) : State := gated g (withRec r (lanes (issuing (updD op) running)))
theorem wit_UpdateGateDecides :
    (∀ op ∈ [0x20, 0x21, 0x22, 0x23, 0x24, 0x25, 0x26, 0x2A],
      isNext (updating op 1 rec0) (updD op) (fun d => bits d 0 8 == 3 && bits d 268 6 == op) = true ∧ vodPairsOk (updD op) = true
      ∧ isNext (issuing (badVod op) running) (badVod op) (fun d => bits d 0 8 == 3 && bits d 268 6 == op) = true ∧ vodPairsOk (badVod op) = false
      ∧ bits (updD op) 448 12 = 0)
    ∧ (updating 0x22 1 rec0).spoilt (.update 0) = false ∧ (∀ g < 3, bits ((updating 0x22 g rec0).reg R.gate) 0 2 = g) ∧ recPairsOk ((updating 0x22 1 rec0).updRec 0).stat = true
    ∧ recPairsOk ((updating 0x22 1 {}).updRec 0).stat = false ∧ ((updating 0x22 1 { rec0 with committed := true }).updRec 0).committed = true
    ∧ ((updating 0x22 1 rec0).updRec 0).committed = false
    ∧ ((updating 0x22 1 { rec0 with ref0 := 1 }).updRec 0).ref (({ rec0 with ref0 := 1 } : UpdRec).target) ≠ 0 := by and_intros <;> decide +kernel

theorem wit_UpdateRulesRun :
    ((∀ op ∈ [0x20, 0x21, 0x22, 0x23, 0x24, 0x25, 0x26, 0x2A], let s := updating op 1 rec0
       vodPairsOk (updD op) = true ∧ bits (s.reg R.gate) 0 2 = 1 ∧ s.updRec (bits (updD op) 448 12) = rec0 ∧ s.spoilt (.update 0) = false
        ∧ isNext s (updD op) (fun d => bits d 0 8 == 3 && bits d 268 6 == op) = true) ∧
     (updating 0x22 1 rec0).updRec 0 = rec0 ∧ recPairsOk rec0.stat = true ∧ rec0.committed = false ∧ rec0.ref rec0.target = 0 ∧ rec0.updating = false
      ∧ ({ rec0 with updating := true } : UpdRec).updating = true ∧ rec0.cfmt = 0
      ∧ Sparse.wf (fun _ => ({} : UpdRec)) (updating 0x22 1 rec0).upd.recs = true)
    ∧ (let a := (updating 0x23 1 rec0).arr 0
       Sparse.get 0 a.chCount 0 = 0 ∧ (∀ c ∈ [0, 2], Sparse.get 0 ({ a with chCount := [(0, 2)] } : ArrCore).chCount 0 = 2 ∧ c % max 1 rec0.chVecs = 0)
        ∧ Sparse.wf (fun _ => (0 : Nat)) a.chCount = true)
    ∧ (rec0.bf16Moments = false ∧ vCount (updD 0x20) = 1 ∧ vSrcB (updD 0x20) + 256 ≤ 2 ^ 19
      ∧ isNext (updating 0x20 1 rec0) (updD 0x20) (fun d => bits d 0 8 == 3 && bits d 268 6 == 0x20) = true
      ∧ Sparse.wf (fun _ => ({} : ArrCore)) (updating 0x20 1 rec0).cores = true
      ∧ Sparse.wf (fun _ => (0 : Word)) ((updating 0x20 1 rec0).arr 0).acc = true) := by and_intros <;> decide +kernel
/-- R358: VER_COMMIT raises VERSION. -/
theorem test_ver_commit : gives (.verCommit 0 0 0) (updating 0x2A 1 { rec0 with updating := true }) (fun t => (t.updRec 0).version == 1 && (t.updRec 0).committed) = true := by
  decide +kernel

theorem wit_VersionPinsAct :
    (∀ op ∈ [0x28, 0x29], isNext (updating op 1 rec0) (updD op) (fun d => bits d 0 8 == 3 && bits d 268 6 == op) = true ∧ vodPairsOk (updD op) = true
      ∧ (updating op 1 rec0).updRec (bits (updD op) 448 12) = rec0 ∧ bits (updD op) 464 5 = 0
      ∧ (updating op 1 rec0).spoilt (.update (bits (updD op) 448 12)) = false)
    ∧ recPairsOk ({} : UpdRec).stat = false ∧ recPairsOk rec0.stat = true ∧ rec0.stash = false ∧ ({ rec0 with updating := true } : UpdRec).updating = true
    ∧ rec0.updating = false ∧ rec0.pin 0 = 0 ∧ ({ rec0 with pins := 2 } : UpdRec).pin 0 ≠ 0
    ∧ (let r : UpdRec := { stat := BitVec.ofNat 128 ((pr 2 82 84 0 ++ pr 2 78 80 2 ++ pr 2 74 76 0 ++ pr 2 70 72 0 ++ pr 10 50 60 0).foldl (fun n f => n + f.2 * 2 ^ f.1) 0) }
       recPairsOk r.stat = true ∧ r.stash = true)
    ∧ ({ rec0 with pins := 3, ref1 := 1 } : UpdRec).pin 0 = 2 + 1 := by and_intros <;> decide +kernel

/-- An SD on queue 0 that copies one row of `len` bytes; `more` adds fields. -/
def sdD (len : Nat) (more : List (Nat × Nat)) : BitVec 512 := descOf (pr 8 0 8 4 ++ pr 16 272 256 0 ++ [(216, 255), (384, len), (368, 1), (224, 0xFFFF), (240, 0xFFFF)] ++ more)
def retrying (s : State) : State := { s with str := { s.str with retry := [(0, 0)] } }
/-- List 0 of core 0 whose descriptor 0, a gated update, has completed, and whose next is an SD that names it in FREE_SEQ. -/
def freed : State := gated 2 (listed { listOf [updD 0x22, descOf (pr 8 0 8 4 ++ pr 16 272 256 0 ++ [(216, 255), (384, 64), (368, 1), (240, 0xFFFF)])] with issued := 1, skipped := [0] } running)
theorem wit_StreamDescriptorsAct :
    (running.nextDesc 0 0 (fun d => bits d 0 8 == 4) = none ∧ running.str.retry.contains (0, 0) ≠ true)
    ∧ (let d := descOf (pr 8 0 8 4 ++ pr 16 272 256 0 ++ [(216, 255), (384, 64), (368, 1), (240, 0xFFFF)])
       let l : DList := { listOf [updD 0x22, d] with issued := 1, skipped := [0] }
       freed.nextDesc 0 0 (fun d => bits d 0 8 == 4) = some (l, d) ∧ sdPairsOk d = true ∧ freed.ownBit 0 0 0 = false ∧ bits d 384 32 ≠ 0
        ∧ l.complete (bits d 224 16) = true ∧ l.skipFree (bits d 224 16) = true ∧ freed.sdRun l.ref = none)
    ∧ (let s := issuing (sdD 64 []) running
       let u : State := { s with str := { s.str with sds := [{ own := ⟨0, 0, 0⟩, desc := sdD 64 [], entry := none }] } }
       u.sdRun (listOf [sdD 64 []]).ref = some { own := ⟨0, 0, 0⟩, desc := sdD 64 [], entry := none } ∧ sdPairsOk (sdD 64 []) = true
        ∧ isNext u (sdD 64 []) (fun d => bits d 0 8 == 4) = true) ∧
    (isNext (issuing (sdD 64 []) running) (sdD 64 []) (fun d => bits d 0 8 == 4) = true
      ∧ (issuing (sdD 64 []) running).str.retry.contains (0, 0) = false ∧ (retrying (issuing (sdD 64 []) running)).str.retry.contains (0, 0) = true
      ∧ isNext (retrying (issuing (sdD 64 []) running)) (sdD 64 []) (fun d => bits d 0 8 == 4) = true)
    ∧ (sdPairsOk (sdD 64 []) = true ∧ sdPairsOk (descOf [(0, 4)]) = false ∧ isNext (issuing (descOf [(0, 4)]) running) (descOf [(0, 4)]) (fun d => bits d 0 8 == 4) = true)
    ∧ (let s := issuing (sdD 64 []) running
       s.tailOf 0 0 = 0 ∧ s.ownBit 0 0 0 = false ∧ (s.setOwnBit 0 0 0 true).ownBit 0 0 0 = true ∧ bits (sdD 0 []) 384 32 = 0 ∧ bits (sdD 64 []) 384 32 ≠ 0
        ∧ s.sdRun ⟨0, 0, 0⟩ = none ∧ (listOf [sdD 64 []]).complete (bits (sdD 64 []) 224 16) = false) := by and_intros <;> decide +kernel
/-- R235: an SD of length 0 completes at arming, and sets no OWN bit. -/
theorem test_sd_empty : gives (.sd 0 0) (issuing (sdD 0 []) running) (fun t => t.lists.all (fun l => l.issued == 1 && l.busy.isEmpty) && !t.ownBit 0 0 0) = true := by
  decide +kernel

def sdRun : SdRun := { own := ⟨0, 0, 0⟩, desc := sdD 64 [], entry := some 0, row := 1 }
def memOp (w : Bool) : MemOp := { id := 4, own := ⟨0, 0, 0⟩, write := w, addr := 0x1000, len := 64 }
def streaming (runs : List SdRun) (ops : List MemOp) : State :=
  let s := listed { listOf [sdD 64 []] with issued := 1, busy := [0] } running
  { s with str := { s.str with sds := runs, ops } }
def raD : BitVec 512 := descOf (pr 8 0 8 4 ++ [(210, 1), (384, 64)])
def rldRa : BitVec 512 := descOf (hdr 5 ++ pr 4 293 297 0 ++ pr 3 286 283 4 ++ pr 3 280 277 0 ++ pr 4 273 269 0 ++ [(432, 1), (291, 1)])
def reading : State :=
  { running with str := { running.str with heads := [{ own := ⟨0, 0, 0⟩, desc := rldRa, prov := false, reads := [(4, 64, none)] }], ops := [memOp false] } }
theorem wit_StreamEventsAct :
    (running.opById 4 = none ∧ reading.opById 4 = some (memOp false) ∧ (reading.headOf (memOp false)).isSome = true ∧ (memOp false).write = false
      ∧ reading.poisoned (memOp false).addr (memOp false).len = false)
    ∧ (let s := issuing rldRa running
       s.dlist 0 0 = some (listOf [rldRa]) ∧ bits rldRa 0 8 = 5 ∧ bit rldRa 291 = true ∧ 4 ≤ bits rldRa 286 3 ∧ bits rldRa 432 32 ≠ 0
        ∧ s.mayRunAhead (listOf [rldRa]) 0 = true ∧ s.noneWaits 0 = true) ∧
    ((streaming [sdRun] []).str.sds = [sdRun] ∧ sdRun.own.core = 0 ∧ sdRun.entry = some 0 ∧ bits sdRun.desc 213 2 = 0
      ∧ (streaming [sdRun] [memOp true]).sdFinished sdRun = false ∧ (streaming [sdRun] []).sdFinished sdRun = true ∧ sdRun.failed = false ∧ sdRun.skip = false
      ∧ (streaming [{ sdRun with failed := true }] []).sdFinished { sdRun with failed := true } = true)
    ∧ (∀ o ∈ (streaming [sdRun] [memOp true]).str.ops, o.id ≠ 5)
    ∧ ((streaming [sdRun] [memOp true]).str.ops = [memOp true] ∧ (memOp true).dev = none ∧ (memOp true).gone = false ∧ (memOp true).own = sdRun.own
      ∧ (streaming [sdRun] [memOp true]).str.heads = [] ∧ (streaming [sdRun] [memOp true]).memc.poison = [] ∧ (memOp true).write = true ∧ (memOp false).write = false
      ∧ ({ sdRun with entry := none } : SdRun).entry = none)
    ∧ (let s := issuing raD running
       s.dlist 0 0 = some (listOf [raD]) ∧ bits raD 0 8 = 4 ∧ bit raD 210 = true ∧ bit raD 208 = false ∧ bits raD 384 32 ≠ 0
        ∧ s.mayRunAhead (listOf [raD]) 0 = true ∧ s.noneWaits 0 = true ∧ s.mayRunAhead (listOf [raD]) 4 = false)
    ∧ (let l : DList := { listOf [vodD 0 0 1] with issued := 1, busy := [0], drained := [0] }
       let s := listed l running
       s.dlist 0 0 = some l ∧ 0 ∈ l.busy ∧ 0 ∈ l.drained ∧ bits (s.reg R.gate) 0 2 ≠ 2 ∧ bit (vodD 0 0 1) 17 = false ∧ 1 ∉ l.drained) := by
  and_intros <;> decide +kernel

/-- An RLD of `n` vectors of stream 0; role 4 is a head's, role 1 into the array. -/
def rldD (role n : Nat) : BitVec 512 := descOf (hdr 5 ++ pr 4 293 297 0 ++ pr 3 286 283 role ++ pr 3 280 277 0 ++ pr 4 273 269 0 ++ [(432, n)])
def vec0 : RVec := ⟨[], [], false⟩
def porting (p : RPort) : State := running.setPort 0 0 p
theorem wit_ReelActs :
    (running.nextDesc 0 0 (fun d => bits d 0 8 == 5) = none ∧
      (let h : HeadRun := { own := ⟨0, 0, 0⟩, desc := rldRa, prov := true }
       let s := issuing rldRa running
       let u : State := { s with str := { s.str with heads := [h] } }
       isNext u rldRa (fun d => bits d 0 8 == 5) = true ∧ rldPairsOk rldRa = true ∧ u.str.heads.find? (·.own == (listOf [rldRa]).ref) = some h ∧ h.errs = []
        ∧ h.sent ≠ bits rldRa 432 32)) ∧
    (isNext (issuing (rldD 1 1) running) (rldD 1 1) (fun d => bits d 0 8 == 5) = true ∧ rldPairsOk (rldD 1 1) = true ∧ rldPairsOk (descOf (hdr 5)) = false
      ∧ bits (rldD 1 0) 432 32 = 0 ∧ bits (rldD 1 1) 432 32 ≠ 0 ∧ bits (rldD 1 1) 286 3 < 4 ∧ 4 ≤ bits (rldD 4 1) 286 3 ∧ rldPairsOk (rldD 4 1) = true
      ∧ ∀ h ∈ (issuing (rldD 4 1) running).str.heads, h.own ≠ (listOf [rldD 4 1]).ref)
    ∧ ((running.port 0 0).hop = [] ∧ (porting { hop := [.vec vec0] }).port 0 0 = { hop := [.vec vec0] } ∧ (porting { hop := [.commit] }).port 0 0 = { hop := [.commit] }
      ∧ (porting { hop := [.void] }).port 0 0 = { hop := [.void] } ∧ (running.port 0 0).returning = 0 ∧ 0 < ((porting { returning := 1 }).port 0 0).returning)
    ∧ ((issuing (rldD 4 1) running).isHead 0 0 = true ∧ (running.reg R.reelStallThresh).toNat ≠ 0 ∧ (4096 : Word).toNat ≤ (running.reg R.reelStallThresh).toNat
      ∧ (running.reg R.reelStallThresh).toNat < (4097 : Word).toNat ∧ Safety.canonical (issuing (rldD 4 1) running) = true) := by and_intros <;> decide +kernel

/-- An SHF of one BF16 vector with TAG 9, on Shelf 31 at depth 1,023. -/
def shfD (pop : Nat) : BitVec 512 :=
  descOf (hdr 6 ++ pr 16 310 326 9 ++ pr 5 248 253 31 ++ pr 4 220 224 7 ++ pr 2 216 218 0 ++ pr 2 204 206 pop ++ [(440, 1), (392, 1), (258, 1023)])
def pushed : State := running.createFrame 0 (shfD 0)
def sealed : State := pushed.setFrame 31 1023 (setBits (pushed.frame 31 1023) 72 2 2)
def shfRun (waits : Bool) : ShfRun := { own := ⟨0, 0, 0⟩, desc := shfD 1, waits }
def chunk (moving : Bool) : Chunk := { shelf := 31, idx := 65535, pool := 0, num := 0, moving }
def shelving (s : State) : State := { s with shelf := { s.shelf with runs := [shfRun true], chunks := [chunk false] } }
theorem wit_ShelfActs :
    (running.nextDesc 0 0 (fun d => bits d 0 8 == 6 && hPop d == false && !fusedPush d) = none
      ∧ isNext (issuing (shfD 1) pushed) (shfD 1) (fun d => bits d 0 8 == 6 && hPop d == true && !fusedPush d) = true
      ∧ (pushed.issue (listOf [shfD 1])).checkCopy 0 (if hScaleEn (shfD 1) then some (hScaleRec (shfD 1)) else none) = pushed.issue (listOf [shfD 1])
      ∧ running.shelf.runs.find? (·.own == ⟨0, 0, 0⟩) = none ∧ running.chunkAt 31 65535 = none
      ∧ (chunk true).pieces = [] ∧ ∀ o ∈ pushed.str.ops, o.own ≠ (chunk true).ref) ∧
    (isNext (issuing (shfD 0) running) (shfD 0) (fun d => bits d 0 8 == 6 && ((bits d 204 2 == 1) == false) && !bit d 208) = true
      ∧ isNext (issuing (shfD 1) pushed) (shfD 1) (fun d => bits d 0 8 == 6 && ((bits d 204 2 == 1) == true) && !bit d 208) = true
      ∧ 8 ≤ (listed { listOf (List.replicate 9 (shfD 0)) with issued := 8, busy := List.range 8 } running).shfsOf 0
      ∧ ((listed { listOf (List.replicate 9 (shfD 0)) with issued := 8, busy := List.range 8 } running).nextDesc 0 0 fun _ => true).isSome = true
      ∧ (listed { listOf (List.replicate 9 (shfD 0)) with issued := 7, busy := List.range 7 } running).shfsOf 0 < 8 ∧ shfPairsOk (shfD 0) = true ∧ shfPairsOk (shfD 1) = true
      ∧ shfPairsOk (descOf (hdr 6)) = false ∧ isNext (issuing (descOf (hdr 6)) running) (descOf (hdr 6)) (fun d => bits d 0 8 == 6 && ((bits d 204 2 == 1) == false) && !bit d 208) = true
      ∧ running.pushError (shfD 0) = none ∧ (running.setFrame 31 1023 0).pushError (shfD 0) = some 9 ∧ pushed.popError 0 (shfD 1) = none
      ∧ running.popError 0 (shfD 1) = some 1)
    ∧ ((shelving pushed).shelf.runs = [shfRun true] ∧ (shfRun true).own = ⟨0, 0, 0⟩ ∧ (shfRun false).waits = false ∧ (shelving pushed).popReady (shfD 1) = false
      ∧ (shelving sealed).popReady (shfD 1) = true ∧ (shelving pushed).chunkAt 31 65535 = some (chunk false) ∧ (chunk false).moving = false
      ∧ (chunk true).moving = true) := by and_intros <;> decide +kernel
/-- R319: a pop of a frame that no push has created is a Shelf error, and runs no SHF. -/
theorem test_shf_pop_empty : gives (.shfPop 0 0) (issuing (shfD 1) running) (fun t => t.shelf.runs.isEmpty && bit (t.reg R.shelfStatus) 0) = true := by decide +kernel

/-- A BKT of operation `op` on bucket 63. -/
def bktD (op : Nat) (more : List (Nat × Nat)) : BitVec 512 := descOf (hdr 7 ++ pr 6 305 311 63 ++ pr 4 297 301 op ++ pr 2 455 453 0 ++ [(457, 1)] ++ more)
def slot1 : Slot := { size := 2 ^ 20, ranges := [(0, 2 ^ 19)] }
def slotIn (st : Nat) (x : Slot) (s : State) : State := (s.setBucket 63 x).setBucketState 63 st
theorem wit_BucketDescriptorsAct :
    (∀ op < 4, isNext (issuing (bktD op []) running) (bktD op []) (fun d => bits d 0 8 == 7 && bits d 297 4 == op) = true ∧ bktPairsOk (bktD op []) = true
      ∧ bktPairsOk (descOf (hdr 7 ++ [(297, op)])) = false
      ∧ isNext (issuing (descOf (hdr 7 ++ [(297, op)])) running) (descOf (hdr 7 ++ [(297, op)])) (fun d => bits d 0 8 == 7 && bits d 297 4 == op) = true)
    ∧ (bits (bktD 0 []) 305 6 = 63 ∧ bits (bktD 0 []) 455 2 = 0 ∧ running.bucketState 63 = 0 ∧ (∀ st < 4, (slotIn st slot1 running).bucketState 63 = st)
      ∧ (slotIn 1 slot1 running).bucket 63 = slot1 ∧ Sparse.wf (fun _ => ({} : Slot)) running.bkt.slots = true ∧ Safety.canonical running = true)
    ∧ (slot1.badRange (2 ^ 19 - 1) 1 = true ∧ slot1.badRange (2 ^ 19) (2 ^ 19) = false ∧ slot1.badRange (2 ^ 19) (2 ^ 19 + 1) = true)
    ∧ ({ slot1 with rbase := 0, rlog := 6 }.reduceOk 63 63 = true ∧ slot1.reduceOk 1 1 = false ∧ (slotIn 2 slot1 running).bkt.reds = [] ∧ slot1.fin = [])
    ∧ (running.doneBuckets.length < bits (bktD 3 [(317, 1)]) 317 7 ∧ bits (bktD 3 [(317, 1)]) 317 7 ≤ (slotIn 3 slot1 running).doneBuckets.length
      ∧ running.bkt.decided = false ∧ ({ running.bkt with decided := true } : BktBlk).decided = true
      ∧ (∃ k < 64, ((slotIn 3 slot1 running).setBucketFlag 63 true).bucketState k = 3 ∧ ((slotIn 3 slot1 running).setBucketFlag 63 true).bucketFlag k = true)
      ∧ ¬ ∃ k < 64, (slotIn 3 slot1 running).bucketState k = 3 ∧ (slotIn 3 slot1 running).bucketFlag k = true)
    ∧ (slot1.ready ≠ slot1.size ∧ slot1.last = false ∧ ({ slot1 with last := true } : Slot).last = true ∧ slot1.ready = slot1.top ∧ slot1.topo = 0
      ∧ ({ slot1 with topo := 1 } : Slot).topo ≠ 0) := by and_intros <;> decide +kernel
/-- R372: OPEN takes an IDLE slot to OPEN (state 1). -/
theorem test_bkt_open : gives (.bktOpen 0 0) (issuing (bktD 0 []) running) (fun t => t.bucketState 63 == 1 && (t.bucket 63).size == 2 ^ 20) = true := by decide +kernel

def tmkD (op : Nat) (more : List (Nat × Nat)) : BitVec 512 := descOf (hdr 8 ++ pr 4 64 448 op ++ more)
def at_ (beat : Nat) (s : State) : State := { s with beat := BitVec.ofNat 64 beat }
def signal0 : Signal := ⟨⟨0, 0, 0⟩, 0, 15, 1⟩
def arrived : Barrier := { id := 7, tide := 5, arrived := some 1000 }
theorem wit_TideMarksAct :
    (∀ op < 5, isNext (issuing (tmkD op []) running) (tmkD op []) (fun d => bits d 0 8 == 8 && bits d 64 4 == op) = true ∧ tmkPairsOk (tmkD op []) = true
      ∧ tmkPairsOk (descOf (hdr 8 ++ [(64, op)])) = false
      ∧ isNext (issuing (descOf (hdr 8 ++ [(64, op)])) running) (descOf (hdr 8 ++ [(64, op)])) (fun d => bits d 0 8 == 8 && bits d 64 4 == op) = true)
    ∧ ((at_ 1000 running).tide.openBeat + bits (tmkD 1 []) 128 32 ≤ (at_ 1000 running).groupBeat ∧ 4 < running.tide.count.toNat
      ∧ running.groupBeat < running.tide.openBeat + bits (tmkD 1 []) 128 32 ∧ running.tide.count.toNat ≤ (listOf []).tide)
    ∧ (bits (tmkD 2 []) 192 256 = 0 ∧ bits (tmkD 2 [(192, 2 ^ 255)]) 192 256 ≠ 0)
    ∧ (bits (tmkD 3 []) 96 32 ≤ (running.evt 0 (bits (tmkD 3 []) 72 8)).toNat ∧ (running.evt 0 15).toNat < bits (tmkD 3 [(96, 1), (72, 15)]) 96 32)
    ∧ running.tide.replayed = false
    ∧ (let s : State := { running with tide := { running.tide with replayed := true }, bkt := { running.bkt with released := [(0, 5)] } }
       s.tide.replayed = true ∧ (bits (tmkD 4 []) 160 16, (listOf [tmkD 4 []]).tide) ∈ s.bkt.released)
    ∧ (let l : DList := { listOf [tmkD 1 [(128, 10)]] with issued := 1, busy := [0] }
       (listed l running).heldTmk 0 0 1 = some (l, 0, tmkD 1 [(128, 10)]) ∧ (at_ 1010 running).beatReached l (tmkD 1 [(128, 10)]) = true
        ∧ (at_ 1009 running).beatReached l (tmkD 1 [(128, 10)]) = false ∧ running.heldTmk 0 0 1 = none)
    ∧ (let s : State := { running with str := { running.str with signals := [signal0] } }
       (s.str.signals.filter (·.target == 0)).length ≤ 1 ∧ (s.str.signals.filter (·.target == 0))[0]? = some signal0)
    ∧ (let s : State := { running with bkt := { running.bkt with bars := [arrived] } }
       s.group.member = false ∧ s.group.children = [] ∧ s.barrier 7 5 = some arrived ∧ arrived.sent = false ∧ arrived.arrived ≠ none) := by and_intros <;> decide +kernel

/-- Device 1 of a group whose master is device 3, its link 63 active and in service. -/
def linked (s : State) : State := withRegs s [(R.linkState 63, L.active), (R.linkCtrl 63, 1), (R.devId, 0xFFFE0001), (R.partner 63, 3)]
def setLk (f : LinkSt → LinkSt) (s : State) : State := s.setLink 63 (f (s.linkSt 63))
def dn : State := linked member
def pkt (kind : Fin 16) (tt : Byte) : Pkt := { kind, src := 3, dst := 1, ttype := tt }
theorem wit_PacketsAreTaken :
    ((pkt K.tide 1).bad = false ∧ (pkt K.tide 1).kind ≠ K.readReq ∧ (pkt K.tide 9).ttype ∉ ([1] : List Byte) ∧ member.lstate 63 ≠ L.active
      ∧ ((setLk ({ · with discarding := true }) dn).linkSt 63).discarding = true ∧ dn.lstate 63 = L.active ∧ (dn.linkSt 63).discarding = false
      ∧ ({ pkt K.tide 1 with dl := true } : Pkt).kind = K.tide)
    ∧ (dn.devId = some 1 ∧ dn.devId ≠ some (({ pkt K.tide 1 with dst := 2 } : Pkt).dst) ∧ 63 < dn.link.links.length) := by and_intros <;> decide +kernel

/-- A bad packet: a TTYPE that Table 11.16 does not list, or a length that its KIND does not have. -/
def aBad : Pkt := pkt K.tide 9
theorem wit_PacketsAreTaken_bad : aBad.bad = true := by decide +kernel
/-- Ten flits of a packet under way, of which four were counted before. -/
theorem wit_PacketsAreTaken_more : (∀ x ∈ [([], 0), ([10], 6)], ((List.range 4).map fun v => (x : List Nat × Nat).1.getD v 0
    - ((setLk ({ · with part := [4, 0, 0, 0] }) dn).linkSt 63).part.getD v 0).sum = x.2) := by decide +kernel

def rq (a n : Nat) : Pkt := { kind := K.readReq, src := 3, dst := 1, addr := BitVec.ofNat 48 a, len := n, op := 4 }
def remoteOp (w : Bool) : MemOp := { memOp w with dev := some 3 }
def bk (p : Pkt) : Pkt := { p with kind := K.piece, bucket := 63, bucketC := 0, nonfinC := true, pstepC := 0xFFFFFFFF }
def red0 : Reducer := { own := ⟨0, 0, 0⟩, slot := 63, idx := 0, rx := 0, work := 0, f := false }
def master : State := { dn with group := { dn.group with master := 1 } }
def stagingM (s : State) : State := { s with snap := { s.snap with staged := some ⟨emptyBlock, []⟩ } }
def took (s : State) : State := s.takeFlits 63 (pkt K.tide 1) false
theorem wit_PacketsAct :
    (dn.lstate 63 = L.active ∧ (dn.linkSt 63).discarding = false ∧ (rq 0 4096).bad = false ∧ dn.devId = some (rq 0 4096).dst)
    ∧ ((rq 0 4096).kind = K.readReq ∧ (dn.takeFlits 63 (rq 0 4096) false).reqOk (rq 0 4096) = true ∧ (dn.takeFlits 63 (rq 0 4097) false).reqOk (rq 0 4097) = false
      ∧ (dn.takeFlits 63 (rq 0 64) false).found 0 64 0 = .none_ ∧ ∃ o : Fin 4, (dn.takeFlits 63 (rq 0 64) false).found 0 64 o = .uncorrectable false)
    ∧ (let s := streaming [] [remoteOp false]
       s.opById 4 = some (remoteOp false) ∧ (remoteOp false).dev = some 3 ∧ (remoteOp true).write = true ∧ s.opById 5 = none ∧ (remoteOp false).dev ≠ none
        ∧ (5 : Byte) = 5 ∧ (1 : Byte) ≠ 5)
    ∧ ((took dn).pieceFault (bk (pkt K.piece 0)) = 0 ∧ (took dn).pieceFault (pkt K.piece 0) ≠ 0
      ∧ (let s : State := { took dn with bkt := { dn.bkt with reds := [red0] } }
         s.red 63 0 = some red0) ∧ (took dn).red 63 0 = none)
    ∧ ((let s : State := took { dn with bkt := { dn.bkt with bars := List.replicate 256 { arrived with arrived := none, from_ := [3] } } }
        256 ≤ s.barsKept ∧ s.barrier 8 5 = none)
      ∧ (let b : Barrier := { arrived with from_ := [3] }
         let s : State := { dn with bkt := { dn.bkt with bars := [b] } }
         (took s).barrier 7 5 = some b ∧ b.from_ ≠ []))
    ∧ ((took dn).group.member = true ∧ (took dn).devId ≠ some 3 ∧ (took dn).isMaster = false)
    ∧ ((took (stagingM master)).isMaster = true ∧ (took (stagingM master)).staging 5 = true) := by and_intros <;> decide +kernel

def mark (beat : Int) : Pkt := { pkt K.tide 1 with beat := BitVec.ofInt 64 beat }
theorem wit_MarksAlign :
    (dn.lstate 63 = L.active ∧ (dn.linkSt 63).discarding = false ∧ (mark 100).bad = false ∧ dn.devId = some (mark 100).dst ∧ (mark 100).kind = K.tide
      ∧ (mark 100).ttype = 1 ∧ (mark 100).stale = false ∧ (dn.takeFlits 63 (mark 100) false).group.member = true ∧ (dn.takeFlits 63 (mark 100) false).isMaster = false)
    ∧ Safety.canonical dn = true
    ∧ ((100 : Int) = (mark 100).beat.toInt + dn.group.pathDelay - dn.groupBeat ∧ dn.group.firstMark = false
      ∧ ({ dn.group with firstMark := true } : Group).firstMark = true) := by and_intros <;> decide +kernel
/-- R60: an error of 1,250 beats warns, and is not lost; one of 1,251 is. -/
theorem test_align : bits ((dn.align (mark 1250)).reg R.tideStatus) 3 2 = 1 ∧ bits ((dn.align (mark 1251)).reg R.tideStatus) 3 2 = 3
    ∧ (dn.align (mark 4)).tide.offset = 4 ∧ (dn.align (mark (-1250))).tide.offset = -4 ∧ (dn.align (mark 1)).tide.offset = 0 := by and_intros <;> decide +kernel

def inState (st : Nat) : State := withRegs ready [(R.linkState 63, st)]
theorem wit_LinkTrainingActs : (∀ st < 10, (inState st).lstate 63 = st) ∧ Safety.canonical (inState 5) = true ∧ L.paramSt = 5
    ∧ ((inState 5).linkSt 63).returns < 2 ∧ 2 ≤ ((setLk ({ · with returns := 2 }) (inState 5)).linkSt 63).returns
    ∧ (163 : Word).toNat ≤ 163 ∧ 163 < (164 : Word).toNat := by and_intros <;> decide +kernel
/-- R406: an event of a state that has passed changes nothing. -/
theorem test_deskew_again : stays (.linkDeskewDone 63) (inState 5) = true := by decide +kernel

def swapping (marked : Bool) : State :=
  setLk ({ · with swap := some { receive := true, lane := 2, failed := 2, spare := 4, marked } }) (withRegs dn [(R.linkState 63, L.swap)])
/-- Link 63 is DOWN and holds a packet for the report of device 3, its link 5. -/
def loss : LinkLoss := ⟨[(some 4, pkt K.write 0)], 3, 5⟩
def downHeld : State := setLk ({ · with losses := [loss] }) (withRegs dn [(R.linkState 63, L.down)])
theorem wit_LinkEventsAct :
    (dn.linkUp 63 = true ∧ dn.lstate 63 = L.active ∧ (dn.linkSt 63).swap = none ∧ ready.linkUp 63 = false)
    ∧ ((dn.linkSt 63).unacked = 0 ∧ 0 < ((setLk ({ · with unacked := 1 }) dn).linkSt 63).unacked)
    ∧ (∀ n ∈ [7, 8], let x := (setLk ({ · with discarding := true, nacks := n }) dn).linkSt 63
       x.discarding = true ∧ x.nacks = n) ∧ ((setLk ({ · with await := true }) dn).linkSt 63).await = true ∧ (dn.linkSt 63).await = false
    ∧ (bits (dn.reg R.linkThresh) 0 16 < (0x10000 : Word).toNat ∧ (0 : Half).toNat < bits (dn.reg R.linkThresh) 16 8
      ∧ ¬ bits (dn.reg R.linkThresh) 0 16 < (0 : Word).toNat ∧ (swapping false).lstate 63 = L.swap)
    ∧ ((dn.linkSt 63).rxSpare = some 4 ∧ (dn.linkSt 63).rxMap.idxOf? 2 = some 2 ∧ (4 : Nat) ≠ 2 ∧ (dn.linkSt 63).rxBad = false
      ∧ ((setLk ({ · with rxSpare := none }) dn).linkSt 63).rxSpare = none ∧ ((setLk ({ · with rxBad := true }) dn).linkSt 63).rxBad = true
      ∧ (let x := (setLk ({ · with rxSpare := none, rxMap := [4, 1, 2, 3] }) dn).linkSt 63
         x.rxSpare ≠ some 0 ∧ 0 ∉ x.rxMap))
    ∧ (bits (dn.reg (R.laneMap 63)) 12 3 ≠ 7 ∧ bits ((withRegs dn [(R.laneMap 63, 0x7688)]).reg (R.laneMap 63)) 12 3 = 7)
    ∧ (∀ m ∈ [false, true], ((swapping m).linkSt 63).swap = some { receive := true, lane := 2, failed := 2, spare := 4, marked := m })
    ∧ ((swapping true).lstate 63 = L.swap ∧ ready.lstate 63 ≠ L.active ∧ ready.lstate 63 ≠ L.swap ∧ 63 < dn.link.links.length ∧ Safety.canonical dn = true
      ∧ dn.devId = some 1 ∧ (withRegs dn [(R.devId, 1)]).devId = none)
    ∧ ((downHeld.linkSt 63).losses.find? (fun y => y.dev == (3 : Half) && y.link == (5 : Nat)) = some loss ∧ loss.held ≠ [] ∧ (dn.linkSt 63).losses = []
      ∧ ({ loss with held := [] } : LinkLoss).held = [])
    ∧ (let x := ((setLk ({ · with unacked := 1 }) dn).moreFlits 63 [2]).linkSt 63
       x.unacked = 3 ∧ x.rxSeq = 2 ∧ ((dn.moreFlits 63 []).linkSt 63).unacked = 0 ∧ ((setLk ({ · with discarding := true, nacks := 7 }) dn).moreFlits 63 []).linkSt 63
        = { (dn.linkSt 63) with discarding := true, nacks := 7 }) := by and_intros <;> decide +kernel
/-- R415: the first error of the codeword sends one NACK and discards what follows. -/
theorem test_link_error : gives (.flitCrcError 63 ⟨true, 0, []⟩) dn
    (fun t => (t.linkSt 63).discarding && (t.linkSt 63).nacks == 1 && t.lys.sent.length == 1) = true := by decide +kernel

def tideWith (f : Tide → Tide) (s : State) : State := { s with tide := f s.tide }
/-- Tide 5's nominal boundary lies at group beat 263,144. -/
def fell : State := tideWith ({ · with fallen := true }) (at_ 263144 running)
def pastStep3 : State := tideWith ({ · with past3 := true }) running
def done0 : State := listed { listOf [fenced] with issued := 1 } busy0
def masterAt (beat : Nat) : State := at_ beat { running with group := { master.group with lastMark := 0 }, regs := master.regs }
theorem wit_TideEventsAct :
    (let t := tideWith ({ · with hangFrom := some 1000 }) running
     t.tide.hangFrom = some 1000 ∧ t.step1 = true ∧ running.tide.hangFrom = none) ∧
    (running.openEntry 0 = none ∧ busy0.openEntry 0 = some ⟨5, 0, 100, 0, 1, 0, []⟩ ∧ done0.openEntry 0 = some ⟨5, 0, 100, 0, 1, 0, []⟩ ∧ done0.coreDone 0 = true
      ∧ done0.noIssue 0 = false ∧ (listed (listOf [fenced]) busy0).coreDone 0 = false)
    ∧ (pastStep3.fallBeat = none ∧ (at_ 263143 running).fallBeat = some 263144 ∧ (at_ 263143 running).groupBeat < 263144 ∧ (263144 : Int) ≤ (at_ 263144 running).groupBeat
      ∧ (at_ 263144 running).fallBeat = some 263144 ∧ (at_ 263144 running).tide.fallen = false ∧ fell.tide.fallen = true)
    ∧ (let s : State := at_ 263144 { busy0 with group := member.group }
       s.group.member = true ∧ s.tide.running = true ∧ s.tide.past3 = false ∧ s.nominal - (s.reg R.holdWindow).toNat ≤ s.groupBeat ∧ s.step1 = false)
    ∧ (running.group.member = false ∧ running.step1 = true ∧ running.groupBeat < running.nominal - (running.reg R.holdWindow).toNat)
    ∧ (running.isMaster = false ∧ (masterAt 16384).isMaster = true ∧ (masterAt 16384).devId = some 1
      ∧ (masterAt 16384).group.lastMark + ((masterAt 16384).reg R.markInterval).toNat ≤ (masterAt 16384).groupBeat
      ∧ (masterAt 16383).groupBeat < (masterAt 16383).group.lastMark + ((masterAt 16383).reg R.markInterval).toNat) := by and_intros <;> decide +kernel
/-- R51: the nominal boundary falls at its beat and not before. -/
theorem test_nominal : stays .nominalBoundary (at_ 263143 running) = true ∧ gives .nominalBoundary (at_ 263144 running) (·.tide.fallen) = true := by
  and_intros <;> decide +kernel

def fellChange : State := { fell with pwr := { fell.pwr with cmds := [⟨some 6, 0⟩] } }
def close (s : State) : State := (s.closeTide (s.openingBeat s.nominal)).step3 (s.tide.running && s.freezeDue) s.nominal (s.openingBeat s.nominal)
set_option maxRecDepth 100000 in
theorem wit_BoundariesOpen :
    (busy0.unheld = false ∧ running.tide.past3 = false ∧ running.tide.fallen = false)
    ∧ (fell.tide.past3 = false ∧ fell.tide.fallen = true ∧ fell.tide.settleAt = none ∧ fell.unheld = true ∧ (close fell).pwr.settling = false
      ∧ fellChange.unheld = true ∧ fellChange.tide.fallen = true ∧ (close fellChange).pwr.settling = true ∧ (close fellChange).tide.past3 = true)
    ∧ (pastStep3.tide.past3 = true ∧ pastStep3.tide.freezing = false ∧ pastStep3.tide.settleAt = none ∧ pastStep3.unheld = true ∧ pastStep3.tide.heldFrom = none
      ∧ (tideWith ({ · with freezing := true }) pastStep3).tide.freezing = true)
    ∧ (running.tide.settleAt = none ∧ (tideWith ({ · with settleAt := some 2000 }) pastStep3).tide.settleAt = some 2000
      ∧ (tideWith ({ · with settleAt := some 2000 }) running).tide.past3 = false
      ∧ (at_ 1999 running).groupBeat < 2000 ∧ 2000 ≤ (at_ 2000 running).groupBeat)
    ∧ (State.reset.beatOn = false ∧ ready.beatOn = true ∧ ready.tide.running = false ∧ ready.tide.past3 = false ∧ ready.tide.runAt = none
      ∧ ready.tide.settleAt = none ∧ ready.changesWait = false ∧ (ready.queueReg R.tideSlack 40).changesWait = true) := by and_intros <;> decide +kernel
set_option maxRecDepth 100000 in
/-- R39, R51: boundary 6 opens tide 6. -/
theorem test_boundary : gives .tideBoundary fell (fun t => t.tide.count == 6 && t.tide.next == 7 && t.tide.openBeat == 263144) = true := by decide +kernel
def replayable : State := { running with images := running.images.set 0 { entry5 with replayable := true } }
def kept0 (s : State) : State := { s with kept := { s.kept with spareSlotOf := [(0, 3)] } }
def lateHang : State := tideWith ({ · with fallen := true, hangFrom := some 1000 }) (at_ (1000 + 0x1000000) busy0)
theorem wit_CoreFaultsAct :
    (({ running with job := { running.job with lost := true } } : State).job.lost = true ∧ running.job.lost = false ∧ (kept0 running).spareFree 0 = false
      ∧ running.spareFree 0 = true)
    ∧ ((tideWith ({ · with replayed := true }) running).tide.replayed = true ∧ running.tide.replayed = false ∧ ready.tide.running = false
      ∧ running.workOf running.tide.count.toNat = [])
    ∧ (busy0.workOf busy0.tide.count.toNat ≠ [] ∧ busy0.mayReplay busy0.tide.count.toNat 0 = false ∧ busy0.spareFree 0 = true ∧ busy0.tide.running = true
      ∧ replayable.workOf replayable.tide.count.toNat ≠ [] ∧ replayable.mayReplay replayable.tide.count.toNat 0 = true ∧ replayable.tide.past3 = false)
    ∧ (running.unreported = [] ∧ running.tide.fallen = false ∧ lateHang.unreported = [0] ∧ lateHang.tide.fallen = true
      ∧ (lateHang.reg R.holdLimit).toNat ≤ lateHang.hangBeats ∧ (at_ (999 + 0x1000000) lateHang).hangBeats < (lateHang.reg R.holdLimit).toNat) := by
  and_intros <;> decide +kernel
/-- R468: with the bay's spare in use a core fault restarts the job with cause 0x03. -/
theorem test_core_fault : gives (.coreFault 0 false) (kept0 running) (fun t => t.job.restart == some 3) = true := by decide +kernel

def expired : State := { withRegs snapping [(R.mtbfS, 3600)] with beat := 3600 * 2500000000 }
def freezing (s : State) : State := tideWith ({ · with past3 := true, freezing := true }) { s with snap := { s.snap with state := .freeze } }
def transferring (s : State) : State := { s with snap := { s.snap with state := .transfer, staged := some ⟨emptyBlock, []⟩ } }
theorem wit_SnapshotEventsAct :
    (expired.job.exists_ = true ∧ expired.snap.configured = true ∧ expired.job.restart = none ∧ expired.intervalOver = true ∧ snapping.intervalOver = false)
    ∧ (running.tide.freezing = false ∧ (freezing running).tide.freezing = true ∧ (freezing running).snap.state = .freeze
      ∧ (freezing running).tide.next ∉ (freezing running).tide.selfHolds
      ∧ (tideWith ({ · with selfHolds := [6] }) (freezing running)).tide.next ∈ (tideWith ({ · with selfHolds := [6] }) (freezing running)).tide.selfHolds)
    ∧ (running.snap.state ≠ .transfer ∧ (transferring running).snap.state = .transfer ∧ (transferring running).snap.staged = some ⟨emptyBlock, []⟩
      ∧ running.group.member = false ∧ (transferring dn).group.member = true ∧ (transferring dn).isMaster = false ∧ (transferring master).isMaster = true
      ∧ Safety.canonical running = true)
    ∧ (let x : State := transferring { master with group := { master.group with size := 1 } }
       x.snap.doneFrom.length < x.group.size ∧ x.snap.staged = some ⟨emptyBlock, []⟩ ∧ running.group.member = false)
    ∧ (running.snap.restore ≠ .running ∧ ({ running.snap with restore := .running } : Snap).restore = .running) := by and_intros <;> decide +kernel

def mcWith (f : MemCtl → MemCtl) (s : State) : State := { s with memc := f s.memc }
theorem wit_MemoryEventsAct :
    (Safety.canonical ready = true ∧ ready.failingPcs 7 = [] ∧ (mcWith ({ · with pcUe := [(511, 2)] }) ready).failingPcs 7 = [63]
      ∧ bits (ready.reg (R.hbmState 7)) 7 1 = 0
      ∧ (let s := withRegs ready [(R.hbmState 7, 0x80), (R.copyPtr 7, 262144)]
         bits (s.reg (R.hbmState 7)) 7 1 = 1 ∧ (s.reg (R.copyPtr 7)).toNat = s.pcBlocks)
      ∧ ((withRegs ready [(R.hbmState 7, 0x80), (R.copyPtr 7, 262143)]).reg (R.copyPtr 7)).toNat < ready.pcBlocks)
    ∧ (Sparse.get 0 ready.memc.sliceCe 127 < 256 ∧ 256 ≤ Sparse.get 0 (mcWith ({ · with sliceCe := [(127, 256)] }) ready).memc.sliceCe 127
      ∧ 127 ∉ ready.memc.sliceFailed ∧ ready.sliceFree 1 = true ∧ ({ ready with kept := { ready.kept with spareSlice := [(1, 64)] } } : State).sliceFree 1 = false)
    ∧ ((∀ x ∈ ready.memc.sliceCopy, halfOfSlice x.1 = 1 → x.2 ≠ 32768) ∧ (mcWith ({ · with sliceCopy := [(127, 32768)] }) ready).memc.sliceCopy = [(127, 32768)]
      ∧ halfOfSlice 127 = 1
      ∧ ∀ n ∈ [0, 32767], (mcWith ({ · with sliceCopy := [(127, n)] }) ready).memc.sliceCopy.find? (fun x => halfOfSlice x.1 == 1 && decide (x.2 < 32768)) = some (127, n))
    ∧ (ready.scrubs = false ∧ (let s := withRegs ready [(R.ddrCapacity, 65536)]
       s.scrubs = true ∧ s.found (s.scrubAddr 7) 64 0 = .none_ ∧ 0 + 1 < s.bursts ∧ s.bursts ≤ (s.bursts - 1) + 1 ∧ Sparse.get 0 s.memc.scrubPos 7 = 0
        ∧ ∃ o : Fin 4, s.found (s.scrubAddr 7) 64 o = .uncorrectable true)) := by and_intros <;> decide +kernel
/-- R464: at 256 corrected errors of a slice its copy waits for the boundary, and at 255 nothing does. -/
theorem test_slice : gives (.sliceThreshold 127) (mcWith ({ · with sliceCe := [(127, 256)] }) ready) (·.memc.slicePend == [127]) = true
    ∧ stays (.sliceThreshold 127) (mcWith ({ · with sliceCe := [(127, 255)] }) ready) = true := by and_intros <;> decide +kernel

/-- Port A is UP; session 0 on it. -/
def up (x : Session) (s : State) : State := { withRegs s [(R.portState 0, 3)] with lys := { s.lys with sessions := s.lys.sessions.set 0 (some x) } }
def frm (pay : List Byte) : Sys2Proof.Frm := { session := 0, seq := 1, ftag := 7, resv := 0, tagOk := true, pay }
theorem wit_FramesAreReceived : (ready.session 0 = none ∧ (up {} ready).portUp 0 = true ∧ (up {} ready).session 0 = some {} ∧ ready.portUp 0 = false)
    ∧ ((frm []).tagOk = true ∧ (frm []).seq.toNat = ({} : Session).rx ∧ (frm []).seq.toNat ≠ ({ rx := 2 } : Session).rx ∧ runSession {} = false
      ∧ (({ frm [] with tagOk := false } : Sys2Proof.Frm).tagOk = false ∧ ({ tagRun := 15 } : Session).tagRun + 1 = 16) ∧ ({ frm [] with resv := 1 } : Sys2Proof.Frm).resv ≠ 0)
    ∧ (({ rx := 2 ^ 48 - 1 } : Session).rx < 2 ^ 48 ∧ ({ tx := 2 ^ 48 } : Session).tx ≤ 2 ^ 48 ∧ 0 < ready.lys.sessions.length) := by and_intros <;> decide +kernel
/-- R563: a frame out of order is counted and discarded; the sixteenth failing tag in a row closes the session. -/
theorem test_frame : gives (.mbxRead (frm [0])) (up { isOpen := true, rx := 2 } ready) (fun t => (t.reg (R.seqDiscards 0)) == 1 && (t.session 0).isSome) = true
    ∧ gives (.mbxRead { frm [0] with tagOk := false }) (up { isOpen := true, tagRun := 15 } ready) (fun t => (t.session 0).isNone) = true := by
  and_intros <;> decide +kernel

def hello (kind : Nat) : List Byte := padBytes 168 (pl [(1, kind), (2, 0x0100)])
def allBusy : State := { (up {} ready) with lys := { ready.lys with sessions := List.replicate 8 (some {}) } }
def booting (stage : Nat) (s : State) : State := withRegs s [(R.bootState, stage)]
def got (x : Session) (s : State) (pay : List Byte) : State :=
  (((up x s).setSession 0 (some { x with rx := x.rx + 1, tagRun := 0 })).count (R.framesRx (portOf (frm pay).session))).sendAck 0
def opened : Session := { isOpen := true, expert := true }
def bootOpen : Session := { isOpen := true, boot := true }
def winReq (off len : Nat) : List Byte := pl [(1, 3), (7, 0), (8, off), (4, len)]
def winOpen (s : State) : State := { s with lys := { s.lys with windows := s.lys.windows.set 3 (some ⟨0, 0, 4096, true, true⟩) } }
theorem wit_SessionsAct_hello : ready.portUp 0 = false ∧ helloOk [] = false ∧ (up {} ready).portUp 0 = true ∧ helloOk (hello 1) = true ∧ helloOk (hello 0) = true ∧ helloKnown (hello 1) = true ∧ helloKnown (hello 0) = true ∧ helloKnown (hello 2) = false
    ∧ (up {} ready).helloStage (bytesAt (hello 0) 0 1 == 0) = false ∧ (up {} ready).helloStage (bytesAt (hello 1) 0 1 == 0) = true
    ∧ (∀ k < 4, allBusy.session k ≠ none) ∧ (up {} ready).session 1 = none ∧ (∀ j < 1, (up {} ready).session j ≠ none) ∧ 1 < ready.lys.sessions.length := by
  and_intros <;> decide +kernel
theorem wit_SessionsAct_run :
    ((up {} ready).session 0 = some {} ∧ (up {} ready).portUp (portOf 0) = true ∧ (frm (List.replicate 132 0)).pay.length = 132 ∧ ({} : Session).boot = false
      ∧ ({} : Session).isOpen = false ∧ 0 < ready.lys.sessions.length)
    ∧ (opened.isOpen = true ∧ opened.boot = false ∧ (frm [1]).pay.length = 1 ∧ (frm (List.replicate 257 15)).pay.length = 257
      ∧ bytesAt (frm (List.replicate 257 15)).pay 0 1 < 16 ∧ bytesAt (frm [15]).pay 0 1 < 16)
    ∧ (bytesAt (winReq 0 4096) 1 7 = 0 ∧ bytesAt (winReq 0 4096) 8 8 % 64 = 0 ∧ 64 ≤ bytesAt (winReq 0 64) 16 4 ∧ bytesAt (winReq 0 4096) 16 4 ≤ 4096
      ∧ bytesAt (winReq 0 4096) 16 4 % 64 = 0 ∧ (frm (winReq 0 4096)).pay.length = 20 ∧ (frm (winReq 0 64 ++ List.replicate 64 1)).pay.length = 20 + 64)
    ∧ ((got opened asleep []).asleep = true ∧ (got opened ready []).asleep = false ∧ (got opened ready []).winOk 3 0 0 64 false = false
      ∧ (got opened (winOpen ready) []).window 3 = some ⟨0, 0, 4096, true, true⟩ ∧ (got opened (winOpen ready) []).winOk 3 0 0 4096 false = true
      ∧ (got opened (winOpen ready) []).winOk 3 0 64 4096 true = false ∧ (got opened (winOpen ready) []).winOk 3 0 4032 64 true = true)
    ∧ ((got opened ready []).regFrameStatus 0 (windowBase + R.pwrCtrl) 1024 false = none ∧ (got opened ready []).regFrameStatus 0 (windowBase + R.pwrCtrl) 1 true = none
      ∧ (got opened ready []).regFrameStatus 0 0 1 false = some 0x06 ∧ (frm (pl [(8, 0), (4, 1)])).pay.length = 12 ∧ (frm (pl [(8, 0), (4, 1), (4, 0)])).pay.length = 12 + 4 * 1
      ∧ ({ opened with expert := false } : Session).expert = false) := by and_intros <;> decide +kernel
theorem wit_SessionsAct_boot :
    (bootOpen.isOpen = true ∧ bootOpen.boot = true ∧ (frm (List.replicate 266 0)).pay.length = 266 ∧ 68 ≤ (frm (List.replicate 68 0)).pay.length
      ∧ (frm (List.replicate 4100 0)).pay.length ≤ 4100 ∧ bytesAt (frm (List.replicate 68 0)).pay 0 4 % 4096 = 0)
    ∧ ((got bootOpen ready []).bootStage ≠ 4 ∧ (got bootOpen ready []).bootStage ≠ 6 ∧ (got bootOpen (booting 4 ready) []).bootStage = 4
      ∧ (got bootOpen (booting 6 ready) []).bootStage = 6 ∧ bootOpen.keys = false ∧ ({ bootOpen with keys := true } : Session).keys = true)
    ∧ ((({ frm (List.replicate 8 0) with seq := BitVec.ofNat 64 (2 ^ 63 + 1) } : Sys2Proof.Frm).seq.toNat % 2 ^ 63 = 1) ∧ bit (BitVec.ofNat 64 (2 ^ 63 + 1)) 63 = true
      ∧ opened.ackRx < 1 ∧ bit (frm []).seq 63 = false ∧ (frm (List.replicate 8 0)).pay.length = 8)
    ∧ (let t : TxFrame := ⟨5, 4, 0, [], 15⟩
       let x : Session := { opened with unacked := [t] }
       (up x ready).session 0 = some x ∧ x.unacked.find? (fun t => t.seq == 5) = some t ∧ t.sends < 16 ∧ 16 ≤ ({ t with sends := 16 } : TxFrame).sends
        ∧ ∀ t ∈ x.unacked, t.seq ≠ 6)
    ∧ (ready.bootStage ≠ 5 ∧ (booting 5 ready).bootStage = 5 ∧ (booting 5 ready).imgCheck = some 2) := by and_intros <;> decide +kernel

/-- West bays 0 and 1 run. -/
def clocking (s : State) : State := withRegs s [(R.regionState 0, 0x10), (R.regionState 1, 0x10)]
def pwrWith (f : Pwr → Pwr) (s : State) : State := { s with pwr := f s.pwr }
theorem wit_ClockEventsAct :
    ((clocking ready).regionMode 0 = 0 ∧ (clocking ready).pwr.settling = false ∧ ready.regionMode 0 ≠ 0
      ∧ ((clocking ready).regionDyn 0).carried = false ∧ (((clocking ready).setRegionDyn 0 ⟨true, 1⟩).regionDyn 0).carried = true
      ∧ (∀ k ∈ (clocking ready).runningNeighbours 0, (clocking ready).ahead k 0 < 12)
      ∧ (∃ k ∈ (pwrWith ({ · with slips := [(1, -12)] }) (clocking ready)).runningNeighbours 0, 12 ≤ (pwrWith ({ · with slips := [(1, -12)] }) (clocking ready)).ahead k 0)
      ∧ Safety.canonical (clocking ready) = true ∧ Sparse.wf (fun _ => ({} : RegionDyn)) ready.pwr.regions = true
      ∧ Sparse.wf (fun _ => (0 : Int)) (pwrWith ({ · with slips := [(1, -12)] }) ready).pwr.slips = true)
    ∧ (overStrait 1 0 = false ∧ adjacent 7 8 = true ∧ overStrait 7 8 = true ∧ (withRegs ready [(R.profState, 0x1000)]).profView.split = true ∧ adjacent 0 2 = false ∧ adjacent 1 0 = true ∧ 12 ≤ (pwrWith ({ · with slips := [(1, -12)] }) ready).ahead 1 0 ∧ ready.ahead 1 0 < 12)
    ∧ ((ready.regionDyn 0).run < 64 ∧ 64 ≤ ((ready.setRegionDyn 0 ⟨false, 64⟩).regionDyn 0).run)
    ∧ (ready.clocked 0 = false ∧ (clocking ready).clocked 0 = true)
    ∧ (let m := profM ready.part.fast (ready.profView.eff (halfOfRegion 0))
       m = 25 ∧ 99 * 1024 * m ≤ 2500 * 1014 ∧ 2500 * 1034 ≤ 101 * 1024 * m ∧ 2500 * 1013 < 99 * 1024 * m ∧ 101 * 1024 * m < 2500 * 1035)
    ∧ (State.reset.rst.asserted = true ∧ ready.rst.asserted = false ∧ ready.bootStage = 9 ∧ (19 : Fin 41).val < 20 ∧ 20 ≤ (40 : Fin 41).val ∧ ready.beatOn = true ∧ State.reset.beatOn = false
      ∧ (clocking ready).settles 0 = false ∧ (pwrWith ({ · with stepped := [(0, (clocking ready).groupBeat)] }) (clocking ready)).settles 0 = true) := by
  and_intros <;> decide +kernel

def capped (s : State) : State := withRegs s [(R.profState, 0x645)]
def cooled : State := { pwrWith ({ · with cool := [some 0, some 0], calm := [some 0, some 0] }) (capped ready) with beat := 1000000000 }
theorem wit_ThermalAndPowerAct :
    (State.reset.beatOn = false ∧ ready.beatOn = true ∧ ready.rst.tripped = false ∧ Safety.canonical ready = true)
    ∧ ((∀ h < 2, ready.tj h < bits (ready.reg R.thermCtrl) 0 8) ∧ ∀ h < 2, bits (ready.reg R.thermCtrl) 0 8 ≤ (withRegs ready [(R.tjWest, 100), (R.tjEast, 101)]).tj h)
    ∧ (∀ m ∈ [0, 1, 2], let s := withRegs (capped ready) [(R.tjWest, 100), (R.tjEast, 20), (R.thermCtrl, (ready.reg R.thermCtrl).toNat % 65536 + m * 65536)]
       bits (s.reg R.thermCtrl) 0 8 ≤ s.tj 0 ∧ s.tj 1 < bits (s.reg R.thermCtrl) 0 8 ∧ s.tj 1 ≤ bits (s.reg R.thermCtrl) 8 8 ∧ s.profView.split = false
        ∧ s.profView.effW = s.profView.effE ∧ neap < s.profView.effW ∧ bits (s.reg R.thermCtrl) 16 2 = m ∧ ∀ i ∈ s.images, i.crossStrait = false)
    ∧ ({ entry5 with crossStrait := true }.reaches 6 = true ∨ { entry5 with crossStrait := true }.reaches 5 = true)
    ∧ (ready.lowerable [0, 1] = [0, 1] ∧ ready.lowerable [] = [])
    ∧ (State.reset.enm.running = false ∧ ready.enm.running = true)
    ∧ (ready.mayRise 0 = false ∧ cooled.mayRise 0 = true)
    ∧ ((109 : Byte).toNat < 110 ∧ 110 ≤ (110 : Byte).toNat) := by and_intros <;> decide +kernel
/-- R606: a reading of 110 °C asserts THERMTRIP_N; 109 °C does not. -/
theorem test_trip : gives (.thermtrip 0 110) ready (·.rst.tripped) = true ∧ stays (.thermtrip 0 109) ready = true := by and_intros <;> decide +kernel

def rstWith (f : ResetLogic → ResetLogic) (s : State) : State := { s with rst := f s.rst }
/-- Released from reset, CLKMODE 00, the beat PLL's clock valid, Enmora running. -/
def releasing (enm : Bool) (beat : Bool) : State :=
  { rstWith ({ · with asserted := false, pinLow := false, powerOn := false }) State.reset with beatOn := beat, enm := { State.reset.enm with running := enm } }
/-- The same with the memory controllers, the crossbar and the mesh regions released, and the registers `x`. -/
def bayNext (x : List (Nat × Nat)) : State := withRegs (releasing true true) (([16, 17, 18, 19] ++ (List.range 10).map (· + 28)).map (fun r => (R.regionState r, 0)) ++ x)
theorem wit_ResetsAct :
    (State.reset.rst.asserted = true ∧ ready.rst.asserted = false ∧ Safety.canonical State.reset = true ∧ Safety.canonical ready = true)
    ∧ ((rstWith ({ · with powerOn := true }) State.reset).rst.powerOn = true ∧ (rstWith ({ · with powerOn := false }) State.reset).rst.powerOn = false
      ∧ (rstWith ({ · with pinLow := true }) State.reset).rst.pinLow = true ∧ (rstWith ({ · with pinLow := false }) State.reset).rst.pinLow = false)
    ∧ ready.kept.spares.length = 10
    ∧ (ready.waitsForClock 40 = false ∧ (releasing false false).waitsForClock 40 = true ∧ (releasing false true).waitsForClock 38 = true
      ∧ (withRegs (releasing false true) [(R.regionState 38, 0)]).waitsForClock 39 = true ∧ (bayNext []).waitsForClock 0 = true ∧ (releasing true true).waitsForClock 0 = false
      ∧ (releasing true true).waitsForClock 37 = true ∧ bit ((bayNext []).reg (R.regionState 0)) 3 = false ∧ (bayNext []).genFailed 1 = false
      ∧ (bayNext [(R.regionState 0, 0xB)]).waitsForClock 0 = true ∧ bit ((bayNext [(R.regionState 0, 0xB)]).reg (R.regionState 0)) 3 = true) := by and_intros <;> decide +kernel

def running38 (s : State) : State := withRegs s ((List.range 40).map fun r => (R.regionState r, 1))
theorem wit_BootAndPortsAct :
    (ready.bootStage ≠ 2 ∧ (booting 2 ready).bootStage = 2 ∧ (booting 2 ready).bootsel ≠ 3 ∧ (withRegs (booting 2 ready) [(R.straps, 0x33)]).bootsel = 3)
    ∧ ((booting 7 (running38 ready)).bootStage = 7 ∧ (∀ r < 40, (booting 7 (running38 ready)).regionMode r ≠ 3) ∧ ∃ r < 40, ready.regionMode r = 3)
    ∧ ((booting 8 ready).bootStage = 8 ∧ ready.bootStage ≠ 8 ∧ Safety.canonical ready = true ∧ fillOk [] = false)
    ∧ (let p (n : Nat) := withRegs ready [(R.portState 1, n)]
       (∀ n < 4, bits ((p n).reg (R.portState 1)) 0 2 = n) ∧ (running38 (p 1)).regionMode 39 ≠ 0 ∧ (withRegs (p 1) [(R.regionState 39, 0)]).regionMode 39 = 0)
    ∧ ((booting 2 ready).bootStage < 3 ∧ 3 ≤ (booting 3 ready).bootStage ∧ ready.lys.error = false ∧ ready.stopStage ≠ 2)
    ∧ (ready.pwr.entering = false ∧ (pwrWith ({ · with entering := true }) ready).pwr.entering = true)
    ∧ (ready.pwr.waking = none ∧ (let s := pwrWith ({ · with waking := some (0, 7), sleep := true }) (running38 ready)
       s.pwr.waking = some (0, 7) ∧ s.asleep = true ∧ s.wakeReleased = true)) := by and_intros <;> decide +kernel
/-- R540, R541: a self-test that fails stops boot in stage 2. -/
theorem test_selftest : gives (.romSelftestDone false) (booting 2 ready) (fun t => t.bootStage == 15 && t.stopStage == 2) = true := by decide +kernel

end Sys2Proof.Tests
end

section
/-!
Bit fields of a word: what a field reads after a write of the same or of another field, and what a merge of legal fields leaves (R16, R18).
-/
namespace Sys2Proof.Machine

theorem testBit_bits {w : Nat} (x : BitVec w) (lo len i : Nat) : (bits x lo len).testBit i = (decide (i < len) && x.getLsbD (lo + i)) := by
  simp [bits, Nat.testBit_mod_two_pow, Nat.testBit_shiftRight, BitVec.getLsbD]

theorem bits_lt {w : Nat} (x : BitVec w) (lo len : Nat) : bits x lo len < 2 ^ len := Nat.mod_lt _ (Nat.two_pow_pos len)

/-- A field that lies within the implemented bits `m` of a register is not touched by dropping the reserved bits. -/
theorem bits_and_of_covered {w : Nat} (x m : BitVec w) {lo len : Nat} (h : ∀ i < len, m.getLsbD (lo + i) = true) :
    bits (x &&& m) lo len = bits x lo len := by
  apply Nat.eq_of_testBit_eq
  intro i
  rw [testBit_bits, testBit_bits, BitVec.getLsbD_and]
  by_cases hi : i < len
  · rw [h i hi, Bool.and_true]
  · simp [hi]

theorem getLsbD_setBits {w : Nat} (x : BitVec w) (lo len v : Nat) {i : Nat} (hi : i < w) :
    (setBits x lo len v).getLsbD i = if lo ≤ i ∧ i < lo + len then v.testBit (i - lo) else x.getLsbD i := by
  simp only [setBits, BitVec.getLsbD_or, BitVec.getLsbD_and, BitVec.getLsbD_not, BitVec.getLsbD_ofNat, Nat.testBit_shiftLeft,
    Nat.testBit_mod_two_pow, Nat.testBit_two_pow_sub_one, hi, decide_true, Bool.true_and]
  by_cases h : lo ≤ i
  · obtain ⟨j, rfl⟩ := Nat.exists_eq_add_of_le h
    by_cases hj : j < len <;> simp [hj]
  · simp [h]

/-- A field of a word reads as the value it was set to. -/
theorem bits_setBits_self {w : Nat} (x : BitVec w) {lo len : Nat} (v : Nat) (h : lo + len ≤ w) : bits (setBits x lo len v) lo len = v % 2 ^ len := by
  apply Nat.eq_of_testBit_eq
  intro i
  rw [testBit_bits, Nat.testBit_mod_two_pow]
  by_cases hi : i < len
  · rw [getLsbD_setBits x lo len v (by omega), if_pos (by omega), Nat.add_sub_cancel_left]
  · simp [hi]

/-- Setting a field leaves the fields beside it. -/
theorem bits_setBits_disjoint {w : Nat} (x : BitVec w) {lo len lo' len' : Nat} (v : Nat) (h : lo' + len' ≤ w)
    (hd : lo' + len' ≤ lo ∨ lo + len ≤ lo') : bits (setBits x lo len v) lo' len' = bits x lo' len' := by
  apply Nat.eq_of_testBit_eq
  intro i
  rw [testBit_bits, testBit_bits]
  by_cases hi : i < len'
  · rw [getLsbD_setBits x lo len v (by omega), if_neg (by omega)]
  · simp [hi]

/-- A field as wide as the word is the word. -/
theorem setBits_bits_all (x v : Word) : setBits x 0 32 (bits v 0 32) = v := by
  apply BitVec.eq_of_getLsbD_eq
  intro i hi
  rw [getLsbD_setBits x 0 32 _ hi, if_pos (by omega), testBit_bits]
  simp [hi]

/-- R18: what field `f` of the word `v` holds after a write of `new`. -/
def RegField.take (new : Word) (v : Word) (f : RegField) : Word :=
  if f.ok (bits new f.lo f.len) then setBits v f.lo f.len (bits new f.lo f.len) else v

theorem RegField.bits_take_self (new v : Word) (f : RegField) (h : f.lo + f.len ≤ 32) :
    bits (RegField.take new v f) f.lo f.len = if f.ok (bits new f.lo f.len) then bits new f.lo f.len else bits v f.lo f.len := by
  unfold RegField.take
  split
  · rw [bits_setBits_self v _ h, Nat.mod_eq_of_lt (bits_lt new f.lo f.len)]
  · rfl

theorem RegField.bits_take_disjoint (new v : Word) (f : RegField) {lo len : Nat} (h : lo + len ≤ 32) (hd : lo + len ≤ f.lo ∨ f.lo + f.len ≤ lo) :
    bits (RegField.take new v f) lo len = bits v lo len := by
  unfold RegField.take
  split
  · exact bits_setBits_disjoint v _ h hd
  · rfl

/-- A field legal from `a` to `b` takes a value of that range and keeps its own otherwise. -/
theorem RegField.bits_take_range (new v : Word) {lo len : Nat} (a b : Nat) (h : lo + len ≤ 32) :
    bits (RegField.take new v (.range lo len a b)) lo len =
      if a ≤ bits new lo len ∧ bits new lo len ≤ b then bits new lo len else bits v lo len :=
  (RegField.bits_take_self new v (.range lo len a b) h).trans (by simp [RegField.range])

/-- R16, R18: whether or not a write has an effect, each field holds what the merge of its fields gives: with no legal field nothing changes. -/
theorem regMerge_getD (id : Nat) (cur new : Word) : (regMerge id cur new).getD cur = (regFields id cur new).foldl (RegField.take new) cur := by
  have none_legal : ∀ (fs : List RegField) (v : Word), (∀ f ∈ fs, f.ok (bits new f.lo f.len) = false) → fs.foldl (RegField.take new) v = v := by
    intro fs
    induction fs with
    | nil => intro v _; rfl
    | cons f fs ih =>
      intro v h
      rw [List.foldl_cons, RegField.take, if_neg (by simp [h f]), ih v fun g hg => h g (by simp [hg])]
  simp only [regMerge]
  split
  · rfl
  · rename_i h
    rw [Option.getD_none, none_legal _ _ (by simpa using h)]

/-- A register of one field takes the field or nothing. -/
theorem regMerge_single {id : Nat} {cur new : Word} {f : RegField} (h : regFields id cur new = [f]) :
    regMerge id cur new = if f.ok (bits new f.lo f.len) then some (setBits cur f.lo f.len (bits new f.lo f.len)) else none := by
  simp only [regMerge, h, List.any_cons, List.any_nil, Bool.or_false, List.foldl_cons, List.foldl_nil]
  split <;> rfl

end Sys2Proof.Machine
end

section
/-!
Rows of the register index (Table 17.3) that the single accesses meet.
-/
namespace Sys2Proof.Machine

theorem blockOf_blk (b o : Nat) (h : o < 0x1000000) : blockOf (blk b o) = b := by unfold blockOf blk; omega

/-- A row lists no key at or beyond its end. -/
theorem RegRow.lt_end_of_has {d : RegRow} {k : Nat} (h : d.has k = true) : k < d.base + d.stride * (d.count - 1) + 4 * d.run := by
  simp only [RegRow.has, Bool.and_eq_true, decide_eq_true_eq] at h
  obtain ⟨⟨⟨hbase, -⟩, hunit⟩, hword⟩ := h
  have hdiv := Nat.div_add_mod (k - d.base) d.stride
  have hle : d.stride * ((k - d.base) / d.stride) ≤ d.stride * (d.count - 1) := Nat.mul_le_mul_left _ (by omega)
  omega

/-- The words of the E2H and E2B slots are RW registers. -/
theorem regRow_of_slot {k : Nat} (lo : R.e2hSlot 0 ≤ k) (hi : k < R.e2bSlot 0 + 0x1000) (h4 : k % 4 = 0) :
    regRow k = some ⟨R.e2hSlot 0, 0x800, 0x1000000, 1, .rw, 0, 0xFFFFFFFF, false, false⟩ := by
  have cut : regTable = regRowsControl.take 18 ++ (regRowsControl.drop 18 ++ regRowsSequencer ++ regRowsData) := by
    simp [regTable, List.take_append_drop, ← List.append_assoc]
  have before : ∀ d ∈ regRowsControl.take 18, d.base + d.stride * (d.count - 1) + 4 * d.run ≤ R.e2hSlot 0 := by decide +kernel
  rw [regRow, cut, List.find?_append, List.find?_eq_none.2 fun d hd hk => ?_, Option.none_or]
  · refine List.find?_cons_of_pos ?_
    simp only [RegRow.has, Bool.and_eq_true, decide_eq_true_eq]
    simp only [R.e2hSlot, R.e2bSlot, blk] at *
    omega
  · have := RegRow.lt_end_of_has hk
    have := before d hd
    omega

theorem regRow_devId : regRow R.devId = some ⟨R.devId, 1, 0x1000000, 1, .rw, 0xFFFF0000, 0xFFFFFFFF, false, false⟩ := by decide +kernel
theorem regRow_routeData : regRow R.routeData = some ⟨R.routeData, 1, 0x1000000, 1, .rw, 0, 0xFFFFFFFF, false, true⟩ := by decide +kernel
theorem regRow_routeDataC : regRow R.routeDataC = some ⟨R.routeDataC, 1, 0x1000000, 1, .rw, 0xFFFFFFFF, 0xFFFFFFFF, true, false⟩ := by decide +kernel
theorem regRow_profTarget : regRow R.profTarget = some ⟨R.profTarget, 1, 0x1000000, 1, .rw, 1, 0x3, false, false⟩ := by decide +kernel
theorem regRow_pwrCtrl : regRow R.pwrCtrl = some ⟨R.pwrCtrl, 1, 0x1000000, 1, .rw, 0x5A0A, 0xFFFF, false, false⟩ := by decide +kernel
theorem regRow_numCtrl : regRow R.numCtrl = some ⟨R.numCtrl, 1, 0x1000000, 1, .rw, 0xD, 0x1F, true, false⟩ := by decide +kernel
theorem regRow_laneMap : ∀ link : Fin 64, regRow (R.laneMap link) = some ⟨R.laneMap 0, 1, 0x40, 64, .rw, 0x4688, 0x7FFF, false, false⟩ := by
  decide +kernel

/-- The FULL registers of the three sets of mailboxes are W1C. -/
theorem regRow_full {k : Nat} (h : k = R.h2eFull ∨ k = R.e2hFull ∨ k = R.e2bFull) :
    regRow k = some ⟨R.h2eFull, 3, 0x1000000, 1, .w1c, 0, 0xFFFF, false, false⟩ := by
  obtain rfl | rfl | rfl := h <;> decide +kernel

/-- The doorbells are write-only. -/
theorem regRow_doorbell {k : Nat} (h : k = R.e2hDoorbell ∨ k = R.e2bDoorbell) :
    regRow k = some ⟨R.e2hDoorbell, 2, 0x1000000, 1, .wo, 0, 0xFFFF, false, false⟩ := by
  obtain rfl | rfl := h <;> decide +kernel

/-- The registers whose low word latches the high one (R78, R367) are read-only. -/
theorem regRow_lowWord {k : Nat} (h : k = R.beatCountLo ∨ k = R.tideCountLo ∨ k = R.stepNumberLo) : (regRow k).map (·.acc) = some .ro := by
  obtain rfl | rfl | rfl := h <;> decide +kernel

theorem regRow_highWord {k : Nat} (h : k = R.beatCountHi ∨ k = R.tideCountHi ∨ k = R.stepNumberHi) : (regRow k).map (·.acc) = some .ro := by
  obtain rfl | rfl | rfl := h <;> decide +kernel

theorem regRow_tjPeak : (regRow R.tjPeak).map (·.acc) = some .rc := by decide +kernel
theorem regRow_hbmChunksPeak : (regRow R.hbmChunksPeak).map (·.acc) = some .rc := by decide +kernel
theorem regRow_opsPeak : ∀ core : Fin 256, (regRow (R.opsPeak core)).map (·.acc) = some .rc := by decide +kernel
theorem regRow_maxSlip : ∀ region : Fin 40, (regRow (R.maxSlip region)).map (·.acc) = some .rc := by decide +kernel

/-- LANE_MAP is the only register of its row, and RW. -/
theorem acc_of_laneMap_base : ∀ d ∈ regTable, d.base = R.laneMap 0 → d.acc = .rw := by decide +kernel

theorem regRow_mem {k : Nat} {d : RegRow} (h : regRow k = some d) : d ∈ regTable := List.mem_of_find?_eq_some h

end Sys2Proof.Machine
end

section
/-!
Single register accesses: who may make one, what a read latches or clears, and what a write does to each kind of register.
-/
namespace Sys2Proof.Machine

/-! ### Who may access a register (R19, R571) -/

/-- Requester `q` may access the block of register `k`: it is Enmora or an open session with expert privilege, and Sleep has not powered the block
off. -/
def State.Reaches (s : State) (q k : Nat) : Prop :=
  (q = enmoraReq ∨ ∃ x, s.session q = some x ∧ x.isOpen = true ∧ x.expert = true) ∧ s.blockOff k = false

theorem State.reaches_iff (s : State) (q k : Nat) : s.Reaches q k ↔ s.mayAccess q = true ∧ s.blockOff k = false := by
  simp [State.Reaches, State.mayAccess, Option.any_eq_true]

theorem State.accessRead_of_reaches {s : State} {q k : Nat} (h : s.Reaches q k) : s.accessRead q k = s.readEffect q k := by
  obtain ⟨hq, hk⟩ := (s.reaches_iff q k).1 h
  simp [State.accessRead, hq, hk]

theorem State.accessRead_of_not_reaches {s : State} {q k : Nat} (h : ¬ s.Reaches q k) : s.accessRead q k = s :=
  if_neg fun g => h ((s.reaches_iff q k).2 (by simpa using g))

theorem State.accessWrite_of_not_reaches {s : State} {q k : Nat} (v : Word) (h : ¬ s.Reaches q k) : s.accessWrite q k v = s := by
  rw [State.reaches_iff, not_and, Bool.not_eq_false] at h
  refine if_pos ?_
  by_cases hq : s.mayAccess q = true <;> simp_all

theorem State.accessWrite_of_refused {s : State} {q k : Nat} (v : Word) (h : s.writeRefused k = true) : s.accessWrite q k v = s :=
  if_pos (by simp [h])

theorem regsWf_of_canonical {s : State} (h : Safety.canonical s = true) : Sparse.wf regReset s.regs = true := ((Bool.and_eq_true _ _).mp h).2

/-! ### A requester's own copies (R589) -/

theorem ownKey_inj {q q' k k' : Nat} (hk : k < 2 ^ 32) (hk' : k' < 2 ^ 32) (h : ownKey q k = ownKey q' k') : q = q' ∧ k = k' := by
  unfold ownKey at h; omega

theorem State.setOwn_own_self (s : State) (q : Nat) {k : Nat} (v : Word) (hk : k < 2 ^ 32)
    (hw : Sparse.wf (fun j => regReset (j % 2 ^ 32)) s.reqRegs = true) : (s.setOwn q k v).own q k = v := by
  have key : ownKey q k % 2 ^ 32 = k := by unfold ownKey; omega
  have := Sparse.get_put_self (fun j => regReset (j % 2 ^ 32)) s.reqRegs (ownKey q k) v hw
  rwa [key] at this

theorem State.setOwn_own_ne (s : State) {q q' k k' : Nat} (v : Word) (hk : k < 2 ^ 32) (hk' : k' < 2 ^ 32) (h : q' ≠ q ∨ k' ≠ k) :
    (s.setOwn q k v).own q' k' = s.own q' k' := by
  refine Sparse.get_put_ne _ _ _ _ fun e => ?_
  obtain ⟨hq, hk⟩ := ownKey_inj hk' hk e
  exact h.elim (· hq) (· hk)

/-! ### Reads (R78, R367, R589, R590) -/

theorem hi32_eq (x : Dword) : hi32 x = BitVec.ofNat 32 (x.toNat / 2 ^ 32) := by
  apply BitVec.eq_of_toNat_eq
  simp [hi32, Nat.shiftRight_eq_div_pow]

/-- A high word reads as the requester's latch. -/
theorem State.look_highWord (s : State) (q : Nat) {k : Nat} (h : k = R.beatCountHi ∨ k = R.tideCountHi ∨ k = R.stepNumberHi) :
    s.look q k = s.own q k := by
  obtain ⟨d, hd, hacc⟩ := Option.map_eq_some_iff.1 (regRow_highWord h)
  have hnext : k ≠ R.h2eNext := by obtain rfl | rfl | rfl := h <;> decide
  simp [State.look, hd, hacc, hnext, h]

/-- A read of a low word changes the reading requester's latch of the high word `hi` of `x` and nothing else; one that the requester may not make
changes nothing. -/
theorem exec_read_latches {i : Instr} {s : State} {q lo hi : Nat} {x : Dword} (hexec : exec i s = .next (s.accessRead q lo))
    (he : s.readEffect q lo = s.setOwn q hi (hi32 x)) (hh : hi = R.beatCountHi ∨ hi = R.tideCountHi ∨ hi = R.stepNumberHi)
    (hw : Sparse.wf (fun j => regReset (j % 2 ^ 32)) s.reqRegs = true) :
    (s.Reaches q lo → ∃ t : State, exec i s = .next t ∧ t = { s with reqRegs := t.reqRegs } ∧ t.look q hi = BitVec.ofNat 32 (x.toNat / 2 ^ 32)
      ∧ ∀ q' k', (q' ≠ q ∨ k' ≠ hi) → k' < 2 ^ 32 → t.own q' k' = s.own q' k') ∧ (¬ s.Reaches q lo → exec i s = .next s) := by
  refine ⟨fun hr => ?_, fun hr => by rw [hexec, State.accessRead_of_not_reaches hr]⟩
  have small : hi < 2 ^ 32 := by obtain rfl | rfl | rfl := hh <;> decide
  refine ⟨s.setOwn q hi (hi32 x), by rw [hexec, State.accessRead_of_reaches hr, he], rfl, ?_, fun q' k' h hk' => State.setOwn_own_ne s _ small hk' h⟩
  rw [State.look_highWord _ _ hh, State.setOwn_own_self s q _ small hw, hi32_eq]

/-- R590: a read of a register that is cleared by reading clears it. -/
theorem State.readEffect_rc (s : State) (q : Nat) {k : Nat} (h : (regRow k).map (·.acc) = some .rc) (hn : k ≠ R.h2eNext) :
    s.readEffect q k = s.setReg k 0 := by
  obtain ⟨d, hd, hacc⟩ := Option.map_eq_some_iff.1 h
  have hlow : ¬ (k = R.beatCountLo ∨ k = R.tideCountLo ∨ k = R.stepNumberLo) := fun g => by simp [regRow_lowWord g] at h
  simp only [not_or] at hlow
  obtain ⟨hb, ht, hs⟩ := hlow
  simp [State.readEffect, hb, ht, hs, hn, hd, hacc]

/-- A read of such a register clears it and changes nothing else; one that the requester may not make changes nothing. -/
theorem exec_read_clears {i : Instr} {s : State} {q k : Nat} (hexec : exec i s = .next (s.accessRead q k)) (h : (regRow k).map (·.acc) = some .rc)
    (hn : k ≠ R.h2eNext) (hw : Sparse.wf regReset s.regs = true) :
    (s.Reaches q k → ∃ t : State, exec i s = .next t ∧ t = { s with regs := t.regs } ∧ t.reg k = 0 ∧ ∀ j, j ≠ k → t.reg j = s.reg j)
      ∧ (¬ s.Reaches q k → exec i s = .next s) :=
  ⟨fun hr => ⟨s.setReg k 0, by rw [hexec, State.accessRead_of_reaches hr, State.readEffect_rc s q h hn], rfl, State.setReg_reg_self s k 0 hw,
    fun j hj => State.setReg_reg_ne s k j 0 hj⟩, fun hr => by rw [hexec, State.accessRead_of_not_reaches hr]⟩

end Sys2Proof.Machine
end

section
/-!
O25: single register reads.
-/
namespace Sys2Proof.Machine

/-- Settles O25: a read of a low word latches the high word for its requester, and a read of an RC register clears it. -/
theorem registerReadsAct : Obligations.RegisterReadsAct := by
  unfold Obligations.RegisterReadsAct
  intro q s hc hw may
  have hregs := regsWf_of_canonical hc
  refine ⟨fun p hp => ?_, fun core region p hp => ?_⟩ <;> simp only [List.mem_cons, List.not_mem_nil, or_false] at hp
  · obtain rfl | rfl | rfl := hp
    · exact exec_read_latches rfl rfl (.inl rfl) hw
    · exact exec_read_latches rfl rfl (.inr (.inl rfl)) hw
    · exact exec_read_latches rfl rfl (.inr (.inr rfl)) hw
  · obtain rfl | rfl | rfl | rfl := hp
    · exact exec_read_clears rfl regRow_tjPeak (show R.tjPeak ≠ R.h2eNext by decide) hregs
    · exact exec_read_clears rfl (regRow_opsPeak core) (by simp only [R.opsPeak, R.h2eNext, blk]; omega) hregs
    · exact exec_read_clears rfl (regRow_maxSlip region) (by simp only [R.maxSlip, R.h2eNext, blk]; omega) hregs
    · exact exec_read_clears rfl regRow_hbmChunksPeak (show R.hbmChunksPeak ≠ R.h2eNext by decide) hregs

end Sys2Proof.Machine
end

section
/-!
Single register writes: what one does to each kind of register (R14, R16, R18, R30, R112, R588 to R590).
-/
namespace Sys2Proof.Machine

/-! ### Writes that are refused (R588) or act on the mailbox block (R92 to R94) -/

/-- Only DEV_ID of a member of a group and LANE_MAP of a link in service are refused. -/
theorem State.writeRefused_eq_false {s : State} {k : Nat} {d : RegRow} (hd : regRow k = some d) (hdev : k ≠ R.devId ∨ s.group.member = false)
    (hlane : d.base ≠ R.laneMap 0) : s.writeRefused k = false := by
  have notDev : (k == R.devId && s.group.member) = false := by
    obtain h | h := hdev
    · rw [beq_false_of_ne h, Bool.false_and]
    · rw [h, Bool.and_false]
  simp [State.writeRefused, notDev, hd, hlane]

theorem State.writeRefused_laneMap (s : State) (link : Fin 64) : s.writeRefused (R.laneMap link) = s.inService link := by
  have hdev : R.laneMap link ≠ R.devId := by simp only [R.laneMap, R.devId, blk]; omega
  have hid : (R.laneMap link - R.laneMap 0) % 0x40 = 0 := by simp only [R.laneMap, blk]; omega
  have hunit : (R.laneMap link - R.laneMap 0) / 0x40 = link := by simp only [R.laneMap, blk]; omega
  simp only [State.writeRefused, regRow_laneMap, RegRow.id, RegRow.unit, hid, hunit, beq_false_of_ne hdev]
  simp

theorem slotAt_eq_none {k : Nat} (h : ¬ (R.e2hSlot 0 ≤ k ∧ k < R.e2bSlot 0 + 0x1000)) : slotAt k = none := by
  have e2h : ¬ (R.e2hSlot 0 ≤ k ∧ k < R.e2hSlot 0 + 0x1000) := by simp only [R.e2hSlot, R.e2bSlot, blk] at *; omega
  have e2b : ¬ (R.e2bSlot 0 ≤ k ∧ k < R.e2bSlot 0 + 0x1000) := by simp only [R.e2hSlot, R.e2bSlot, blk] at *; omega
  rw [slotAt, if_neg e2h, if_neg e2b]

theorem State.mailboxWrite_e2hDoorbell (s : State) (v : Word) :
    s.mailboxWrite R.e2hDoorbell v = some ((setBitsOf 16 v.toNat).foldl State.ringE2h s) := if_pos rfl

theorem State.mailboxWrite_e2bDoorbell (s : State) (v : Word) :
    s.mailboxWrite R.e2bDoorbell v = some ((setBitsOf 16 v.toNat).foldl State.ringE2b s) :=
  (if_neg (by decide)).trans (if_pos rfl)

/-- Enmora stores to a register that is no doorbell, no FULL register and no word of a slot as any requester does. -/
theorem State.mailboxWrite_eq_none (s : State) {k : Nat} (v : Word) (hbell : k ≠ R.e2hDoorbell ∧ k ≠ R.e2bDoorbell)
    (hfull : ¬ (k = R.h2eFull ∨ k = R.e2hFull ∨ k = R.e2bFull)) (hslot : ¬ (R.e2hSlot 0 ≤ k ∧ k < R.e2bSlot 0 + 0x1000)) :
    s.mailboxWrite k v = none := by
  simp only [not_or] at hfull
  obtain ⟨hh2e, he2h, he2b⟩ := hfull
  simp only [State.mailboxWrite, hbell, hh2e, he2h, he2b, slotAt_eq_none hslot, if_false]

theorem State.mailboxWrite_of_block (s : State) {k : Nat} (v : Word) (h : blockOf k ≠ 4) : s.mailboxWrite k v = none := by
  unfold blockOf at h
  apply State.mailboxWrite_eq_none <;> simp only [R.e2hDoorbell, R.e2bDoorbell, R.h2eFull, R.e2hFull, R.e2bFull, R.e2hSlot, R.e2bSlot, blk] <;> omega

/-- The way a single access takes: Enmora's own, or a session's REG_* command. -/
def viaOf (q : Nat) : Via := if q = enmoraReq then .enmora else .command

theorem writeIgnored_of_block (q : Nat) {k : Nat} (h : blockOf k ≠ 4) : writeIgnored q (viaOf q) k = false := by
  have hvia : (viaOf q == .frame) = false := by unfold viaOf; split <;> rfl
  simp [writeIgnored, hvia, h]

/-- A write that is allowed, not refused and no act of a mailbox is a write of the register, a session's an expert one. -/
theorem State.accessWrite_eq {s : State} {q k : Nat} (v : Word) (hr : s.Reaches q k) (hw : s.writeRefused k = false)
    (hm : q = enmoraReq → s.mailboxWrite k v = none) : s.accessWrite q k v = s.writeReg q (viaOf q) (q != enmoraReq) k v := by
  obtain ⟨hq, hb⟩ := (s.reaches_iff q k).1 hr
  rw [State.accessWrite, if_neg (by simp [hq, hb, hw])]
  by_cases h : q = enmoraReq
  · rw [if_pos h, hm h, Option.getD_none, viaOf, if_pos h, h]
    rfl
  · rw [if_neg h, viaOf, if_neg h, bne_iff_ne.2 h]

/-! ### What a write does to a register of each access code -/

/-- R112: a write by requester `q` overrides the basic setting `k`, but Enmora's own does not. -/
def State.overrideBy (s : State) (q k : Nat) : State := if q = enmoraReq then s else s.override k

theorem State.ite_override (s : State) (q k : Nat) : (if (q != enmoraReq) = true then s.override k else s) = s.overrideBy q k := by
  by_cases h : q = enmoraReq <;> simp [State.overrideBy, h]

theorem State.override_eq (s : State) (k : Nat) : s.override k = { s with overrides := (s.override k).overrides } := by
  unfold State.override; split <;> rfl

theorem State.overrideBy_eq (s : State) (q k : Nat) : s.overrideBy q k = { s with overrides := (s.overrideBy q k).overrides } := by
  unfold State.overrideBy
  split
  · rfl
  · exact s.override_eq k

@[simp] theorem State.overrideBy_regs (s : State) (q k : Nat) : (s.overrideBy q k).regs = s.regs := by rw [State.overrideBy_eq]
@[simp] theorem State.overrideBy_shadow (s : State) (q k : Nat) : (s.overrideBy q k).shadow = s.shadow := by rw [State.overrideBy_eq]

/-- R587, Table 0.3: an unlisted offset and a register that is read-only, cleared by reading or write-only keep their value. -/
theorem State.writeReg_inert (s : State) (q : Nat) (via : Via) (mark : Bool) {k : Nat} (v : Word)
    (h : ∀ d, regRow k = some d → d.acc = .ro ∨ d.acc = .rc ∨ d.acc = .wo) : s.writeReg q via mark k v = s := by
  unfold State.writeReg
  cases hd : regRow k with
  | none => rfl
  | some d =>
    obtain e | e | e := h d hd <;> simp [e]

theorem State.writeReg_w1c {s : State} {q : Nat} {via : Via} {mark : Bool} {k : Nat} {v : Word} {d : RegRow} (hd : regRow k = some d)
    (hi : writeIgnored q via k = false) (ha : d.acc = .w1c) : s.writeReg q via mark k v = ((s.andNotReg k v.toNat).holdThrottled).holdJit k := by
  simp [State.writeReg, hd, hi, ha]

/-- The RW registers whose write is more than a store of the legal fields. -/
def actingRegs : List Nat := [R.profTarget, R.alarmHi, R.alarmLo, R.routeData, R.routeDataC]

theorem State.writeReg_plain {s : State} {q : Nat} {via : Via} {mark : Bool} {k : Nat} {v : Word} {d : RegRow} (hd : regRow k = some d)
    (hi : writeIgnored q via k = false) (ha : d.acc = .rw) (ho : d.own = false) (hk : k ∉ actingRegs) :
    s.writeReg q via mark k v = s.writePlain d mark k (v &&& word d.mask) := by
  simp only [actingRegs, List.mem_cons, List.not_mem_nil, or_false, not_or] at hk
  obtain ⟨h1, h2, h3, h4, h5⟩ := hk
  simp [State.writeReg, hd, hi, ha, ho, h1, h2, h3, h4, h5]

/-- An allowed write of a plain RW register outside the mailbox block. -/
theorem State.accessWrite_plain {s : State} {q k : Nat} {d : RegRow} (v : Word) (hr : s.Reaches q k) (hd : regRow k = some d)
    (hw : s.writeRefused k = false) (hb : blockOf k ≠ 4) (ha : d.acc = .rw) (ho : d.own = false) (hk : k ∉ actingRegs) :
    s.accessWrite q k v = s.writePlain d (q != enmoraReq) k (v &&& word d.mask) := by
  rw [State.accessWrite_eq v hr hw fun _ => s.mailboxWrite_of_block v hb, State.writeReg_plain hd (writeIgnored_of_block q hb) ha ho hk]

theorem State.overrideReg_eq (s : State) {d : RegRow} {k : Nat} (ha : d.id k ≠ R.arrayCtrl 0) (hm : k ≠ R.memCtrl) :
    s.overrideReg d k = s.override k := by
  simp [State.overrideReg, ha, hm]

/-- A write with no legal field has no effect (R18). -/
theorem State.writePlain_none {s : State} {d : RegRow} {mark : Bool} {k i : Nat} {v : Word} (hs : d.shadow = false) (hi : d.id k = i)
    (hm : regMerge i (s.reg k) v = none) : s.writePlain d mark k v = s := by
  simp [State.writePlain, hs, hi, hm]

/-- R588: an unshadowed register takes its legal fields at once. -/
theorem State.writePlain_some {s t : State} {d : RegRow} {q k i : Nat} {v w : Word} (hs : d.shadow = false) (hi : d.id k = i)
    (hm : regMerge i (s.reg k) v = some w) (ht : (if k = R.devId then (s.setReg k w).storedAt 65536 .devId else s.setReg k w) = t)
    (ha : i ≠ R.arrayCtrl 0) (hc : k ≠ R.memCtrl) : s.writePlain d (q != enmoraReq) k v = t.overrideBy q k := by
  simp only [State.writePlain, hs, hi, hm, ht, State.overrideReg_eq _ (hi ▸ ha) hc, State.ite_override, Bool.false_eq_true, if_false]

/-- R30: a shadowed register takes its legal fields at the next boundary. -/
theorem State.writePlain_shadow {s : State} {d : RegRow} {q k i : Nat} {v w : Word} (hs : d.shadow = true) (hi : d.id k = i)
    (hm : regMerge i (s.latest k) v = some w) (hf : s.shelfFits k w = true) (ha : i ≠ R.arrayCtrl 0) (hc : k ≠ R.memCtrl) :
    s.writePlain d (q != enmoraReq) k v = (s.queueReg k w).overrideBy q k := by
  simp only [State.writePlain, hs, hi, hm, hf, State.overrideReg_eq _ (hi ▸ ha) hc, State.ite_override, if_true]

/-- An unshadowed register holds what the merge of its fields gives; only it and the overrides may change. -/
theorem State.writePlain_now {s : State} {d : RegRow} {q k i : Nat} (v : Word) (hs : d.shadow = false) (hi : d.id k = i) (hdev : k ≠ R.devId)
    (ha : i ≠ R.arrayCtrl 0) (hc : k ≠ R.memCtrl) (hwf : Sparse.wf regReset s.regs = true) :
    ∃ t : State, s.writePlain d (q != enmoraReq) k v = t ∧ t = { s with regs := t.regs, overrides := t.overrides } ∧ (∀ j, j ≠ k → t.reg j = s.reg j)
      ∧ t.reg k = (regFields i (s.reg k) v).foldl (RegField.take v) (s.reg k) := by
  rw [← regMerge_getD]
  cases hm : regMerge i (s.reg k) v with
  | none => exact ⟨s, State.writePlain_none hs hi hm, rfl, fun _ _ => rfl, rfl⟩
  | some w =>
    have same (j : Nat) : ((s.setReg k w).overrideBy q k).reg j = (s.setReg k w).reg j := State.reg_congr (State.overrideBy_regs ..) j
    refine ⟨(s.setReg k w).overrideBy q k, State.writePlain_some hs hi hm (if_neg hdev) ha hc, ?_, fun j hj => ?_, ?_⟩
    · rw [State.overrideBy_eq]; rfl
    · rw [same, State.setReg_reg_ne s k j w hj]
    · rw [same, State.setReg_reg_self s k w hwf, Option.getD_some]

/-! ### Single registers -/

theorem State.accessWrite_routeData {s : State} {q : Nat} (v : Word) (hr : s.Reaches q R.routeData) :
    s.accessWrite q R.routeData v = s.setOwn q R.routeData v := by
  have hw : s.writeRefused R.routeData = false := State.writeRefused_eq_false regRow_routeData (.inl (by decide)) (by decide)
  have hb : blockOf R.routeData ≠ 4 := by decide
  rw [State.accessWrite_eq v hr hw fun _ => s.mailboxWrite_of_block v hb]
  have all : v &&& word 0xFFFFFFFF = v := BitVec.and_allOnes
  have hprof : R.routeData ≠ R.profTarget := by decide
  have halarm : ¬ (R.routeData = R.alarmHi ∨ R.routeData = R.alarmLo) := by decide
  simp only [State.writeReg, regRow_routeData, writeIgnored_of_block q hb, all, hprof, halarm, if_false, if_true, Bool.false_eq_true]

theorem State.accessWrite_routeDataC {s : State} {q : Nat} (v : Word) (hr : s.Reaches q R.routeDataC) :
    s.accessWrite q R.routeDataC v = (s.queueRoute (s.own q R.routeIndex).toNat
      (BitVec.ofNat 64 ((s.own q R.routeData).toNat + 2 ^ 32 * v.toNat))).overrideBy q (routeName (s.own q R.routeIndex).toNat) := by
  have hw : s.writeRefused R.routeDataC = false := State.writeRefused_eq_false regRow_routeDataC (.inl (by decide)) (by decide)
  have hb : blockOf R.routeDataC ≠ 4 := by decide
  rw [State.accessWrite_eq v hr hw fun _ => s.mailboxWrite_of_block v hb, ← State.ite_override]
  have all : v &&& word 0xFFFFFFFF = v := BitVec.and_allOnes
  have hprof : R.routeDataC ≠ R.profTarget := by decide
  have halarm : ¬ (R.routeDataC = R.alarmHi ∨ R.routeDataC = R.alarmLo) := by decide
  have hdata : R.routeDataC ≠ R.routeData := by decide
  simp only [State.writeReg, regRow_routeDataC, writeIgnored_of_block q hb, all, hprof, halarm, hdata, if_false, if_true, Bool.false_eq_true]

/-- R588: DEV_ID is refused in a tide group; otherwise it takes the value, stored afresh (R422). -/
theorem State.accessWrite_devId {s : State} {q : Nat} (v : Word) (hr : s.Reaches q R.devId) :
    s.accessWrite q R.devId v =
      if s.group.member then s else ((s.setReg R.devId v).storedAt 65536 .devId).overrideBy q R.devId := by
  split
  · next h => exact State.accessWrite_of_refused v (by simp [State.writeRefused, h])
  · next h =>
    have hw : s.writeRefused R.devId = false := State.writeRefused_eq_false regRow_devId (.inr (by simpa using h)) (by decide)
    have all : v &&& word 0xFFFFFFFF = v := BitVec.and_allOnes
    have merge : regMerge R.devId (s.reg R.devId) v = some v := by
      rw [regMerge_single (f := .any 0 32) rfl]
      exact congrArg some (setBits_bits_all _ v)
    rw [State.accessWrite_plain v hr regRow_devId hw (by decide) rfl rfl (by decide), all]
    exact State.writePlain_some rfl rfl merge (if_pos rfl) (by decide) (by decide)

/-- R435, R588: LANE_MAP of a link in service is refused; otherwise it takes a legal map. -/
theorem State.accessWrite_laneMap {s : State} {q : Nat} (link : Fin 64) (v : Word) (hr : s.Reaches q (R.laneMap link)) :
    s.accessWrite q (R.laneMap link) v =
      if s.inService link = false ∧ laneMapOk (bits v 0 15) = true then
        (s.setReg (R.laneMap link) (setBits (s.reg (R.laneMap link)) 0 15 (bits v 0 15))).overrideBy q (R.laneMap link)
      else s := by
  cases hs : s.inService link with
  | true => simpa using State.accessWrite_of_refused v (by rw [State.writeRefused_laneMap, hs])
  | false =>
    have hw : s.writeRefused (R.laneMap link) = false := by rw [State.writeRefused_laneMap, hs]
    have hb : blockOf (R.laneMap link) ≠ 4 := by simp only [R.laneMap, blockOf, blk]; omega
    have hk : R.laneMap link ∉ actingRegs := by
      simp only [actingRegs, List.mem_cons, List.not_mem_nil, or_false, R.laneMap, R.profTarget, R.alarmHi, R.alarmLo, R.routeData, R.routeDataC, blk]
      omega
    have hid : R.laneMap 0 + (R.laneMap link - R.laneMap 0) % 0x40 = R.laneMap 0 := by simp only [R.laneMap, blk]; omega
    have hdev : R.laneMap link ≠ R.devId := by simp only [R.laneMap, R.devId, blk]; omega
    have hmem : R.laneMap link ≠ R.memCtrl := by simp only [R.laneMap, R.memCtrl, blk]; omega
    have field : bits (v &&& word 0x7FFF) 0 15 = bits v 0 15 := bits_and_of_covered v _ (by decide)
    have merge := regMerge_single (cur := s.reg (R.laneMap link)) (new := v &&& word 0x7FFF) (f := ⟨0, 15, laneMapOk⟩) (id := R.laneMap 0) rfl
    simp only [field] at merge
    rw [State.accessWrite_plain v hr (regRow_laneMap link) hw hb rfl rfl hk]
    split
    · next h => exact State.writePlain_some rfl hid (merge.trans (if_pos h.2)) (if_neg hdev) (by decide) hmem
    · next h => exact State.writePlain_none rfl hid (merge.trans (if_neg fun g => h ⟨rfl, g⟩))

/-- A commanded change that is accepted waits for its boundary, or for a stopped apply while the sequencer is stopped (R41, R65). -/
theorem State.mem_cmds_acceptProf (s : State) (p b : Nat) :
    (⟨if s.tide.running then some b else none, p⟩ : ProfCmd) ∈ (s.acceptProf p b).pwr.cmds := by
  have cmds : (s.acceptProf p b).pwr.cmds = ProfCmd.replace s.pwr.cmds (if s.tide.running then some b else none) p := by
    have sync : ∀ u : State, u.syncProf.pwr = u.pwr := fun _ => rfl
    simp only [State.acceptProf, sync, apply_ite State.pwr, apply_ite Pwr.cmds, ite_self]
  simp [cmds, ProfCmd.replace]

/-- R521: PROF_TARGET holds the target written, submitted as a change at PROF_BOUNDARY; a refused one sets PROF_REJECT. -/
theorem State.accessWrite_profTarget {s : State} {q : Nat} (v : Word) (hr : s.Reaches q R.profTarget) :
    s.accessWrite q R.profTarget v = if bits v 0 2 = 3 then s else (s.submitProf v).overrideBy q R.profTarget := by
  have hw : s.writeRefused R.profTarget = false := State.writeRefused_eq_false regRow_profTarget (.inl (by decide)) (by decide)
  have hb : blockOf R.profTarget ≠ 4 := by decide
  have field : bits (v &&& word 3) 0 2 = bits v 0 2 := bits_and_of_covered v _ (by decide)
  have submit : s.submitProf (v &&& word 3) = s.submitProf v := by simp only [State.submitProf, field]
  rw [State.accessWrite_eq v hr hw fun _ => s.mailboxWrite_of_block v hb, ← State.ite_override]
  simp only [State.writeReg, regRow_profTarget, writeIgnored_of_block q hb, field, submit, if_true, Bool.false_eq_true, if_false]

theorem State.submitProf_rejected {s : State} {v : Word} (hp : bits v 0 2 < 3)
    (h : s.asleep = true ∨ (s.judgeProf (bits v 0 2) (s.reg64 R.profBoundaryLo R.profBoundaryHi)).isSome = true) :
    s.submitProf v = (s.setReg R.profTarget (word (bits v 0 2))).orReg R.clkStatus 0x10 := by
  have judged : ∃ x, (if s.asleep then some (0, 0, 0) else s.judgeProf (bits v 0 2) (s.reg64 R.profBoundaryLo R.profBoundaryHi)) = some x := by
    split
    · exact ⟨_, rfl⟩
    · next hs => exact Option.isSome_iff_exists.1 (h.resolve_left hs)
  obtain ⟨x, hx⟩ := judged
  simp only [State.submitProf, Nat.ne_of_lt hp, if_false, hx]

theorem State.submitProf_accepted {s : State} {v : Word} (hp : bits v 0 2 < 3) (hs : s.asleep = false)
    (h : s.judgeProf (bits v 0 2) (s.reg64 R.profBoundaryLo R.profBoundaryHi) = none) :
    s.submitProf v = (s.setReg R.profTarget (word (bits v 0 2))).acceptProf (bits v 0 2) (s.reg64 R.profBoundaryLo R.profBoundaryHi) := by
  simp only [State.submitProf, Nat.ne_of_lt hp, if_false, hs, Bool.false_eq_true, h]

/-- R512: setting THROTTLED again changes at most CLK_STATUS. -/
theorem State.holdThrottled_eq (s : State) :
    s.holdThrottled = { s with regs := s.holdThrottled.regs } ∧ ∀ j, j ≠ R.clkStatus → s.holdThrottled.reg j = s.reg j := by
  unfold State.holdThrottled
  split
  · exact ⟨rfl, fun j hj => State.setReg_reg_ne s _ j _ hj⟩
  · exact ⟨rfl, fun _ _ => rfl⟩

theorem word_toNat (v : Word) : word v.toNat = v := (BitVec.ofNat_toNat 32 v).trans (BitVec.setWidth_eq v)

/-- R14: a W1C register loses the bits written 1; of the other registers only CLK_STATUS may change, where THROTTLED sets again. -/
theorem State.accessWrite_w1c {s : State} {q k : Nat} {d : RegRow} (v : Word) (hr : s.Reaches q k) (hd : regRow k = some d) (ha : d.acc = .w1c)
    (hb : blockOf k ≠ 4) (hclk : k ≠ R.clkStatus) (hnum : k ≠ R.numStatus) (hwf : Sparse.wf regReset s.regs = true) :
    s.accessWrite q k v = { s with regs := (s.accessWrite q k v).regs } ∧ (s.accessWrite q k v).reg k = s.reg k &&& ~~~v
      ∧ ∀ j, j ≠ k → j ≠ R.clkStatus → (s.accessWrite q k v).reg j = s.reg j := by
  have hdev : k ≠ R.devId := by
    rintro rfl
    rw [regRow_devId, Option.some.injEq] at hd
    rw [← hd] at ha
    exact absurd ha (by decide)
  have hlane : d.base ≠ R.laneMap 0 := fun h => by simp [acc_of_laneMap_base d (regRow_mem hd) h] at ha
  have written : s.accessWrite q k v = (s.andNotReg k v.toNat).holdThrottled := by
    rw [State.accessWrite_eq v hr (State.writeRefused_eq_false hd (.inl hdev) hlane) fun _ => s.mailboxWrite_of_block v hb,
      State.writeReg_w1c hd (writeIgnored_of_block q hb) ha, State.holdJit, if_neg fun h => hnum h.1]
  obtain ⟨frame, kept⟩ := State.holdThrottled_eq (s.andNotReg k v.toNat)
  rw [written]
  refine ⟨frame, ?_, fun j hj hc => ?_⟩
  · rw [kept k hclk, State.andNotReg, State.setReg_reg_self s k _ hwf, word_toNat]
  · rw [kept j hc, State.andNotReg, State.setReg_reg_ne s k j _ hj]

/-- PWR_CTRL takes each of its two legal fields at once (Table 14.10). -/
theorem State.accessWrite_pwrCtrl {s : State} {q : Nat} (v : Word) (hr : s.Reaches q R.pwrCtrl) (hwf : Sparse.wf regReset s.regs = true) :
    ∃ t : State, s.accessWrite q R.pwrCtrl v = t ∧ t = { s with regs := t.regs, overrides := t.overrides } ∧ (∀ k, k ≠ R.pwrCtrl → t.reg k = s.reg k)
      ∧ bits (t.reg R.pwrCtrl) 0 8 = (if 1 ≤ bits v 0 8 ∧ bits v 0 8 ≤ 100 then bits v 0 8 else bits (s.reg R.pwrCtrl) 0 8)
      ∧ bits (t.reg R.pwrCtrl) 8 8 = (if 50 ≤ bits v 8 8 ∧ bits v 8 8 ≤ 95 then bits v 8 8 else bits (s.reg R.pwrCtrl) 8 8) := by
  have low : bits (v &&& word 0xFFFF) 0 8 = bits v 0 8 := bits_and_of_covered v _ (by decide)
  have high : bits (v &&& word 0xFFFF) 8 8 = bits v 8 8 := bits_and_of_covered v _ (by decide)
  have plain := State.accessWrite_plain v hr regRow_pwrCtrl (State.writeRefused_eq_false regRow_pwrCtrl (.inl (by decide)) (by decide)) (by decide) rfl
    rfl (by decide)
  obtain ⟨t, ht, frame, others, held⟩ := State.writePlain_now (s := s) (q := q) (k := R.pwrCtrl) (i := R.pwrCtrl) (v &&& word 0xFFFF)
    (d := ⟨R.pwrCtrl, 1, 0x1000000, 1, .rw, 0x5A0A, 0xFFFF, false, false⟩) rfl rfl (by decide) (by decide) (by decide) hwf
  have fields : t.reg R.pwrCtrl = RegField.take (v &&& word 0xFFFF) (RegField.take (v &&& word 0xFFFF) (s.reg R.pwrCtrl) (.range 0 8 1 100))
    (.range 8 8 50 95) := held
  refine ⟨t, plain.trans ht, frame, others, ?_, ?_⟩
  · rw [fields, RegField.bits_take_disjoint _ _ _ (by decide) (.inl (by decide)), RegField.bits_take_range _ _ _ _ (by decide), low]
  · rw [fields, RegField.bits_take_range _ _ _ _ (by decide), RegField.bits_take_disjoint _ _ _ (by decide) (.inr (by decide)), high]

/-- R30: NUM_CTRL takes a legal value at the next boundary. -/
theorem State.accessWrite_numCtrl {s : State} {q : Nat} (v : Word) (hr : s.Reaches q R.numCtrl) (lo : 10 ≤ bits v 0 5) (hi : bits v 0 5 ≤ 20) :
    s.accessWrite q R.numCtrl v = (s.queueReg R.numCtrl (setBits (s.latest R.numCtrl) 0 5 (bits v 0 5))).overrideBy q R.numCtrl := by
  have field : bits (v &&& word 0x1F) 0 5 = bits v 0 5 := bits_and_of_covered v _ (by decide)
  have merge := regMerge_single (id := R.numCtrl) (cur := s.latest R.numCtrl) (new := v &&& word 0x1F) (f := .range 0 5 10 20) rfl
  simp only [RegField.range, field] at merge
  rw [State.accessWrite_plain v hr regRow_numCtrl (State.writeRefused_eq_false regRow_numCtrl (.inl (by decide)) (by decide)) (by decide) rfl rfl
    (by decide)]
  exact State.writePlain_shadow rfl rfl (merge.trans (if_pos (by simp [lo, hi]))) rfl (by decide) (by decide)

/-- A write that Enmora or a session makes to an unlisted offset, or to a register that is read-only, cleared by reading or write-only, does nothing,
but that Enmora's doorbells ring. -/
theorem State.accessWrite_inert {s : State} {q k : Nat} (v : Word) (h4 : k % 4 = 0)
    (hacc : ∀ d, regRow k = some d → d.acc = .ro ∨ d.acc = .rc ∨ d.acc = .wo)
    (hbell : q ≠ enmoraReq ∨ (k ≠ R.e2hDoorbell ∧ k ≠ R.e2bDoorbell)) : s.accessWrite q k v = s := by
  by_cases hr : s.Reaches q k
  · by_cases hw : s.writeRefused k = true
    · exact State.accessWrite_of_refused v hw
    · have hfull : ¬ (k = R.h2eFull ∨ k = R.e2hFull ∨ k = R.e2bFull) := fun h => absurd (hacc _ (regRow_full h)) (by decide)
      have hslot : ¬ (R.e2hSlot 0 ≤ k ∧ k < R.e2bSlot 0 + 0x1000) := fun h => absurd (hacc _ (regRow_of_slot h.1 h.2 h4)) (by decide)
      rw [State.accessWrite_eq v hr (by simpa using hw) fun hq => s.mailboxWrite_eq_none v (hbell.resolve_left (not_not_intro hq)) hfull hslot,
        State.writeReg_inert s q _ _ v hacc]
  · exact State.accessWrite_of_not_reaches v hr

/-- Table 3.4: a write of Enmora's that acts on a mailbox is that act. -/
theorem State.accessWrite_mailbox {s t : State} {k : Nat} {v : Word} (hr : s.Reaches enmoraReq k) (hw : s.writeRefused k = false)
    (hm : s.mailboxWrite k v = some t) : s.accessWrite enmoraReq k v = t := by
  obtain ⟨hq, hb⟩ := (s.reaches_iff _ k).1 hr
  rw [State.accessWrite, if_neg (by simp [hq, hb, hw]), if_pos rfl, hm, Option.getD_some]

/-- Enmora reaches the mailbox block at any time: Sleep does not power it off (Table 17.1). -/
theorem State.reaches_doorbell (s : State) {k : Nat} (h : k = R.e2hDoorbell ∨ k = R.e2bDoorbell) : s.Reaches enmoraReq k := by
  have hb : blockOffInSleep (blockOf k) = false := by obtain rfl | rfl := h <;> decide
  exact ⟨.inl rfl, by rw [State.blockOff, hb, Bool.and_false]⟩

theorem State.writeRefused_doorbell (s : State) {k : Nat} (h : k = R.e2hDoorbell ∨ k = R.e2bDoorbell) : s.writeRefused k = false := by
  have hdev : k ≠ R.devId := by obtain rfl | rfl := h <;> decide
  exact State.writeRefused_eq_false (regRow_doorbell h) (.inl hdev) (by decide)

end Sys2Proof.Machine
end

section
/-!
O26: single register writes.
-/
namespace Sys2Proof.Machine

/-- Settles O26, one law of `accessWrite` for each kind of register. -/
theorem registerWritesAct : Obligations.RegisterWritesAct := by
  unfold Obligations.RegisterWritesAct
  intro q v s may ov
  have writes {i : Instr} {k : Nat} {t : State} (hi : exec i s = .next (s.accessWrite q k v)) (ht : s.accessWrite q k v = t) : exec i s = .next t := by
    rw [hi, ht]
  refine ⟨?_, ?_, ?_, ?_, ?_, ?_, ?_, ?_, ?_, ?_, ?_, ?_⟩
  · intro link p hp h
    simp only [List.mem_cons, List.not_mem_nil, or_false] at hp
    obtain rfl | rfl | rfl | rfl | rfl := hp <;> exact writes rfl (State.accessWrite_of_not_reaches v h)
  · exact fun b o h => writes rfl (State.accessWrite_of_not_reaches v h)
  · exact fun h => writes rfl (State.accessWrite_routeData v h)
  · exact fun h => writes rfl (State.accessWrite_routeDataC v h)
  · exact fun h => writes rfl (State.accessWrite_devId v h)
  · intro link h
    have law := State.accessWrite_laneMap link v h
    exact ⟨fun hs => writes rfl (law.trans (if_neg (by simp [hs]))), fun hs hok => writes rfl (law.trans (if_pos ⟨hs, hok⟩)),
      fun hs hok => writes rfl (law.trans (if_neg (by simp [hok])))⟩
  · intro h b u
    have law := State.accessWrite_profTarget v h
    have submits (hp : bits v 0 2 < 3) : s.accessWrite q R.profTarget v = (s.submitProf v).overrideBy q R.profTarget :=
      law.trans (if_neg (Nat.ne_of_lt hp))
    refine ⟨fun hp => writes rfl (law.trans (if_pos hp)), fun hp hj => writes rfl ?_, fun hp hs hj => ⟨writes rfl ?_, u.mem_cmds_acceptProf _ b⟩⟩
    · rw [submits hp, State.submitProf_rejected hp hj]; rfl
    · rw [submits hp, State.submitProf_accepted hp hs hj]; rfl
  · intro b o k hacc hbell
    have aligned : blk b.toNat (4 * o.toNat) % 4 = 0 := by unfold blk; omega
    exact writes rfl (State.accessWrite_inert v aligned hacc hbell)
  · intro hq
    have rings {k : Nat} {t : State} (hk : k = R.e2hDoorbell ∨ k = R.e2bDoorbell) (hm : s.mailboxWrite k v = some t) : s.accessWrite q k v = t := by
      rw [hq]
      exact State.accessWrite_mailbox (s.reaches_doorbell hk) (s.writeRefused_doorbell hk) hm
    exact ⟨writes rfl (rings (.inl rfl) (s.mailboxWrite_e2hDoorbell v)), writes rfl (rings (.inr rfl) (s.mailboxWrite_e2bDoorbell v))⟩
  · intro b o d k h hd ha hb hclk hnum hc
    have hblock : blockOf k ≠ 4 := by rwa [blockOf_blk _ _ (by omega)]
    exact ⟨_, rfl, State.accessWrite_w1c v h hd ha hblock hclk hnum (regsWf_of_canonical hc)⟩
  · intro h hc
    obtain ⟨t, ht, held⟩ := State.accessWrite_pwrCtrl v h (regsWf_of_canonical hc)
    exact ⟨t, writes rfl ht, held⟩
  · intro h lo hi
    have law := State.accessWrite_numCtrl v h lo hi
    have pend (u : State) (k : Nat) : (u.overrideBy q R.numCtrl).pendingReg k = u.pendingReg k := State.pendingReg_congr (State.overrideBy_shadow ..) k
    refine ⟨_, writes rfl law, ?_, ?_, fun k hk => ?_⟩
    · rw [State.overrideBy_eq]; rfl
    · rw [State.latest_congr (State.overrideBy_shadow ..) (State.overrideBy_regs ..), State.queueReg_latest_self,
        bits_setBits_self _ _ (by decide), Nat.mod_eq_of_lt (bits_lt v 0 5)]
    · rw [pend, State.queueReg_pendingReg_ne _ _ _ _ hk]

end Sys2Proof.Machine
end

section
/-!
The log ring: where an entry is placed, what a full ring gives up, and that writing an entry touches only the log and the events that wait (R32, R33).
-/
namespace Sys2Proof.Machine

/-! ### Where an entry is placed (R32) -/

theorem Log.length_place (e : LogEntry) (xs : List LogEntry) : (Log.place e xs).length = xs.length + 1 := by
  induction xs with
  | nil => rfl
  | cons x xs ih =>
    rw [Log.place]
    split
    · rw [List.length_cons, ih, List.length_cons]
    · rfl

theorem Log.mem_place {e y : LogEntry} {xs : List LogEntry} : y ∈ Log.place e xs ↔ y = e ∨ y ∈ xs := by
  induction xs with
  | nil => exact List.mem_cons
  | cons x xs ih =>
    rw [Log.place]
    split
    · rw [List.mem_cons, ih, List.mem_cons, or_left_comm]
    · exact List.mem_cons

/-- An entry is newest unless the newest one is of its beat and has a higher source. -/
theorem Log.place_eq_cons {e : LogEntry} {xs : List LogEntry} (h : ∀ x ∈ xs.head?, x.beat = e.beat → x.source.toNat ≤ e.source.toNat) :
    Log.place e xs = e :: xs := by
  cases xs with
  | nil => rfl
  | cons x xs => exact if_neg fun hx => Nat.not_lt.2 (h x rfl hx.1) hx.2

/-! ### One more entry (R33) -/

theorem Log.add_next (l : Log) (e : LogEntry) : (l.add e).next = l.next + 1 := by simp only [Log.add]; split <;> rfl

theorem Log.add_read (l : Log) (e : LogEntry) : (l.add e).read = l.read := by simp only [Log.add]; split <;> rfl

/-- A ring with room takes the entry and loses none. -/
theorem Log.add_of_lt {l : Log} (e : LogEntry) (h : l.entries.length < 4096) :
    l.add e = { l with entries := Log.place e l.entries, next := l.next + 1 } := by
  have room : ¬ (l.entries.length ≥ 4096 ∧ seqAfter (l.next - word l.entries.length) l.read = true) := fun g => absurd g.1 (by omega)
  have all : (Log.place e l.entries).take 4096 = Log.place e l.entries := List.take_of_length_le (by rw [Log.length_place]; omega)
  rw [Log.add, if_neg room, all]

/-- A full ring drops its oldest entry, which is lost when it was unread. -/
theorem Log.add_of_full {l : Log} (e : LogEntry) (h : l.entries.length = 4096) :
    l.add e = { l with entries := (Log.place e l.entries).take 4096, next := l.next + 1
                       lost := if seqAfter (l.next - 4096) l.read then satAdd l.lost 1 else l.lost } := by
  have oldest : (l.entries.length ≥ 4096 ∧ seqAfter (l.next - word l.entries.length) l.read = true) ↔ seqAfter (l.next - 4096) l.read = true := by
    rw [h]
    exact and_iff_right (Nat.le_refl 4096)
  simp only [Log.add, oldest]
  split <;> rfl

/-! ### Writing an entry -/

/-- An entry, and the LOG_HIGH entry that may follow it, change nothing but the log and Enmora's events. -/
theorem State.logFull_eq (s : State) (source : Half) (code : Nat) (core tag : Half) (detail more : List Byte) :
    s.logFull source code core tag detail more =
      { s with log := (s.logFull source code core tag detail more).log, enm := (s.logFull source code core tag detail more).enm } := by
  unfold State.logFull State.logHigh
  split <;> rfl

/-- Settles O9: the ring with room and the full ring, the place of an entry, and the frame of writing one. -/
theorem logKeepsTheNewest : Obligations.LogKeepsTheNewest := by
  unfold Obligations.LogKeepsTheNewest
  refine ⟨fun l e => ⟨l.add_next e, l.add_read e, fun h => ?_, fun h => ?_, Log.place_eq_cons, fun _ => Log.mem_place⟩,
    fun source code detail s => s.logFull_eq source code noHalf noHalf detail []⟩
  · rw [Log.add_of_lt e h]
    exact ⟨rfl, Log.length_place e l.entries, rfl⟩
  · rw [Log.add_of_full e h]
    refine ⟨rfl, ?_, rfl⟩
    rw [List.length_take, Log.length_place, h]
    rfl

end Sys2Proof.Machine
end

section
/-!
What comes up to a boundary: the report of an engine, the causes that a nominal boundary notes, holds of this member, and the master's marks (R51 to R63).
-/
namespace Sys2Proof.Machine

/-! ### Reports (R31, R53, R54) -/

theorem execEngineReport_of_idle {s : State} {core : Fin 256} (working : Word) (r : Stalls)
    (h : s.openEntry core = none ∨ s.coreDone core = false ∨ s.noIssue core = true) : exec (.engineReport core working r) s = .next s := by
  show execEngineReport core working r s = .next s
  unfold execEngineReport
  cases hc : s.openEntry core with
  | none => rfl
  | some c =>
    obtain h | h | h := h
    · simp [hc] at h
    · simp [h]
    · simp [h]

theorem execEngineReport_of_done {s : State} {core : Fin 256} (working : Word) (r : Stalls) {c : Cost} (hc : s.openEntry core = some c)
    (hd : s.coreDone core = true) (hi : s.noIssue core = false) : exec (.engineReport core working r) s =
      .next ((s.addReport c (c.tide + c.span) working r.stall).count (R.lsConflicts core) r.conflicts.toNat).ownDone := by
  show execEngineReport core working r s = _
  simp [execEngineReport, hc, hd, hi]

/-- The report of an engine before the count of R54 is looked at: it is listed, its stall cycles are counted, and the core's retried cycles start again. -/
def State.listReport (s : State) (c : Cost) (close : Nat) (working stall : Word) : State :=
  let all := satAdd stall (s.arr c.engine).retried
  let u := s.count (R.coreStall c.engine) stall.toNat
  { u with
    tide := { u.tide with reports := u.tide.reports ++
      [{ core := c.engine, close, beat := s.groupBeat, working, stall := all, mb := c.mb, cause := s.causeOf c working all }] }
    cores := Sparse.put {} u.cores c.engine { u.arr c.engine with retried := 0 } }

/-- R54: the count of the hold rests once step 1 is satisfied. -/
def State.restCount (t : State) : State :=
  match t.tide.hangFrom, t.step1 with
  | some g, true => { t with tide := { t.tide with hangFrom := none, hangCount := t.tide.hangCount + (t.groupBeat - g).toNat } }
  | _, _ => t

theorem State.addReport_eq (s : State) (c : Cost) (close : Nat) (working stall : Word) :
    s.addReport c close working stall = (s.listReport c close working stall).restCount := rfl

theorem State.restCount_of_open {t : State} (h : t.tide.hangFrom = none ∨ t.step1 = false) : t.restCount = t := by
  unfold State.restCount
  obtain h | h := h
  · rw [h]
  · rw [h]
    split <;> simp_all

theorem State.restCount_of_step1 {t : State} {g : Int} (hg : t.tide.hangFrom = some g) (h : t.step1 = true) :
    t.restCount = { t with tide := { t.tide with hangFrom := none, hangCount := t.tide.hangCount + (t.groupBeat - g).toNat } } := by
  simp only [State.restCount, hg, h]

/-! ### The nominal boundary (R51, R53) -/

theorem testBit_addCause (m c i : Nat) : (addCause m c).testBit i = true ↔ m.testBit i = true ∨ i = c := by
  rw [addCause, Nat.testBit_or, Bool.or_eq_true, Nat.testBit_two_pow, decide_eq_true_eq, eq_comm (a := c)]

theorem testBit_foldl_addCause {α : Type} (f : α → Nat) (xs : List α) (m i : Nat) :
    (xs.foldl (fun m x => addCause m (f x)) m).testBit i = true ↔ m.testBit i = true ∨ ∃ x ∈ xs, i = f x := by
  induction xs generalizing m with
  | nil => simp
  | cons x xs ih => simp only [List.foldl_cons, ih, testBit_addCause, List.mem_cons, exists_eq_or_imp, or_assoc]

theorem State.mem_remoteHolds {s : State} {g : Int} {h : Holder} :
    h ∈ s.remoteHolds g ↔ h ∈ s.tide.holders ∧ h.boundary = s.tide.next ∧ ∀ b, h.release = some b → g < b := by
  simp [State.remoteHolds, Option.all_eq_true]

/-- The cause mask once TIDE_HOLDs and remote holders are noted at the nominal beat `g` (R53). -/
def State.notedCauses (s : State) (g : Int) : Nat :=
  (s.remoteHolds g).foldl (fun m h => addCause m h.cause) (if s.tide.hostHolds.contains s.tide.next then addCause s.tide.causes 7 else s.tide.causes)

theorem State.nominalFalls_eq (s : State) (g : Int) : s.nominalFalls g =
    { s with tide := { s.tide with fallen := true, causes := s.notedCauses g, hangFrom := if s.step1 then s.tide.hangFrom else some g } } := by
  unfold State.nominalFalls State.notedCauses
  cases s.step1 <;> rfl

theorem State.testBit_notedCauses (s : State) (g : Int) (i : Nat) : (s.notedCauses g).testBit i = true ↔
    s.tide.causes.testBit i = true ∨ (i = 7 ∧ s.tide.next ∈ s.tide.hostHolds)
      ∨ ∃ h ∈ s.tide.holders, h.boundary = s.tide.next ∧ (∀ b, h.release = some b → g < b) ∧ i = if h.named = h.boundary then 5 else 8 := by
  have host : (if s.tide.hostHolds.contains s.tide.next then addCause s.tide.causes 7 else s.tide.causes).testBit i = true
      ↔ s.tide.causes.testBit i = true ∨ (i = 7 ∧ s.tide.next ∈ s.tide.hostHolds) := by
    split
    · next h => rw [testBit_addCause, and_iff_left (List.contains_iff_mem.1 h)]
    · next h => exact (or_iff_left fun g => h (List.contains_iff_mem.2 g.2)).symm
  rw [State.notedCauses, testBit_foldl_addCause, host, or_assoc]
  simp only [State.mem_remoteHolds, Holder.cause, and_assoc]

theorem execNominalBoundary_of_none {s : State} (h : s.fallBeat = none) : exec .nominalBoundary s = .next s := by
  show execNominalBoundary s = _
  rw [execNominalBoundary, h]

theorem execNominalBoundary_of_some {s : State} {g : Int} (h : s.fallBeat = some g) :
    exec .nominalBoundary s = .next (if g ≤ s.groupBeat ∧ s.tide.fallen = false then s.nominalFalls g else s) := by
  show execNominalBoundary s = _
  simp only [execNominalBoundary, h, Bool.not_eq_true']

/-! ### Holds and marks (R58, R62) -/

theorem State.selfHold_eq (s : State) (k : Nat) : s.selfHold k = if k ∈ s.tide.selfHolds then s else
    { s with tide := { s.tide with selfHolds := s.tide.selfHolds ++ [k], selfReleases := s.tide.selfReleases.filter (·.1 ≠ k) } }.sendHold k := by
  have other : (fun x : Nat × Int => x.1 != k) = fun x => decide (x.1 ≠ k) := by funext x; rw [Bool.eq_iff_iff, bne_iff_ne, decide_eq_true_eq]
  simp only [State.selfHold, other, List.contains_iff_mem]

theorem execHoldDecision_of_due {s : State} (hm : s.group.member = true) (hr : s.tide.running = true) (hp : s.tide.past3 = false)
    (hb : s.nominal - s.regN R.holdWindow ≤ s.groupBeat) (h1 : s.step1 = false) : exec .holdDecision s = .next (s.selfHold s.tide.next) :=
  congrArg Host.Outcome.next (if_pos ⟨hm, hr, by rw [hp]; rfl, hb, by rw [h1]; rfl⟩)

theorem execHoldDecision_of_not_due {s : State} (h : s.group.member = false ∨ s.tide.running = false ∨ s.tide.past3 = true ∨ s.step1 = true
    ∨ s.groupBeat < s.nominal - s.regN R.holdWindow) : exec .holdDecision s = .next s := by
  refine congrArg Host.Outcome.next (if_neg fun ⟨hm, hr, hp, hb, h1⟩ => ?_)
  obtain h | h | h | h | h := h
  · simp [h] at hm
  · simp [h] at hr
  · simp [h] at hp
  · simp [h] at h1
  · omega

theorem execTideMarkEmit_of_not_due {s : State} (h : s.isMaster = false ∨ s.groupBeat < s.group.lastMark + s.regN R.markInterval) :
    exec .tideMarkEmit s = .next s := by
  refine if_neg fun ⟨hm, hb⟩ => ?_
  obtain h | h := h
  · simp [h] at hm
  · exact absurd hb (by omega)

theorem execTideMarkEmit_of_due {s : State} {me : Half} (hm : s.isMaster = true) (hb : s.group.lastMark + s.regN R.markInterval ≤ s.groupBeat)
    (hid : s.devId = some me) : exec .tideMarkEmit s =
      .next ({ s with group := { s.group with lastMark := s.group.lastMark + s.regN R.markInterval } }.toChildren
        { tidePkt T.mark with src := me, beat := BitVec.ofInt 64 s.groupBeat, tide := s.tide.count }) := by
  refine (if_pos ⟨hm, hb⟩).trans (congrArg Host.Outcome.next ?_)
  rw [hid]

/-- Settles O50, by the laws of each of the four commands. -/
theorem tideEventsAct : Obligations.TideEventsAct := by
  unfold Obligations.TideEventsAct
  intro s
  refine ⟨fun core working stall conflicts =>
      ⟨execEngineReport_of_idle working ⟨stall, conflicts⟩, fun c => execEngineReport_of_done working ⟨stall, conflicts⟩⟩,
    ?_, rfl, execNominalBoundary_of_none, fun g hg => ⟨fun h => ?_, fun hb hf => ?_⟩, fun hm hr hp hb h1 => ?_, execHoldDecision_of_not_due,
    execTideMarkEmit_of_not_due, fun me => execTideMarkEmit_of_due⟩
  · intro c close working stall all clock u t hclock hall hu ht
    have listed : t = s.listReport c close working stall := by rw [ht, hclock, hall, hu]; rfl
    rw [State.addReport_eq, ← listed]
    exact ⟨State.restCount_of_open, fun g => State.restCount_of_step1⟩
  · rw [execNominalBoundary_of_some hg, if_neg]
    rintro ⟨hb, hf⟩
    obtain h | h := h
    · omega
    · simp [h] at hf
  · rw [execNominalBoundary_of_some hg, if_pos ⟨hb, hf⟩, State.nominalFalls_eq]
    exact ⟨_, rfl, s.testBit_notedCauses g⟩
  · rw [execHoldDecision_of_due hm hr hp hb h1, State.selfHold_eq]

end Sys2Proof.Machine
end

section
/-!
Clock regions: the slip of a crossing, swells, holds, margin runs, generators and fixed PLLs (R27, R466, R496, R499, R500, R502, R529).
-/
namespace Sys2Proof.Machine

/-! ### Slip (R498) -/

theorem slipKey_comm (a b : Nat) : slipKey a b = slipKey b a := by rw [slipKey, slipKey, Nat.min_comm, Nat.max_comm]

/-- By as much as `a` is ahead of `b`, `b` is behind `a`. -/
theorem State.ahead_swap (s : State) {a b : Nat} (h : a ≠ b) : s.ahead b a = -s.ahead a b := by
  simp only [State.ahead, slipKey_comm b a]
  obtain h | h := Nat.lt_or_gt_of_ne h
  · rw [if_neg (Nat.lt_asymm h), if_pos h]
  · rw [if_pos h, if_neg (Nat.lt_asymm h), Int.neg_neg]

theorem State.addAhead_ahead (s : State) (a b : Nat) (d : Int) (h : Sparse.wf (fun _ => (0 : Int)) s.pwr.slips = true) :
    (s.addAhead a b d).ahead a b = s.ahead a b + d := by
  simp only [State.ahead, State.addAhead, Sparse.get_put_self (fun _ => (0 : Int)) _ _ _ h]
  split <;> omega

theorem State.addAhead_ahead_swap (s : State) {a b : Nat} (d : Int) (h : Sparse.wf (fun _ => (0 : Int)) s.pwr.slips = true) (hab : a ≠ b) :
    (s.addAhead a b d).ahead b a = s.ahead b a - d := by
  rw [State.ahead_swap _ hab, State.addAhead_ahead s a b d h, State.ahead_swap s hab]
  omega

theorem State.noteSlip_reg (s : State) (r o : Nat) (h : Sparse.wf regReset s.regs = true) :
    (s.noteSlip r o).reg (R.maxSlip r) = word (max (s.reg (R.maxSlip r)).toNat ((s.ahead r o).natAbs / 4)) := State.setReg_reg_self s _ _ h

theorem State.meso_eq_true_iff (s : State) (a b : Nat) :
    s.meso a b = true ↔ adjacent a b = true ∧ (overStrait a b = false ∨ s.profView.split = false) := by
  simp [State.meso]

/-! ### Swells (R499, R500) -/

theorem State.settles_iff (s : State) (r : Nat) : s.settles r = true ↔ ∃ x ∈ s.pwr.stepped, x.1 = halfOfRegion r
    ∧ (s.groupBeat - x.2) * (profM s.part.fast (s.profView.eff (halfOfRegion r)) : Int) < 6400 := by
  simp [State.settles]

/-- A region that does not run, or settles, does not swell. -/
theorem execSwell_of_quiet {s : State} {r : Fin 20} (gap : Nat) (h : s.regionMode r ≠ 0 ∨ s.settles r = true) : exec (.swell r gap) s = .next s :=
  congrArg Host.Outcome.next (if_pos h)

section Running

variable {s : State} {r : Fin 20} {gap : Nat} (hr : s.regionMode r = 0) (hs : s.settles r = false)
include hr hs

/-- A running region judges the warning, after one carried forward whose cycle has come. -/
theorem execSwell_of_runs : exec (.swell r gap) s = .next (if ((s.regionDyn r).carried && decide (16 ≤ gap)) = true then
    (if gap = 16 then s.warned r 16 else (s.warned r 16).warned r (gap - 16)) else s.warned r gap) :=
  congrArg Host.Outcome.next (if_neg (by simp [hr, hs]))

theorem execSwell_of_none_due (h : gap < 16 ∨ (s.regionDyn r).carried = false) : exec (.swell r gap) s = .next (s.warned r gap) := by
  rw [execSwell_of_runs hr hs, if_neg]
  rw [Bool.and_eq_true, decide_eq_true_eq]
  rintro ⟨hc, hg⟩
  obtain h | h := h
  · omega
  · simp [h] at hc

theorem execSwell_of_due_now (hc : (s.regionDyn r).carried = true) (hg : gap = 16) : exec (.swell r gap) s = .next (s.warned r 16) := by
  rw [execSwell_of_runs hr hs, if_pos (by simp [hc, hg]), if_pos hg]

theorem execSwell_of_due_before (hc : (s.regionDyn r).carried = true) (hg : 16 < gap) :
    exec (.swell r gap) s = .next ((s.warned r 16).warned r (gap - 16)) := by
  rw [execSwell_of_runs hr hs, if_pos (by simp [hc, Nat.le_of_lt hg]), if_neg (Nat.ne_of_gt hg)]

end Running

/-! ### Holds and margin runs (R499, R502) -/

theorem execXingHold_of_not_due {s : State} {r o : Fin 20} (h : s.meso r o = false ∨ s.ahead r o < 12) : exec (.xingHold r o) s = .next s := by
  refine congrArg Host.Outcome.next (if_neg fun g => ?_)
  rw [Bool.and_eq_true, decide_eq_true_eq] at g
  obtain ⟨hm, ha⟩ := g
  obtain h | h := h
  · simp [h] at hm
  · omega

theorem execXingHold_of_due {s : State} {r o : Fin 20} (hm : s.meso r o = true) (h : 12 ≤ s.ahead r o) :
    exec (.xingHold r o) s = .next ((s.count (R.xingHolds r)).addAhead r o (-4)) :=
  congrArg Host.Outcome.next (if_pos (by simp [hm, h]))

theorem execMarginLow_of_short {s : State} {r : Fin 20} (h : (s.regionDyn r).run < 64) : exec (.marginLow r) s = .next s :=
  congrArg Host.Outcome.next (if_pos h)

/-- The state once a run of 64 swells is counted and logged (R502). -/
def State.noteMargin (s : State) (r : Nat) : State :=
  (((s.setRegionDyn r { s.regionDyn r with run := 0 }).orReg R.clkStatus 4).count (R.marginRuns r)).log_ (srcOf 0x01 r) 0x23 (leBytes 1 r)

theorem State.noteMargin_beat (s : State) (r : Nat) : (s.noteMargin r).beat = s.beat := by
  rw [State.noteMargin, State.log_, State.logFull_eq]
  rfl

theorem execMarginLow_of_run {s : State} {r : Fin 20} (h : 64 ≤ (s.regionDyn r).run) : exec (.marginLow r) s =
    .next ({ s.noteMargin r with pwr := { (s.noteMargin r).pwr with lastMargin := some s.beat.toNat } }.lower [0, 1] false 3) := by
  have run : exec (.marginLow r) s =
      .next ({ s.noteMargin r with pwr := { (s.noteMargin r).pwr with lastMargin := some (s.noteMargin r).beat.toNat } }.lower [0, 1] false 3) :=
    congrArg Host.Outcome.next (if_neg (Nat.not_lt.2 h))
  rw [run, State.noteMargin_beat]

/-! ### Generators and PLLs (R466, R496, R529) -/

theorem execGenFail_eq (s : State) (r : Fin 20) : exec (.genFail r) s = .next (if s.clocked r then s.genSwitch r else s) := rfl

theorem offFrequency_eq_true_iff (m cycles : Nat) :
    offFrequency m cycles = true ↔ 2500 * cycles < 99 * 1024 * m ∨ 101 * 1024 * m < 2500 * cycles := by
  rw [offFrequency, Bool.or_eq_true, decide_eq_true_eq, decide_eq_true_eq, or_comm]

/-- R496: a window of a region without a clock, of one that settles, or within 1 % changes nothing. -/
theorem execGenFreqWindow_of_sound {s : State} {r : Fin 20} (standby : Bool) {cycles : Nat} (h : s.clocked r = false ∨ s.pwr.settling = true
    ∨ offFrequency (profM s.part.fast (s.profView.eff (halfOfRegion r))) cycles = false) : exec (.genFreqWindow r standby cycles) s = .next s := by
  refine congrArg Host.Outcome.next (if_pos ?_)
  obtain h | h | h := h <;> simp [h]

theorem execGenFreqWindow_of_off {s : State} {r : Fin 20} (standby : Bool) {cycles : Nat} (hc : s.clocked r = true) (hs : s.pwr.settling = false)
    (h : offFrequency (profM s.part.fast (s.profView.eff (halfOfRegion r))) cycles = true) : exec (.genFreqWindow r standby cycles) s = .next
      (if standby then (if s.standbyOk r then (s.recordGen (2 * r + 1)).setField (R.regionState r) 4 1 0 else s) else s.genSwitch r) :=
  congrArg Host.Outcome.next (if_neg (by simp [hc, hs, h]))

/-- R529: issue stops as R472 stops it, and the device is lost to its job. -/
theorem State.pllFault_eq {s u : State} (d : Nat) (hu : u = s.cutReports.withdrawAll.cancelRunAheads (fun _ => true)) : s.pllFault d =
    { u with tide := { u.tide with issueStop := true }, job := { u.job with lost := true }, rst := { u.rst with pllFault := true }
             kept := { u.kept with pllFaults := u.kept.pllFaults ++ [d] } } := by
  simp only [State.pllFault, State.stopAsLost, State.stopIssue, ← hu]

/-- A fixed PLL counts once boot is over, the beat PLL once the beat counts. -/
def State.PllWatched (s : State) (d : Nat) : Prop := s.rst.asserted = false ∧ 20 ≤ d ∧ (d ≠ 40 ∧ s.bootStage = 9 ∨ d = 40 ∧ s.beatOn = true)

theorem State.PllWatched_iff (s : State) (d : Nat) :
    s.PllWatched d ↔ (!s.rst.asserted && decide (20 ≤ d) && (if d = 40 then s.beatOn else s.bootStage == 9)) = true := by
  by_cases h : d = 40 <;> simp [State.PllWatched, h, and_assoc]

theorem execFixedPllLoss_of_watched {s : State} {d : Fin 41} (h : s.PllWatched d) : exec (.fixedPllLoss d) s = .next (s.pllFault d) :=
  congrArg Host.Outcome.next (if_pos ((s.PllWatched_iff d).1 h))

theorem execFixedPllLoss_of_not_watched {s : State} {d : Fin 41} (h : ¬ s.PllWatched d) : exec (.fixedPllLoss d) s = .next s :=
  congrArg Host.Outcome.next (if_neg fun g => h ((s.PllWatched_iff d).2 g))

/-- Settles O57, by the laws of each clock event. -/
theorem clockEventsAct : Obligations.ClockEventsAct := by
  unfold Obligations.ClockEventsAct
  intro r o s
  refine ⟨fun gap near warn hnear hwarn => ?_, ?_, fun h => ?_, fun ha hm h => ?_, execMarginLow_of_short, fun u h hu => ?_, fun t ht => ?_, fun d => ?_⟩
  · have neighbours : near = fun u => u.runningNeighbours r := funext hnear
    have warned : ∀ u g, warn u g = u.warned r g := fun u g => by rw [hwarn, neighbours]; rfl
    refine ⟨fun m hm => by rw [hm]; exact s.settles_iff r, execSwell_of_quiet gap, fun hr hs => ?_⟩
    simp only [warned]
    exact ⟨execSwell_of_none_due hr hs, execSwell_of_due_now hr hs, execSwell_of_due_before hr hs⟩
  · intro u hu hwf hne
    have hne' : o.val ≠ r.val := fun h => hne (Fin.ext h.symm)
    have behind : u.ahead r o = s.ahead r o - 1 := by rw [hu, State.addAhead_ahead_swap s 1 hwf hne']
    refine ⟨by rw [hu, State.addAhead_ahead s o r 1 hwf], behind, fun hc => ?_⟩
    have regs : u.regs = s.regs := by rw [hu]; rfl
    rw [State.noteSlip_reg u r o (regs ▸ regsWf_of_canonical hc), behind, State.reg_congr regs]
  · refine execXingHold_of_not_due ?_
    rw [← Bool.not_eq_true, State.meso_eq_true_iff]
    obtain h | ⟨h, hs⟩ | h := h
    · simp [h]
    · simp [h, hs]
    · exact .inr h
  · exact ⟨_, execXingHold_of_due ((s.meso_eq_true_iff r o).2 ⟨ha, hm⟩) h, rfl, fun hwf => (s.count _).addAhead_ahead r o (-4) hwf⟩
  · rw [execMarginLow_of_run h, hu]
    rfl
  · have switched : t = s.genSwitch r := ht
    refine ⟨fun hc => ⟨by rw [execGenFail_eq, hc]; rfl, fun b c => execGenFreqWindow_of_sound b (.inl hc)⟩,
      fun hc => by rw [execGenFail_eq, hc, switched]; rfl, ?_⟩
    rintro b c m rfl
    refine ⟨fun hs => execGenFreqWindow_of_sound b (.inr (.inl hs)), fun lo hi => execGenFreqWindow_of_sound b (.inr (.inr ?_)), fun hc hs off => ?_⟩
    · rw [← Bool.not_eq_true, offFrequency_eq_true_iff]
      omega
    · have off := (offFrequency_eq_true_iff _ c).2 off
      exact ⟨by rw [execGenFreqWindow_of_off false hc hs off, switched]; rfl, execGenFreqWindow_of_off true hc hs off⟩
  · refine ⟨fun h => execFixedPllLoss_of_not_watched ?_, fun u ha hb hd hu => ?_⟩
    · rintro ⟨ha, hd, hb⟩
      obtain h | ⟨hd', h⟩ | ⟨hd', h⟩ | h := h
      · simp [h] at ha
      · simp [hd', h] at hb
      · simp [hd', h] at hb
      · omega
    · rw [execFixedPllLoss_of_watched ⟨ha, hd, hb⟩, State.pllFault_eq d hu]

end Sys2Proof.Machine
end

section
/-!
O51: what step 4 leaves of the registers where the sequencer stops.
-/
namespace Sys2Proof.Machine

/-- A sequencer that stops clears QUEUE_OWN of every core, and leaves the other registers. -/
theorem State.stopTide_regs (s : State) (k : Nat) : (s.stopTide k).regs =
    Sparse.dropKeys (fun j => (List.range 256).any fun c => !([] : List Nat).contains c && (j == R.queueOwnLo c || j == R.queueOwnHi c)) s.regs := rfl

theorem State.stopTide_reg_queueOwnLo (s : State) (k : Nat) (core : Fin 256) :
    (s.stopTide k).reg (R.queueOwnLo core) = regReset (R.queueOwnLo core) := by
  refine Sparse.get_unlisted _ _ _ fun e he hk => ?_
  rw [State.stopTide_regs] at he
  have kept := (List.mem_filter.1 he).2
  rw [hk, Bool.not_eq_true', List.any_eq_false] at kept
  exact kept core (List.mem_range.2 core.isLt) (by simp)

/-- Refutes O51: the clause on a stopping sequencer has every register kept, but QUEUE_OWN of the cores is cleared. In the
counterexample, the state after reset but for one register, entry 0 of queue 0 of core 0 is still owned. -/
theorem not_boundariesOpen : ¬ Obligations.BoundariesOpen := by
  unfold Obligations.BoundariesOpen
  intro h
  obtain ⟨-, -, -, -, -, -, -, -, stops, -⟩ := h { State.reset with regs := [(R.queueOwnLo 0, 1)] }
  obtain ⟨u, hu, -, -, -, -, -, regs⟩ := stops 0
  have cleared := State.stopTide_reg_queueOwnLo { State.reset with regs := [(R.queueOwnLo 0, 1)] } 0 0
  rw [hu, State.reg_congr regs] at cleared
  exact absurd cleared (by decide +kernel)

end Sys2Proof.Machine
end

section
/-!
Issue of descriptors: when the next one of a list is some, the states that its issue and its end leave, and an engine's state after a write
(R73, R149, R240, R306).
-/
namespace Sys2Proof.Machine

/-! ### The next descriptor of a list -/

/-- A descriptor that is next under one description is next under every other that it meets. -/
theorem State.nextDesc_of_pred {s : State} {core num : Nat} {p q : Desc → Bool} {l : DList} {d : Desc} (h : s.nextDesc core num p = some (l, d))
    (hq : q d = true) : s.nextDesc core num q = some (l, d) := by
  unfold State.nextDesc at h ⊢
  split at h
  · cases h
  rename_i hw
  rw [if_neg hw]
  split at h
  next l' hl =>
    obtain ⟨d', hd, hp⟩ := Option.bind_eq_some_iff.1 h
    split at hp
    · cases hp
      simp [hd, hq]
    · cases hp
  next => cases h

theorem State.noIssue_of_nextDesc {s : State} {core num : Nat} {p : Desc → Bool} {x : DList × Desc} (h : s.nextDesc core num p = some x) :
    s.noIssue core = false := by
  cases hn : s.noIssue core with
  | false => rfl
  | true => simp [State.nextDesc, hn] at h

/-- R149: nothing of a core issues while a pass on its array is flagged. -/
theorem State.nextDesc_of_flagged {s : State} {core : Nat} (num : Nat) (p : Desc → Bool) (h : (s.arr core).flagged = true) :
    s.nextDesc core num p = none := by
  simp [State.nextDesc, h]

/-! ### What issue, completion and a counter leave -/

theorem State.issue_frame_refl (s : State) (l : DList) : Frame 0x2800040 s (s.issue l) := State.issue_frame rfl (Frame.refl s)
theorem State.drain_frame_refl (s : State) (r : DescRef) : Frame 0x800000 s (s.drain r) := State.drain_frame rfl (Frame.refl s)

@[simp] theorem State.issue_cores (s : State) (l : DList) : (s.issue l).cores = s.cores := (s.issue_frame_refl l).cores rfl
@[simp] theorem State.issue_job (s : State) (l : DList) : (s.issue l).job = s.job := (s.issue_frame_refl l).job rfl
@[simp] theorem State.issue_tide (s : State) (l : DList) : (s.issue l).tide = s.tide := (s.issue_frame_refl l).tide rfl
@[simp] theorem State.issue_free (s : State) (l : DList) : (s.issue l).free = s.free := (s.issue_frame_refl l).free rfl
@[simp] theorem State.drain_cores (s : State) (r : DescRef) : (s.drain r).cores = s.cores := (s.drain_frame_refl r).cores rfl

theorem State.arr_congr {s t : State} (h : t.cores = s.cores) (c : Nat) : t.arr c = s.arr c := by unfold State.arr; rw [h]

@[simp] theorem State.issue_arr (s : State) (l : DList) (c : Nat) : (s.issue l).arr c = s.arr c := State.arr_congr (s.issue_cores l) c
@[simp] theorem State.drain_arr (s : State) (r : DescRef) (c : Nat) : (s.drain r).arr c = s.arr c := State.arr_congr (s.drain_cores r) c
@[simp] theorem State.count_arr (s : State) (k n c : Nat) : (s.count k n).arr c = s.arr c := rfl

/-- R306: an engine goes on unharmed past a record's copy that is sound. -/
theorem State.checkCopy_of_sound {s : State} {core : Nat} {o : Option Nat} (h : ∀ r, o = some r → s.spoilt (.scale core r) = false) :
    s.checkCopy core o = s := by
  cases o with
  | none => rfl
  | some r => simp [State.checkCopy, h r rfl]

theorem State.issue_spoilt (s : State) (l : DList) (x : Spoil) : (s.issue l).spoilt x = s.spoilt x := by simp [State.spoilt]

theorem State.issue_noIssue (s : State) (l : DList) (core : Nat) : (s.issue l).noIssue core = s.noIssue core := by simp [State.noIssue]

/-! ### An engine's state after a write -/

theorem State.setArr_arr_self {s : State} (core : Nat) (a : ArrCore) (h : Sparse.wf (fun _ => ({} : ArrCore)) s.cores = true) :
    (s.setArr core a).arr core = a := Sparse.get_put_self (fun _ => ({} : ArrCore)) s.cores core a h

theorem State.setArr_arr_ne (s : State) {core c : Nat} (a : ArrCore) (h : c ≠ core) : (s.setArr core a).arr c = s.arr c :=
  Sparse.get_put_ne ({} : ArrCore) {} s.cores a h

theorem State.setArr_cores_wf {s : State} (core : Nat) (a : ArrCore) (h : Sparse.wf (fun _ => ({} : ArrCore)) s.cores = true) :
    Sparse.wf (fun _ => ({} : ArrCore)) (s.setArr core a).cores = true := Sparse.put_wf (fun _ => ({} : ArrCore)) s.cores core a h

end Sys2Proof.Machine
end

section
/-!
O32: the vector operations take the next VOD of their operation, run its vectors and drain (R142, R168, R306).
-/
namespace Sys2Proof.Machine

/-- The vector operations of list `list` of core `core`, each with its OP (Table 4.7). -/
def vodOps (core : Fin 256) (list : Fin 8) : List (Instr × Nat) :=
  [(.vodMov core list, 0x00), (.vodAdd core list, 0x01), (.vodSub core list, 0x02), (.vodMul core list, 0x03), (.vodFma core list, 0x04),
   (.vodMax core list, 0x05), (.vodMin core list, 0x06), (.vodAbs core list, 0x07), (.vodSel core list, 0x08), (.vodRcp core list, 0x09),
   (.vodRsqrt core list, 0x0A), (.vodSqrt core list, 0x0B), (.vodExp core list, 0x0C), (.vodLog core list, 0x0D), (.vodDiv core list, 0x0E),
   (.vodAct core list, 0x0F), (.vodRsum core list, 0x10), (.vodRmax core list, 0x11), (.vodRamax core list, 0x12), (.vodRssq core list, 0x13),
   (.vodRng core list, 0x14)]

theorem exec_of_mem_vodOps {core : Fin 256} {list : Fin 8} (s : State) : ∀ x ∈ vodOps core list, exec x.1 s = .next (s.vod core list x.2) := by
  simp only [vodOps, List.forall_mem_cons, List.not_mem_nil, false_implies, implies_true, and_true]
  and_intros <;> rfl

theorem State.vod_of_next {s : State} {core num op : Nat} {l : DList} {d : Desc}
    (h : s.nextDesc core num (fun d => bits d 0 8 == 3 && bits d 268 6 == op && !(bits d 304 2 == 3)) = some (l, d)) :
    s.vod core num op = if !vodPairsOk d then s.descFault core else (((s.issue l).checkCopy core (s.divRec core d)).vodVectors core d).drain l.ref := by
  have hp : (fun d => dOpcode d == Op.vod && vOp d == op && !fusedVod d) = fun d : Desc => bits d 0 8 == 3 && bits d 268 6 == op && !(bits d 304 2 == 3) := by
    funext d
    show (bits d 0 8 == 3 && bits d 268 6 == op && !(bits d 0 8 == 3 && bits d 304 2 == 3)) = _
    cases bits d 0 8 == 3 <;> rfl
  simp only [State.vod, hp, h]

/-- A VOD whose pairs hold, and whose engine's copy of the record that it divides by is sound. -/
theorem State.vod_of_sound {s : State} {core num op : Nat} {l : DList} {d : Desc}
    (h : s.nextDesc core num (fun d => bits d 0 8 == 3 && bits d 268 6 == op && !(bits d 304 2 == 3)) = some (l, d)) (hp : vodPairsOk d = true)
    (hs : ∀ r, s.divRec core d = some r → s.spoilt (.scale core r) = false) : s.vod core num op = ((s.issue l).vodVectors core d).drain l.ref := by
  rw [State.vod_of_next h, hp, State.checkCopy_of_sound fun r hr => (s.issue_spoilt l _).trans (hs r hr)]
  rfl

theorem State.vodRun_frame (s : State) (l : DList) (core : Nat) (d : Desc) (r : DescRef) :
    Frame 0x110e806040 s (((s.issue l).vodVectors core d).drain r) :=
  State.drain_frame (by decide) (State.vodVectors_frame (by decide) (State.issue_frame (by decide) (Frame.refl s)))

/-- Settles O32: a VOD that is sound runs and drains within the frame of its vectors, and one that fails its pairs is a fault of its core. -/
theorem vectorOpsRun : Obligations.VectorOpsRun := by
  unfold Obligations.VectorOpsRun
  intro core list s l d x hx hnext
  have hexec := exec_of_mem_vodOps s x hx
  refine ⟨fun hp => ?_, fun hp hs => ?_⟩
  · rw [hexec, State.vod_of_next hnext, hp]
    rfl
  · rw [State.vod_of_sound hnext hp hs] at hexec
    exact ⟨hexec, _, hexec, (s.vodRun_frame l core d l.ref).eq⟩

end Sys2Proof.Machine
end

section
/-!
Exact values: their order, and the operations whose result is one of the operands or a limit (R261, R277, R279).
-/
namespace Sys2Proof.Machine

/-! ### Order -/

theorem Val.lt_asymm {a b : Val} (h : a.lt b = true) : b.lt a = false := by
  match a, b with
  | .fin x m e, .fin y n d =>
    simp only [Val.lt, decide_eq_true_eq, decide_eq_false_iff_not] at h ⊢
    rw [Int.min_comm]
    omega
  | .inf x, .inf y | .inf x, .fin _ _ _ | .fin _ _ _, .inf y => simp_all [Val.lt]

theorem Val.ne_nan_of_lt {a b : Val} (h : a.lt b = true) : a ≠ .nan ∧ b ≠ .nan := by
  constructor <;> rintro rfl
  · simp [Val.lt] at h
  · cases a <;> simp [Val.lt] at h

theorem scaled_zero (n : Bool) (e q : Int) : scaled n 0 e q = 0 := by simp [scaled]

theorem shiftLeft_eq_zero_iff (m k : Nat) : m <<< k = 0 ↔ m = 0 := by
  have := Nat.two_pow_pos k
  rw [Nat.shiftLeft_eq, Nat.mul_eq_zero]
  omega

/-- The sign of a magnitude stands whatever place it is counted in. -/
theorem scaled_neg_iff (n : Bool) (m : Nat) (e q : Int) : scaled n m e q < 0 ↔ n = true ∧ m ≠ 0 := by
  have h := shiftLeft_eq_zero_iff m (e - q).toNat
  unfold scaled
  generalize m <<< (e - q).toNat = x at h ⊢
  cases n with
  | false => simp only [Bool.false_eq_true, if_false, false_and, iff_false]; omega
  | true => simp only [if_true, true_and]; omega

theorem scaled_pos_iff (n : Bool) (m : Nat) (e q : Int) : 0 < scaled n m e q ↔ n = false ∧ m ≠ 0 := by
  have h := shiftLeft_eq_zero_iff m (e - q).toNat
  unfold scaled
  generalize m <<< (e - q).toNat = x at h ⊢
  cases n with
  | false => simp only [Bool.false_eq_true, if_false, true_and]; omega
  | true => simp only [if_true, Bool.true_eq_false, false_and, iff_false]; omega

theorem Val.fin_lt_zero (n y : Bool) (m : Nat) (e d : Int) : (Val.fin n m e).lt (.fin y 0 d) = (n && m != 0) := by
  rw [Bool.eq_iff_iff]
  simp [Val.lt, scaled_zero, scaled_neg_iff]

theorem Val.zero_lt_fin (n y : Bool) (m : Nat) (e d : Int) : (Val.fin y 0 d).lt (.fin n m e) = (!n && m != 0) := by
  rw [Bool.eq_iff_iff]
  simp [Val.lt, scaled_zero, scaled_pos_iff]

/-- Zeros of every place and sign are one in the order. -/
theorem Val.lt_zero_place (v : Val) (d : Int) : v.lt (.fin false 0 d) = v.lt (.fin false 0 0) := by
  cases v with
  | fin n m e => rw [Val.fin_lt_zero, Val.fin_lt_zero]
  | _ => rfl

theorem Val.zero_lt_of_not_lt {v : Val} (d : Int) (hn : v ≠ .nan) (hz : v.isZero = false) (h : v.lt (.fin false 0 d) = false) :
    (Val.fin false 0 d).lt v = true := by
  cases v with
  | nan => exact absurd rfl hn
  | inf neg => simpa [Val.lt] using h
  | fin n m e =>
    rw [Val.fin_lt_zero] at h
    rw [Val.zero_lt_fin]
    cases n <;> simp_all [Val.isZero]

theorem Val.isZero_of_lt_zero {v : Val} (h : v.lt (.fin false 0 0) = true) : v.isZero = false := by
  cases v with
  | fin n m e =>
    rw [Val.fin_lt_zero] at h
    simpa [Val.isZero] using (Bool.and_eq_true_iff.1 h).2
  | _ => rfl

theorem wval_zero : wval 0 = .fin false 0 (-149) := by decide +kernel
theorem wval_f32nan : wval f32nan = .nan := by decide +kernel

theorem w32_zero (rm : Rnd) (n : Bool) (e d : Int) : w32 rm (.fin n 0 e) = w32 rm (.fin n 0 d) := by simp only [w32, FloatFmt.round, if_true]

/-! ### The larger and the smaller of two words -/

theorem fmaxOf_of_gt (second : Bool) {a b : Word} (h : (wval b).lt (wval a) = true) : fmaxOf second a b = a := by
  obtain ⟨hb, ha⟩ := Val.ne_nan_of_lt h
  simp [fmaxOf, fgt, h, Val.lt_asymm h, Val.isNan, ha, hb]

theorem fmaxOf_of_lt (second : Bool) {a b : Word} (h : (wval a).lt (wval b) = true) : fmaxOf second a b = b := by
  obtain ⟨ha, hb⟩ := Val.ne_nan_of_lt h
  simp [fmaxOf, fgt, h, Val.isNan, ha, hb]

theorem fmaxOf_of_nan (second : Bool) {a b : Word} (h : wval a = .nan ∨ wval b = .nan) : fmaxOf second a b = f32nan := by
  simp [fmaxOf, Val.isNan, h]

theorem fminOf_of_gt (second : Bool) {a b : Word} (h : (wval b).lt (wval a) = true) : fminOf second a b = b := by
  obtain ⟨hb, ha⟩ := Val.ne_nan_of_lt h
  simp [fminOf, fgt, h, Val.isNan, ha, hb]

theorem fminOf_of_lt (second : Bool) {a b : Word} (h : (wval a).lt (wval b) = true) : fminOf second a b = a := by
  obtain ⟨ha, hb⟩ := Val.ne_nan_of_lt h
  simp [fminOf, fgt, h, Val.lt_asymm h, Val.isNan, ha, hb]

theorem fminOf_of_nan (second : Bool) {a b : Word} (h : wval a = .nan ∨ wval b = .nan) : fminOf second a b = f32nan := by
  simp [fminOf, Val.isNan, h]

/-! ### Results that Table 7.5 leaves exact -/

theorem boundedTo_of_not_finite (n k : Nat) (abs : Option Int) {f : Val} (h : f.finite = false) : boundedTo n k abs f = f := by
  simp [boundedTo, h]

theorem boundedTo_of_isZero (n k : Nat) {f : Val} (h : f.isZero = true) : boundedTo n k none f = f := by
  simp [boundedTo, h]

theorem logFn_of_isZero (n : Nat) {a : Val} (h : a.isZero = true) : logFn n a = .inf true := by simp [logFn, h]

theorem logFn_of_lt_zero (n : Nat) {a : Val} (h : a.lt zeroVal = true) : logFn n a = .nan := by
  simp [logFn, h, Val.isZero_of_lt_zero h]

/-! ### The functions of Table 4.9 -/

theorem actFn_nan (n func : Nat) (slope : Word) {a : Word} (h : wval a = .nan) : actFn n func slope a = .nan := by
  match func with
  | 0 => exact h
  | 1 => exact (congrArg wval (fmaxOf_of_nan _ (.inl h))).trans wval_f32nan
  | 2 | k + 3 => simp [actFn, h, Val.lt]

/-- ReLU of a value that is no zero: zero below it, the value itself above. -/
theorem w32_actFn_relu (rm : Rnd) (n : Nat) (slope : Word) {a : Word} (hn : wval a ≠ .nan) (hz : (wval a).isZero = false) :
    w32 rm (actFn n 1 slope a) = w32 rm (if (wval a).lt (.fin false 0 0) then .fin false 0 0 else wval a) := by
  have hp := Val.lt_zero_place (wval a) (-149)
  show w32 rm (wval (fmaxOf _ a 0)) = _
  cases h : (wval a).lt (.fin false 0 0) with
  | true =>
    rw [fmaxOf_of_lt _ (by rw [wval_zero, hp, h]), wval_zero, if_pos rfl, w32_zero rm false _ 0]
  | false =>
    rw [fmaxOf_of_gt _ (by rw [wval_zero]; exact Val.zero_lt_of_not_lt _ hn hz (hp.trans h)), if_neg Bool.false_ne_true]

theorem actFn_inf (n : Nat) (slope : Word) {func : Nat} {a : Word} {neg : Bool} (h3 : 3 ≤ func) (h : wval a = .inf neg) :
    actFn n func slope a = actLimit n func neg := by
  match func, h3 with
  | k + 3, _ => simp [actFn, h]

theorem actLimit_false (n func : Nat) : actLimit n func false = if func = 6 ∨ func = 7 then .fin false 1 0 else .inf false := by
  unfold actLimit
  split <;> simp_all [oneVal]

end Sys2Proof.Machine
end

section
/-!
The accumulator file and a result written to it (R144, R145).
-/
namespace Sys2Proof.Machine

/-- Words stored at consecutive keys from `base + k` on: what a key from `base` on reads afterwards. -/
theorem Sparse.get_foldl_put_zipIdx (base : Nat) (ws : List Word) (k : Nat) (m : List (Nat × Word)) (hm : Sparse.wf (fun _ => (0 : Word)) m = true) (i : Nat) :
    Sparse.get 0 ((ws.zipIdx k).foldl (fun m (w, i) => Sparse.put 0 m (base + i) w) m) (base + i)
      = if k ≤ i ∧ i < k + ws.length then ws.getD (i - k) 0 else Sparse.get 0 m (base + i) := by
  induction ws generalizing k m with
  | nil => exact (if_neg (by rw [List.length_nil]; omega)).symm
  | cons w ws ih =>
    rw [List.zipIdx_cons, List.foldl_cons, ih (k + 1) _ (Sparse.put_wf (fun _ => (0 : Word)) m (base + k) w hm), List.length_cons]
    obtain hlt | rfl | hgt := Nat.lt_trichotomy i k
    · rw [if_neg (by omega), if_neg (by omega), Sparse.get_put_ne _ _ _ _ (by omega)]
    · rw [if_neg (by omega), if_pos (by omega), Sparse.get_put_self (fun _ => (0 : Word)) m _ w hm, Nat.sub_self]
      rfl
    · obtain ⟨j, rfl⟩ := Nat.exists_eq_add_of_lt hgt
      rw [Sparse.get_put_ne _ _ _ _ (by omega), show k + j + 1 - k = j + 1 by omega, show k + j + 1 - (k + 1) = j by omega, List.getD_cons_succ]
      exact ite_congr (propext (by omega)) (fun _ => rfl) fun _ => rfl

theorem ArrCore.entry_getD (a : ArrCore) (e : Nat) {i : Nat} (hi : i < 64) : (a.entry e).getD i 0 = Sparse.get 0 a.acc (64 * (e % 512) + i) := by
  simp [ArrCore.entry, List.getD, hi]

theorem ArrCore.entry_setEntry_getD {a : ArrCore} (e : Nat) {ws : List Word} {i : Nat} (ha : Sparse.wf (fun _ => (0 : Word)) a.acc = true)
    (hi : i < 64) (hw : i < ws.length) : ((a.setEntry e ws).entry e).getD i 0 = ws.getD i 0 := by
  rw [ArrCore.entry_getD _ _ hi]
  exact (Sparse.get_foldl_put_zipIdx _ ws 0 a.acc ha i).trans (if_pos (by omega))

theorem State.countLosses_cores (s : State) (core f : Nat) (o : Option Nat) (ls : List Loss) : (s.countLosses core f o ls).cores = s.cores :=
  (State.countLosses_frame (ω := 0x8000040) (by decide) (Frame.refl s)).cores rfl

/-- The FP32 words of a vector of results without stochastic rounding, of which the lanes at or beyond `m` are zero (R138). -/
def lanesWritten (m : Nat) (vs : List Val) : List Word :=
  ((vs.zipIdx.map fun (v, j) => if j < m then v else .fin false 0 0).zipIdx.map fun (v, j) => fp32.round (laneRnd none j) v).map fun w => word w.1

theorem lanesWritten_length (m : Nat) (vs : List Val) : (lanesWritten m vs).length = vs.length := by simp [lanesWritten]

theorem lanesWritten_getD {m i : Nat} {vs : List Val} (hm : i < m) (hv : i < vs.length) : (lanesWritten m vs).getD i 0 = w32 .even vs[i] := by
  simp [lanesWritten, List.getD, hv, hm, laneRnd, w32]

/-- A vector of results that goes to an accumulator entry, neither rounded stochastically nor folded into an amax accumulator: only counts change
besides the entry. -/
theorem State.writeResult_toAcc (s : State) (core own k m : Nat) {d : Desc} (vs : List Val) (hsp : vDstSp d = 1) (hsr : vSr d = false)
    (ham : vAmax d = false) : ∃ u : State, u.cores = s.cores ∧
      s.writeResult core own k d m vs = u.setArr core ((s.arr core).setEntry (vDst d + vDstStride d * k) (lanesWritten m vs)) := by
  obtain ⟨ls, h⟩ : ∃ ls, s.writeResult core own k d m vs = (s.countLosses core Fm.fp32 (s.boundRec own d) ls).setArr core
      (((s.countLosses core Fm.fp32 (s.boundRec own d) ls).arr core).setEntry (vDst d + vDstStride d * k) (lanesWritten m vs)) := by
    simp only [State.writeResult, hsp, hsr, ham]
    exact ⟨_, rfl⟩
  rw [State.arr_congr (State.countLosses_cores ..)] at h
  exact ⟨_, State.countLosses_cores .., h⟩

theorem State.writeResult_entry {s : State} (core own k : Nat) {d : Desc} {vs : List Val} {i : Nat} (hsp : vDstSp d = 1) (hsr : vSr d = false)
    (ham : vAmax d = false) (hc : Sparse.wf (fun _ => ({} : ArrCore)) s.cores = true) (ha : Sparse.wf (fun _ => (0 : Word)) (s.arr core).acc = true)
    (hi : i < 64) (hv : i < vs.length) :
    (((s.writeResult core own k d 64 vs).arr core).entry (vDst d + vDstStride d * k)).getD i 0 = w32 .even vs[i] := by
  obtain ⟨u, hu, e⟩ := s.writeResult_toAcc core own k 64 vs hsp hsr ham
  rw [e, State.setArr_arr_self _ _ (hu.symm ▸ hc), ArrCore.entry_setEntry_getD _ ha hi (lanesWritten_length 64 vs ▸ hv), lanesWritten_getD hi hv]

end Sys2Proof.Machine
end

section
/-!
O33: the lanes of an elementwise vector operation (Table 4.7, R142, R277, R279).
-/
namespace Sys2Proof.Machine

/-- Descriptor `d`, next on the list, is an elementwise VOD of one vector that reads and writes the accumulator file alone: no amax accumulator, no
stochastic rounding, no gate. -/
structure LaneVod (core list : Nat) (s : State) (l : DList) (d : Desc) : Prop where
  next : s.nextDesc core list (fun x => x == d) = some (l, d)
  opcode : bits d 0 8 = 3
  pairs : vodPairsOk d = true
  one : vCount d = 1
  srcA : vASp d = 1
  srcB : vBSp d = 1
  srcC : vCSp d = 1
  dst : vDstSp d = 1
  amax : vAmax d = false
  sr : vSr d = false
  gated : vGated d = false
  coresWf : Sparse.wf (fun _ => ({} : ArrCore)) s.cores = true
  accWf : Sparse.wf (fun _ => (0 : Word)) (s.arr core).acc = true

theorem vecOp_of_lane (n : Nat) {op : Nat} (d : Desc) (a b c : List Word) (h : op < 0x10) :
    vecOp n op d a b c = (List.range 64).map fun i => laneOp (n + i) op d (a.getD i 0) (b.getD i 0) (c.getD i 0) := by
  unfold vecOp
  split
  case h_5 => rfl
  all_goals omega

/-- A lane's result depends on the operands that the operation has. -/
theorem laneOp_of_arity (n : Nat) {d : Desc} (a : Word) {b b' c c' : Word} (hb : 2 ≤ opArity d → b' = b) (hc : opArity d = 3 → c' = c) :
    laneOp n (vOp d) d a b' c' = laneOp n (vOp d) d a b c := by
  unfold opArity at hb hc
  unfold laneOp
  split <;> simp_all

theorem State.countSrc_acc (s v : State) (core i : Nat) (d : Desc) (three : Bool) (addr stride : Nat) :
    s.countSrc v core i d three 1 addr stride = s := rfl

theorem State.source_acc_first (s : State) (core : Nat) (d : Desc) (three : Bool) (drain : List Word) (addr stride : Nat) :
    s.source core 0 d three drain 1 addr stride = (s.arr core).entry addr := rfl

/-- Lane `i` of an accumulator entry. -/
abbrev State.accLane (s : State) (core e i : Nat) : Word := ((s.arr core).entry e).getD i 0

/-- Command `x` writes `v`, rounded once, to lane `i` of the entry that a VOD names. -/
def State.LaneGives (s : State) (core : Nat) (d : Desc) (i : Nat) (x : Instr) (v : Val) : Prop :=
  ∃ t : State, exec x s = .next t ∧ t.accLane core (vDst d) i = w32 .even v

section Lanes

variable {core list op : Nat} {s : State} {l : DList} {d : Desc} (h : LaneVod core list s l d)
include h

theorem LaneVod.next_op (ho : vOp d = op) :
    s.nextDesc core list (fun x => bits x 0 8 == 3 && bits x 268 6 == op && !(bits x 304 2 == 3)) = some (l, d) := by
  refine State.nextDesc_of_pred h.next ?_
  have hop : bits d 268 6 = op := ho
  have hsp : bits d 304 2 = 1 := h.srcA
  rw [h.opcode, hop, hsp]
  simp

/-- No record's scale divides the result. -/
theorem LaneVod.divRec_eq : s.divRec core d = none := by
  simp [State.divRec, State.boundRec, h.amax]

theorem LaneVod.vod_eq (ho : vOp d = op) : s.vod core list op = ((s.issue l).vodVector core core d 64 0 []).drain l.ref := by
  rw [State.vod_of_sound (h.next_op ho) h.pairs (by simp [h.divRec_eq]), State.vodVectors, h.one]
  rfl

theorem LaneVod.vod_lane (ho : vOp d = op) (hop : op < 0x10) {i : Nat} (hi : i < 64) : (s.vod core list op).accLane core (vDst d) i = w32 .even
    (laneOp (s.free + i) op d (s.accLane core (vSrcA d) i) (s.accLane core (vSrcB d) i) (s.accLane core (vSrcC d) i)) := by
  subst ho
  rw [h.vod_eq rfl, State.accLane, State.drain_arr]
  simp only [State.vodVector, h.srcA, h.srcB, h.srcC, State.countSrc_acc, State.source_acc_first, State.issue_arr, ite_self]
  rw [if_neg (by omega), vecOp_of_lane _ _ _ _ _ hop]
  refine (State.writeResult_entry (s := s.issue l) core core 0 h.dst h.sr h.amax ?_ ?_ hi ?_).trans ?_
  · simpa using h.coresWf
  · simpa using h.accWf
  · simpa using hi
  · rw [List.getElem_map, List.getElem_range, State.issue_free]
    refine congrArg (w32 .even) (laneOp_of_arity _ _ (fun h2 => ?_) fun h3 => ?_)
    · rw [if_pos h2]
    · rw [if_pos (by simpa using h3)]

end Lanes

section Operations

variable {core : Fin 256} {list : Fin 8} {s : State} {l : DList} {d : Desc} {i : Nat} (h : LaneVod core list s l d) (hi : i < 64)
include h hi

/-- An operation gives `v` where its exact result rounds as `v` does, whatever free value it is offered. -/
theorem LaneVod.gives {x : Instr} {op : Nat} {v : Val} (ho : vOp d = op)
    (hv : ∀ n, w32 .even (laneOp n op d (s.accLane core (vSrcA d) i) (s.accLane core (vSrcB d) i) (s.accLane core (vSrcC d) i)) = w32 .even v)
    (hop : op < 0x10 := by decide) (hx : (vodOps core list)[op]? = some (x, op) := by rfl) : s.LaneGives core d i x v :=
  ⟨_, exec_of_mem_vodOps s (x, op) (List.mem_of_getElem? hx), (h.vod_lane ho hop hi).trans (hv _)⟩

theorem LaneVod.max_gives (ho : vOp d = 0x05) :
    let a := wval (s.accLane core (vSrcA d) i)
    let b := wval (s.accLane core (vSrcB d) i)
    (b.lt a = true → s.LaneGives core d i (.vodMax core list) a) ∧ (a.lt b = true → s.LaneGives core d i (.vodMax core list) b)
      ∧ (a = .nan ∨ b = .nan → s.LaneGives core d i (.vodMax core list) .nan) := by
  refine ⟨fun hlt => h.gives hi ho fun n => ?_, fun hlt => h.gives hi ho fun n => ?_, fun hn => h.gives hi ho fun n => ?_⟩
  · exact congrArg (fun w => w32 .even (wval w)) (fmaxOf_of_gt _ hlt)
  · exact congrArg (fun w => w32 .even (wval w)) (fmaxOf_of_lt _ hlt)
  · exact congrArg (w32 .even) ((congrArg wval (fmaxOf_of_nan _ hn)).trans wval_f32nan)

theorem LaneVod.min_gives (ho : vOp d = 0x06) :
    let a := wval (s.accLane core (vSrcA d) i)
    let b := wval (s.accLane core (vSrcB d) i)
    (b.lt a = true → s.LaneGives core d i (.vodMin core list) b) ∧ (a.lt b = true → s.LaneGives core d i (.vodMin core list) a)
      ∧ (a = .nan ∨ b = .nan → s.LaneGives core d i (.vodMin core list) .nan) := by
  refine ⟨fun hlt => h.gives hi ho fun n => ?_, fun hlt => h.gives hi ho fun n => ?_, fun hn => h.gives hi ho fun n => ?_⟩
  · exact congrArg (fun w => w32 .even (wval w)) (fminOf_of_gt _ hlt)
  · exact congrArg (fun w => w32 .even (wval w)) (fminOf_of_lt _ hlt)
  · exact congrArg (w32 .even) ((congrArg wval (fminOf_of_nan _ hn)).trans wval_f32nan)

/-- The reciprocal, at the operands of which it is exact. -/
theorem LaneVod.rcp_gives (ho : vOp d = 0x09) {f : Val} (ha : oneVal.div (wval (s.accLane core (vSrcA d) i)) = f)
    (hf : f.finite = false ∨ f.isZero = true) : s.LaneGives core d i (.vodRcp core list) f :=
  h.gives hi ho fun n => congrArg (w32 .even) (by
    show boundedTo n 1 none _ = f
    rw [ha]
    exact hf.elim (boundedTo_of_not_finite _ _ _) (boundedTo_of_isZero _ _))

theorem LaneVod.rsqrt_gives (ho : vOp d = 0x0A) {f : Val} (ha : rsqrtVal (wval (s.accLane core (vSrcA d) i)) = f) (hf : f.finite = false) :
    s.LaneGives core d i (.vodRsqrt core list) f :=
  h.gives hi ho fun n => congrArg (w32 .even) (by
    show boundedTo n 1 none _ = f
    rw [ha]
    exact boundedTo_of_not_finite _ _ _ hf)

/-- An ungated ACT gives what its function does. -/
theorem LaneVod.act_gives (ho : vOp d = 0x0F) {v : Val} (hv : ∀ n, w32 .even (actFn n (vFunc d) (vImm d) (s.accLane core (vSrcA d) i)) = w32 .even v) :
    s.LaneGives core d i (.vodAct core list) v :=
  h.gives hi ho fun n => by
    show w32 .even (if vGated d then _ else _) = _
    rw [h.gated]
    exact hv n

theorem LaneVod.relu_gives (ho : vOp d = 0x0F) (hf : vFunc d = 1) (hn : wval (s.accLane core (vSrcA d) i) ≠ .nan)
    (hz : (wval (s.accLane core (vSrcA d) i)).isZero = false) : s.LaneGives core d i (.vodAct core list)
      (if (wval (s.accLane core (vSrcA d) i)).lt (.fin false 0 0) then .fin false 0 0 else wval (s.accLane core (vSrcA d) i)) :=
  h.act_gives hi ho fun n => by rw [hf, w32_actFn_relu .even n _ hn hz]

/-- The limit at an infinity of a function from 3 on (Table 4.9), where it is fixed. -/
theorem LaneVod.act_limit_gives (ho : vOp d = 0x0F) (h3 : 3 ≤ vFunc d) {neg : Bool} {v : Val} (ha : wval (s.accLane core (vSrcA d) i) = .inf neg)
    (hv : ∀ n, actLimit n (vFunc d) neg = v) : s.LaneGives core d i (.vodAct core list) v :=
  h.act_gives hi ho fun n => congrArg (w32 .even) ((actFn_inf n _ h3 ha).trans (hv n))

end Operations

/-- Settles O33: the lane is the operation's exact result, which is the value stated for each operation and its operands. -/
theorem vectorLanesCompute : Obligations.VectorLanesCompute := by
  unfold Obligations.VectorLanesCompute
  intro core list s l d i hi hkind hp h1 hA hB hC hD ham hsr hg hnext hcw haw at_ a b c gives
  have h : LaneVod core list s l d := ⟨hnext, hkind, hp, h1, hA, hB, hC, hD, ham, hsr, hg, hcw, haw⟩
  refine ⟨fun ho => h.gives hi ho fun n => rfl, fun ho => h.gives hi ho fun n => rfl, fun ho => h.gives hi ho fun n => rfl,
    fun ho => h.gives hi ho fun n => rfl, fun ho => h.gives hi ho fun n => rfl, h.max_gives hi, h.min_gives hi,
    fun ho => h.gives hi ho fun n => rfl, fun ho => h.gives hi ho fun n => rfl, fun ho => ?rcp, fun ho => ?rsqrt,
    fun ho => h.gives hi ho fun n => rfl, fun ho => ?exp, fun ho => ?log, fun ho => h.gives hi ho fun n => rfl, fun ho => ?act⟩
  case rcp =>
    refine ⟨fun ha => h.rcp_gives hi ho (congrArg oneVal.div ha) (.inl rfl), fun n ha => h.rcp_gives hi ho ?_ (.inr rfl),
      fun n e ha => h.rcp_gives hi ho ?_ (.inl rfl)⟩
    · exact (congrArg oneVal.div ha).trans (by cases n <;> rfl)
    · exact (congrArg oneVal.div ha).trans (by cases n <;> rfl)
  case rsqrt =>
    refine ⟨fun ha => ?_, fun n e ha => h.rsqrt_gives hi ho (congrArg rsqrtVal ha) rfl⟩
    obtain ha | ha := ha <;> exact h.rsqrt_gives hi ho (congrArg rsqrtVal ha) rfl
  case exp =>
    refine ⟨fun ha => h.gives hi ho fun n => ?_, fun ha => h.gives hi ho fun n => ?_, fun ha => h.gives hi ho fun n => ?_⟩
    · exact congrArg (w32 .even) ((congrArg (expFn n) ha).trans ha.symm)
    · exact congrArg (fun v => w32 .even (expFn n v)) ha
    · exact congrArg (fun v => w32 .even (expFn n v)) ha
  case log =>
    exact ⟨fun hz => h.gives hi ho fun n => congrArg (w32 .even) (logFn_of_isZero n hz),
      fun hl => h.gives hi ho fun n => congrArg (w32 .even) (logFn_of_lt_zero n hl)⟩
  case act =>
    refine ⟨fun hf => h.act_gives hi ho fun n => by rw [hf]; rfl, fun hf hn hz => h.relu_gives hi ho hf hn hz,
      fun hf => h.act_gives hi ho fun n => by rw [hf]; rfl, fun ha => h.act_gives hi ho fun n => congrArg (w32 .even) (actFn_nan n _ _ ha),
      fun h3 _ ha => h.act_limit_gives hi ho h3 ha fun n => actLimit_false n _, fun ha => ⟨fun hf => ?_, fun hf => ?_⟩⟩
    · exact h.act_limit_gives hi ho (by omega) ha fun n => by obtain hf | hf := hf <;> rw [hf] <;> rfl
    · exact h.act_limit_gives hi ho (by omega) ha fun n => by rw [hf]; rfl

end Sys2Proof.Machine
end

section
/-!
Registers that counts leave alone, and an array that loads a tile or checks a vector (R128 to R130, R146, R299).
-/
namespace Sys2Proof.Machine

/-! ### Counts -/

theorem State.count_reg_ne (s : State) {k j : Nat} (n : Nat) (h : j ≠ k) : (s.count k n).reg j = s.reg j := s.setReg_reg_ne k j _ h

theorem State.count_reg_self {s : State} (k n : Nat) (h : Sparse.wf regReset s.regs = true) : (s.count k n).reg k = satAdd (s.reg k) n :=
  s.setReg_reg_self k _ h

theorem State.setArr_reg (s : State) (core : Nat) (a : ArrCore) (k : Nat) : (s.setArr core a).reg k = s.reg k := rfl

theorem State.drain_reg (s : State) (r : DescRef) (k : Nat) : (s.drain r).reg k = s.reg k := State.reg_congr ((s.drain_frame_refl r).regs rfl) k

/-- R242: of the registers an issue counts in LIST_SWITCHES alone. -/
theorem State.issue_reg (s : State) (l : DList) {k : Nat} (h : k ≠ R.listSwitches l.core) : (s.issue l).reg k = s.reg k := by
  simp only [State.issue]
  show (if _ then s.count _ else s).reg k = _
  split
  · exact s.count_reg_ne 1 h
  · rfl

/-- R293: of the registers a conversion's losses count in NONFIN_VALUES alone. -/
theorem State.countLoss_reg (s : State) (core f : Nat) (o : Option Nat) (x : Loss) {k : Nat} (h : k ≠ R.nonfinValues) :
    (s.countLoss core f o x).reg k = s.reg k := by
  unfold State.countLoss
  dsimp only
  split
  · rfl
  · split
    · exact (State.count_reg_ne _ 1 h).trans (by cases o <;> rfl)
    · cases o <;> rfl

theorem State.countLosses_reg (s : State) (core f : Nat) (o : Option Nat) (ls : List Loss) {k : Nat} (h : k ≠ R.nonfinValues) :
    (s.countLosses core f o ls).reg k = s.reg k :=
  foldl_keeps (P := fun t : State => t.reg k = s.reg k) (fun t x ht => (t.countLoss_reg core f o x h).trans ht) rfl

theorem State.countElems_reg (s : State) (core f : Nat) (codes scales : List Nat) {k : Nat} (h : k ≠ R.nonfinValues) :
    (s.countElems core f codes scales).reg k = s.reg k := by
  unfold State.countElems
  split
  · rfl
  · exact s.countLosses_reg _ _ _ _ h

/-! ### The tile -/

theorem State.putTile_arr_self {s : State} (core cycles : Nat) (t : Tile) (h : Sparse.wf (fun _ => ({} : ArrCore)) s.cores = true) :
    (s.putTile core cycles t).arr core = { s.arr core with tile := some t } := by
  rw [State.putTile, State.arr_congr (State.countLosses_cores ..), State.count_arr, State.setArr_arr_self _ _ h]

theorem State.putTile_arr_ne (s : State) {core c : Nat} (cycles : Nat) (t : Tile) (h : c ≠ core) : (s.putTile core cycles t).arr c = s.arr c := by
  rw [State.putTile, State.arr_congr (State.countLosses_cores ..), State.count_arr, State.setArr_arr_ne _ _ h]

/-- A load's cycles count in LOAD_CYCLES. -/
theorem State.putTile_loadCycles {s : State} (core cycles : Nat) (t : Tile) (h : Sparse.wf regReset s.regs = true) :
    (s.putTile core cycles t).reg (R.loadCycles core) = satAdd (s.reg (R.loadCycles core)) cycles :=
  (State.countLosses_reg _ _ _ _ _ (by simp only [R.loadCycles, R.nonfinValues, blk]; omega)).trans (State.count_reg_self _ _ h)

/-! ### The check -/

/-- A vector's check reads CTRL of its array and the row maps. -/
theorem State.vecFails_congr {s u : State} {core : Nat} (hc : u.reg (R.arrayCtrl core) = s.reg (R.arrayCtrl core))
    (hm : ∀ c, u.reg (R.rowMap c) = s.reg (R.rowMap c)) (t : Tile) (p : PassRun) (n : Nat) (data scales : List Byte) (bad : List (Nat × Nat × Word)) :
    u.vecFails core t p n data scales bad = s.vecFails core t p n data scales bad := by
  simp only [State.vecFails, State.checked, State.checkFails, State.tolerance, State.field, hc, hm]

/-- The counts of a retry's segment (R151) lie in other registers than a check reads. -/
theorem State.retryCost_reg (s : State) (core n : Nat) {k : Nat} (h : k = R.arrayCtrl core ∨ ∃ c, k = R.rowMap c) :
    (s.retryCost core n).reg k = s.reg k := by
  have hne : k ≠ R.coldStarts core ∧ k ≠ R.coreStall core ∧ k ≠ R.retryCycles core := by
    obtain rfl | ⟨c, rfl⟩ := h <;> simp only [R.arrayCtrl, R.rowMap, R.coldStarts, R.coreStall, R.retryCycles, blk] <;> omega
  obtain ⟨cold, stall, retry⟩ := hne
  rw [State.retryCost, State.count_reg_ne _ 1 cold, State.retryCycles, State.setArr_reg, State.count_reg_ne _ n stall, State.count_reg_ne _ n retry]

/-- So do those of a vector that enters the array. -/
theorem State.enterVec_reg (s : State) (core : Nat) (p : PassRun) (data scales : List Byte) {k : Nat} (h : k = R.arrayCtrl core ∨ ∃ c, k = R.rowMap c) :
    (s.enterVec core p data scales).reg k = s.reg k := by
  have hne : k ≠ R.vectorCycles core ∧ k ≠ R.nonfinValues := by
    obtain rfl | ⟨c, rfl⟩ := h <;> simp only [R.arrayCtrl, R.rowMap, R.vectorCycles, R.nonfinValues, blk] <;> omega
  rw [State.enterVec, State.countElems_reg _ _ _ _ _ hne.2, State.count_reg_ne _ _ hne.1]

theorem State.vecFails_retrySegment (s : State) (core n : Nat) (t : Tile) (p : PassRun) (v : Nat) (x y : List Byte × List Byte)
    (bad : List (Nat × Nat × Word)) :
    ((s.retryCost core n).enterVec core p x.1 x.2).vecFails core t p v y.1 y.2 bad = s.vecFails core t p v y.1 y.2 bad := by
  have kept : ∀ k, k = R.arrayCtrl core ∨ (∃ c, k = R.rowMap c) → ((s.retryCost core n).enterVec core p x.1 x.2).reg k = s.reg k := fun k hk =>
    (State.enterVec_reg _ core p _ _ hk).trans (s.retryCost_reg core n hk)
  exact State.vecFails_congr (kept _ (.inl rfl)) (fun c => kept _ (.inr ⟨c, rfl⟩)) t p v _ _ bad

end Sys2Proof.Machine
end

section
/-!
O35: SLD and APD at issue, and the retry of a flagged pass (R128 to R130, R140, R148 to R151, R306).
-/
namespace Sys2Proof.Machine

theorem ArrCore.flagged_iff (a : ArrCore) : a.flagged = true ↔ ∃ p ∈ a.passes, p.flag ≠ none := by
  simp [ArrCore.flagged, Option.isSome_iff_ne_none]

theorem State.noIssue_iff (s : State) (core : Nat) : s.noIssue core = true ↔ s.tide.issueStop = true ∨ core ∈ s.tide.faults := by
  simp [State.noIssue]

theorem State.mem_faults_descFault (s : State) (core : Nat) : core ∈ (s.descFault core).tide.faults := by
  unfold State.descFault
  split
  · rename_i h
    simpa using h
  · simp

/-! ### SLD -/

section Sld

variable {s : State} {core num : Nat} {l : DList} {d : Desc} (h : s.nextDesc core num (fun d => bits d 0 8 == 1) = some (l, d))
include h

theorem State.sld_of_next : s.sld core num = if !(s.arr core).passes.isEmpty then s else if !sldPairsOk d then s.descFault core else
    ((((s.issue l).checkCopy core (scaleRef (lScale d))).setArr core { s.arr core with ran := false }).putTile core
      (if lQuad d then 128 else if lTrans d && !(s.arr core).ran then 128 else 64) (s.loadTile core d)).drain l.ref := by
  have hp : s.nextDesc core num (fun d => dOpcode d == Op.sld) = some (l, d) := h
  simp only [State.sld, hp]

/-- An SLD that loads its tile, of a sound scale. -/
theorem State.sld_of_load (he : (s.arr core).passes = []) (hp : sldPairsOk d = true)
    (hs : ∀ r, scaleRef (lScale d) = some r → s.spoilt (.scale core r) = false) :
    s.sld core num = (((s.issue l).setArr core { s.arr core with ran := false }).putTile core
      (if lQuad d = true ∨ (lTrans d = true ∧ (s.arr core).ran = false) then 128 else 64) (s.loadTile core d)).drain l.ref := by
  rw [State.sld_of_next h, he, hp, State.checkCopy_of_sound fun r hr => (s.issue_spoilt l _).trans (hs r hr)]
  have cycles : (if lQuad d then 128 else if lTrans d && !(s.arr core).ran then 128 else 64)
      = if lQuad d = true ∨ (lTrans d = true ∧ (s.arr core).ran = false) then 128 else 64 := by
    cases lQuad d <;> simp
  rw [cycles]
  rfl

end Sld

theorem State.loaded_frame (s : State) (l : DList) (core n : Nat) (a : ArrCore) (t : Tile) (r : DescRef) :
    Frame 0xe800040 s ((((s.issue l).setArr core a).putTile core n t).drain r) :=
  State.drain_frame (by decide) (State.putTile_frame (by decide) (State.setArr_frame (by decide) (State.issue_frame (by decide) (Frame.refl s))))

/-- LOAD_CYCLES lies in another block than LIST_SWITCHES. -/
theorem loadCycles_ne_listSwitches (core : Fin 256) (c : Nat) : R.loadCycles core ≠ R.listSwitches c := by
  have := core.isLt
  simp only [R.loadCycles, R.listSwitches, blk]
  omega

theorem State.loaded_loadCycles {s : State} (l : DList) (core : Fin 256) (n : Nat) (a : ArrCore) (t : Tile) (r : DescRef)
    (h : Sparse.wf regReset s.regs = true) :
    ((((s.issue l).setArr core a).putTile core n t).drain r).reg (R.loadCycles core) = satAdd (s.reg (R.loadCycles core)) n := by
  rw [State.drain_reg, State.putTile_loadCycles (s := (s.issue l).setArr core a) _ _ _ ((s.issue_frame_refl l).regsWf h),
    State.setArr_reg, State.issue_reg _ _ (loadCycles_ne_listSwitches core _)]

theorem State.loaded_arr_self {s : State} (l : DList) (core n : Nat) (a : ArrCore) (t : Tile) (r : DescRef)
    (h : Sparse.wf (fun _ => ({} : ArrCore)) s.cores = true) :
    ((((s.issue l).setArr core a).putTile core n t).drain r).arr core = { a with tile := some t } := by
  have hi : Sparse.wf (fun _ => ({} : ArrCore)) (s.issue l).cores = true := (s.issue_cores l).symm ▸ h
  rw [State.drain_arr, State.putTile_arr_self _ _ _ (State.setArr_cores_wf _ _ hi), State.setArr_arr_self _ _ hi]

theorem State.loaded_arr_ne (s : State) (l : DList) {core c : Nat} (n : Nat) (a : ArrCore) (t : Tile) (r : DescRef) (h : c ≠ core) :
    ((((s.issue l).setArr core a).putTile core n t).drain r).arr c = s.arr c := by
  rw [State.drain_arr, State.putTile_arr_ne _ _ _ h, State.setArr_arr_ne _ _ h, State.issue_arr]

/-! ### APD -/

@[simp] theorem State.issueNext_none (s : State) (core num : Nat) : s.issueNext core num none = s := rfl
@[simp] theorem State.openPush_none (s : State) (core : Nat) (quad : Bool) : s.openPush core none quad = s := rfl
@[simp] theorem State.checkCopy_none (s : State) (core : Nat) : s.checkCopy core none = s := rfl

section Apd

variable {s : State} {core num : Nat} {l : DList} {d : Desc} (h : s.nextDesc core num (fun d => bits d 0 8 == 2) = some (l, d))
include h

theorem State.apd_of_bad_pairs (cold : Bool) (bad : List (Nat × Nat × Word)) (hp : apdPairsOk d = false) : s.apd core num cold bad = s.descFault core := by
  have hn : s.nextDesc core num (fun d => dOpcode d == Op.apd) = some (l, d) := h
  simp [State.apd, hn, hp]

/-- An APD of a sound scale to which nothing is fused, the first pass of its array. -/
theorem State.apd_of_alone {cold : Bool} {bad : List (Nat × Nat × Word)} {p : PassRun} (hp : apdPairsOk d = true) (he : (s.arr core).passes = [])
    (hf : l.fused l.issued = (none, none)) (hs : ∀ r, scaleRef (aScale d) = some r → s.spoilt (.scale core r) = false)
    (hpass : p = { own := l.ref, desc := d, wscale := s.resolveScale core (aScale d), vod := none, push := none, bad, cold := cold && decide (aK d ≠ 0) }) :
    s.apd core num cold bad = if aM d = 0 ∨ aN d = 0 then (s.issue l).noPass core p
      else ((s.issue l).setArr core { s.arr core with passes := [p] }).reelGo core := by
  have hn : s.nextDesc core num (fun d => dOpcode d == Op.apd) = some (l, d) := h
  have hk : (cold && aK d != 0) = (cold && decide (aK d ≠ 0)) := by
    rw [Bool.eq_iff_iff]
    simp
  have hi : (s.issue l).noIssue core = false := (s.issue_noIssue l core).trans (State.noIssue_of_nextDesc h)
  have hc : (s.issue l).checkCopy core (scaleRef (aScale d)) = s.issue l := State.checkCopy_of_sound fun r hr => (s.issue_spoilt l _).trans (hs r hr)
  subst hpass
  simp [State.apd, hn, hp, hf, hk, hc, hi, he]

end Apd

/-! ### The retry -/

theorem ArrCore.retryReady_iff (a : ArrCore) : a.retryReady = true ↔ (∃ p ∈ a.passes, p.flag ≠ none) ∧ ∀ p ∈ a.passes, p.taken = bits p.desc 416 32 := by
  rw [ArrCore.retryReady, Bool.and_eq_true, ArrCore.flagged_iff]
  simp [aN]

theorem execArrayRetry_of_not_ready {core : Fin 256} (lf : List Half) (r1 r2 : List (Fin 4 × Nat × Fin 130 × Word)) (f : List (Fin 130)) {s : State}
    (h : ¬ ((s.arr core).retryReady = true ∧ s.noIssue core = false)) : exec (.arrayRetry core lf r1 r2 f) s = .next s :=
  if_neg (by simpa using h)

/-- The one flagged pass of an array is retried. -/
theorem execArrayRetry_of_single {core : Fin 256} (lf : List Half) (r1 r2 : List (Fin 4 × Nat × Fin 130 × Word)) (f : List (Fin 130)) {s : State} {p : PassRun}
    {v0 : Nat} (hp : (s.arr core).passes = [p]) (hv : p.flag = some v0) (ht : p.taken = bits p.desc 416 32) (hn : s.noIssue core = false) :
    exec (.arrayRetry core lf r1 r2 f) s
      = .next ((s.retryPass core (lf.headD 0).toNat p (ofPass r1 0) (ofPass r2 0) (sortDedup (f.map (·.val)))).reelGo core) := by
  have hr : (s.arr core).retryReady = true := (ArrCore.retryReady_iff _).2 (by simp [hp, hv, ht])
  have hl : latencyOf lf 0 = (lf.headD 0).toNat := by cases lf <;> rfl
  show execArrayRetry core lf r1 r2 f s = _
  simp [execArrayRetry, hr, hn, hp, hv, hl]

theorem sortDedup_pair {a b : Nat} (h : a < b) : sortDedup [a, b] = [a, b] := by
  simp [sortDedup, insertRising, Nat.lt_asymm h, Nat.ne_of_gt h]

/-- R150: a retry whose first segment fails its check, and whose self-test finds two faulty rows, is a core fault. -/
theorem State.retryPass_fault {s : State} {core lf : Nat} {p : PassRun} {run1 run2 : List (Nat × Nat × Word)} {t : Tile} {v0 x y : Nat}
    {faulty : List Nat} (ht : (s.arr core).tile = some t) (hv : p.flag = some v0) (hn : s.noIssue core = false)
    (hf : s.vecFails core t p v0 (s.passVec core p v0).1 (s.passVec core p v0).2 run1 = true) :
    core ∈ (s.retryPass core lf p run1 run2 (x :: y :: faulty)).tide.faults := by
  have again := State.vecFails_retrySegment s core (lf + 145) t p v0 (s.passVec core p v0) (s.passVec core p v0) run1
  rw [hf] at again
  simp only [State.retryPass, ht, hv, hn, again]
  exact State.mem_faults_descFault _ core

/-- Settles O35: SLD and APD by what stands next, the retry by what its one pass finds. -/
theorem arrayActs : Obligations.ArrayActs := by
  unfold Obligations.ArrayActs
  refine ⟨fun core list s l d => ⟨fun h => ⟨fun hne => ?sldWaits, fun he hp => ?sldPairs, fun he hp hs hwf hcan => ?sldLoads⟩,
    fun cold bad h => ⟨fun he hp => ?apdPairs, fun he hp hf hs p hpass => ⟨fun h0 => ?apdNoop, fun hm hn => ?apdJoins⟩⟩,
    fun cold bad hfl => ?flagged, fun lf r1 r2 f hno => ?notReady⟩, fun core lf r1 r2 f s p v0 hpasses hv ht hstop hfaults => ?retry⟩
  case sldWaits =>
    refine congrArg Host.Outcome.next ?_
    rw [State.sld_of_next h, if_pos (by simpa using hne)]
  case sldPairs =>
    refine congrArg Host.Outcome.next ?_
    rw [State.sld_of_next h, if_neg (by simp [he]), if_pos (by simp [hp])]
  case sldLoads =>
    exact ⟨_, congrArg Host.Outcome.next (State.sld_of_load h he hp hs), (s.loaded_frame l core _ _ _ _).eq, State.loaded_arr_self l core _ _ _ _ hwf,
      fun c hc => s.loaded_arr_ne l _ _ _ _ hc, State.loaded_loadCycles l core _ _ _ _ (regsWf_of_canonical hcan)⟩
  case apdPairs => exact congrArg Host.Outcome.next (State.apd_of_bad_pairs h cold _ hp)
  case apdNoop => exact congrArg Host.Outcome.next ((State.apd_of_alone h hp he hf hs hpass).trans (if_pos h0))
  case apdJoins => exact congrArg Host.Outcome.next ((State.apd_of_alone h hp he hf hs hpass).trans (if_neg (by simp [hm, hn])))
  case flagged =>
    have none_next := fun q => State.nextDesc_of_flagged (s := s) list.val q ((ArrCore.flagged_iff _).2 hfl)
    exact ⟨congrArg Host.Outcome.next (by simp [State.sld, none_next]), congrArg Host.Outcome.next (by simp [State.apd, none_next])⟩
  case notReady =>
    refine execArrayRetry_of_not_ready lf r1 r2 f fun ⟨ready, issues⟩ => ?_
    obtain ⟨⟨p, hp, flag⟩, taken⟩ := (ArrCore.retryReady_iff _).1 ready
    rw [← Bool.not_eq_true, State.noIssue_iff] at issues
    obtain unflagged | ⟨q, hq, untaken⟩ | stopped := hno
    · exact flag (unflagged p hp)
    · exact untaken (taken q hq)
    · exact issues stopped
  case retry =>
    have hn : s.noIssue core = false := by
      rw [← Bool.not_eq_true, State.noIssue_iff, hstop]
      simpa using hfaults
    refine ⟨execArrayRetry_of_single lf r1 r2 f hpasses hv ht hn, fun t htile hfails a b hab hf => ?_⟩
    rw [hf, List.map_cons, List.map_cons, List.map_nil, sortDedup_pair hab]
    exact State.retryPass_fault htile hv hn hfails

end Sys2Proof.Machine
end

section
/-!
Two writes to one key of a sparse map.
-/
namespace Sys2Proof.Machine

section Put

variable {α : Type} {m : List (Nat × α)} {i : Nat}

theorem Sparse.erase_of_below (h : ∀ e ∈ m, i < e.1) : Sparse.erase m i = m := by
  induction m with
  | nil => rfl
  | cons x t ih =>
    have hi : i < x.1 := h x (by simp)
    rw [Sparse.erase, if_neg (by omega), ih fun e he => h e (by simp [he])]

theorem Sparse.insert_of_below (v : α) (h : ∀ e ∈ m, i < e.1) : Sparse.insert m i v = (i, v) :: m := by
  cases m with
  | nil => rfl
  | cons x t => rw [Sparse.insert, if_pos (h x (by simp))]

theorem Sparse.put_of_below [DecidableEq α] (d v : α) (h : ∀ e ∈ m, i < e.1) : Sparse.put d m i v = if v = d then m else (i, v) :: m := by
  rw [Sparse.put, Sparse.erase_of_below h, Sparse.insert_of_below v h]

theorem Sparse.put_front [DecidableEq α] (d u v : α) (h : ∀ e ∈ m, i < e.1) : Sparse.put d ((i, u) :: m) i v = Sparse.put d m i v := by
  rw [Sparse.put_of_below d v h]
  simp [Sparse.put, Sparse.erase, Sparse.insert]

theorem Sparse.put_cons_of_above [DecidableEq α] (d : α) {k : Nat} (u v : α) (h : k < i) :
    Sparse.put d ((k, u) :: m) i v = (k, u) :: Sparse.put d m i v := by
  have hk : ¬ i < k := by omega
  have hne : i ≠ k := by omega
  simp only [Sparse.put, Sparse.erase, Sparse.insert, if_neg hk, if_neg hne]
  split <;> rfl

/-- Of two writes to one key the second stands, where the keys rise. -/
theorem Sparse.put_put [DecidableEq α] (d v w : α) (h : m.Pairwise fun x y => x.1 < y.1) :
    Sparse.put d (Sparse.put d m i v) i w = Sparse.put d m i w := by
  have below (t : List (Nat × α)) (ht : ∀ e ∈ t, i < e.1) : Sparse.put d (Sparse.put d t i v) i w = Sparse.put d t i w := by
    rw [Sparse.put_of_below d v ht]
    split
    · rfl
    · exact Sparse.put_front d v w ht
  induction m with
  | nil => exact below [] (by simp)
  | cons x t ih =>
    obtain ⟨k, u⟩ := x
    obtain ⟨first, rest⟩ := List.pairwise_cons.1 h
    obtain hlt | rfl | hgt := Nat.lt_trichotomy i k
    · refine below _ fun e he => ?_
      obtain rfl | he := List.mem_cons.1 he
      · exact hlt
      · exact Nat.lt_trans hlt (first e he)
    · rw [Sparse.put_front d u v first, Sparse.put_front d u w first, below t first]
    · rw [Sparse.put_cons_of_above d u v hgt, Sparse.put_cons_of_above d u _ hgt, Sparse.put_cons_of_above d u w hgt, ih rest]

end Put

end Sys2Proof.Machine
end

section
/-!
O41: a commit token takes its item from the hop and then commits the port (R200).
-/
namespace Sys2Proof.Machine

theorem State.setPort_port_self {s : State} (core stream : Nat) (p : RPort) (h : Sparse.wf (fun _ => ({} : RPort)) s.str.ports = true) :
    (s.setPort core stream p).port core stream = p := Sparse.get_put_self (fun _ => ({} : RPort)) s.str.ports _ p h

theorem State.setPort_setPort {s : State} (core stream : Nat) (p q : RPort) (h : Sparse.wf (fun _ => ({} : RPort)) s.str.ports = true) :
    (s.setPort core stream p).setPort core stream q = s.setPort core stream q := by
  have hput := Sparse.put_put (i := portKey core stream) {} p q ((Sparse.wf_iff _ _).1 h).1
  simp only [State.setPort, hput]

/-- What a commit makes of a port (R200). -/
def RPort.commit (p : RPort) : RPort :=
  { p with landing := p.landing.map RVec.commit, prov := none, ahead := 0, skid := p.skid.map fun x => (x.1, x.2.commit) }

theorem State.commitPort_eq (s : State) (core stream : Nat) : s.commitPort core stream =
    (s.setPort core stream (s.port core stream).commit).count (R.fwdVectors core) (s.port core stream).ahead := rfl

theorem execCommitToken_of_commit {core : Fin 256} {stream : Fin 2} {s : State} {p : RPort} {rest : List RItem} (hp : s.port core stream = p)
    (h : p.hop = .commit :: rest) : exec (.commitToken core stream) s =
      .next ((((s.setPort core stream { p with hop := rest }).commitPort core stream).passToken core stream .commit).reelGo core) := by
  subst hp
  show execCommitToken core stream s = _
  simp only [execCommitToken, h]

/-- R200: where no port is listed twice, the token commits the port that it leaves. -/
theorem execCommitToken_of_wf {core : Fin 256} {stream : Fin 2} {s : State} {p : RPort} {rest : List RItem}
    (hwf : Sparse.wf (fun _ => ({} : RPort)) s.str.ports = true) (hp : s.port core stream = p) (h : p.hop = .commit :: rest) :
    exec (.commitToken core stream) s = .next ((((s.setPort core stream { p with hop := rest }.commit).count (R.fwdVectors core) p.ahead).passToken
      core stream .commit).reelGo core) := by
  rw [execCommitToken_of_commit hp h, State.commitPort_eq, State.setPort_port_self core stream _ hwf, State.setPort_setPort core stream _ _ hwf]

/-- The table of ports lists stream 0 of core 0 twice, which its canonical form excludes: a commit token has come at the entry that is read, and the
entry hidden behind it has sent five provisional vectors on. -/
def hiddenPort : State :=
  { State.reset with str := { State.reset.str with ports := [(portKey 0 0, { hop := [.commit] }), (portKey 0 0, { ahead := 5 })] } }

/-- Refutes O41: the clause on COMMIT_TOKEN commits the port as it was read, but the model reads it again once the token is off the hop, and no
hypothesis has the table of ports in canonical form. In the counterexample that first write empties the entry, which uncovers the one behind it: the
model counts its five vectors in FWD_VECTORS, the clause none. `execCommitToken_of_wf` is the clause with the hypothesis. -/
theorem not_reelActs : ¬ Obligations.ReelActs := by
  unfold Obligations.ReelActs
  intro h
  obtain ⟨-, ports, -⟩ := h 0 0 hiddenPort
  obtain ⟨-, -, -, -, commits, -⟩ := ports { hop := [.commit] } rfl
  have outcome := (execCommitToken_of_commit rfl rfl).symm.trans (commits [] _ rfl rfl)
  have counted := congrArg (State.reg · (R.fwdVectors 0)) (Host.Outcome.next.inj outcome)
  exact absurd counted (by decide +kernel)

end Sys2Proof.Machine
end

section
/-!
O39: the arming and the completion of SDs (R235 to R238, R245, R348).
-/
namespace Sys2Proof.Machine

/-! ### The turn of an SD -/

theorem State.dlist_of_nextDesc {s : State} {core num : Nat} {p : Desc → Bool} {l : DList} {d : Desc} (h : s.nextDesc core num p = some (l, d)) :
    s.dlist core num = some l := by
  unfold State.nextDesc at h
  split at h
  · cases h
  · split at h
    next l' hl =>
      obtain ⟨d', -, hp⟩ := Option.bind_eq_some_iff.1 h
      split at hp
      · cases hp
        exact hl
      · cases hp
    next => cases h

theorem State.place_of_dlist {s : State} {core num : Nat} {l : DList} (h : s.dlist core num = some l) : l.core = core ∧ l.num = num := by
  simpa using List.find?_some h

/-- SD and SD_ARM_RETRY, each with whether its arm has been rejected before (R236). -/
theorem exec_of_mem_sdTurns {core : Fin 256} {list : Fin 8} (s : State) :
    ∀ x ∈ ([(.sd core list, false), (.sdArmRetry core list, true)] : List (Instr × Bool)), exec x.1 s = .next (s.sdTurn core list x.2) := by
  simp only [List.forall_mem_cons, List.not_mem_nil, false_implies, implies_true, and_true]
  exact ⟨rfl, rfl⟩

theorem State.sdTurn_of_other {s : State} {core num : Nat} {again : Bool} (h : s.retrying core num ≠ again) : s.sdTurn core num again = s := by
  simp [State.sdTurn, h]

theorem State.sdTurn_of_none {s : State} {core num : Nat} (again : Bool) (h : s.nextDesc core num (fun d => bits d 0 8 == 4) = none) :
    s.sdTurn core num again = s := by
  have hn : s.nextDesc core num (fun d => dOpcode d == Op.sd) = none := h
  simp [State.sdTurn, hn]

theorem State.sdTurn_of_next {s : State} {core num : Nat} {l : DList} {d : Desc} {again : Bool} (hr : s.retrying core num = again)
    (h : s.nextDesc core num (fun d => bits d 0 8 == 4) = some (l, d)) : s.sdTurn core num again = (s.tryArm l d badRead).settle core := by
  have hn : s.nextDesc core num (fun d => dOpcode d == Op.sd) = some (l, d) := h
  simp [State.sdTurn, hr, hn]

/-! ### Arming (R235, R236) -/

section Arm

variable {s : State} {l : DList} {d : Desc} {bad : Nat → Nat → State → State}

/-- OWN of the entry that the queue of `d` arms next. -/
abbrev State.armOwn (s : State) (l : DList) (d : Desc) : Bool := s.ownBit l.core (sdQueue d) (s.tailOf l.core (sdQueue d))

theorem State.tryArm_of_bad_pairs (h : sdPairsOk d = false) : s.tryArm l d bad = s.descFault l.core := by simp [State.tryArm, h]

theorem State.tryArm_of_own (hp : sdPairsOk d = true) (h : s.armOwn l d = true) : s.tryArm l d bad = s.armRejected l.core l.num (sdQueue d) := by
  simp [State.tryArm, hp, h]

theorem State.tryArm_of_free (hp : sdPairsOk d = true) (h : s.armOwn l d = false) : s.tryArm l d bad = s.arm l d bad := by
  simp [State.tryArm, hp, h]

/-- The state in which the arm of the next SD of list `l` has been accepted: its queue's tail has gone on, and it has issued. -/
def State.armIssued (s : State) (l : DList) (d : Desc) : State :=
  State.issue { s with str := { s.str with tail := Sparse.put 0 s.str.tail (4 * l.core + sdQueue d) ((s.tailOf l.core (sdQueue d) + 1) % 16)
                                           retry := s.str.retry.filter (· != (l.core, l.num)) } } l

/-- The same, of an SD that moves data: OWN of its entry sets. -/
def State.armOwned (s : State) (l : DList) (d : Desc) : State := (s.armIssued l d).setOwnBit l.core (sdQueue d) (s.tailOf l.core (sdQueue d)) true

/-- An SD joins those of the engines, last in arming order (R237). -/
def State.addSd (s : State) (r : SdRun) : State := { s with str := { s.str with sds := s.str.sds ++ [r] } }

/-- What a descriptor has in flight is no longer provisional (R245). -/
def State.commitOps (s : State) (r : DescRef) : State :=
  { s with str := { s.str with ops := s.str.ops.map fun (o : MemOp) => if o.own == r then { o with prov := false } else o } }

theorem State.filter_own_of_sdRun_none {r : DescRef} (h : s.sdRun r = none) : s.str.sds.filter (·.own == r) = [] :=
  List.filter_eq_nil_iff.2 (List.find?_eq_none.1 h)

theorem State.arm_of_empty (h : sdLen d = 0) : s.arm l d bad = (s.armIssued l d).descDone l.ref := if_pos h

/-- R348: the arm of an SD whose FREE_SEQ names a gated operation of a skipped step. -/
theorem State.arm_of_skipped (hl : sdLen d ≠ 0) (hc : l.complete (sdFree d) = true) (hs : l.skipFree (sdFree d) = true)
    (hr : (s.armOwned l d).sdRun l.ref = none) : s.arm l d bad =
      ((s.armOwned l d).addSd { own := l.ref, desc := d, entry := some (s.tailOf l.core (sdQueue d)), skip := true }).pumpCore l.core := by
  have hf : (s.armOwned l d).str.sds.filter (·.own == l.ref) = [] := State.filter_own_of_sdRun_none hr
  have harm : s.arm l d bad = (((((s.armOwned l d).str.sds.filter (·.own == l.ref)).foldl State.cancelSd (s.armOwned l d))).addSd
      { own := l.ref, desc := d, entry := some (s.tailOf l.core (sdQueue d)), skip := true }).pumpCore l.core := by
    unfold State.arm
    rw [if_neg hl, if_pos (by rw [hc, hs]; rfl)]
    rfl
  rw [harm, hf, List.foldl_nil]

theorem not_complete_and_skipFree {l : DList} {i : Nat} (h : l.complete i = false ∨ l.skipFree i = false) :
    ¬ (l.complete i && l.skipFree i) = true := by
  rcases h with h | h <;> simp [h]

theorem State.arm_of_waiting (hl : sdLen d ≠ 0) (hw : l.complete (sdFree d) = false ∨ l.skipFree (sdFree d) = false)
    (hr : (s.armOwned l d).sdRun l.ref = none) : s.arm l d bad =
      ((s.armOwned l d).addSd { own := l.ref, desc := d, entry := some (s.tailOf l.core (sdQueue d)) }).pumpCore l.core := by
  unfold State.arm
  rw [if_neg hl, if_neg (not_complete_and_skipFree hw)]
  split
  next h => cases h.symm.trans hr
  next => rfl

/-- R245: the arm of an SD that runs ahead commits it. -/
theorem State.arm_of_runAhead {ra : SdRun} (hl : sdLen d ≠ 0) (hw : l.complete (sdFree d) = false ∨ l.skipFree (sdFree d) = false)
    (hr : (s.armOwned l d).sdRun l.ref = some ra) (he : ra.errs = []) : s.arm l d bad =
      (((((s.armOwned l d).count (R.raCommitted l.core)).dropSd l.ref).addSd { ra with entry := some (s.tailOf l.core (sdQueue d)), failed := false }).commitOps
        l.ref).pumpCore l.core := by
  unfold State.arm
  rw [if_neg hl, if_neg (not_complete_and_skipFree hw)]
  split
  next h =>
    cases h.symm.trans hr
    simp only [he]
    rfl
  next h => cases h.symm.trans hr

end Arm

/-! ### Completion (R235, R237, R238) -/

section Complete

variable {s : State} {r : SdRun} {e : Nat} (he : r.entry = some e)

/-- The state in which SD `r`, armed in entry `e` of its queue, has left its engine. -/
def State.sdLeft (s : State) (r : SdRun) (e : Nat) : State := (s.setOwnBit r.own.core (sdQueue r.desc) e false).dropSd r.own

include he

theorem State.sdComplete_of_running (hf : s.sdFinished r = false) : s.sdComplete r = s := by simp [State.sdComplete, he, hf]

theorem State.sdComplete_of_failed (hf : s.sdFinished r = true) (h : r.failed = true) : s.sdComplete r = (s.sdLeft r e).logDone r.own := by
  simp only [State.sdComplete, he, hf, h, if_true]
  rfl

theorem State.sdComplete_of_moved (hf : s.sdFinished r = true) (h : r.failed = false) : s.sdComplete r =
    ((if r.skip then s.sdLeft r e else (s.sdLeft r e).count (R.bytesMoved r.own.core) (sdUnits r.desc)).descDone r.own).pumpCore r.own.core := by
  simp only [State.sdComplete, he, hf, h, if_true]
  rfl

end Complete

/-- The SD that SD_COMPLETE finds (R235). -/
def State.armedIn (s : State) (core queue entry : Nat) : Option SdRun :=
  s.str.sds.find? fun r => r.own.core == core && r.entry == some entry && bits r.desc 213 2 == queue

theorem State.place_of_armedIn {s : State} {core queue entry : Nat} {r : SdRun} (h : s.armedIn core queue entry = some r) :
    r.own.core = core ∧ r.entry = some entry ∧ sdQueue r.desc = queue := by
  simpa [and_assoc, sdQueue] using List.find?_some h

theorem execSdComplete_of_none {core : Fin 256} {queue : Fin 4} {entry : Fin 16} {s : State} (h : s.armedIn core queue entry = none) :
    exec (.sdComplete core queue entry) s = .next s := by
  show execSdComplete core queue entry s = _
  unfold execSdComplete
  split
  next h' => cases h'.symm.trans h
  next => rfl

theorem execSdComplete_of_some {core : Fin 256} {queue : Fin 4} {entry : Fin 16} {s : State} {r : SdRun} (h : s.armedIn core queue entry = some r) :
    exec (.sdComplete core queue entry) s = .next ((s.sdComplete r).settle core) := by
  show execSdComplete core queue entry s = _
  unfold execSdComplete
  split
  next h' =>
    cases h'.symm.trans h
    rfl
  next h' => cases h'.symm.trans h

/-- Settles O39: the laws of an arm by what its SD and its entry are, and those of a completion by how the SD ended. -/
theorem streamDescriptorsAct : Obligations.StreamDescriptorsAct := by
  unfold Obligations.StreamDescriptorsAct
  refine ⟨fun core list s x hx => ?_, fun core queue entry s f hf => ?_⟩
  · rw [exec_of_mem_sdTurns s x hx]
    refine ⟨?_, fun hr l d hd q e hq he => ?_⟩
    · rintro (h | h)
      · rw [State.sdTurn_of_other h]
      · rw [State.sdTurn_of_none x.2 h]
    obtain ⟨hcore, hnum⟩ := State.place_of_dlist (State.dlist_of_nextDesc hd)
    rw [State.sdTurn_of_next hr hd]
    simp only [← hcore, ← hnum] at hr he ⊢
    subst hq he
    refine ⟨fun hp => ?_, fun hp hown u hu => ?_, fun hp hown u hu => ⟨fun hl => ?_, fun hl v hv => ⟨fun hc hs hn => ?_, fun hw => ⟨fun hn => ?_, ?_⟩⟩⟩⟩
    · rw [State.tryArm_of_bad_pairs hp]
    · rw [State.tryArm_of_own hp hown, hu, ← hr]
      rfl
    · rw [State.tryArm_of_free hp hown, State.arm_of_empty hl, hu]
      rfl
    · subst hu hv
      rw [State.tryArm_of_free hp hown, State.arm_of_skipped hl hc hs hn]
      rfl
    · subst hu hv
      rw [State.tryArm_of_free hp hown, State.arm_of_waiting hl hw hn]
      rfl
    · intro ra hra herr w hwc
      subst hu hv hwc
      rw [State.tryArm_of_free hp hown, State.arm_of_runAhead hl hw hra herr]
      rfl
  · refine ⟨fun hn => execSdComplete_of_none (hf.trans hn), fun r hr => ?_⟩
    rw [execSdComplete_of_some (hf.trans hr)]
    obtain ⟨hcore, he, hq⟩ := State.place_of_armedIn (hf.trans hr)
    refine ⟨fun hfin => ?_, fun hfin u hu v hv => ?_⟩
    · rw [State.sdComplete_of_running he hfin]
    have hleft : s.sdLeft r entry = v := by rw [hv, hu, ← hcore, ← hq]; rfl
    refine ⟨fun h => ?_, fun h => ?_⟩
    · rw [State.sdComplete_of_failed he hfin h, hleft]
      rfl
    · rw [State.sdComplete_of_moved he hfin h, hleft, hcore]
      rfl

end Sys2Proof.Machine
end

section
/-!
FP32 words by their sign, exponent and mantissa (Table 7.1): a value that a word spells rounds to that word, and |a| of a word is exact (R261, R277).
-/
namespace Sys2Proof.Machine

/-- The FP32 word of a sign, an exponent field and a mantissa field (Table 7.1). -/
def fp32Word (neg : Bool) (E M : Nat) : Word := word (fp32.signed neg (E * 2 ^ 23 + M))

section Fields

variable {neg : Bool} {E M : Nat}

theorem fp32Word_toNat (hE : E < 256) (hM : M < 2 ^ 23) : (fp32Word neg E M).toNat = E * 2 ^ 23 + M + b2n neg * 2 ^ 31 := by
  simp only [fp32Word, word, FloatFmt.signed, BitVec.toNat_ofNat]
  cases neg <;> simp only [b2n, if_true, Bool.false_eq_true, if_false] <;> omega

theorem exists_fp32Word (x : Word) : ∃ neg E M, E < 256 ∧ M < 2 ^ 23 ∧ x = fp32Word neg E M := by
  have hx := x.isLt
  refine ⟨decide (2 ^ 31 ≤ x.toNat), x.toNat / 2 ^ 23 % 256, x.toNat % 2 ^ 23, by omega, by omega, BitVec.eq_of_toNat_eq ?_⟩
  rw [fp32Word_toNat (by omega) (by omega)]
  by_cases h : 2 ^ 31 ≤ x.toNat <;> simp only [b2n, h, decide_true, decide_false, if_true, Bool.false_eq_true, if_false] <;> omega

/-- Table 7.1: what an FP32 word spells. -/
theorem wval_fp32Word (hE : E < 256) (hM : M < 2 ^ 23) : wval (fp32Word neg E M) =
    if E = 255 then (if M = 0 then .inf neg else .nan) else if E = 0 then .fin neg M (-149) else .fin neg (2 ^ 23 + M) (E - 150) := by
  have hsign : (E * 2 ^ 23 + M + b2n neg * 2 ^ 31).testBit 31 = neg := by
    rw [Nat.testBit_eq_decide_div_mod_eq]
    cases neg <;> simp only [b2n, if_true, Bool.false_eq_true, if_false, decide_eq_true_eq, decide_eq_false_iff_not] <;> omega
  have hexp : nbits (E * 2 ^ 23 + M + b2n neg * 2 ^ 31) 23 8 = E := by
    rw [nbits, Nat.shiftRight_eq_div_pow]
    omega
  have hman : nbits (E * 2 ^ 23 + M + b2n neg * 2 ^ 31) 0 23 = M := by
    rw [nbits, Nat.shiftRight_zero]
    omega
  simp only [wval, FloatFmt.val, fp32Word_toNat hE hM, hsign, hexp, hman]
  by_cases h255 : E = 255
  · simp [h255]
  · by_cases h0 : E = 0
    · simp [h0]
    · simp [h255, h0]
      omega

/-- A magnitude whose last bit is a place of the grid lies on it. -/
theorem fp32_grid_of_exact {m : Nat} {e : Int} (rm : Rnd) (hq : max (e + m.log2) (-126) - 23 = e) (hm : m < 2 ^ 24) : fp32.grid rm m e = (m, e) := by
  have hq' : max (e + m.log2) (1 - fp32.bias) - (fp32.m : Int) = e := hq
  simp only [FloatFmt.grid, hq', Int.le_refl, if_true, Int.sub_self, Int.toNat_zero, Nat.shiftLeft_zero]
  exact if_neg (by simp only [Nat.reduceAdd]; omega)

theorem fp32_gridCode_subnormal (sat : Bool) (q : Int) (hM : M < 2 ^ 23) : fp32.gridCode sat M q = (M, false) := by
  simp only [FloatFmt.gridCode, if_pos hM]
  exact if_pos (by omega)

theorem fp32_gridCode_normal (sat : Bool) (hE : E < 255) (hM : M < 2 ^ 23) :
    fp32.gridCode sat (2 ^ 23 + M) (E - 150) = (E * 2 ^ 23 + M, false) := by
  have hexp : ((E : Int) - 150 + (23 : Nat) + 127).toNat = E := by omega
  have hcode : (if 2 ^ 23 + M < 2 ^ 23 then 2 ^ 23 + M else E * 2 ^ 23 + (2 ^ 23 + M - 2 ^ 23)) = E * 2 ^ 23 + M := by
    rw [if_neg (by omega), Nat.add_sub_cancel_left]
  simp only [FloatFmt.gridCode, hexp, hcode]
  exact if_pos (by omega)

theorem w32_of_gridCode (rm : Rnd) {m : Nat} {e : Int} (hm0 : m ≠ 0) (hq : max (e + m.log2) (-126) - 23 = e) (hm : m < 2 ^ 24)
    (hc : fp32.gridCode fp32.saturates m e = (E * 2 ^ 23 + M, false)) : w32 rm (.fin neg m e) = fp32Word neg E M := by
  simp only [w32, FloatFmt.round, if_neg hm0, fp32_grid_of_exact rm hq hm, hc]
  rfl

/-- R277: the value that a word spells rounds to that word. -/
theorem w32_wval_fp32Word (rm : Rnd) (hE : E < 256) (hM : M < 2 ^ 23) (h : wval (fp32Word neg E M) ≠ .nan) :
    w32 rm (wval (fp32Word neg E M)) = fp32Word neg E M := by
  rw [wval_fp32Word hE hM] at h ⊢
  by_cases h255 : E = 255
  · rw [if_pos h255] at h ⊢
    obtain rfl | hM0 := Decidable.em (M = 0)
    · subst h255
      rfl
    · exact absurd (if_neg hM0) h
  rw [if_neg h255]
  by_cases h0 : E = 0
  · subst h0
    rw [if_pos rfl]
    obtain rfl | hM0 := Decidable.em (M = 0)
    · rfl
    have hlog : M.log2 ≤ 22 := Nat.le_of_lt_succ ((Nat.log2_lt hM0).2 hM)
    exact w32_of_gridCode rm hM0 (by omega) (by omega) ((fp32_gridCode_subnormal _ _ hM).trans (by rw [Nat.zero_mul, Nat.zero_add]))
  · rw [if_neg h0]
    have hlog : (2 ^ 23 + M).log2 = 23 := (Nat.log2_eq_iff (by omega)).2 (by omega)
    exact w32_of_gridCode rm (by omega) (by rw [hlog]; omega) (by omega) (fp32_gridCode_normal _ (by omega) hM)

theorem wval_fp32Word_abs (hE : E < 256) (hM : M < 2 ^ 23) : wval (fp32Word false E M) = (wval (fp32Word neg E M)).abs := by
  simp only [wval_fp32Word hE hM]
  split
  · split <;> rfl
  · split <;> rfl

end Fields

theorem w32_wval {x : Word} (rm : Rnd) (h : wval x ≠ .nan) : w32 rm (wval x) = x := by
  obtain ⟨neg, E, M, hE, hM, rfl⟩ := exists_fp32Word x
  exact w32_wval_fp32Word rm hE hM h

/-- Rounding to FP32 keeps what a word spells; of the NaNs it makes one. -/
theorem wval_w32_wval (rm : Rnd) (x : Word) : wval (w32 rm (wval x)) = wval x := by
  by_cases h : wval x = .nan
  · rw [h]
    exact wval_f32nan
  · rw [w32_wval rm h]

/-- |a| of a word is exact (R261). -/
theorem wval_fabs (x : Word) : wval (fabs x) = (wval x).abs := by
  obtain ⟨neg, E, M, hE, hM, rfl⟩ := exists_fp32Word x
  rw [fabs, ← wval_fp32Word_abs hE hM, wval_w32_wval]

end Sys2Proof.Machine
end

section
/-!
The order of values, and the largest word of a vector (Table 4.7, R279).
-/
namespace Sys2Proof.Machine

theorem Val.lt_irrefl (v : Val) : v.lt v = false := by
  cases h : v.lt v with
  | false => rfl
  | true => exact absurd (Val.lt_asymm h) (by simp [h])

@[simp] theorem Val.isNan_iff (v : Val) : v.isNan = true ↔ v = .nan := by simp [Val.isNan]

@[simp] theorem Val.isNan_abs (v : Val) : v.abs.isNan = v.isNan := by cases v <;> rfl

theorem scaled_shift (n : Bool) (m : Nat) {e q r : Int} (hr : r ≤ q) (hq : q ≤ e) : scaled n m e r = scaled n m e q * 2 ^ (q - r).toNat := by
  have hsplit : (e - r).toNat = (e - q).toNat + (q - r).toNat := by omega
  simp only [scaled, Nat.shiftLeft_eq, hsplit, Nat.pow_add, ← Nat.mul_assoc, Int.natCast_mul, Int.natCast_pow]
  cases n with
  | false => rfl
  | true => exact (Int.neg_mul ..).symm

/-- Finite values compare as they count any place that neither lies below. -/
theorem Val.fin_lt_iff {x y : Bool} {m n : Nat} {e d q : Int} (he : q ≤ e) (hd : q ≤ d) :
    (Val.fin x m e).lt (.fin y n d) = true ↔ scaled x m e q < scaled y n d q := by
  have hpow : (0 : Int) < 2 ^ (min e d - q).toNat := Int.pow_pos (by decide)
  rw [scaled_shift x m (r := q) (q := min e d) (by omega) (by omega), scaled_shift y n (r := q) (q := min e d) (by omega) (by omega),
    Int.mul_lt_mul_right hpow]
  exact decide_eq_true_iff

/-- A value that is no NaN lies above the smaller of two or below the larger. -/
theorem Val.lt_or_lt {a b c : Val} (hb : b ≠ .nan) (h : a.lt c = true) : a.lt b = true ∨ b.lt c = true := by
  match a, b, c with
  | .fin x m e, .fin y n d, .fin z k f =>
    have ha : min e (min d f) ≤ e := by omega
    have hb : min e (min d f) ≤ d := by omega
    have hc : min e (min d f) ≤ f := by omega
    rw [Val.fin_lt_iff ha hc] at h
    rw [Val.fin_lt_iff ha hb, Val.fin_lt_iff hb hc]
    omega
  | _, .nan, _ => exact absurd rfl hb
  | .nan, _, _ => simp [Val.lt] at h
  | .inf _, .inf _, .inf _ | .inf _, .inf _, .fin _ _ _ | .inf _, .fin _ _ _, .inf _ | .inf _, .fin _ _ _, .fin _ _ _ | .fin _ _ _, .inf _, .inf _
  | .fin _ _ _, .inf _, .fin _ _ _ | .fin _ _ _, .fin _ _ _, .inf _ => simp_all [Val.lt]
  | _, _, .nan => exact absurd rfl (Val.ne_nan_of_lt h).2

/-! ### The largest of a vector's words -/

/-- Of two words that are no NaN the larger, and either where neither is. -/
theorem fmaxOf_eq_or (second : Bool) {a b : Word} (ha : wval a ≠ .nan) (hb : wval b ≠ .nan) :
    fmaxOf second a b = a ∧ (wval a).lt (wval b) = false ∨ fmaxOf second a b = b ∧ (wval b).lt (wval a) = false := by
  cases hlt : (wval a).lt (wval b) with
  | true => exact .inr ⟨fmaxOf_of_lt second hlt, Val.lt_asymm hlt⟩
  | false =>
    cases hgt : (wval b).lt (wval a) with
    | true => exact .inl ⟨fmaxOf_of_gt second hgt, rfl⟩
    | false =>
      have heq : fmaxOf second a b = if second then b else a := by simp [fmaxOf, fgt, Val.isNan, ha, hb, hlt, hgt]
      cases second
      · exact .inl ⟨heq, rfl⟩
      · exact .inr ⟨heq, rfl⟩

/-- `w` is a word of `l` that is below none. -/
def LargestWord (l : List Word) (w : Word) : Prop := (∀ x ∈ l, (wval w).lt (wval x) = false) ∧ w ∈ l

theorem LargestWord.cons_of_not_lt {l : List Word} {m w y : Word} (hm : wval m ≠ .nan) (hy : (wval m).lt (wval y) = false) (h : LargestWord (m :: l) w) :
    (wval w).lt (wval y) = false := by
  cases hw : (wval w).lt (wval y) with
  | false => rfl
  | true =>
    obtain h' | h' := Val.lt_or_lt hm hw
    · exact absurd (h.1 m List.mem_cons_self) (by simp [h'])
    · exact absurd hy (by simp [h'])

theorem foldl_fmaxOf_nan (second : Bool) {l : List Word} {a : Word} (h : ∃ x ∈ a :: l, wval x = .nan) :
    wval (l.foldl (fmaxOf second) a) = .nan := by
  induction l generalizing a with
  | nil =>
    obtain ⟨x, hx, hn⟩ := h
    rwa [List.mem_singleton.1 hx] at hn
  | cons b l ih =>
    refine ih ?_
    obtain ⟨x, hx, hn⟩ := h
    simp only [List.mem_cons] at hx
    obtain rfl | rfl | hx := hx
    · exact ⟨_, List.mem_cons_self, by rw [fmaxOf_of_nan second (.inl hn), wval_f32nan]⟩
    · exact ⟨_, List.mem_cons_self, by rw [fmaxOf_of_nan second (.inr hn), wval_f32nan]⟩
    · exact ⟨x, List.mem_cons_of_mem _ hx, hn⟩

theorem foldl_fmaxOf_largest (second : Bool) {l : List Word} {a : Word} (h : ∀ x ∈ a :: l, wval x ≠ .nan) :
    LargestWord (a :: l) (l.foldl (fmaxOf second) a) := by
  induction l generalizing a with
  | nil => exact ⟨fun x hx => by rw [List.mem_singleton.1 hx]; exact Val.lt_irrefl _, List.mem_cons_self⟩
  | cons b l ih =>
    simp only [List.forall_mem_cons] at h
    obtain ⟨ha, hb, hl⟩ := h
    rw [List.foldl_cons]
    obtain ⟨hm, hle⟩ | ⟨hm, hle⟩ := fmaxOf_eq_or second ha hb
    · have hmax := ih (a := a) (List.forall_mem_cons.2 ⟨ha, hl⟩)
      rw [hm]
      obtain ⟨hmax_a, hmax_l⟩ := List.forall_mem_cons.1 hmax.1
      exact ⟨List.forall_mem_cons.2 ⟨hmax_a, List.forall_mem_cons.2 ⟨hmax.cons_of_not_lt ha hle, hmax_l⟩⟩,
        List.mem_cons.2 ((List.mem_cons.1 hmax.2).imp_right (List.mem_cons_of_mem b))⟩
    · have hmax := ih (a := b) (List.forall_mem_cons.2 ⟨hb, hl⟩)
      rw [hm]
      exact ⟨List.forall_mem_cons.2 ⟨hmax.cons_of_not_lt hb hle, hmax.1⟩, List.mem_cons_of_mem _ hmax.2⟩

/-- The largest word of a vector, as the lanes are folded from the first. -/
def lanesMax (second : Bool) (l : List Word) : Word := l.tail.foldl (fmaxOf second) (l.headD 0)

theorem lanesMax_nan (second : Bool) {l : List Word} (h : l.any (fun x => (wval x).isNan) = true) : wval (lanesMax second l) = .nan := by
  cases l with
  | nil => cases h
  | cons a l => exact foldl_fmaxOf_nan second (by simpa using h)

theorem lanesMax_largest (second : Bool) {l : List Word} (hl : l ≠ []) (h : l.any (fun x => (wval x).isNan) = false) :
    LargestWord l (lanesMax second l) := by
  obtain ⟨a, l, rfl⟩ := List.exists_cons_of_ne_nil hl
  exact foldl_fmaxOf_largest second fun x hx => by simpa [Val.isNan] using List.any_eq_false.1 h x hx

/-- RMAX (Table 4.7, R279). -/
theorem lanesMax_rounded (second : Bool) {l : List Word} (hl : l ≠ []) {w : Word} (hw : w = w32 .even (wval (lanesMax second l))) :
    if l.any (fun x => (wval x).isNan) then (wval w).isNan = true else (∀ x ∈ l, (wval w).lt (wval x) = false) ∧ ∃ x ∈ l, w = x := by
  subst hw
  cases h : l.any (fun x => (wval x).isNan) with
  | true => rw [if_pos rfl, wval_w32_wval, lanesMax_nan second h, Val.isNan_iff]
  | false =>
    obtain ⟨hle, hmem⟩ := lanesMax_largest second hl h
    have hn : wval (lanesMax second l) ≠ .nan := by simpa [Val.isNan] using List.any_eq_false.1 h _ hmem
    rw [if_neg Bool.false_ne_true, w32_wval _ hn]
    exact ⟨hle, _, hmem, rfl⟩

/-- RAMAX (Table 4.7, R279). -/
theorem lanesMax_fabs_rounded (second : Bool) {l : List Word} (hl : l ≠ []) {w : Word} (hw : w = w32 .even (wval (lanesMax second (l.map fabs)))) :
    if l.any (fun x => (wval x).isNan) then (wval w).isNan = true
    else (∀ x ∈ l, (wval w).lt (wval x).abs = false) ∧ ∃ x ∈ l, wval w = (wval x).abs := by
  have h := lanesMax_rounded second (l := l.map fabs) (by simpa using hl) hw
  simp only [List.any_map, List.forall_mem_map, Function.comp_def, wval_fabs, Val.isNan_abs] at h
  split
  next hn => rwa [if_pos hn] at h
  next hn =>
    rw [if_neg hn] at h
    obtain ⟨hle, y, hy, hwy⟩ := h
    obtain ⟨x, hx, rfl⟩ := List.mem_map.1 hy
    exact ⟨hle, x, hx, by rw [hwy, wval_fabs]⟩

end Sys2Proof.Machine
end

section
/-!
O34: the reductions of a vector and RNG (Table 4.7, R142, R278, R279).
-/
namespace Sys2Proof.Machine

theorem ArrCore.entry_ne_nil (a : ArrCore) (e : Nat) : a.entry e ≠ [] := by simp [ArrCore.entry]

/-- Descriptor `d`, next on the list, is a VOD of one vector that takes its operand from the accumulator file and writes its result there: no amax
accumulator, no stochastic rounding. -/
structure EntryVod (core list : Nat) (s : State) (l : DList) (d : Desc) : Prop where
  next : s.nextDesc core list (fun x => x == d) = some (l, d)
  opcode : bits d 0 8 = 3
  pairs : vodPairsOk d = true
  one : vCount d = 1
  srcA : vASp d = 1
  dst : vDstSp d = 1
  amax : vAmax d = false
  sr : vSr d = false
  coresWf : Sparse.wf (fun _ => ({} : ArrCore)) s.cores = true
  accWf : Sparse.wf (fun _ => (0 : Word)) (s.arr core).acc = true

/-- Command `x` writes `w` to lane 0 of the entry that a VOD names, and zero to the others. -/
def State.ReductionGives (s : State) (core : Nat) (d : Desc) (x : Instr) (w : Word) : Prop :=
  ∃ t : State, exec x s = .next t ∧ t.accLane core (vDst d) 0 = w ∧ ∀ i < 64, 0 < i → t.accLane core (vDst d) i = 0

/-! ### Reductions -/

theorem firstLane_length (w : Word) : (firstLane w).length = 64 := rfl

theorem firstLane_succ (w : Word) {i : Nat} (h : i + 1 < (firstLane w).length) : (firstLane w)[i + 1] = .fin false 0 0 :=
  List.getElem_replicate _

theorem vecOp_rmax (n : Nat) (d : Desc) (a b c : List Word) : vecOp n 0x11 d a b c = firstLane (lanesMax (bit (freeW n) 0) a) := rfl

theorem vecOp_ramax (n : Nat) (d : Desc) {a : List Word} (ha : a ≠ []) {b c : List Word} :
    vecOp n 0x12 d a b c = firstLane (lanesMax false (a.map fabs)) := by
  obtain ⟨x, a, rfl⟩ := List.exists_cons_of_ne_nil ha
  rfl

theorem opArity_of_reduction {d : Desc} (h : vOp d = 0x10 ∨ vOp d = 0x11 ∨ vOp d = 0x12 ∨ vOp d = 0x13) : opArity d = 1 := by
  obtain h | h | h | h := h <;> simp [opArity, h]

theorem State.vodVector_reduction {s : State} (core own m i : Nat) {d : Desc} (drain : List Word) (ho : opArity d = 1) (hsp : vASp d = 1) :
    s.vodVector core own d m i drain =
      { s.writeResult core own i d m (vecOp s.free (vOp d) d ((s.arr core).entry (vSrcA d + vAStride d * i)) [] []) with free := s.free + 130 } := by
  have hrng : vOp d ≠ 0x14 := fun h => by simp [opArity, h] at ho
  simp only [State.vodVector, ho, hsp, if_neg hrng]
  rfl

/-! ### RNG -/

theorem State.rngVec_lane (s : State) (core : Nat) {i : Nat} (hi : i < (s.rngVec core).1.length) :
    ∃ m : Nat, m < 2 ^ 24 ∧ (s.rngVec core).1[i] = .fin false m (-24) := by
  simp only [State.rngVec, List.getElem_map]
  exact ⟨_, Nat.mod_lt _ (by decide), rfl⟩

theorem State.rngVec_length (s : State) (core : Nat) : (s.rngVec core).1.length = 64 := by simp [State.rngVec]

theorem State.rngVec_cores_wf {s : State} (core : Nat) (h : Sparse.wf (fun _ => ({} : ArrCore)) s.cores = true) :
    Sparse.wf (fun _ => ({} : ArrCore)) (s.rngVec core).2.cores = true := s.setArr_cores_wf core _ h

/-- The draws leave the accumulator file as it is. -/
theorem State.rngVec_acc {s : State} (core : Nat) (h : Sparse.wf (fun _ => ({} : ArrCore)) s.cores = true) :
    ((s.rngVec core).2.arr core).acc = (s.arr core).acc := by
  simp only [State.rngVec, State.drawBlocks, State.setArr_arr_self core _ h]

/-! ### The lanes written -/

section Lanes

variable {core list : Nat} {s : State} {l : DList} {d : Desc} (h : EntryVod core list s l d)
include h

theorem EntryVod.vod_eq {op : Nat} (ho : vOp d = op) : s.vod core list op = ((s.issue l).vodVector core core d 64 0 []).drain l.ref := by
  have hnext : s.nextDesc core list (fun x => bits x 0 8 == 3 && bits x 268 6 == op && !(bits x 304 2 == 3)) = some (l, d) := by
    refine State.nextDesc_of_pred h.next ?_
    have hop : bits d 268 6 = op := ho
    have hsp : bits d 304 2 = 1 := h.srcA
    rw [h.opcode, hop, hsp]
    simp
  rw [State.vod_of_sound hnext h.pairs (by simp [State.divRec, State.boundRec, h.amax]), State.vodVectors, h.one]
  rfl

theorem EntryVod.writeResult_lane {t : State} (hc : Sparse.wf (fun _ => ({} : ArrCore)) t.cores = true) (ha : (t.arr core).acc = (s.arr core).acc)
    {vs : List Val} {i : Nat} (hi : i < 64) (hv : i < vs.length) : (t.writeResult core core 0 d 64 vs).accLane core (vDst d) i = w32 .even vs[i] :=
  State.writeResult_entry core core 0 h.dst h.sr h.amax hc (ha.symm ▸ h.accWf) hi hv

theorem EntryVod.issue_cores_wf : Sparse.wf (fun _ => ({} : ArrCore)) (s.issue l).cores = true := by simpa using h.coresWf

theorem EntryVod.reduction_lane {v : Word} (ho : opArity d = 1) (hv : vecOp s.free (vOp d) d ((s.arr core).entry (vSrcA d)) [] [] = firstLane v)
    {i : Nat} (hi : i < (firstLane v).length) : (s.vod core list (vOp d)).accLane core (vDst d) i = w32 .even (firstLane v)[i] := by
  rw [h.vod_eq rfl, State.accLane, State.drain_arr, State.vodVector_reduction core core 64 0 [] ho h.srcA, State.issue_arr, State.issue_free, Nat.mul_zero,
    Nat.add_zero, hv]
  exact h.writeResult_lane h.issue_cores_wf (congrArg ArrCore.acc (s.issue_arr l core)) (firstLane_length v ▸ hi) hi

theorem EntryVod.rng_lane (ho : vOp d = 0x14) {i : Nat} (hi : i < 64) :
    ∃ m : Nat, m < 2 ^ 24 ∧ (s.vod core list 0x14).accLane core (vDst d) i = w32 .even (.fin false m (-24)) := by
  have hlen : i < ((s.issue l).rngVec core).1.length := by rwa [State.rngVec_length]
  obtain ⟨m, hm, hlane⟩ := State.rngVec_lane _ core hlen
  refine ⟨m, hm, ?_⟩
  rw [h.vod_eq ho, State.accLane, State.drain_arr, State.vodVector, if_pos ho, ← hlane]
  exact h.writeResult_lane (State.rngVec_cores_wf core h.issue_cores_wf)
    ((State.rngVec_acc core h.issue_cores_wf).trans (congrArg ArrCore.acc (s.issue_arr l core))) hi hlen

end Lanes

/-- A reduction gives its word, rounded, where `v` is what it makes of the operand's lanes. -/
theorem EntryVod.reduces {core : Fin 256} {list : Fin 8} {s : State} {l : DList} {d : Desc} (h : EntryVod core list s l d) {x : Instr} {op : Nat} {v : Word}
    (ho : vOp d = op) (hv : vecOp s.free op d ((s.arr core).entry (vSrcA d)) [] [] = firstLane v)
    (hop : op = 0x10 ∨ op = 0x11 ∨ op = 0x12 ∨ op = 0x13 := by decide) (hx : (vodOps core list)[op]? = some (x, op) := by rfl) :
    s.ReductionGives core d x (w32 .even (wval v)) := by
  subst ho
  have harity := opArity_of_reduction hop
  refine ⟨_, exec_of_mem_vodOps s (x, vOp d) (List.mem_of_getElem? hx), h.reduction_lane harity hv (Nat.zero_lt_succ _), fun i hi h0 => ?_⟩
  obtain ⟨j, rfl⟩ := Nat.exists_eq_add_of_lt h0
  rw [Nat.zero_add] at hi ⊢
  rw [← firstLane_length v] at hi
  rw [h.reduction_lane harity hv hi, firstLane_succ]
  rfl

/-- Settles O34: a reduction by the word that it makes of the lanes, RNG by what each lane draws. -/
theorem reductionsCompute : Obligations.ReductionsCompute := by
  unfold Obligations.ReductionsCompute
  intro core list s l d hkind hp h1 hA hD ham hsr hnext hcw haw a gives
  have h : EntryVod core list s l d := ⟨hnext, hkind, hp, h1, hA, hD, ham, hsr, hcw, haw⟩
  have ha : a ≠ [] := (s.arr core).entry_ne_nil _
  refine ⟨fun ho => h.reduces ho rfl, fun ho => ?rmax, fun ho => ?ramax, fun ho => h.reduces ho rfl, fun ho => ?rng⟩
  case rmax =>
    obtain ⟨t, ht, hw, hz⟩ := h.reduces ho (vecOp_rmax ..)
    exact ⟨t, ht, lanesMax_rounded _ ha hw, hz⟩
  case ramax =>
    obtain ⟨t, ht, hw, hz⟩ := h.reduces ho (vecOp_ramax _ _ ha)
    exact ⟨t, ht, lanesMax_fabs_rounded false ha hw, hz⟩
  case rng => exact ⟨_, exec_of_mem_vodOps s (.vodRng core list, 0x14) (List.mem_of_getElem? (i := 0x14) rfl), fun i hi => h.rng_lane ho hi⟩

end Sys2Proof.Machine
end

section
/-!
O42: the Shelf's pushes and pops, what a pop waits for, and the end of a chunk's move (R306, R313, R318 to R322, Table 8.6; log entries
88 to 90 say which errors come first, when a chunk moves and when a pop is ready).
-/
namespace Sys2Proof.Machine

/-! ### Issue of a push or a pop (R318, R319, R322) -/

/-- SHF_POP and SHF_PUSH, each with whether it pops. -/
theorem exec_shf (core : Fin 256) (list : Fin 8) (s : State) (pop : Bool) :
    exec (if pop then .shfPop core list else .shfPush core list) s = .next (s.shf core list pop) := by
  cases pop <;> rfl

/-- The next descriptor of a list, where it is an SHF that pushes or pops and that no APD has fused (R324). -/
abbrev State.nextShf (s : State) (core num : Nat) (pop : Bool) : Option (DList × Desc) :=
  s.nextDesc core num fun d => bits d 0 8 == 6 && hPop d == pop && !fusedPush d

/-- The state in which an SHF of list `l` has issued and its core has checked its copy of the record that it names (R306). -/
def State.shfIssued (s : State) (l : DList) (core : Nat) (d : Desc) : State :=
  (s.issue l).checkCopy core (if hScaleEn d then some (hScaleRec d) else none)

/-- The first error that a push or a pop finds at issue. -/
def State.firstShfError (s : State) (core : Nat) (d : Desc) (pop : Bool) : Option Nat := if pop then s.popError core d else s.pushError d

/-- An SHF joins those in progress, and the Shelf goes on. -/
def State.startShf (s : State) (r : DescRef) (d : Desc) (pop : Bool) : State :=
  ({ s with shelf := { s.shelf with runs := s.shelf.runs ++ [({ own := r, desc := d, waits := pop } : ShfRun)] } } : State).pumpShelf

section Issue

variable {s : State} {core num : Nat} {pop : Bool}

theorem State.shf_of_none (h : s.nextShf core num pop = none) : s.shf core num pop = s := by
  have hn : s.nextDesc core num (fun d => dOpcode d == Op.shf && hPop d == pop && !fusedPush d) = none := h
  simp only [State.shf, hn]

variable {l : DList} {d : Desc} (h : s.nextShf core num pop = some (l, d))
include h

theorem State.shf_of_next : s.shf core num pop =
    if 8 ≤ s.shfsOf core then s
    else if !shfPairsOk d then s.descFault core
    else match (s.shfIssued l core d).firstShfError core d pop with
      | some c => (s.shfIssued l core d).shfError l.ref d c
      | none => (if pop then (s.shfIssued l core d).loadReaders d else (s.shfIssued l core d).createFrame core d).startShf l.ref d pop := by
  have hn : s.nextDesc core num (fun d => dOpcode d == Op.shf && hPop d == pop && !fusedPush d) = some (l, d) := h
  unfold State.shf
  rw [hn]
  rfl

theorem State.shf_of_full (hf : 8 ≤ s.shfsOf core) : s.shf core num pop = s := by
  rw [State.shf_of_next h, if_pos hf]

theorem State.shf_of_bad_pairs (hf : s.shfsOf core < 8) (hp : shfPairsOk d = false) : s.shf core num pop = s.descFault core := by
  rw [State.shf_of_next h, if_neg (Nat.not_le.2 hf), if_pos (by simp [hp])]

theorem State.shf_of_error {c : Nat} (hf : s.shfsOf core < 8) (hp : shfPairsOk d = true) (he : (s.shfIssued l core d).firstShfError core d pop = some c) :
    s.shf core num pop = (s.shfIssued l core d).shfError l.ref d c := by
  rw [State.shf_of_next h, if_neg (Nat.not_le.2 hf), if_neg (by simp [hp]), he]

theorem State.shf_of_sound (hf : s.shfsOf core < 8) (hp : shfPairsOk d = true) (he : (s.shfIssued l core d).firstShfError core d pop = none) :
    s.shf core num pop = (if pop then (s.shfIssued l core d).loadReaders d else (s.shfIssued l core d).createFrame core d).startShf l.ref d pop := by
  rw [State.shf_of_next h, if_neg (Nat.not_le.2 hf), if_neg (by simp [hp]), he]

end Issue

/-! ### A pop that waits for its turn (R319, Table 8.6) -/

/-- The SHF in progress of a descriptor. -/
abbrev State.shfInProgress (s : State) (r : DescRef) : Option ShfRun := s.shelf.runs.find? (·.own == r)

/-- A pop waits no longer. -/
def State.letPopGo (s : State) (r : DescRef) : State :=
  { s with shelf := { s.shelf with runs := s.shelf.runs.map fun (y : ShfRun) => if y.own == r then { y with waits := false } else y } }

section Wait

variable {s : State} {core : Fin 256} {list : Fin 8} {idx : Nat}

theorem execPopWaitEnd_of_none (n : Word) (h : s.shfInProgress ⟨core, list, idx⟩ = none) : exec (.popWaitEnd core list idx n) s = .next s := by
  show execPopWaitEnd core list idx n s = _
  simp only [execPopWaitEnd, h]

theorem execShelfOrder_of_none (h : s.shfInProgress ⟨core, list, idx⟩ = none) : exec (.shelfOrder core list idx) s = .next s := by
  show execShelfOrder core list idx s = _
  simp only [execShelfOrder, h]

variable {x : ShfRun} (h : s.shfInProgress ⟨core, list, idx⟩ = some x)
include h

theorem execPopWaitEnd_of_run (n : Word) : exec (.popWaitEnd core list idx n) s =
    if x.waits && !s.recordOk x.desc then .next ((s.dropRun ⟨core, list, idx⟩).shfError ⟨core, list, idx⟩ x.desc 9)
    else if x.waits && s.popReady x.desc then .next ((s.count R.popWaitCycles n.toNat).letPopGo ⟨core, list, idx⟩).pumpShelf
    else .next s := by
  show execPopWaitEnd core list idx n s = _
  simp only [execPopWaitEnd, h]
  rfl

theorem execShelfOrder_of_run : exec (.shelfOrder core list idx) s =
    if x.waits && !s.popReady x.desc then .next (((s.count R.popWaitCycles (2 ^ (s.reg R.shelfWaitLimit).toNat)).dropRun ⟨core, list, idx⟩).shfError
      ⟨core, list, idx⟩ x.desc 5)
    else .next s := by
  show execShelfOrder core list idx s = _
  simp only [execShelfOrder, h]
  rfl

end Wait

/-! ### A chunk on the move (R313) -/

section Move

variable {s : State} {shelf : Fin 32} {i : BitVec 16}

/-- A chunk's move has no operation left, neither to issue nor in flight. -/
def State.moveEnded (s : State) (c : Chunk) : Prop := c.moving = true ∧ c.pieces = [] ∧ ∀ o ∈ s.str.ops, o.own ≠ c.ref

theorem State.moveEnded_iff (s : State) (c : Chunk) :
    (c.moving && c.pieces.isEmpty && !(s.str.ops.any (·.own == c.ref))) = true ↔ s.moveEnded c := by
  simp [State.moveEnded, and_assoc]

theorem execChunkMoveDone_of_none (h : s.chunkAt shelf i.toNat = none) : exec (.chunkMoveDone shelf i) s = .next s := by
  show execChunkMoveDone shelf i s = _
  simp only [execChunkMoveDone, h]

theorem execChunkMoveDone_of_moving {c : Chunk} (h : s.chunkAt shelf i.toNat = some c) (hm : ¬ s.moveEnded c) :
    exec (.chunkMoveDone shelf i) s = .next s := by
  show execChunkMoveDone shelf i s = _
  simp only [execChunkMoveDone, h]
  exact if_neg (mt (s.moveEnded_iff c).1 hm)

theorem execChunkMoveDone_of_moved {c : Chunk} (h : s.chunkAt shelf i.toNat = some c) (hm : s.moveEnded c) : exec (.chunkMoveDone shelf i) s =
    .next (({ s with shelf := { s.shelf with chunks := s.shelf.chunks.map fun y => if y == c then { c with moving := false } else y } }
      : State).pumpShelf.passesGo) := by
  show execChunkMoveDone shelf i s = _
  simp only [execChunkMoveDone, h]
  exact if_pos ((s.moveEnded_iff c).2 hm)

end Move

/-- Settles O42: an SHF by what its issue finds, a pop that waits by its record and its turn, and a move by its operations. -/
theorem shelfActs : Obligations.ShelfActs := by
  unfold Obligations.ShelfActs
  refine ⟨fun core list s pop x hx f hf => ?issue, fun s => ⟨fun core list idx h => ?noPop, fun core list idx x h ok hok => ?pop,
    fun shelf i => ⟨execChunkMoveDone_of_none, fun c h => ?move⟩⟩⟩
  case issue =>
    subst hx
    rw [exec_shf]
    refine ⟨fun hn => ?_, fun l d hd => ?_⟩
    · rw [State.shf_of_none (hf.trans hn)]
    have h := hf.trans hd
    refine ⟨fun hfull => ?_, fun hroom hp => ?_, fun hroom hp t ht => ?_⟩
    · rw [State.shf_of_full h hfull]
    · rw [State.shf_of_bad_pairs h hroom hp]
    subst ht
    refine ⟨fun c hc => ?_, fun hnone u hu => ?_⟩
    · rw [State.shf_of_error h hroom hp hc]
      rfl
    · rw [State.shf_of_sound h hroom hp hnone, hu]
      rfl
  case noPop => exact ⟨execShelfOrder_of_none h, fun n => execPopWaitEnd_of_none n h⟩
  case pop =>
    have hready : s.popReady x.desc = ok := hok.symm
    refine ⟨fun n => ⟨fun hno => ?_, fun hw hbad => ?_, fun hw ht hgood u hu => ?_⟩, fun hno => ?_, fun hw hlate u hu => ?_⟩
    · rw [execPopWaitEnd_of_run h, hready]
      obtain hw | ⟨hlate, hgood⟩ := hno
      · rw [hw]
        rfl
      · rw [hlate, hgood, Bool.not_true, Bool.and_false]
        rfl
    · rw [execPopWaitEnd_of_run h, hw, hbad]
      rfl
    · rw [execPopWaitEnd_of_run h, hready, hw, ht, hgood, hu]
      rfl
    · rw [execShelfOrder_of_run h, hready]
      obtain hw | ht := hno
      · rw [hw]
        rfl
      · rw [ht, Bool.not_true, Bool.and_false]
        rfl
    · rw [execShelfOrder_of_run h, hready, hw, hlate, hu]
      rfl
  case move =>
    refine ⟨fun hno => execChunkMoveDone_of_moving h fun ⟨moving, issued, ended⟩ => ?_,
      fun moving issued ended => execChunkMoveDone_of_moved h ⟨moving, issued, ended⟩⟩
    obtain hm | hp | ⟨o, ho, hown⟩ := hno
    · exact Bool.false_ne_true (hm.symm.trans moving)
    · exact hp issued
    · exact ended o ho hown

end Sys2Proof.Machine
end

section
/-!
A mailbox command that its family serves outside Sleep is judged by its own checks alone (Table 3.6).
-/
namespace Sys2Proof.Machine

theorem safetyReady_iff (op : Nat) (r : Req) (s : State) : Safety.ready op r s = true ↔
    (s.commandRuns = true ∧ s.rst.tripped = false ∧ mayBegin op r s.enm.taken = true) ∧ s.servesFamily op = true ∧ s.asleep = false := by
  simp [Safety.ready, Safety.serves, Safety.begins, State.asleep, and_assoc]

/-- The command is answered at once when its length, parameters and state pass; it asks no privilege and denies nothing. -/
theorem Cmd.serve_of_ready {c : Cmd} {r : Req} {s t : State} {p : Reply} (h : Safety.ready c.op r s = true) (hpay : r.pay.length ≤ 240)
    (hlen : c.len r.pay = true) (hparam : c.param s r = true) (hact : c.act s r = (t, some p)) (hstate : c.state s r = true := by rfl)
    (hexpert : c.expert = false := by rfl) (hdenied : c.denied s r = false := by rfl) : c.serve r s = .next (t.respond r.mb c.op r.tag p) := by
  obtain ⟨⟨hruns, htrip, hbegin⟩, hfamily, hawake⟩ := (safetyReady_iff ..).1 h
  have htaken : c.taken r s = true := by simp [Cmd.taken, hruns, htrip, hbegin]
  exact Cmd.serve_reply htaken (Cmd.check_none hpay hlen (.inl hexpert) hparam hfamily (.inl hawake) hstate hdenied) hact

theorem lenIs_iff (n : Nat) (p : List Byte) : lenIs n p = true ↔ p.length = n := by simp [lenIs]

end Sys2Proof.Machine
end

section
/-!
A store writes memory, the check words and the dirty map, and every byte of its range and no other (R441, R476).
-/
namespace Sys2Proof.Machine

theorem memWf_of_canonical {s : State} (h : Safety.canonical s = true) : Memory.wf s.mem = true := ((Bool.and_eq_true _ _).mp h).1

theorem State.freshCheck_eq (s : State) (a n : Nat) : s.freshCheck a n = { s with memc := (s.freshCheck a n).memc } := by
  unfold State.freshCheck
  split <;> rfl

theorem State.markDirty_eq (s : State) (a n : Nat) : s.markDirty a n = { s with dirty := (s.markDirty a n).dirty } := by
  unfold State.markDirty
  split
  · rfl
  · split <;> rfl

@[simp] theorem State.store_mem (s : State) (a : Nat) (bs : List Byte) : (s.store a bs).mem = Memory.write s.mem a bs := by
  rw [State.store, State.markDirty_eq, State.freshCheck_eq]
  rfl

theorem State.store_eq (s : State) (a : Nat) (bs : List Byte) :
    s.store a bs = { s with mem := (s.store a bs).mem, memc := (s.store a bs).memc, dirty := (s.store a bs).dirty } := by
  rw [State.store, State.markDirty_eq, State.freshCheck_eq]
  rfl

theorem State.store_byte_in {s : State} (a : Nat) {bs : List Byte} {i : Nat} (h : Memory.wf s.mem = true) (hi : i < bs.length) :
    (s.store a bs).byte (a + i) = bs[i] := by
  rw [State.byte, State.store_mem]
  exact Memory.write_get_in bs s.mem a i h hi

theorem State.store_byte_out (s : State) {a b : Nat} {bs : List Byte} (h : b < a ∨ a + bs.length ≤ b) : (s.store a bs).byte b = s.byte b := by
  rw [State.byte, State.store_mem]
  exact Memory.write_get_out bs s.mem a b h

/-- What a store of `n` bytes does to `s`, byte `i` of them being `f i`. -/
theorem State.store_exact {s : State} (a : Nat) {bs : List Byte} {n : Nat} {f : Nat → Byte} (hwf : Safety.canonical s = true) (hn : bs.length = n)
    (hf : ∀ i (hi : i < bs.length), bs[i] = f i) :
    s.store a bs = { s with mem := (s.store a bs).mem, memc := (s.store a bs).memc, dirty := (s.store a bs).dirty }
      ∧ (∀ i < n, (s.store a bs).byte (a + i) = f i) ∧ ∀ b, b < a ∨ a + n ≤ b → (s.store a bs).byte b = s.byte b := by
  subst hn
  exact ⟨s.store_eq a bs, fun i hi => (State.store_byte_in a (memWf_of_canonical hwf) hi).trans (hf i hi), fun b hb => s.store_byte_out hb⟩

end Sys2Proof.Machine
end

section
/-!
A number and its bytes (R9), and the bytes of a pattern repeated (MEM_FILL).
-/
namespace Sys2Proof.Machine

theorem leBytes_length (n x : Nat) : (leBytes n x).length = n := by
  induction n generalizing x with
  | zero => rfl
  | succ n ih => exact congrArg (· + 1) (ih _)

theorem leBytes_leNat (bs : List Byte) : leBytes bs.length (leNat bs) = bs := by
  induction bs with
  | nil => rfl
  | cons b bs ih =>
    have hlow : BitVec.ofNat 8 (leNat (b :: bs)) = b := by
      apply BitVec.eq_of_toNat_eq
      simp only [leNat, BitVec.toNat_ofNat]
      omega
    have hrest : leNat (b :: bs) / 256 = leNat bs := by
      have := b.isLt
      simp only [leNat]
      omega
    rw [List.length_cons, leBytes, hlow, hrest, ih]

/-- The bytes of a field that lies within the list. -/
theorem leBytes_bytesAt {bs : List Byte} {at_ n : Nat} (h : at_ + n ≤ bs.length) : leBytes n (bytesAt bs at_ n) = (bs.drop at_).take n := by
  have hlen : ((bs.drop at_).take n).length = n := by
    rw [List.length_take, List.length_drop]
    omega
  have := leBytes_leNat ((bs.drop at_).take n)
  rwa [hlen] at this

theorem length_flatMap_range_const {α : Type} (l : List α) (k : Nat) : ((List.range k).flatMap fun _ => l).length = k * l.length := by
  induction k with
  | zero => exact (Nat.zero_mul _).symm
  | succ k ih => rw [List.range_succ, List.flatMap_append, List.flatMap_singleton, List.length_append, ih, Nat.succ_mul]

theorem patternBytes_length (pattern n : Nat) : (patternBytes pattern n).length = n / 8 * 8 := by
  rw [patternBytes, length_flatMap_range_const, leBytes_length]

/-- A list repeated, byte by byte. -/
theorem getElem?_flatMap_range_const {α : Type} (l : List α) {k i : Nat} (hi : i < k * l.length) :
    ((List.range k).flatMap fun _ => l)[i]? = l[i % l.length]? := by
  induction k with
  | zero => exact absurd hi (by rw [Nat.zero_mul]; exact Nat.not_lt_zero i)
  | succ k ih =>
    have hlen := length_flatMap_range_const l k
    rw [List.range_succ, List.flatMap_append, List.flatMap_singleton]
    by_cases h : i < k * l.length
    · rw [List.getElem?_append_left (hlen ▸ h), ih h]
    · obtain ⟨j, rfl⟩ := Nat.exists_eq_add_of_le (Nat.le_of_not_lt h)
      have hj : j < l.length := by
        rw [Nat.succ_mul] at hi
        omega
      rw [List.getElem?_append_right (by omega), hlen, Nat.add_sub_cancel_left, Nat.mul_add_mod_self_right, Nat.mod_eq_of_lt hj]

/-- Byte `i` of a pattern that a payload carries at its byte `at_`. -/
theorem patternBytes_getElem {p : List Byte} {at_ n i : Nat} (hp : at_ + 8 ≤ p.length) (hi : i < (patternBytes (bytesAt p at_ 8) n).length) :
    (patternBytes (bytesAt p at_ 8) n)[i] = p.getD (at_ + i % 8) 0 := by
  have hrange : i < n / 8 * (leBytes 8 (bytesAt p at_ 8)).length := by
    rw [leBytes_length]
    rwa [patternBytes_length] at hi
  have hbyte := getElem?_flatMap_range_const _ hrange
  have hmod : i % 8 < 8 := Nat.mod_lt _ (by decide)
  rw [leBytes_length, leBytes_bytesAt hp, List.getElem?_take_of_lt hmod, List.getElem?_drop] at hbyte
  rw [List.getD_eq_getElem?_getD, ← hbyte, ← leBytes_bytesAt hp, ← patternBytes, List.getElem?_eq_getElem hi, Option.getD_some]

end Sys2Proof.Machine
end

section
/-!
What a read of a range meets in what memory holds (R441 to R443, R447).
-/
namespace Sys2Proof.Machine

/-- A list cut to the first member of each class is empty only when it was empty. -/
theorem foldl_firsts_eq_nil_iff {α : Type} (same : α → α → Bool) (xs l : List α) :
    xs.foldl (fun l x => if l.any fun y => same y x then l else l ++ [x]) l = [] ↔ l = [] ∧ xs = [] := by
  induction xs generalizing l with
  | nil => simp
  | cons x xs ih =>
    rw [List.foldl_cons, ih]
    cases l with
    | nil => simp
    | cons y ys => split <;> simp

/-- No unit of 32 bytes that the range touches is poisoned or struck. -/
def State.ReadsClean (s : State) (a n : Nat) : Prop :=
  (∀ u ∈ s.memc.poison, 32 * u + 32 ≤ a ∨ a + n ≤ 32 * u) ∧ ∀ x ∈ s.memc.struck, 32 * x.1 + 32 ≤ a ∨ a + n ≤ 32 * x.1

theorem State.metUnits_eq_nil_iff (s : State) (a n : Nat) : s.metUnits a n = [] ↔ s.ReadsClean a n := by
  have hmiss (u : Nat) : ¬ decide (a < 32 * u + 32 ∧ 32 * u < a + n) = true ↔ (32 * u + 32 ≤ a ∨ a + n ≤ 32 * u) := by
    rw [decide_eq_true_iff]
    omega
  have hsplit (l : List (Nat × Fin 3)) : l.filter (·.2 == 0) = [] ∧ l.filter (·.2 != 0) = [] ↔ l = [] := by
    cases l with
    | nil => simp
    | cons x xs => by_cases hx : x.2 = 0 <;> simp [hx]
  rw [State.metUnits, List.append_eq_nil_iff, foldl_firsts_eq_nil_iff fun y x : Nat × Fin 3 => y.1 / 4096 == x.1 / 4096, eq_self, true_and,
    List.append_eq_nil_iff, ← and_assoc, hsplit, List.map_eq_nil_iff, List.map_eq_nil_iff, List.filter_eq_nil_iff, List.filter_eq_nil_iff, and_comm]
  simp only [hmiss, State.ReadsClean]

theorem State.meetRead_of_clean {s : State} {a n : Nat} (h : s.ReadsClean a n) : s.meetRead a n = s := by
  rw [State.meetRead, (s.metUnits_eq_nil_iff a n).2 h]
  rfl

theorem State.meetRead_of_single {s : State} {a n : Nat} {y : Nat × Fin 3} (h : s.metUnits a n = [y]) :
    s.meetRead a n = if y.2 = 0 then s.correctable y.1 else (s.recordUe y.1 (y.2 == 2)).ueHandle none y.1 := by
  rw [State.meetRead, h]
  rfl

end Sys2Proof.Machine
end

section
/-!
O16: the commands on memory (R336, R437, R457, R461, R572). That the lowest free window is given, and that MEM_READ answers OK with what memory
holds on a unit that fails (log entry 101), are the model's choices.
-/
namespace Sys2Proof.Machine

theorem memRangeOk_of {s : State} {r : Req} (hlo : 1 ≤ r.at 8 4) (hhi : r.at 8 4 ≤ 224) (hr : s.rangeOk allTiers (r.at 0 8) (r.at 8 4) = true) :
    memRangeOk s r = true := by simp [memRangeOk, hlo, hhi, hr]

/-- The first free window is the one with none free below it. -/
theorem findIdx_isNone_eq {α : Type} {l : List (Option α)} {w : Nat} (hw : l[w]? = some none) (hlow : ∀ i < w, l[i]? ≠ some none) :
    l.findIdx Option.isNone = w := by
  obtain ⟨hlt, hnone⟩ := List.getElem?_eq_some_iff.1 hw
  refine (List.findIdx_eq hlt).2 ⟨by rw [hnone, Option.isNone_none], fun i hi => ?_⟩
  have hi' : i < l.length := Nat.lt_trans hi hlt
  have := hlow i hi
  rw [List.getElem?_eq_getElem hi', ne_eq, Option.some_inj] at this
  rwa [Option.isNone_eq_false_iff, Option.isSome_iff_ne_none]

/-- The window that MEM_WINDOW_OPEN asks for on behalf of session `n`. -/
def requestedWindow (r : Req) (n : Nat) : Window := ⟨n, r.at 0 8, r.at 8 8, decide (r.at 16 1 ≠ 1), decide (r.at 16 1 ≠ 0)⟩

theorem cmdMemWindowOpen_act {r : Req} {s : State} {n w : Nat} (hposter : s.posterOf r.mb = some n) (hw : s.lys.windows[w]? = some none)
    (hlow : ∀ i < w, s.lys.windows[i]? ≠ some none) : cmdMemWindowOpen.act s r =
      ({ s with lys := { s.lys with windows := s.lys.windows.set w (some (requestedWindow r n)) } }, some (.ok (leBytes 1 w))) := by
  have hne (a b : Nat) : (a != b) = decide (a ≠ b) := by by_cases h : a = b <;> simp [h]
  simp only [cmdMemWindowOpen, hposter, findIdx_isNone_eq hw hlow, requestedWindow, Option.getD_some, hne]

/-- Settles O16, command by command: each passes the checks of Table 3.6 and acts; MEM_WRITE and MEM_FILL by what a store does, MEM_READ by what
its range meets. -/
theorem memoryCommandsAct : Obligations.MemoryCommandsAct := by
  unfold Obligations.MemoryCommandsAct
  intro r s
  refine ⟨fun h hlen ha hsize hmode hres hrange n hposter w hw hlow => ?windowOpen, fun h hlen hlt w hw => ?windowClose, fun h hlen hlo hhi hrange => ?read,
    fun h hlen hlo hhi hrange hwf => ?write, fun h hlen ha hn hrange hwf => ?fill, fun h hlen => ?info, fun h hlen hle => ?scrub,
    fun h hlen hlo hhi => ?shelfLimit⟩
  case windowOpen =>
    have hfree : s.lys.windows.any Option.isNone = true := List.any_eq_true.2 ⟨none, List.mem_of_getElem? hw, rfl⟩
    refine Cmd.serve_of_ready (c := cmdMemWindowOpen) h (by omega) ((lenIs_iff ..).2 hlen) ?_ (cmdMemWindowOpen_act hposter hw hlow) ?_
    · simp [cmdMemWindowOpen, ha, hsize, hmode, hres, hrange]
    · simp [cmdMemWindowOpen, hposter, hfree]
  case windowClose =>
    refine Cmd.serve_of_ready (c := cmdMemWindowClose) h (by omega) ((lenIs_iff ..).2 hlen) (decide_eq_true hlt) rfl ?_
    simp [cmdMemWindowClose, hw]
  case read =>
    have hserve : exec (.memRead r) s = .next ((s.meetRead (r.at 0 8) (r.at 8 4)).respond r.mb 0x0403 r.tag
        ⟨0, (List.range (r.at 8 4)).map fun i => s.byte (r.at 0 8 + i)⟩) :=
      Cmd.serve_of_ready (c := cmdMemRead) h (by omega) ((lenIs_iff ..).2 hlen) (memRangeOk_of hlo hhi hrange) rfl
    refine ⟨fun hclear => ?_, fun hmet => ⟨hserve, fun hnil => hmet ((s.metUnits_eq_nil_iff ..).1 hnil)⟩, fun a n y hy => State.meetRead_of_single hy⟩
    rw [hserve, State.meetRead_of_clean hclear]
  case write =>
    refine ⟨_, Cmd.serve_of_ready (c := cmdMemWrite) h (by omega) (beq_iff_eq.2 hlen) (memRangeOk_of hlo hhi hrange) rfl, ?_⟩
    refine State.store_exact _ hwf (by rw [List.length_drop]; omega) fun i hi => ?_
    rw [List.length_drop] at hi
    rw [List.getElem_drop, List.getD_eq_getElem?_getD, List.getElem?_eq_getElem (by omega), Option.getD_some]
  case fill =>
    have hpay : 16 + 8 ≤ r.pay.length := Nat.le_of_eq hlen.symm
    refine ⟨_, Cmd.serve_of_ready (c := cmdMemFill) h (by omega) ((lenIs_iff ..).2 hlen) (by simp [cmdMemFill, ha, hn, hrange]) rfl, ?_⟩
    exact State.store_exact _ hwf (by rw [patternBytes_length]; omega) fun i hi => patternBytes_getElem hpay hi
  case info => exact Cmd.serve_of_ready (c := cmdMemInfo) h (by simp [hlen]) ((lenIs_iff ..).2 (by simp [hlen])) rfl rfl
  case scrub => exact Cmd.serve_of_ready (c := cmdMemScrub) h (by omega) ((lenIs_iff ..).2 hlen) (decide_eq_true hle) rfl
  case shelfLimit =>
    refine ⟨_, Cmd.serve_of_ready (c := cmdMemShelfLimit) h (by omega) ((lenIs_iff ..).2 hlen) (decide_eq_true ⟨hlo, hhi⟩) rfl, rfl,
      s.queueReg_pendingReg_self R.shelfLimit _, fun k hk => s.queueReg_pendingReg_ne k R.shelfLimit _ hk⟩

end Sys2Proof.Machine
end

section
/-!
The gate of an update operation: what it answers for an operation that it does not let run, and the state in which one that it lets run begins
(R347, R361, R362, R366).
-/
namespace Sys2Proof.Machine

/-- A record's copy is sound: its complement pairs and its ECC hold (Table 9.6). -/
theorem State.updRecOk_iff (s : State) (u : Nat) : s.updRecOk u = true ↔ recPairsOk (s.updRec u).stat = true ∧ s.spoilt (.update u) = false := by
  simp [State.updRecOk]

/-- The cycles that a gated operation has waited since it was last given, counted (R347, R361): for the gate, and for pins where it waits on them. -/
def State.gateWaited (s : State) (waits : Bool) (gateWait pinWait : Word) : State :=
  if waits then (s.count R.gateWaitCycles gateWait.toNat).verWait pinWait else s.count R.gateWaitCycles gateWait.toNat

theorem State.gateWaited_eq (s : State) (waits : Bool) (gateWait pinWait : Word) : s.gateWaited waits gateWait pinWait =
    if waits = true ∧ pinWait ≠ 0 then ((s.count R.gateWaitCycles gateWait.toNat).orReg R.updStatus 2).count R.verWaitCycles pinWait.toNat
    else s.count R.gateWaitCycles gateWait.toNat := by
  cases waits with
  | false => rfl
  | true => by_cases h : pinWait = 0 <;> simp [State.gateWaited, State.verWait, h]

/-- An operation that waits on pins finds some on the target slot (R361). -/
def UpdRec.holdsBack (r : UpdRec) (waits : Bool) : Bool := waits && r.ref r.target != 0

theorem UpdRec.holdsBack_iff (r : UpdRec) (waits : Bool) : r.holdsBack waits = true ↔ waits = true ∧ r.ref r.target ≠ 0 := by
  simp [UpdRec.holdsBack]

theorem UpdRec.holdsBack_eq_false_iff (r : UpdRec) (waits : Bool) : r.holdsBack waits = false ↔ waits = false ∨ r.ref r.target = 0 := by
  cases waits <;> simp [UpdRec.holdsBack]

/-- What becomes of a gated operation that the gate does not let run; none for one that runs. -/
def State.gateAnswer (s : State) (core : Nat) (l : DList) (d : Desc) (waits : Bool) (gateWait pinWait : Word) : Option State :=
  let r := s.updRec (uRec d)
  let w := s.gateWaited waits gateWait pinWait
  if vodPairsOk d = false then some (s.descFault core)
  else if vCount d = 0 then some ((s.issue l).drain l.ref)
  else if s.field R.gate 0 2 = 0 then some w
  else if s.field R.gate 0 2 = 2 then
    some (if r.holdsBack waits then w.orReg R.updStatus 2 else (((w.issue l).count R.skippedUpdates).noteSkip l.ref).drain l.ref)
  else if s.updRecOk (uRec d) = false then some ((w.issue l).updErr l.ref d 5)
  else if r.committed then some ((w.issue l).updErr l.ref d 2)
  else if r.holdsBack waits then some (w.orReg R.updStatus 2)
  else none

/-- The state in which an operation that the gate lets run begins: it has issued, and one that waits on pins has set UPDATING (R361). -/
def State.gatePassed (s : State) (l : DList) (d : Desc) (waits : Bool) (gateWait pinWait : Word) : State :=
  let u := (s.gateWaited waits gateWait pinWait).issue l
  if waits then u.setRec (uRec d) { s.updRec (uRec d) with updating := true } else u

/-- The end of an operation that ran: its work drains, or it is an error of the group kind (R356, R357, R366). -/
def endUpd (l : DList) (d : Desc) (o : State × Bool) : State := if o.2 then o.1.drain l.ref else o.1.updErr l.ref d 4

@[simp] theorem endUpd_true (l : DList) (d : Desc) (s : State) : endUpd l d (s, true) = s.drain l.ref := if_pos rfl
@[simp] theorem endUpd_false (l : DList) (d : Desc) (s : State) : endUpd l d (s, false) = s.updErr l.ref d 4 := if_neg Bool.false_ne_true

section Answers

variable {s : State} {core num op : Nat} {waits : Bool} {gateWait pinWait : Word} {l : DList} {d : Desc}

theorem State.updRecOk_gateWaited (u : Nat) : (s.gateWaited waits gateWait pinWait).updRecOk u = s.updRecOk u := by
  rw [State.gateWaited_eq]
  split <;> rfl

theorem State.gated_of_next (h : s.nextUpd core num op = some (l, d)) (run : State → DescRef → Desc → UpdRec → State × Bool) :
    s.gated core num op waits gateWait pinWait run = (s.gateAnswer core l d waits gateWait pinWait).getD
      (let v := s.gatePassed l d waits gateWait pinWait
       endUpd l d (run v l.ref d (v.updRec (uRec d)))) := by
  obtain ⟨w, hw⟩ : ∃ w, w = s.gateWaited waits gateWait pinWait := ⟨_, rfl⟩
  obtain ⟨v, hv⟩ : ∃ v, v = s.gatePassed l d waits gateWait pinWait := ⟨_, rfl⟩
  have hok : w.updRecOk (uRec d) = s.updRecOk (uRec d) := by rw [hw, State.updRecOk_gateWaited]
  simp only [State.gateAnswer, ← hw, ← hv, UpdRec.holdsBack]
  rw [State.gatePassed, ← hw] at hv
  rw [State.gateWaited] at hw
  simp only [State.gated, h, ← hw, hok, ← hv, Bool.not_eq_true']
  clear hw hv
  by_cases hp : vodPairsOk d = false
  · simp only [if_pos hp, Option.getD_some]
  simp only [if_neg hp]
  by_cases hc : vCount d = 0
  · simp only [if_pos hc, Option.getD_some]
  simp only [if_neg hc]
  by_cases h0 : s.field R.gate 0 2 = 0
  · simp only [if_pos h0, Option.getD_some]
  simp only [if_neg h0]
  by_cases h2 : s.field R.gate 0 2 = 2
  · simp only [if_pos h2, Option.getD_some]
  simp only [if_neg h2]
  by_cases hs : s.updRecOk (uRec d) = false
  · simp only [if_pos hs, Option.getD_some]
  simp only [if_neg hs]
  by_cases hcm : (s.updRec (uRec d)).committed = true
  · simp only [if_pos hcm, Option.getD_some]
  simp only [if_neg hcm]
  by_cases hb : (waits && (s.updRec (uRec d)).ref (s.updRec (uRec d)).target != 0) = true
  · simp only [if_pos hb, Option.getD_some]
  simp only [if_neg hb, Option.getD_none]
  obtain ⟨t, b⟩ := run v l.ref d (v.updRec (uRec d))
  cases b with
  | false => exact (endUpd_false l d t).symm
  | true => exact (endUpd_true l d t).symm

/-- What the gate answers is all that an operation does which it does not let run. -/
theorem State.gated_of_answer (h : s.nextUpd core num op = some (l, d)) {t : State} (ht : s.gateAnswer core l d waits gateWait pinWait = some t)
    (run : State → DescRef → Desc → UpdRec → State × Bool) : s.gated core num op waits gateWait pinWait run = t := by
  rw [State.gated_of_next h, ht]
  rfl

/-- The gate answers nothing where it has been set to PASS, for a record that is sound and not committed and that no pins hold back. -/
theorem State.gateAnswer_eq_none (hp : vodPairsOk d = true) (hc : vCount d ≠ 0) (hg : s.field R.gate 0 2 = 1) (hok : s.updRecOk (uRec d) = true)
    (hcm : (s.updRec (uRec d)).committed = false) (hb : (s.updRec (uRec d)).holdsBack waits = false) :
    s.gateAnswer core l d waits gateWait pinWait = none := by
  have h0 : s.field R.gate 0 2 ≠ 0 := by omega
  have h2 : s.field R.gate 0 2 ≠ 2 := by omega
  have hp' : ¬ vodPairsOk d = false := by rw [hp]; decide
  have hok' : ¬ s.updRecOk (uRec d) = false := by rw [hok]; decide
  rw [State.gateAnswer, if_neg hp', if_neg hc, if_neg h0, if_neg h2, if_neg hok',
    if_neg (Bool.eq_false_iff.1 hcm), if_neg (Bool.eq_false_iff.1 hb)]

theorem State.gated_of_pass (h : s.nextUpd core num op = some (l, d)) (hn : s.gateAnswer core l d waits gateWait pinWait = none)
    (run : State → DescRef → Desc → UpdRec → State × Bool) : s.gated core num op waits gateWait pinWait run =
      let v := s.gatePassed l d waits gateWait pinWait
      endUpd l d (run v l.ref d (v.updRec (uRec d))) := by
  rw [State.gated_of_next h, hn]
  rfl

/-- R362: a VER_COMMIT that the gate lets run is an error unless UPDATING is set. -/
theorem State.verCommit_of_next (h : s.nextUpd core num 0x2A = some (l, d)) : s.verCommit core num gateWait =
    if s.field R.gate 0 2 = 1 ∧ vodPairsOk d = true ∧ vCount d ≠ 0 ∧ s.updRecOk (uRec d) = true ∧ (s.updRec (uRec d)).committed = false
        ∧ (s.updRec (uRec d)).updating = false then ((s.count R.gateWaitCycles gateWait.toNat).issue l).updErr l.ref d 3
    else s.gated core num 0x2A false gateWait 0 fun s _ d r =>
      ((s.setRec (uRec d) { r with version := r.version + 1, updating := false, committed := true }).count R.commits, true) := by
  simp only [State.verCommit, h, Bool.and_eq_true, beq_iff_eq, bne_iff_ne, Bool.not_eq_true', and_assoc]

/-- What waits on no pins has waited for none. -/
theorem State.gateAnswer_false (pinWait : Word) : s.gateAnswer core l d false gateWait pinWait = s.gateAnswer core l d false gateWait 0 := rfl

theorem State.verCommit_of_answer (h : s.nextUpd core num 0x2A = some (l, d)) {t : State} (ht : s.gateAnswer core l d false gateWait 0 = some t) :
    s.verCommit core num gateWait = t := by
  rw [State.verCommit_of_next h, if_neg, State.gated_of_answer h ht]
  rintro ⟨hg, hp, hc, hok, hcm, -⟩
  rw [State.gateAnswer_eq_none hp hc hg hok hcm rfl] at ht
  cases ht

end Answers

/-- The gated operations of list `list` of core `core`, each with its OP and whether it waits on pins (Table 9.5). -/
def gatedOps (core : Fin 256) (list : Fin 8) (gateWait pinWait : Word) : List (Instr × Nat × Bool) :=
  [(.sgdMom core list gateWait, 0x20, false), (.adamMom core list gateWait, 0x21, false), (.applyUpd core list gateWait pinWait, 0x22, true),
   (.chScales core list gateWait pinWait, 0x23, true), (.quant core list gateWait pinWait, 0x24, true), (.gmov core list gateWait, 0x25, false),
   (.gradPass core list gateWait, 0x26, false), (.verCommit core list gateWait, 0x2A, false)]

theorem exec_of_mem_gatedOps {core : Fin 256} {list : Fin 8} {gateWait pinWait : Word} {s t : State} {l : DList} {d : Desc} :
    ∀ x ∈ gatedOps core list gateWait pinWait, s.nextUpd core list x.2.1 = some (l, d) →
      s.gateAnswer core l d x.2.2 gateWait pinWait = some t → exec x.1 s = .next t := by
  have pinned {op : Nat} (run : State → DescRef → Desc → UpdRec → State × Bool) (h : s.nextUpd core list op = some (l, d))
      (ht : s.gateAnswer core l d true gateWait pinWait = some t) :
      (.next (s.gated core list op true gateWait pinWait run) : Outcome) = .next t := congrArg _ (State.gated_of_answer h ht run)
  have unpinned {op : Nat} (run : State → DescRef → Desc → UpdRec → State × Bool) (h : s.nextUpd core list op = some (l, d))
      (ht : s.gateAnswer core l d false gateWait pinWait = some t) :
      (.next (s.gated core list op false gateWait 0 run) : Outcome) = .next t :=
    congrArg _ (State.gated_of_answer h ((State.gateAnswer_false pinWait).symm.trans ht) run)
  simp only [gatedOps, List.forall_mem_cons, List.not_mem_nil, false_implies, implies_true, and_true]
  exact ⟨unpinned _, unpinned _, pinned _, pinned _, pinned _, unpinned _, unpinned _,
    fun h ht => congrArg _ (State.verCommit_of_answer h ((State.gateAnswer_false pinWait).symm.trans ht))⟩

/-- Settles O36, by what the gate answers in each of its states. -/
theorem updateGateDecides : Obligations.UpdateGateDecides := by
  unfold Obligations.UpdateGateDecides
  intro core list gw pw s l d x hx hnext w0 w r sound
  have gives {t : State} (ht : s.gateAnswer core l d x.2.2 gw pw = some t) : exec x.1 s = .next t := exec_of_mem_gatedOps x hx hnext ht
  have hw : s.gateWaited x.2.2 gw pw = w := s.gateWaited_eq x.2.2 gw pw
  have hok : s.updRecOk (uRec d) = true ↔ sound := s.updRecOk_iff _
  have field : s.field R.gate 0 2 = bits (s.reg R.gate) 0 2 := rfl
  have hr : s.updRec (uRec d) = r := rfl
  refine ⟨fun hp => gives ?_, fun hp hc => gives ?_, fun hp hc => ⟨fun hg => gives ?_, fun hg hx hpins => gives ?_, fun hg hpins => gives ?_,
    fun hg hs => gives ?_, fun hg hs hcm => gives ?_, fun hg hs hcm hx hpins => gives ?_⟩⟩
  · simp [State.gateAnswer, hp]
  · simp [State.gateAnswer, hp, hc]
  · simp [State.gateAnswer, hp, hc, field, hg, hw]
  · simp [State.gateAnswer, hp, hc, field, hg, hw, hr, (r.holdsBack_iff _).2 ⟨hx, hpins⟩]
  · simp [State.gateAnswer, hp, hc, field, hg, hw, hr, (r.holdsBack_eq_false_iff _).2 hpins]
  · simp [State.gateAnswer, hp, hc, field, hg, hw, mt hok.1 hs]
  · simp [State.gateAnswer, hp, hc, field, hg, hw, hr, hok.2 hs, hcm]
  · simp [State.gateAnswer, hp, hc, field, hg, hw, hr, hok.2 hs, hcm, (r.holdsBack_iff _).2 ⟨hx, hpins⟩]

end Sys2Proof.Machine
end

section
/-!
O38: pins of versions (R359 to R361, R366).
-/
namespace Sys2Proof.Machine

section Pin

variable {core : Fin 256} {list : Fin 8} {wait : Word} {s : State} {l : DList} {d : Desc} (h : s.nextUpd core list 0x28 = some (l, d))
include h

theorem execVerPin_of_bad_pairs (hp : vodPairsOk d = false) : exec (.verPin core list wait) s = .next (s.descFault core) := by
  show execVerPin core list wait s = _
  simp [execVerPin, h, hp]

theorem execVerPin_of_unsound (hp : vodPairsOk d = true) (hs : s.updRecOk (uRec d) = false) :
    exec (.verPin core list wait) s = .next (((s.verWait wait).issue l).updErr l.ref d 5) := by
  show execVerPin core list wait s = _
  simp [execVerPin, h, hp, hs]

variable (hp : vodPairsOk d = true) (hs : s.updRecOk (uRec d) = true)
include hp hs

/-- R361: under FLUSH a pin waits while UPDATING is set. -/
theorem execVerPin_of_updating (hf : (s.updRec (uRec d)).stash = false) (hu : (s.updRec (uRec d)).updating = true) :
    exec (.verPin core list wait) s = .next ((s.verWait wait).orReg R.updStatus 2) := by
  show execVerPin core list wait s = _
  simp [execVerPin, h, hp, hs, hf, hu]

variable (hf : (s.updRec (uRec d)).stash = true ∨ (s.updRec (uRec d)).updating = false)
include hf

theorem execVerPin_of_held (hx : (s.updRec (uRec d)).pin (uShelf d) ≠ 0) :
    exec (.verPin core list wait) s = .next (((s.verWait wait).issue l).updErr l.ref d 1) := by
  show execVerPin core list wait s = _
  obtain hf | hf := hf <;> simp [execVerPin, h, hp, hs, hf, hx]

theorem execVerPin_of_free {r : UpdRec} (hr : s.updRec (uRec d) = r) (hx : r.pin (uShelf d) = 0) :
    exec (.verPin core list wait) s = .next ((((s.verWait wait).issue l).setRec (uRec d)
      { r.setRef r.current (r.ref r.current + 1) with pins := setBits r.pins (2 * uShelf d) 2 (2 + r.current) }).drain l.ref) := by
  subst hr
  show execVerPin core list wait s = _
  obtain hf | hf := hf <;> simp [execVerPin, h, hp, hs, hf, hx]

end Pin

section Unpin

variable {core : Fin 256} {list : Fin 8} {s : State} {l : DList} {d : Desc} (h : s.nextUpd core list 0x29 = some (l, d))
include h

theorem execVerUnpin_of_bad_pairs (hp : vodPairsOk d = false) : exec (.verUnpin core list) s = .next (s.descFault core) := by
  show execVerUnpin core list s = _
  simp [execVerUnpin, h, hp]

theorem execVerUnpin_of_unsound (hp : vodPairsOk d = true) (hs : s.updRecOk (uRec d) = false) :
    exec (.verUnpin core list) s = .next ((s.issue l).updErr l.ref d 5) := by
  show execVerUnpin core list s = _
  simp [execVerUnpin, h, hp, hs]

variable (hp : vodPairsOk d = true) (hs : s.updRecOk (uRec d) = true)
include hp hs

theorem execVerUnpin_of_free (hx : (s.updRec (uRec d)).pin (uShelf d) = 0) :
    exec (.verUnpin core list) s = .next ((s.issue l).updErr l.ref d 1) := by
  show execVerUnpin core list s = _
  simp [execVerUnpin, h, hp, hs, hx]

theorem execVerUnpin_of_held {r : UpdRec} {slot : Nat} (hr : s.updRec (uRec d) = r) (hx : r.pin (uShelf d) = 2 + slot) :
    exec (.verUnpin core list) s = .next (((s.issue l).setRec (uRec d)
      { r.setRef slot (r.ref slot - 1) with pins := setBits r.pins (2 * uShelf d) 2 0 }).drain l.ref) := by
  subst hr
  show execVerUnpin core list s = _
  simp [execVerUnpin, h, hp, hs, hx]

end Unpin

/-- Settles O38, by what VER_PIN and VER_UNPIN do with a record that is sound or not, updating or not, pinned or not. -/
theorem versionPinsAct : Obligations.VersionPinsAct := by
  unfold Obligations.VersionPinsAct
  intro core list wait s l d r hr sound w
  subst hr
  have hok : s.updRecOk (uRec d) = true ↔ sound := s.updRecOk_iff _
  have hbad : ¬ sound → s.updRecOk (uRec d) = false := fun hs => Bool.eq_false_iff.2 (mt hok.1 hs)
  exact ⟨fun h => ⟨execVerPin_of_bad_pairs h, fun hp hs => execVerPin_of_unsound h hp (hbad hs),
      fun hp hs hf hu => execVerPin_of_updating h hp (hok.2 hs) hf hu,
      fun hp hs hf => ⟨execVerPin_of_held h hp (hok.2 hs) hf, execVerPin_of_free h hp (hok.2 hs) hf rfl⟩⟩,
    fun h => ⟨execVerUnpin_of_bad_pairs h, fun hp hs => execVerUnpin_of_unsound h hp (hbad hs), fun hp hs => execVerUnpin_of_free h hp (hok.2 hs),
      fun hp hs slot _ => execVerUnpin_of_held h hp (hok.2 hs) rfl⟩⟩

end Sys2Proof.Machine
end

section
/-!
The update operations that the gate lets run: how each begins and what it runs (R350 to R357, R361, R362).
-/
namespace Sys2Proof.Machine

/-! ### Records -/

@[simp] theorem State.issue_upd (s : State) (l : DList) : (s.issue l).upd = s.upd := (s.issue_frame_refl l).upd rfl

theorem State.updRec_congr {s t : State} (h : t.upd = s.upd) (u : Nat) : t.updRec u = s.updRec u := by unfold State.updRec; rw [h]

theorem State.setRec_updRec_self {s : State} (u : Nat) (r : UpdRec) (h : Sparse.wf (fun _ => ({} : UpdRec)) s.upd.recs = true) :
    (s.setRec u r).updRec u = r := Sparse.get_put_self (fun _ => ({} : UpdRec)) s.upd.recs u r h

theorem State.gateWaited_upd (s : State) (waits : Bool) (gateWait pinWait : Word) : (s.gateWaited waits gateWait pinWait).upd = s.upd := by
  rw [State.gateWaited_eq]
  split <;> rfl

theorem State.gateWaited_cores (s : State) (waits : Bool) (gateWait pinWait : Word) : (s.gateWaited waits gateWait pinWait).cores = s.cores := by
  rw [State.gateWaited_eq]
  split <;> rfl

theorem State.gatePassed_cores (s : State) (l : DList) (d : Desc) (waits : Bool) (gateWait pinWait : Word) :
    (s.gatePassed l d waits gateWait pinWait).cores = s.cores := by
  refine Eq.trans ?_ (s.gateWaited_cores waits gateWait pinWait)
  cases waits <;> exact State.issue_cores _ l

theorem State.gatePassed_frame {ω : Nat} (hw : Within 0x22800040 ω) {r s : State} (l : DList) (d : Desc) (waits : Bool) (gateWait pinWait : Word)
    (h : Frame ω r s) : Frame ω r (s.gatePassed l d waits gateWait pinWait) := by
  have counted : Frame ω r (s.count R.gateWaitCycles gateWait.toNat) := State.count_frame (hw.mono (by decide)) h
  cases waits with
  | false => exact State.issue_frame (hw.mono (by decide)) counted
  | true =>
    exact State.setRec_frame (hw.mono (by decide)) (State.issue_frame (hw.mono (by decide)) (State.verWait_frame (hw.mono (by decide)) counted))

/-! ### What the gate lets run -/

/-- The gate has been set to PASS, and descriptor `d` names record `r`, which is sound and not committed in the step. -/
structure GatePasses (s : State) (d : Desc) (r : UpdRec) : Prop where
  pairs : vodPairsOk d = true
  count : vCount d ≠ 0
  gate : bits (s.reg R.gate) 0 2 = 1
  record : s.updRec (bits d 448 12) = r
  recPairs : recPairsOk r.stat = true
  ecc : s.spoilt (.update (bits d 448 12)) = false
  fresh : r.committed = false

section Passes

variable {s : State} {core num op : Nat} {gateWait pinWait : Word} {l : DList} {d : Desc} {r : UpdRec} (hpass : GatePasses s d r)
include hpass

theorem GatePasses.updRecOk : s.updRecOk (uRec d) = true := (s.updRecOk_iff _).2 ⟨hpass.record ▸ hpass.recPairs, hpass.ecc⟩

theorem GatePasses.gateAnswer_eq_none {waits : Bool} (hb : r.holdsBack waits = false) : s.gateAnswer core l d waits gateWait pinWait = none := by
  have hr : s.updRec (uRec d) = r := hpass.record
  exact State.gateAnswer_eq_none hpass.pairs hpass.count hpass.gate hpass.updRecOk (hr ▸ hpass.fresh) (hr ▸ hb)

/-- An operation that waits on no pins runs on the record as it is. -/
theorem GatePasses.gated_of_unpinned (h : s.nextUpd core num op = some (l, d)) (run : State → DescRef → Desc → UpdRec → State × Bool) :
    s.gated core num op false gateWait 0 run = endUpd l d (run ((s.count R.gateWaitCycles gateWait.toNat).issue l) l.ref d r) := by
  have hr : (s.gatePassed l d false gateWait 0).updRec (uRec d) = r := (State.updRec_congr (State.issue_upd _ l) _).trans hpass.record
  rw [State.gated_of_pass h (hpass.gateAnswer_eq_none rfl)]
  dsimp only
  rw [hr]
  rfl

theorem GatePasses.updRec_gatePassed (hwf : Sparse.wf (fun _ => ({} : UpdRec)) s.upd.recs = true) :
    (s.gatePassed l d true gateWait pinWait).updRec (uRec d) = { r with updating := true } := by
  have hwf' : Sparse.wf (fun _ => ({} : UpdRec)) ((s.gateWaited true gateWait pinWait).issue l).upd.recs = true := by
    rwa [State.issue_upd, State.gateWaited_upd]
  exact hpass.record ▸ State.setRec_updRec_self (uRec d) _ hwf'

/-- One that waits on pins runs on the record with UPDATING set (R361). -/
theorem GatePasses.gated_of_pinned (h : s.nextUpd core num op = some (l, d)) (hb : r.ref r.target = 0)
    (hwf : Sparse.wf (fun _ => ({} : UpdRec)) s.upd.recs = true) (run : State → DescRef → Desc → UpdRec → State × Bool) :
    s.gated core num op true gateWait pinWait run =
      endUpd l d (run (s.gatePassed l d true gateWait pinWait) l.ref d { r with updating := true }) := by
  rw [State.gated_of_pass h (hpass.gateAnswer_eq_none ((r.holdsBack_eq_false_iff true).2 (.inr hb)))]
  dsimp only
  rw [hpass.updRec_gatePassed hwf]

theorem GatePasses.verCommit_of_not_updating (h : s.nextUpd core num 0x2A = some (l, d)) (hu : r.updating = false) :
    s.verCommit core num gateWait = ((s.count R.gateWaitCycles gateWait.toNat).issue l).updErr l.ref d 3 := by
  have hr : s.updRec (uRec d) = r := hpass.record
  rw [State.verCommit_of_next h, if_pos ⟨hpass.gate, hpass.pairs, hpass.count, hpass.updRecOk, hr ▸ hpass.fresh, hr ▸ hu⟩]

theorem GatePasses.verCommit_of_updating (h : s.nextUpd core num 0x2A = some (l, d)) (hu : r.updating = true) :
    s.verCommit core num gateWait = ((((s.count R.gateWaitCycles gateWait.toNat).issue l).setRec (uRec d)
      { r with version := r.version + 1, updating := false, committed := true }).count R.commits).drain l.ref := by
  have hr : s.updRec (uRec d) = r := hpass.record
  rw [State.verCommit_of_next h, if_neg, hpass.gated_of_unpinned h]
  · rfl
  · rintro ⟨-, -, -, -, -, hn⟩
    rw [hr, hu] at hn
    cases hn

end Passes

/-! ### APPLY (R353, R356) -/

theorem State.applyVec_eq_none_iff (s : State) (core : Nat) (d : Desc) (r : UpdRec) (i : Nat) : s.applyVec core d r i = none ↔
    r.cfmt ≠ 0 ∧ 64 ≤ Sparse.get 0 (s.arr core).chCount (bits d 448 12) / max 1 r.chVecs := by
  show (if _ then none else some _) = none ↔ _
  split
  next h => exact iff_of_true rfl h
  next h => exact iff_of_false (by simp) h

/-- Vector `i` of an APPLY after those before it, and whether each so far has had a place in the amax file. -/
def State.applyNext (core : Nat) (d : Desc) (r : UpdRec) (o : State × Bool) (i : Nat) : State × Bool :=
  if o.2 then (match o.1.applyVec core d r i with
    | some s' => (s', true)
    | none => (o.1, false)) else o

/-- The vectors of an APPLY, up to the first that has no place in the amax file. -/
def State.applyRun (s : State) (core : Nat) (d : Desc) (r : UpdRec) : State × Bool :=
  (List.range (vCount d)).foldl (State.applyNext core d r) (s, true)

theorem State.applyRun_frame {ω : Nat} (hw : Within 0x10c006040 ω) {q s : State} (core : Nat) (d : Desc) (r : UpdRec) (h : Frame ω q s) :
    Frame ω q (s.applyRun core d r).1 := by
  refine foldl_keeps (P := fun o : State × Bool => Frame ω q o.1) (fun o i k => ?_) h
  unfold State.applyNext
  split
  · split
    next e => exact State.applyVec_frame hw e k
    next => exact k
  · exact k

/-- Without an FP8 copy every vector has its place. -/
theorem State.applyRun_ends (s : State) (core : Nat) (d : Desc) {r : UpdRec} (h : r.cfmt = 0) : (s.applyRun core d r).2 = true := by
  refine foldl_keeps (P := fun o : State × Bool => o.2 = true) (fun o i k => ?_) rfl
  unfold State.applyNext
  rw [if_pos k]
  split
  next => rfl
  next e => exact absurd h ((o.1.applyVec_eq_none_iff core d r i).1 e).1

/-! ### CH_SCALES (R357) -/

theorem State.chScales_eq_none_iff (s : State) (core : Nat) (d : Desc) (r : UpdRec) : s.chScales core d r = none ↔
    Sparse.get 0 (s.arr core).chCount (uRec d) = 0 ∨ Sparse.get 0 (s.arr core).chCount (uRec d) % max 1 r.chVecs ≠ 0 := by
  unfold State.chScales
  dsimp only
  split
  next h => exact iff_of_true rfl h
  next h => exact iff_of_false (by simp) h

/-- A CH_SCALES, and whether the counter was a whole number of channels. -/
def State.chScalesRun (s : State) (core : Nat) (d : Desc) (r : UpdRec) : State × Bool :=
  match s.chScales core d r with
  | some t => (t, true)
  | none => (s, false)

theorem State.chScalesRun_of_none {s : State} {core : Nat} {d : Desc} {r : UpdRec} (h : s.chScales core d r = none) :
    s.chScalesRun core d r = (s, false) := by rw [State.chScalesRun, h]

theorem State.chScalesRun_of_some {s t : State} {core : Nat} {d : Desc} {r : UpdRec} (h : s.chScales core d r = some t) :
    s.chScalesRun core d r = (t, true) := by rw [State.chScalesRun, h]

theorem State.stores_frame {ω : Nat} (hw : Within 0x100006000 ω) {q s : State} {α : Type} {xs : List α} {a : α → Nat} {bs : α → List Byte}
    (h : Frame ω q s) : Frame ω q (xs.foldl (fun s x => s.store (a x) (bs x)) s) :=
  Frame.foldl h fun _ _ k => State.store_frame (hw.mono (by decide)) k

/-- The tables are written in local store alone, and the core's counts start afresh. -/
theorem State.chScales_eq_some {s t : State} {core : Nat} {d : Desc} {r : UpdRec} (h : s.chScales core d r = some t)
    (hwf : Sparse.wf (fun _ => ({} : ArrCore)) s.cores = true) : (t.arr core).quants = 0 ∧ (t.arr core).chMax = [] ∧ (t.arr core).chCount = [] := by
  obtain ⟨u, a, hu, ht, hz⟩ : ∃ (u : State) (a : ArrCore), Frame 0x108006040 s u ∧ t.cores = (u.setArr core a).cores
      ∧ a.quants = 0 ∧ a.chMax = [] ∧ a.chCount = [] := by
    unfold State.chScales at h
    dsimp only at h
    split at h
    · cases h
    cases h
    refine ⟨_, _, ?_, rfl, rfl, rfl, rfl⟩
    have table (a : Nat) (bs : List Byte) : Frame 0x108006040 s (s.store a bs) := State.store_frame (by decide) (Frame.refl s)
    split
    · exact State.stores_frame (by decide) (State.countMade_frame (by decide) (State.stores_frame (by decide) (table _ _)))
    · exact State.stores_frame (by decide) (table _ _)
  rwa [State.arr_congr ht, State.setArr_arr_self core a (by rwa [hu.cores rfl])]

end Sys2Proof.Machine
end

section
/-!
O37: the update operations under PASS, and the lanes of SGD_MOM with FP32 state (R350 to R357, R361, R362).
-/
namespace Sys2Proof.Machine

/-! ### Lanes -/

theorem getD_map_zip {α β γ : Type} (f : α × β → γ) {xs : List α} {ys : List β} (x : α) (y : β) (z : γ) {i : Nat} (hx : i < xs.length)
    (hy : i < ys.length) : ((xs.zip ys).map f).getD i z = f (xs.getD i x, ys.getD i y) := by
  have hz : i < ((xs.zip ys).map f).length := by
    rw [List.length_map, List.length_zip]
    omega
  simp only [List.getD_eq_getElem?_getD, List.getElem?_eq_getElem hz, List.getElem?_eq_getElem hx, List.getElem?_eq_getElem hy, List.getElem_map,
    List.getElem_zip, Option.getD_some]

theorem State.lsLanes_length (s : State) (core f off : Nat) : (s.lsLanes core f off).length = 64 := by simp [State.lsLanes, widen, unpack]

theorem State.gradLanes_length (s : State) (core : Nat) (d : Desc) (i : Nat) : (s.gradLanes core d i).length = 64 := by
  unfold State.gradLanes
  split
  · simp [ArrCore.entry]
  · exact s.lsLanes_length ..

section Rule

variable (s : State) (core : Nat) (d : Desc) (r : UpdRec) (i : Nat)

/-- R351: d of vector `i`. -/
def State.sgdDelta : List Word :=
  ((s.gradLanes core d i).zip (s.lsLanes core Fm.bf16 (offC d i))).map fun x => fadd .even (fmul (s.hpGscale r) x.1) (fmul (s.hpWd r) x.2)

/-- R351: the new momentum of vector `i`. -/
def State.sgdMomentum : List Word :=
  if r.version = 0 then s.sgdDelta core d r i
  else ((s.sgdDelta core d r i).zip (s.lsLanes core r.mfmt (offB d i))).map fun x =>
    fadd .even (fmul (s.hpBeta1 r) x.2) (fmul (fsub f32one (s.hpDamp r)) x.1)

/-- R351: u of vector `i`. -/
def State.sgdUpdate : List Word :=
  if s.hpNesterov r then ((s.sgdDelta core d r i).zip (s.sgdMomentum core d r i)).map fun x => fadd .even x.1 (fmul (s.hpBeta1 r) x.2)
  else s.sgdMomentum core d r i

theorem State.sgdDelta_length : (s.sgdDelta core d r i).length = 64 := by
  simp [State.sgdDelta, State.gradLanes_length, State.lsLanes_length]

theorem State.sgdMomentum_length : (s.sgdMomentum core d r i).length = 64 := by
  unfold State.sgdMomentum
  split <;> simp [State.sgdDelta_length, State.lsLanes_length]

theorem State.sgdUpdate_length : (s.sgdUpdate core d r i).length = 64 := by
  unfold State.sgdUpdate
  split <;> simp [State.sgdDelta_length, State.sgdMomentum_length]

variable {j : Nat} (hj : j < 64)
include hj

theorem State.sgdDelta_getD : (s.sgdDelta core d r i).getD j 0 =
    fadd .even (fmul (s.hpGscale r) ((s.gradLanes core d i).getD j 0)) (fmul (s.hpWd r) ((s.lsLanes core Fm.bf16 (offC d i)).getD j 0)) :=
  getD_map_zip _ 0 0 0 (by rwa [State.gradLanes_length]) (by rwa [State.lsLanes_length])

theorem State.sgdMomentum_getD : (s.sgdMomentum core d r i).getD j 0 =
    if r.version = 0 then (s.sgdDelta core d r i).getD j 0
    else fadd .even (fmul (s.hpBeta1 r) ((s.lsLanes core r.mfmt (offB d i)).getD j 0))
      (fmul (fsub f32one (s.hpDamp r)) ((s.sgdDelta core d r i).getD j 0)) := by
  unfold State.sgdMomentum
  split
  · rfl
  · exact getD_map_zip _ 0 0 0 (by rwa [State.sgdDelta_length]) (by rwa [State.lsLanes_length])

theorem State.sgdUpdate_getD : (s.sgdUpdate core d r i).getD j 0 =
    if s.hpNesterov r then fadd .even ((s.sgdDelta core d r i).getD j 0) (fmul (s.hpBeta1 r) ((s.sgdMomentum core d r i).getD j 0))
    else (s.sgdMomentum core d r i).getD j 0 := by
  unfold State.sgdUpdate
  split
  · exact getD_map_zip _ 0 0 0 (by rwa [State.sgdDelta_length]) (by rwa [State.sgdMomentum_length])
  · rfl

end Rule

/-- The issue of a descriptor leaves what the rule reads. -/
theorem State.sgdUpdate_issue (s : State) (core k n : Nat) (l : DList) (d : Desc) (r : UpdRec) (i : Nat) :
    ((s.count k n).issue l).sgdUpdate core d r i = s.sgdUpdate core d r i := by
  have other (a b c : _) : ({ s with regs := a, lists := b, str := c } : State).sgdUpdate core d r i = s.sgdUpdate core d r i := rfl
  have kept : Frame 0x2800040 s ((s.count k n).issue l) := State.issue_frame rfl (State.count_frame (by decide) (Frame.refl s))
  rw [kept.eq]
  exact other _ _ _

/-! ### What a vector writes -/

theorem State.byte_congr {s t : State} (h : t.mem = s.mem) (a : Nat) : t.byte a = s.byte a := by unfold State.byte; rw [h]

theorem pack_length (f : Nat) (cs : List Nat) : (pack f cs).length = cs.length * elemBits f / 8 := leBytes_length _ _

theorem convertLanes_length (n : Nat) {f : Nat} (b : Option (List Nat)) (scale : Val) (vs : List Val) (h : isMx f = false) :
    (convertLanes n f b scale vs).1.length = vs.length := by simp [convertLanes, h]

/-- Lanes written as FP32 to local store: counts change, and the bytes of the lanes. -/
theorem State.putLanes_fp32 (s : State) (core off : Nat) (ws : List Word) (finite : List Bool) :
    (s.putLanes core Fm.fp32 off false ws finite).cores = s.cores ∧
      ∀ a, a < lsAddr core off ∨ lsAddr core off + ws.length * 32 / 8 ≤ a → (s.putLanes core Fm.fp32 off false ws finite).byte a = s.byte a := by
  obtain ⟨u, cs, hu, hlen, h⟩ : ∃ (u : State) (cs : List Nat), Frame 0x8000040 s u ∧ cs.length = ws.length
      ∧ s.putLanes core Fm.fp32 off false ws finite = u.store (lsAddr core off) (pack Fm.fp32 cs) :=
    ⟨_, _, State.countLosses_frame (by decide) (Frame.refl s), (convertLanes_length _ _ _ _ rfl).trans (List.length_map _), rfl⟩
  rw [h]
  refine ⟨?_, fun a ha => ?_⟩
  · rw [State.store_eq]
    exact hu.cores rfl
  · rw [State.store_byte_out]
    · exact State.byte_congr (hu.mem rfl) a
    · rwa [pack_length, hlen]

/-- R351: a vector of SGD_MOM writes its momentum and then its update; only counts change before. -/
theorem State.sgdVec_eq (s : State) (core : Nat) (d : Desc) (r : UpdRec) (i : Nat) : ∃ (u : State) (fin : List Bool), Frame 0x8000040 s u ∧
    s.sgdVec core d r i = (u.putLanes core r.mfmt (offB d i) r.bf16Moments (s.sgdMomentum core d r i) fin).putAcc core (vDst d + vDstStride d * i)
      (s.sgdUpdate core d r i) := by
  refine ⟨_, _, ?_, rfl⟩
  refine State.countMade_frame (by decide) (State.countWide_frame (by decide) ?_)
  split
  · exact Frame.refl s
  · exact State.countWide_frame (by decide) (Frame.refl s)

section Fp32State

variable {s : State} (core : Nat) (d : Desc) {r : UpdRec} (i : Nat) (hb : r.bf16Moments = false)
include hb

theorem UpdRec.mfmt_of_fp32 : r.mfmt = Fm.fp32 := by simp [UpdRec.mfmt, hb]

theorem State.sgdVec_entry (hc : Sparse.wf (fun _ => ({} : ArrCore)) s.cores = true) (ha : Sparse.wf (fun _ => (0 : Word)) (s.arr core).acc = true)
    {j : Nat} (hj : j < 64) :
    (((s.sgdVec core d r i).arr core).entry (vDst d + vDstStride d * i)).getD j 0 = (s.sgdUpdate core d r i).getD j 0 := by
  obtain ⟨u, fin, hu, h⟩ := s.sgdVec_eq core d r i
  have hcores := (u.putLanes_fp32 core (offB d i) (s.sgdMomentum core d r i) fin).1.trans (hu.cores rfl)
  rw [h, UpdRec.mfmt_of_fp32 hb, hb, State.putAcc, State.setArr_arr_self _ _ (hcores.symm ▸ hc), State.arr_congr hcores]
  exact ArrCore.entry_setEntry_getD _ ha hj (by rwa [State.sgdUpdate_length])

theorem State.sgdVec_byte {a : Nat} (ha : a < lsAddr core (offB d i) ∨ lsAddr core (offB d i) + 256 ≤ a) :
    (s.sgdVec core d r i).byte a = s.byte a := by
  obtain ⟨u, fin, hu, h⟩ := s.sgdVec_eq core d r i
  have kept := (u.putLanes_fp32 core (offB d i) (s.sgdMomentum core d r i) fin).2 a (by rwa [State.sgdMomentum_length])
  rw [h, UpdRec.mfmt_of_fp32 hb, hb]
  exact kept.trans (State.byte_congr (hu.mem rfl) a)

end Fp32State

/-! ### The obligation -/

section Commands

variable {core : Fin 256} {list : Fin 8} {gw pw : Word} {s : State} {l : DList} {d : Desc} {r : UpdRec} (hpass : GatePasses s d r)
include hpass

theorem GatePasses.execSgdMom_eq (h : s.nextUpd core list 0x20 = some (l, d)) : exec (.sgdMom core list gw) s =
    .next ((overVecs d ((s.count R.gateWaitCycles gw.toNat).issue l) fun s i => s.sgdVec core d r i).drain l.ref) :=
  congrArg Host.Outcome.next (hpass.gated_of_unpinned h _)

/-- R351: SGD_MOM of one vector with FP32 state. -/
theorem GatePasses.sgdMom_gives (h : s.nextUpd core list 0x20 = some (l, d)) (h1 : vCount d = 1) (hb : r.bf16Moments = false)
    (hc : Sparse.wf (fun _ => ({} : ArrCore)) s.cores = true) (ha : Sparse.wf (fun _ => (0 : Word)) (s.arr core).acc = true) :
    ∃ t : State, exec (.sgdMom core list gw) s = .next t ∧
      (∀ i < 64, ((t.arr core).entry (vDst d)).getD i 0 = (s.sgdUpdate core d r 0).getD i 0)
      ∧ ∀ a, a < lsAddr core (vSrcB d) ∨ lsAddr core (vSrcB d) + 256 ≤ a → t.byte a = s.byte a := by
  have kept : Frame 0x2800040 s ((s.count R.gateWaitCycles gw.toNat).issue l) :=
    State.issue_frame (by decide) (State.count_frame (by decide) (Frame.refl s))
  have vec : overVecs d ((s.count R.gateWaitCycles gw.toNat).issue l) (fun s i => s.sgdVec core d r i)
      = ((s.count R.gateWaitCycles gw.toNat).issue l).sgdVec core d r 0 := by rw [overVecs, h1]; rfl
  rw [hpass.execSgdMom_eq h, vec]
  refine ⟨_, rfl, fun i hi => ?_, fun a ha => ?_⟩
  · have hcores := kept.cores rfl
    rw [State.drain_arr, ← State.sgdUpdate_issue s core R.gateWaitCycles gw.toNat l]
    exact State.sgdVec_entry core d 0 hb (hcores.symm ▸ hc) ((State.arr_congr hcores core).symm ▸ ha) hi
  · have hdrain := ((((s.count R.gateWaitCycles gw.toNat).issue l).sgdVec core d r 0).drain_frame_refl l.ref).mem rfl
    rw [State.byte_congr hdrain, State.sgdVec_byte core d 0 hb ha, State.byte_congr (kept.mem rfl)]

section Pinned

variable (hpins : r.ref r.target = 0) (hwf : Sparse.wf (fun _ => ({} : UpdRec)) s.upd.recs = true)
include hpins hwf

theorem GatePasses.execApplyUpd_eq (h : s.nextUpd core list 0x22 = some (l, d)) : exec (.applyUpd core list gw pw) s =
    .next (endUpd l d ((s.gatePassed l d true gw pw).applyRun core d { r with updating := true })) :=
  congrArg Host.Outcome.next (hpass.gated_of_pinned h hpins hwf _)

theorem GatePasses.execChScales_eq (h : s.nextUpd core list 0x23 = some (l, d)) : exec (.chScales core list gw pw) s =
    .next (endUpd l d ((s.gatePassed l d true gw pw).chScalesRun core d { r with updating := true })) :=
  congrArg Host.Outcome.next (hpass.gated_of_pinned h hpins hwf _)

end Pinned

/-- The vectors of an APPLY leave the record as it is. -/
theorem GatePasses.applyRun_updRec (hwf : Sparse.wf (fun _ => ({} : UpdRec)) s.upd.recs = true) :
    ((s.gatePassed l d true gw pw).applyRun core d { r with updating := true }).1.updRec (uRec d) = { r with updating := true } := by
  have kept := State.applyRun_frame (ω := 0x10c006040) (by decide) core d { r with updating := true } (Frame.refl (s.gatePassed l d true gw pw))
  exact (State.updRec_congr (kept.upd rfl) _).trans (hpass.updRec_gatePassed hwf)

end Commands

/-- The channel counter that CH_SCALES looks at is the one before it issued. -/
theorem State.chScales_gatePassed_eq_none_iff (s : State) (l : DList) (d : Desc) (gw pw : Word) (core : Nat) (r : UpdRec) :
    (s.gatePassed l d true gw pw).chScales core d r = none ↔
      Sparse.get 0 (s.arr core).chCount (uRec d) = 0 ∨ Sparse.get 0 (s.arr core).chCount (uRec d) % max 1 r.chVecs ≠ 0 := by
  rw [State.chScales_eq_none_iff, State.arr_congr (s.gatePassed_cores l d true gw pw)]

/-- Settles O37: what the gate lets run, command by command; SGD_MOM by its rule on one vector. -/
theorem updateRulesRun : Obligations.UpdateRulesRun := by
  unfold Obligations.UpdateRulesRun
  refine ⟨fun core list gw pw s l d r hp hc hg hr hs he hcm w u hw hu => ?_, fun core list gw s l d r hp hg hr hs he hcm hb h1 _ h hcw haw => ?_⟩
  · have hpass : GatePasses s d r := ⟨hp, hc, hg, hr, hs, he, hcm⟩
    subst hw hu
    refine ⟨fun h => hpass.execSgdMom_eq h, fun h => congrArg Host.Outcome.next (hpass.gated_of_unpinned h _),
      fun h => congrArg Host.Outcome.next (hpass.gated_of_unpinned h _), fun h => congrArg Host.Outcome.next (hpass.gated_of_unpinned h _),
      fun v r' hpins hr' hv hwf => ?pinned,
      fun h => ⟨fun hu => congrArg Host.Outcome.next (hpass.verCommit_of_not_updating h hu),
        fun hu => congrArg Host.Outcome.next (hpass.verCommit_of_updating h hu)⟩,
      fun x i => x.applyVec_eq_none_iff core d r i⟩
    obtain rfl : v = s.gatePassed l d true gw pw := by rw [hv, hr', ← hpass.record]; rfl
    clear hv
    subst hr'
    refine ⟨fun h => ⟨hpass.execApplyUpd_eq hpins hwf h, State.applyRun_ends _ core d, hpass.applyRun_updRec hwf, ?applyFrame⟩,
      fun h => congrArg Host.Outcome.next (hpass.gated_of_pinned h hpins hwf _),
      fun h c hcount => ⟨fun hbad => ?scalesError, fun h0 hmod => ?scales⟩⟩
    case applyFrame =>
      exact (State.applyRun_frame (ω := 0x12e806040) (by decide) core d _ (State.gatePassed_frame (by decide) l d true gw pw (Frame.refl s))).eq
    case scalesError =>
      have hn := (s.chScales_gatePassed_eq_none_iff l d gw pw core { r with updating := true }).2 (hcount ▸ hbad)
      rw [hpass.execChScales_eq hpins hwf h, State.chScalesRun_of_none hn, endUpd_false]
    case scales =>
      obtain ⟨t, ht⟩ := Option.ne_none_iff_exists'.1 fun hn =>
        ((s.chScales_gatePassed_eq_none_iff l d gw pw core { r with updating := true }).1 hn).elim (hcount ▸ h0) (· (hcount ▸ hmod))
      refine ⟨t, by rw [hpass.execChScales_eq hpins hwf h, State.chScalesRun_of_some ht, endUpd_true], ?_, fun hcw => ?_⟩
      · exact (State.chScales_frame (ω := 0x112e806040) (by decide) ht (State.gatePassed_frame (by decide) l d true gw pw (Frame.refl s))).eq
      · exact State.chScales_eq_some ht (by rwa [State.gatePassed_cores])
  · have hpass : GatePasses s d r := ⟨hp, by omega, hg, hr, hs, he, hcm⟩
    obtain ⟨t, ht, hlane, hbyte⟩ := hpass.sgdMom_gives (gw := gw) h h1 hb hcw haw
    refine ⟨t, ht, fun i hi => ?_, hbyte⟩
    rw [hlane i hi, State.sgdUpdate_getD _ _ _ _ _ hi, State.sgdMomentum_getD _ _ _ _ _ hi, State.sgdDelta_getD _ _ _ _ _ hi, UpdRec.mfmt_of_fp32 hb]
    rfl

end Sys2Proof.Machine
end

section
/-!
O43: the bucket descriptors and BUCKET_LAUNCH (R371 to R376, R380, R391, R397, R398, R401; log entry 96 says on what a REDUCE waits
and that a bucket with a gap launches all the same).
-/
namespace Sys2Proof.Machine

/-! ### The next BKT of a list (R397) -/

/-- The bucket descriptors of list `list` of core `core`, each with its operation (Table 10.6). -/
def bktOps (core : Fin 256) (list : Fin 8) : List (Instr × Nat) :=
  [(.bktOpen core list, 0), (.bktContrib core list, 1), (.bktReduce core list, 2), (.decideGate core list, 3)]

section Next

variable {core : Fin 256} {list : Fin 8} {s : State}

theorem exec_bktOps_of_none : ∀ y ∈ bktOps core list, s.nextBkt core list y.2 = none → exec y.1 s = .next s := by
  simp only [bktOps, List.forall_mem_cons, List.not_mem_nil, false_implies, implies_true, and_true]
  refine ⟨fun h => ?opens, fun h => ?contributes, fun h => ?reduces, fun h => ?decides⟩
  case opens => exact show execBktOpen core list s = _ by simp only [execBktOpen, h]
  case contributes => exact show execBktContrib core list s = _ by simp only [execBktContrib, h]
  case reduces => exact show execBktReduce core list s = _ by simp only [execBktReduce, h]
  case decides => exact show execDecideGate core list s = _ by simp only [execDecideGate, h]

variable {l : DList} {d : Desc}

theorem exec_bktOps_of_bad_pairs (hp : bktPairsOk d = false) :
    ∀ y ∈ bktOps core list, s.nextBkt core list y.2 = some (l, d) → exec y.1 s = .next (s.descFault core) := by
  simp only [bktOps, List.forall_mem_cons, List.not_mem_nil, false_implies, implies_true, and_true]
  refine ⟨fun h => ?opens, fun h => ?contributes, fun h => ?reduces, fun h => ?decides⟩
  case opens => exact show execBktOpen core list s = _ by simp [execBktOpen, h, hp]
  case contributes => exact show execBktContrib core list s = _ by simp [execBktContrib, h, hp]
  case reduces => exact show execBktReduce core list s = _ by simp [execBktReduce, h, hp]
  case decides => exact show execDecideGate core list s = _ by simp [execDecideGate, h, hp]

theorem State.core_of_nextBkt {op : Nat} (h : s.nextBkt core list op = some (l, d)) : l.core = core :=
  (State.place_of_dlist (State.dlist_of_nextDesc h)).1

end Next

/-! ### OPEN (R371, R372, R401) -/

section Open

variable {core : Fin 256} {list : Fin 8} {s : State} {l : DList} {d : Desc} (hp : bktPairsOk d = true) (h : s.nextBkt core list 0 = some (l, d))
include hp h

theorem execBktOpen_of_next : exec (.bktOpen core list) s =
    if s.bucketState (bBucket d) ≠ Bk.idle then .next (s.bktErrAt l d 3)
    else if (ringsOf (bTopo d) (bRingA d) (bRingB d)).any fun n => !s.ringOk n then .next ((s.issue l).restart 0x04)
    else .next (s.bktDo l fun s => s.openBucket core d) := by
  show execBktOpen core list s = _
  simp only [execBktOpen, h, hp]
  rfl

theorem execBktOpen_of_in_use (hu : s.bucketState (bBucket d) ≠ Bk.idle) : exec (.bktOpen core list) s = .next (s.bktErrAt l d 3) := by
  rw [execBktOpen_of_next hp h, if_pos hu]

variable (hi : s.bucketState (bBucket d) = Bk.idle)
include hi

theorem execBktOpen_of_bad_ring (hr : ∃ n ∈ ringsOf (bTopo d) (bRingA d) (bRingB d), s.ringOk n = false) :
    exec (.bktOpen core list) s = .next ((s.issue l).restart 0x04) := by
  rw [execBktOpen_of_next hp h, if_neg (not_not.2 hi), if_pos (by simpa using hr)]

theorem execBktOpen_of_sound (hr : ∀ n ∈ ringsOf (bTopo d) (bRingA d) (bRingB d), s.ringOk n = true) :
    exec (.bktOpen core list) s = .next (s.bktDo l fun s => s.openBucket core d) := by
  rw [execBktOpen_of_next hp h, if_neg (not_not.2 hi), if_neg (by simpa using hr)]

end Open

/-! ### CONTRIB (R374) -/

section Contrib

variable {core : Fin 256} {list : Fin 8} {s : State} {l : DList} {d : Desc} (hp : bktPairsOk d = true) (h : s.nextBkt core list 1 = some (l, d))
include hp h

theorem execBktContrib_of_next : exec (.bktContrib core list) s =
    if s.bucketState (bBucket d) = Bk.idle then .next s
    else if s.bucketState (bBucket d) ≠ Bk.opened then .next (s.bktErrAt l d 3)
    else if (s.bucket (bBucket d)).badRange (bOffset d) (bLen d) then .next (s.bktErrAt l d 4)
    else .next (s.bktDo l fun t => t.setBucket (bBucket d) { s.bucket (bBucket d) with
      ranges := (s.bucket (bBucket d)).ranges ++ [(bOffset d, bLen d)], last := (s.bucket (bBucket d)).last || bLast d, core, tag := dTag d }) := by
  rw [← State.core_of_nextBkt h]
  show execBktContrib core list s = _
  simp only [execBktContrib, h, hp]
  rfl

theorem execBktContrib_of_idle (hi : s.bucketState (bBucket d) = Bk.idle) : exec (.bktContrib core list) s = .next s := by
  rw [execBktContrib_of_next hp h, if_pos hi]

theorem execBktContrib_of_launched (hl : s.bucketState (bBucket d) = Bk.reducing ∨ s.bucketState (bBucket d) = Bk.done) :
    exec (.bktContrib core list) s = .next (s.bktErrAt l d 3) := by
  have hn : s.bucketState (bBucket d) ≠ Bk.idle ∧ s.bucketState (bBucket d) ≠ Bk.opened := by
    obtain hl | hl := hl <;> rw [hl] <;> decide
  rw [execBktContrib_of_next hp h, if_neg hn.1, if_pos hn.2]

variable (ho : s.bucketState (bBucket d) = Bk.opened)
include ho

theorem execBktContrib_of_bad_range (hr : (s.bucket (bBucket d)).badRange (bOffset d) (bLen d) = true) :
    exec (.bktContrib core list) s = .next (s.bktErrAt l d 4) := by
  rw [execBktContrib_of_next hp h, if_neg (by rw [ho]; decide), if_neg (not_not.2 ho), if_pos hr]

theorem execBktContrib_of_sound (hr : (s.bucket (bBucket d)).badRange (bOffset d) (bLen d) = false) :
    exec (.bktContrib core list) s = .next (s.bktDo l fun t => t.setBucket (bBucket d) { s.bucket (bBucket d) with
      ranges := (s.bucket (bBucket d)).ranges ++ [(bOffset d, bLen d)], last := (s.bucket (bBucket d)).last || bLast d, core, tag := dTag d }) := by
  rw [execBktContrib_of_next hp h, if_neg (by rw [ho]; decide), if_neg (not_not.2 ho), if_neg (ne_true_of_eq_false hr)]

end Contrib

/-! ### REDUCE (R380) -/

section Reduce

variable {core : Fin 256} {list : Fin 8} {s : State} {l : DList} {d : Desc} (hp : bktPairsOk d = true) (h : s.nextBkt core list 2 = some (l, d))
include hp h

theorem execBktReduce_of_next : exec (.bktReduce core list) s =
    if s.bucketState (bBucket d) = Bk.idle then .next s
    else if !(s.bucket (bBucket d)).reduceOk core (bRIndex d) then .next (s.bktErrAt l d 3)
    else if s.bucketState (bBucket d) ≠ Bk.reducing ∨ (s.red (bBucket d) (bRIndex d)).isSome ∨ (s.bucket (bBucket d)).fin.any (·.1 == bRIndex d) then .next s
    else .next ((s.issue l).startReducer l.ref d) := by
  show execBktReduce core list s = _
  simp only [execBktReduce, h, hp]
  rfl

theorem execBktReduce_of_idle (hi : s.bucketState (bBucket d) = Bk.idle) : exec (.bktReduce core list) s = .next s := by
  rw [execBktReduce_of_next hp h, if_pos hi]

theorem execBktReduce_of_other_core (hu : s.bucketState (bBucket d) ≠ Bk.idle) (hr : (s.bucket (bBucket d)).reduceOk core (bRIndex d) = false) :
    exec (.bktReduce core list) s = .next (s.bktErrAt l d 3) := by
  rw [execBktReduce_of_next hp h, if_neg hu, if_pos (by rw [hr]; rfl)]

variable (hr : (s.bucket (bBucket d)).reduceOk core (bRIndex d) = true)
include hr

/-- A REDUCE waits for the launch, and on a reducer that runs or has ended (log entry 96). -/
theorem execBktReduce_of_waiting (hw : s.bucketState (bBucket d) ≠ Bk.reducing ∨ (s.red (bBucket d) (bRIndex d)).isSome ∨
    ∃ e ∈ (s.bucket (bBucket d)).fin, e.1 = bRIndex d) : exec (.bktReduce core list) s = .next s := by
  rw [execBktReduce_of_next hp h, hr, if_pos (c := _ ∨ _) (by simpa using hw)]
  exact ite_self _

theorem execBktReduce_of_starting (hs : s.bucketState (bBucket d) = Bk.reducing) (hnone : s.red (bBucket d) (bRIndex d) = none)
    (hfin : ∀ e ∈ (s.bucket (bBucket d)).fin, e.1 ≠ bRIndex d) : exec (.bktReduce core list) s = .next ((s.issue l).startReducer l.ref d) := by
  have hended : (s.bucket (bBucket d)).fin.any (·.1 == bRIndex d) = false := List.any_eq_false.2 fun e he => mt beq_iff_eq.1 (hfin e he)
  rw [execBktReduce_of_next hp h, hr, hs, hnone, hended]
  rfl

end Reduce

/-! ### DECIDE (R391) -/

section Decide

variable {core : Fin 256} {list : Fin 8} {s : State} {l : DList} {d : Desc} (hp : bktPairsOk d = true) (h : s.nextBkt core list 3 = some (l, d))
include hp h

theorem execDecideGate_of_next : exec (.decideGate core list) s =
    if s.doneBuckets.length < bNBuckets d then .next s
    else if s.bkt.decided then .next (s.bktErrAt l d 3)
    else .next (s.bktDo l State.setGate) := by
  show execDecideGate core list s = _
  simp only [execDecideGate, h, hp]
  rfl

theorem execDecideGate_of_few (hn : s.doneBuckets.length < bNBuckets d) : exec (.decideGate core list) s = .next s := by
  rw [execDecideGate_of_next hp h, if_pos hn]

variable (hn : bNBuckets d ≤ s.doneBuckets.length)
include hn

theorem execDecideGate_of_decided (hd : s.bkt.decided = true) : exec (.decideGate core list) s = .next (s.bktErrAt l d 3) := by
  rw [execDecideGate_of_next hp h, if_neg (Nat.not_lt.2 hn), if_pos hd]

theorem execDecideGate_of_undecided (hd : s.bkt.decided = false) : exec (.decideGate core list) s = .next ((s.issue l).setGate.drain l.ref) := by
  rw [execDecideGate_of_next hp h, if_neg (Nat.not_lt.2 hn), if_neg (ne_true_of_eq_false hd)]
  rfl

end Decide

/-- The step's gate has been decided. -/
def State.gateDecided (s : State) : State := { s with bkt := { s.bkt with decided := true } }

theorem State.doneBuckets_any_bucketFlag_iff (s : State) :
    s.doneBuckets.any s.bucketFlag = true ↔ ∃ k < 64, s.bucketState k = Bk.done ∧ s.bucketFlag k = true := by
  simp [State.doneBuckets]

theorem State.setGate_of_flag {s : State} (h : ∃ k < 64, s.gateDecided.bucketState k = Bk.done ∧ s.gateDecided.bucketFlag k = true) :
    s.setGate = (s.gateDecided.setField R.gate 0 2 2).orReg R.bktStatus 4 :=
  if_pos (s.gateDecided.doneBuckets_any_bucketFlag_iff.2 h)

theorem State.setGate_of_clear {s : State} (h : ¬ ∃ k < 64, s.gateDecided.bucketState k = Bk.done ∧ s.gateDecided.bucketFlag k = true) :
    s.setGate = s.gateDecided.setField R.gate 0 2 1 :=
  if_neg (mt s.gateDecided.doneBuckets_any_bucketFlag_iff.1 h)

/-! ### Launch (R375, R376) -/

section Launch

variable {s : State} {b : Fin 64}

/-- A bucket launches: its contributions have an end, and it is REDUCING. -/
def State.launched (s : State) (b : Nat) : State := (s.setBucket b { s.bucket b with eReady := (s.bucket b).top }).setBucketState b Bk.reducing

/-- R375, R398: a launched bucket whose ready ranges leave a gap is an error, code 5. -/
def State.gapChecked (s : State) (b : Nat) (x : Slot) : State := if x.ready = x.top then s else s.bktError 5 b x.core x.tag 0xFFFF

theorem execBucketLaunch_of_not_ready (h : s.bucketState b ≠ Bk.opened ∨ ((s.bucket b).ready ≠ (s.bucket b).size ∧ (s.bucket b).last = false)) :
    exec (.bucketLaunch b) s = .next s := by
  refine if_neg fun ⟨hopen, hready⟩ => ?_
  obtain hn | ⟨hsize, hlast⟩ := h
  · exact hn hopen
  · exact hready.elim hsize (by simp [hlast])

theorem execBucketLaunch_of_ready (hopen : s.bucketState b = Bk.opened) (h : (s.bucket b).ready = (s.bucket b).size ∨ (s.bucket b).last = true) :
    exec (.bucketLaunch b) s = .next (if (s.bucket b).topo = 0
      then ((s.launched b).gapChecked b (s.bucket b)).bucketDone b (((s.launched b).gapChecked b (s.bucket b)).bucketFlag b)
      else (s.launched b).gapChecked b (s.bucket b)) := by
  show execBucketLaunch b s = _
  unfold execBucketLaunch
  simp only [if_pos (show _ ∧ _ from ⟨hopen, h⟩), ite_not]
  rfl

end Launch

/-- Settles O43: a descriptor by the state of its slot, DECIDE by the DONE buckets, a launch by the bucket's ready ranges. -/
theorem bucketDescriptorsAct : Obligations.BucketDescriptorsAct := by
  unfold Obligations.BucketDescriptorsAct
  refine ⟨fun core list s y hy f hf => ⟨fun hn => exec_bktOps_of_none y hy (hf.trans hn),
    fun l d hd hp => exec_bktOps_of_bad_pairs hp y hy (hf.trans hd)⟩, fun core list s l d b x hb hx hp => ?descriptors, fun k s x hx ready top hr ht => ?launch⟩
  case descriptors =>
    subst hb hx
    refine ⟨fun h => ⟨execBktOpen_of_in_use hp h, fun hidle rings hr => ?opens⟩,
      fun h => ⟨execBktContrib_of_idle hp h, execBktContrib_of_launched hp h, fun hopen bad hbad => ?contributes⟩, fun h ok hok => ?reduces, fun h n hn => ?decides⟩
    case opens =>
      subst hr
      exact ⟨execBktOpen_of_bad_ring hp h hidle, execBktOpen_of_sound hp h hidle⟩
    case contributes =>
      subst hbad
      exact ⟨execBktContrib_of_bad_range hp h hopen, execBktContrib_of_sound hp h hopen⟩
    case reduces =>
      subst hok
      exact ⟨execBktReduce_of_idle hp h, execBktReduce_of_other_core hp h, execBktReduce_of_waiting hp h,
        fun hred hfit => execBktReduce_of_starting hp h hfit hred⟩
    case decides =>
      subst hn
      refine ⟨execDecideGate_of_few hp h, execDecideGate_of_decided hp h, fun hall hdec t u ht hu => ?_⟩
      obtain rfl : u = (s.issue l).gateDecided := by rw [hu, ht]; rfl
      rw [execDecideGate_of_undecided hp h hall hdec]
      exact ⟨fun hflag => by rw [State.setGate_of_flag hflag], fun hclear => by rw [State.setGate_of_clear hclear]⟩
  case launch =>
    subst hx hr ht
    refine ⟨execBucketLaunch_of_not_ready, fun hopen hready u v hu hv => ?_⟩
    obtain rfl : v = (s.launched k).gapChecked k (s.bucket k) := by rw [hv, hu]; rfl
    have hlaunch := execBucketLaunch_of_ready hopen hready
    exact ⟨fun hring => by rw [hlaunch, if_neg hring], fun hnone => by rw [hlaunch, if_pos hnone]⟩

end Sys2Proof.Machine
end

section
/-!
The whole machine: what a step keeps whatever command it runs, from the frames of the commands (Laws/). The footprint of a command is coarse here: whether
it may write the routing table and the tide group.
-/
namespace Sys2Proof.Machine

/-- The commands of reset and of the release of clock domains, which alone move BEAT_COUNT and the reset pins. -/
def resetsOrReleases : Instr → Bool
  | .resetNAssert | .resetNRelease _ _ | .powerOnAssert | .powerOnRelease _ _ | .domainClockValid _ => true
  | _ => false

/-- R423: what a command may write. Shadowed writes reach the routing table at step 3 of a boundary; the tide group changes at boundaries, by the commands
that form or leave it and by the master's marks. -/
def coarseFootprint : Instr → Nat
  | .tideBoundary | .stoppedApply => 0x1fffffffff
  | .jobGroupForm _ | .jobGroupLeave _ | .tideMark _ _ _ | .tideMarkEmit => 0x1ffffffdff
  | _ => 0x1ffff7fdff

theorem exec_frame (c : Instr) (s : State) (h : resetsOrReleases c = false) : FrameO (coarseFootprint c) s (exec c s) := by
  cases c with
  | devIdentify _ => exact execDevIdentify_frame (ω := 0x1ffff7fdff) rfl (Frame.refl s)
  | devStatus _ => exact execDevStatus_frame (ω := 0x1ffff7fdff) rfl (Frame.refl s)
  | devCaps _ => exact execDevCaps_frame (ω := 0x1ffff7fdff) rfl (Frame.refl s)
  | devResetCause _ => exact execDevResetCause_frame (ω := 0x1ffff7fdff) rfl (Frame.refl s)
  | devSpares _ => exact execDevSpares_frame (ω := 0x1ffff7fdff) rfl (Frame.refl s)
  | devSleep _ => exact execDevSleep_frame (ω := 0x1ffff7fdff) rfl (Frame.refl s)
  | devWake _ => exact execDevWake_frame (ω := 0x1ffff7fdff) rfl (Frame.refl s)
  | devEcho _ => exact execDevEcho_frame (ω := 0x1ffff7fdff) rfl (Frame.refl s)
  | devArrayCheck _ => exact execDevArrayCheck_frame (ω := 0x1ffff7fdff) rfl (Frame.refl s)
  | tideLoad _ => exact execTideLoad_frame (ω := 0x1ffff7fdff) rfl (Frame.refl s)
  | tideArm _ => exact execTideArm_frame (ω := 0x1ffff7fdff) rfl (Frame.refl s)
  | tideDisarm _ => exact execTideDisarm_frame (ω := 0x1ffff7fdff) rfl (Frame.refl s)
  | tideUnload _ => exact execTideUnload_frame (ω := 0x1ffff7fdff) rfl (Frame.refl s)
  | tideRun _ => exact execTideRun_frame (ω := 0x1ffff7fdff) rfl (Frame.refl s)
  | tideStop _ => exact execTideStop_frame (ω := 0x1ffff7fdff) rfl (Frame.refl s)
  | tideHold _ => exact execTideHold_frame (ω := 0x1ffff7fdff) rfl (Frame.refl s)
  | tideRelease _ => exact execTideRelease_frame (ω := 0x1ffff7fdff) rfl (Frame.refl s)
  | tideConfig _ => exact execTideConfig_frame (ω := 0x1ffff7fdff) rfl (Frame.refl s)
  | tideStatus _ => exact execTideStatus_frame (ω := 0x1ffff7fdff) rfl (Frame.refl s)
  | profSet _ => exact execProfSet_frame (ω := 0x1ffff7fdff) rfl (Frame.refl s)
  | profGet _ => exact execProfGet_frame (ω := 0x1ffff7fdff) rfl (Frame.refl s)
  | profLimits _ => exact execProfLimits_frame (ω := 0x1ffff7fdff) rfl (Frame.refl s)
  | profRamp _ => exact execProfRamp_frame (ω := 0x1ffff7fdff) rfl (Frame.refl s)
  | profHistory _ => exact execProfHistory_frame (ω := 0x1ffff7fdff) rfl (Frame.refl s)
  | memWindowOpen _ => exact execMemWindowOpen_frame (ω := 0x1ffff7fdff) rfl (Frame.refl s)
  | memWindowClose _ => exact execMemWindowClose_frame (ω := 0x1ffff7fdff) rfl (Frame.refl s)
  | memRead _ => exact execMemRead_frame (ω := 0x1ffff7fdff) rfl (Frame.refl s)
  | memWrite _ => exact execMemWrite_frame (ω := 0x1ffff7fdff) rfl (Frame.refl s)
  | memFill _ => exact execMemFill_frame (ω := 0x1ffff7fdff) rfl (Frame.refl s)
  | memInfo _ => exact execMemInfo_frame (ω := 0x1ffff7fdff) rfl (Frame.refl s)
  | memScrub _ => exact execMemScrub_frame (ω := 0x1ffff7fdff) rfl (Frame.refl s)
  | memShelfLimit _ => exact execMemShelfLimit_frame (ω := 0x1ffff7fdff) rfl (Frame.refl s)
  | linkStatus _ => exact execLinkStatus_frame (ω := 0x1ffff7fdff) rfl (Frame.refl s)
  | linkTrain _ => exact execLinkTrain_frame (ω := 0x1ffff7fdff) rfl (Frame.refl s)
  | linkMargin _ => exact execLinkMargin_frame (ω := 0x1ffff7fdff) rfl (Frame.refl s)
  | linkDisable _ => exact execLinkDisable_frame (ω := 0x1ffff7fdff) rfl (Frame.refl s)
  | linkEnable _ => exact execLinkEnable_frame (ω := 0x1ffff7fdff) rfl (Frame.refl s)
  | linkCounters _ => exact execLinkCounters_frame (ω := 0x1ffff7fdff) rfl (Frame.refl s)
  | linkLoopback _ => exact execLinkLoopback_frame (ω := 0x1ffff7fdff) rfl (Frame.refl s)
  | jobCreate _ => exact execJobCreate_frame (ω := 0x1ffff7fdff) rfl (Frame.refl s)
  | jobSetId _ => exact execJobSetId_frame (ω := 0x1ffff7fdff) rfl (Frame.refl s)
  | jobRouteSet _ => exact execJobRouteSet_frame (ω := 0x1ffff7fdff) rfl (Frame.refl s)
  | jobRouteGet _ => exact execJobRouteGet_frame (ω := 0x1ffff7fdff) rfl (Frame.refl s)
  | jobMeasure _ => exact execJobMeasure_frame (ω := 0x1ffff7fdff) rfl (Frame.refl s)
  | jobGroupForm _ => exact execJobGroupForm_frame (ω := 0x1ffffffdff) rfl (Frame.refl s)
  | jobGroupLeave _ => exact execJobGroupLeave_frame (ω := 0x1ffffffdff) rfl (Frame.refl s)
  | jobCursor _ => exact execJobCursor_frame (ω := 0x1ffff7fdff) rfl (Frame.refl s)
  | jobStatus _ => exact execJobStatus_frame (ω := 0x1ffff7fdff) rfl (Frame.refl s)
  | jobEnd _ => exact execJobEnd_frame (ω := 0x1ffff7fdff) rfl (Frame.refl s)
  | snapConfig _ => exact execSnapConfig_frame (ω := 0x1ffff7fdff) rfl (Frame.refl s)
  | snapPolicy _ => exact execSnapPolicy_frame (ω := 0x1ffff7fdff) rfl (Frame.refl s)
  | snapInterval _ => exact execSnapInterval_frame (ω := 0x1ffff7fdff) rfl (Frame.refl s)
  | snapNow _ => exact execSnapNow_frame (ω := 0x1ffff7fdff) rfl (Frame.refl s)
  | snapStatus _ => exact execSnapStatus_frame (ω := 0x1ffff7fdff) rfl (Frame.refl s)
  | restorePrepare _ => exact execRestorePrepare_frame (ω := 0x1ffff7fdff) rfl (Frame.refl s)
  | restoreRun _ => exact execRestoreRun_frame (ω := 0x1ffff7fdff) rfl (Frame.refl s)
  | restoreStatus _ => exact execRestoreStatus_frame (ω := 0x1ffff7fdff) rfl (Frame.refl s)
  | restoreVerify _ => exact execRestoreVerify_frame (ω := 0x1ffff7fdff) rfl (Frame.refl s)
  | telLogRead _ => exact execTelLogRead_frame (ω := 0x1ffff7fdff) rfl (Frame.refl s)
  | telLogStatus _ => exact execTelLogStatus_frame (ω := 0x1ffff7fdff) rfl (Frame.refl s)
  | telAreaSet _ => exact execTelAreaSet_frame (ω := 0x1ffff7fdff) rfl (Frame.refl s)
  | telAlarmSet _ => exact execTelAlarmSet_frame (ω := 0x1ffff7fdff) rfl (Frame.refl s)
  | telCounters _ => exact execTelCounters_frame (ω := 0x1ffff7fdff) rfl (Frame.refl s)
  | telEventMask _ => exact execTelEventMask_frame (ω := 0x1ffff7fdff) rfl (Frame.refl s)
  | secCertGet _ => exact execSecCertGet_frame (ω := 0x1ffff7fdff) rfl (Frame.refl s)
  | secAttest _ => exact execSecAttest_frame (ω := 0x1ffff7fdff) rfl (Frame.refl s)
  | secMeasureLog _ => exact execSecMeasureLog_frame (ω := 0x1ffff7fdff) rfl (Frame.refl s)
  | secExpert _ => exact execSecExpert_frame (ω := 0x1ffff7fdff) rfl (Frame.refl s)
  | secDrop _ => exact execSecDrop_frame (ω := 0x1ffff7fdff) rfl (Frame.refl s)
  | secSelftest _ _ => exact execSecSelftest_frame (ω := 0x1ffff7fdff) rfl (Frame.refl s)
  | regRead _ => exact execRegRead_frame (ω := 0x1ffff7fdff) rfl (Frame.refl s)
  | regWrite _ => exact execRegWrite_frame (ω := 0x1ffff7fdff) rfl (Frame.refl s)
  | regModify _ => exact execRegModify_frame (ω := 0x1ffff7fdff) rfl (Frame.refl s)
  | regPoll _ => exact execRegPoll_frame (ω := 0x1ffff7fdff) rfl (Frame.refl s)
  | regPollEnd _ _ => exact execRegPollEnd_frame (ω := 0x1ffff7fdff) rfl (Frame.refl s)
  | bayPower _ _ => exact execBayPower_frame (ω := 0x1ffff7fdff) rfl (Frame.refl s)
  | bayCoreMap _ _ _ => exact execBayCoreMap_frame (ω := 0x1ffff7fdff) rfl (Frame.refl s)
  | bayRowMap _ _ _ _ => exact execBayRowMap_frame (ω := 0x1ffff7fdff) rfl (Frame.refl s)
  | bayClkgen _ => exact execBayClkgen_frame (ω := 0x1ffff7fdff) rfl (Frame.refl s)
  | baySelftest _ _ _ => exact execBaySelftest_frame (ω := 0x1ffff7fdff) rfl (Frame.refl s)
  | sld _ _ => exact execSld_frame (ω := 0x1ffff7fdff) rfl (Frame.refl s)
  | apd _ _ _ _ => exact execApd_frame (ω := 0x1ffff7fdff) rfl (Frame.refl s)
  | arrayRetry _ _ _ _ _ => exact execArrayRetry_frame (ω := 0x1ffff7fdff) rfl (Frame.refl s)
  | vodMov _ _ => exact execVodMov_frame (ω := 0x1ffff7fdff) rfl (Frame.refl s)
  | vodAdd _ _ => exact execVodAdd_frame (ω := 0x1ffff7fdff) rfl (Frame.refl s)
  | vodSub _ _ => exact execVodSub_frame (ω := 0x1ffff7fdff) rfl (Frame.refl s)
  | vodMul _ _ => exact execVodMul_frame (ω := 0x1ffff7fdff) rfl (Frame.refl s)
  | vodFma _ _ => exact execVodFma_frame (ω := 0x1ffff7fdff) rfl (Frame.refl s)
  | vodMax _ _ => exact execVodMax_frame (ω := 0x1ffff7fdff) rfl (Frame.refl s)
  | vodMin _ _ => exact execVodMin_frame (ω := 0x1ffff7fdff) rfl (Frame.refl s)
  | vodAbs _ _ => exact execVodAbs_frame (ω := 0x1ffff7fdff) rfl (Frame.refl s)
  | vodSel _ _ => exact execVodSel_frame (ω := 0x1ffff7fdff) rfl (Frame.refl s)
  | vodRcp _ _ => exact execVodRcp_frame (ω := 0x1ffff7fdff) rfl (Frame.refl s)
  | vodRsqrt _ _ => exact execVodRsqrt_frame (ω := 0x1ffff7fdff) rfl (Frame.refl s)
  | vodSqrt _ _ => exact execVodSqrt_frame (ω := 0x1ffff7fdff) rfl (Frame.refl s)
  | vodExp _ _ => exact execVodExp_frame (ω := 0x1ffff7fdff) rfl (Frame.refl s)
  | vodLog _ _ => exact execVodLog_frame (ω := 0x1ffff7fdff) rfl (Frame.refl s)
  | vodDiv _ _ => exact execVodDiv_frame (ω := 0x1ffff7fdff) rfl (Frame.refl s)
  | vodAct _ _ => exact execVodAct_frame (ω := 0x1ffff7fdff) rfl (Frame.refl s)
  | vodRsum _ _ => exact execVodRsum_frame (ω := 0x1ffff7fdff) rfl (Frame.refl s)
  | vodRmax _ _ => exact execVodRmax_frame (ω := 0x1ffff7fdff) rfl (Frame.refl s)
  | vodRamax _ _ => exact execVodRamax_frame (ω := 0x1ffff7fdff) rfl (Frame.refl s)
  | vodRssq _ _ => exact execVodRssq_frame (ω := 0x1ffff7fdff) rfl (Frame.refl s)
  | vodRng _ _ => exact execVodRng_frame (ω := 0x1ffff7fdff) rfl (Frame.refl s)
  | sgdMom _ _ _ => exact execSgdMom_frame (ω := 0x1ffff7fdff) rfl (Frame.refl s)
  | adamMom _ _ _ => exact execAdamMom_frame (ω := 0x1ffff7fdff) rfl (Frame.refl s)
  | applyUpd _ _ _ _ => exact execApplyUpd_frame (ω := 0x1ffff7fdff) rfl (Frame.refl s)
  | chScales _ _ _ _ => exact execChScales_frame (ω := 0x1ffff7fdff) rfl (Frame.refl s)
  | quant _ _ _ _ => exact execQuant_frame (ω := 0x1ffff7fdff) rfl (Frame.refl s)
  | gmov _ _ _ => exact execGmov_frame (ω := 0x1ffff7fdff) rfl (Frame.refl s)
  | gradPass _ _ _ => exact execGradPass_frame (ω := 0x1ffff7fdff) rfl (Frame.refl s)
  | verPin _ _ _ => exact execVerPin_frame (ω := 0x1ffff7fdff) rfl (Frame.refl s)
  | verUnpin _ _ => exact execVerUnpin_frame (ω := 0x1ffff7fdff) rfl (Frame.refl s)
  | verCommit _ _ _ => exact execVerCommit_frame (ω := 0x1ffff7fdff) rfl (Frame.refl s)
  | sd _ _ => exact execSd_frame (ω := 0x1ffff7fdff) rfl (Frame.refl s)
  | sdArmRetry _ _ => exact execSdArmRetry_frame (ω := 0x1ffff7fdff) rfl (Frame.refl s)
  | sdComplete _ _ _ => exact execSdComplete_frame (ω := 0x1ffff7fdff) rfl (Frame.refl s)
  | memOpComplete _ _ => exact execMemOpComplete_frame (ω := 0x1ffff7fdff) rfl (Frame.refl s)
  | runAheadStart _ _ _ => exact execRunAheadStart_frame (ω := 0x1ffff7fdff) rfl (Frame.refl s)
  | rld _ _ => exact execRld_frame (ω := 0x1ffff7fdff) rfl (Frame.refl s)
  | reelVectorLand _ _ => exact execReelVectorLand_frame (ω := 0x1ffff7fdff) rfl (Frame.refl s)
  | reelCreditReturn _ _ => exact execReelCreditReturn_frame (ω := 0x1ffff7fdff) rfl (Frame.refl s)
  | commitToken _ _ => exact execCommitToken_frame (ω := 0x1ffff7fdff) rfl (Frame.refl s)
  | voidToken _ _ => exact execVoidToken_frame (ω := 0x1ffff7fdff) rfl (Frame.refl s)
  | reelStall _ _ _ _ _ => exact execReelStall_frame (ω := 0x1ffff7fdff) rfl (Frame.refl s)
  | shfPush _ _ => exact execShfPush_frame (ω := 0x1ffff7fdff) rfl (Frame.refl s)
  | shfPop _ _ => exact execShfPop_frame (ω := 0x1ffff7fdff) rfl (Frame.refl s)
  | popWaitEnd _ _ _ _ => exact execPopWaitEnd_frame (ω := 0x1ffff7fdff) rfl (Frame.refl s)
  | shelfOrder _ _ _ => exact execShelfOrder_frame (ω := 0x1ffff7fdff) rfl (Frame.refl s)
  | chunkMoveDone _ _ => exact execChunkMoveDone_frame (ω := 0x1ffff7fdff) rfl (Frame.refl s)
  | bktOpen _ _ => exact execBktOpen_frame (ω := 0x1ffff7fdff) rfl (Frame.refl s)
  | bktContrib _ _ => exact execBktContrib_frame (ω := 0x1ffff7fdff) rfl (Frame.refl s)
  | bucketLaunch _ => exact execBucketLaunch_frame (ω := 0x1ffff7fdff) rfl (Frame.refl s)
  | bktReduce _ _ => exact execBktReduce_frame (ω := 0x1ffff7fdff) rfl (Frame.refl s)
  | decideGate _ _ => exact execDecideGate_frame (ω := 0x1ffff7fdff) rfl (Frame.refl s)
  | piece _ _ _ => exact execPiece_frame (ω := 0x1ffff7fdff) rfl (Frame.refl s)
  | pieceCredit _ _ _ _ => exact execPieceCredit_frame (ω := 0x1ffff7fdff) rfl (Frame.refl s)
  | localMark _ _ => exact execLocalMark_frame (ω := 0x1ffff7fdff) rfl (Frame.refl s)
  | waitBeat _ _ => exact execWaitBeat_frame (ω := 0x1ffff7fdff) rfl (Frame.refl s)
  | waitBeatReached _ _ => exact execWaitBeatReached_frame (ω := 0x1ffff7fdff) rfl (Frame.refl s)
  | tmkSignal _ _ => exact execTmkSignal_frame (ω := 0x1ffff7fdff) rfl (Frame.refl s)
  | evtCounterAdd _ _ => exact execEvtCounterAdd_frame (ω := 0x1ffff7fdff) rfl (Frame.refl s)
  | waitEvent _ _ => exact execWaitEvent_frame (ω := 0x1ffff7fdff) rfl (Frame.refl s)
  | groupBarrier _ _ => exact execGroupBarrier_frame (ω := 0x1ffff7fdff) rfl (Frame.refl s)
  | barrierArrive _ _ _ => exact execBarrierArrive_frame (ω := 0x1ffff7fdff) rfl (Frame.refl s)
  | barrierRelease _ _ _ => exact execBarrierRelease_frame (ω := 0x1ffff7fdff) rfl (Frame.refl s)
  | engineReport _ _ _ => exact execEngineReport_frame (ω := 0x1ffff7fdff) rfl (Frame.refl s)
  | nominalBoundary => exact execNominalBoundary_frame (ω := 0x1ffff7fdff) rfl (Frame.refl s)
  | holdDecision => exact execHoldDecision_frame (ω := 0x1ffff7fdff) rfl (Frame.refl s)
  | tideBoundary => exact execTideBoundary_frame (ω := 0x1fffffffff) rfl (Frame.refl s)
  | freqSettleEnd => exact execFreqSettleEnd_frame (ω := 0x1ffff7fdff) rfl (Frame.refl s)
  | stoppedApply => exact execStoppedApply_frame (ω := 0x1fffffffff) rfl (Frame.refl s)
  | tideHang _ => exact execTideHang_frame (ω := 0x1ffff7fdff) rfl (Frame.refl s)
  | tideMarkEmit => exact execTideMarkEmit_frame (ω := 0x1ffffffdff) rfl (Frame.refl s)
  | tideMark _ _ _ => exact execTideMark_frame (ω := 0x1ffffffdff) rfl (Frame.refl s)
  | holdMsg _ _ _ => exact execHoldMsg_frame (ω := 0x1ffff7fdff) rfl (Frame.refl s)
  | releaseMsg _ _ _ => exact execReleaseMsg_frame (ω := 0x1ffff7fdff) rfl (Frame.refl s)
  | coreFault _ _ => exact execCoreFault_frame (ω := 0x1ffff7fdff) rfl (Frame.refl s)
  | enmoraCoreFail _ => exact execEnmoraCoreFail_frame (ω := 0x1ffff7fdff) rfl (Frame.refl s)
  | e2bTimeout _ => exact execE2bTimeout_frame (ω := 0x1ffff7fdff) rfl (Frame.refl s)
  | responsePost _ => exact execResponsePost_frame (ω := 0x1ffff7fdff) rfl (Frame.refl s)
  | eventPost => exact execEventPost_frame (ω := 0x1ffff7fdff) rfl (Frame.refl s)
  | e2hDoorbell _ _ => exact execE2hDoorbell_frame (ω := 0x1ffff7fdff) rfl (Frame.refl s)
  | e2bDoorbell _ _ => exact execE2bDoorbell_frame (ω := 0x1ffff7fdff) rfl (Frame.refl s)
  | mailboxRelease _ _ => exact execMailboxRelease_frame (ω := 0x1ffff7fdff) rfl (Frame.refl s)
  | h2eNextRead _ => exact execH2eNextRead_frame (ω := 0x1ffff7fdff) rfl (Frame.refl s)
  | beatCountLoRead _ => exact execBeatCountLoRead_frame (ω := 0x1ffff7fdff) rfl (Frame.refl s)
  | tideCountLoRead _ => exact execTideCountLoRead_frame (ω := 0x1ffff7fdff) rfl (Frame.refl s)
  | stepNumberLoRead _ => exact execStepNumberLoRead_frame (ω := 0x1ffff7fdff) rfl (Frame.refl s)
  | tjPeakRead _ => exact execTjPeakRead_frame (ω := 0x1ffff7fdff) rfl (Frame.refl s)
  | opsPeakRead _ _ => exact execOpsPeakRead_frame (ω := 0x1ffff7fdff) rfl (Frame.refl s)
  | maxSlipRead _ _ => exact execMaxSlipRead_frame (ω := 0x1ffff7fdff) rfl (Frame.refl s)
  | hbmChunksPeakRead _ => exact execHbmChunksPeakRead_frame (ω := 0x1ffff7fdff) rfl (Frame.refl s)
  | profTargetWrite _ _ => exact execProfTargetWrite_frame (ω := 0x1ffff7fdff) rfl (Frame.refl s)
  | routeDataWrite _ _ => exact execRouteDataWrite_frame (ω := 0x1ffff7fdff) rfl (Frame.refl s)
  | routeDataCWrite _ _ => exact execRouteDataCWrite_frame (ω := 0x1ffff7fdff) rfl (Frame.refl s)
  | devIdWrite _ _ => exact execDevIdWrite_frame (ω := 0x1ffff7fdff) rfl (Frame.refl s)
  | laneMapWrite _ _ _ => exact execLaneMapWrite_frame (ω := 0x1ffff7fdff) rfl (Frame.refl s)
  | registerWrite _ _ _ _ => exact execRegisterWrite_frame (ω := 0x1ffff7fdff) rfl (Frame.refl s)
  | hello _ _ => exact execHello_frame (ω := 0x1ffff7fdff) rfl (Frame.refl s)
  | auth _ => exact execAuth_frame (ω := 0x1ffff7fdff) rfl (Frame.refl s)
  | frameAck _ => exact execFrameAck_frame (ω := 0x1ffff7fdff) rfl (Frame.refl s)
  | closeFrame _ => exact execCloseFrame_frame (ω := 0x1ffff7fdff) rfl (Frame.refl s)
  | frameResend _ _ => exact execFrameResend_frame (ω := 0x1ffff7fdff) rfl (Frame.refl s)
  | mbxPost _ => exact execMbxPost_frame (ω := 0x1ffff7fdff) rfl (Frame.refl s)
  | mbxRead _ => exact execMbxRead_frame (ω := 0x1ffff7fdff) rfl (Frame.refl s)
  | mbxRelease _ => exact execMbxRelease_frame (ω := 0x1ffff7fdff) rfl (Frame.refl s)
  | winRead _ => exact execWinRead_frame (ω := 0x1ffff7fdff) rfl (Frame.refl s)
  | winWrite _ => exact execWinWrite_frame (ω := 0x1ffff7fdff) rfl (Frame.refl s)
  | regRd _ => exact execRegRd_frame (ω := 0x1ffff7fdff) rfl (Frame.refl s)
  | regWr _ => exact execRegWr_frame (ω := 0x1ffff7fdff) rfl (Frame.refl s)
  | keys _ => exact execKeys_frame (ω := 0x1ffff7fdff) rfl (Frame.refl s)
  | imageFrame _ => exact execImageFrame_frame (ω := 0x1ffff7fdff) rfl (Frame.refl s)
  | imageVerify => exact execImageVerify_frame (ω := 0x1ffff7fdff) rfl (Frame.refl s)
  | readReq _ _ _ _ => exact execReadReq_frame (ω := 0x1ffff7fdff) rfl (Frame.refl s)
  | readData _ _ _ => exact execReadData_frame (ω := 0x1ffff7fdff) rfl (Frame.refl s)
  | writePkt _ _ _ => exact execWritePkt_frame (ω := 0x1ffff7fdff) rfl (Frame.refl s)
  | writeAck _ _ _ => exact execWriteAck_frame (ω := 0x1ffff7fdff) rfl (Frame.refl s)
  | unreach _ _ _ => exact execUnreach_frame (ω := 0x1ffff7fdff) rfl (Frame.refl s)
  | lossReport _ _ _ => exact execLossReport_frame (ω := 0x1ffff7fdff) rfl (Frame.refl s)
  | lossWaitExpire _ => exact execLossWaitExpire_frame (ω := 0x1ffff7fdff) rfl (Frame.refl s)
  | linkAck _ _ _ => exact execLinkAck_frame (ω := 0x1ffff7fdff) rfl (Frame.refl s)
  | linkAckSend _ => exact execLinkAckSend_frame (ω := 0x1ffff7fdff) rfl (Frame.refl s)
  | nack _ _ _ => exact execNack_frame (ω := 0x1ffff7fdff) rfl (Frame.refl s)
  | nackRepeat _ => exact execNackRepeat_frame (ω := 0x1ffff7fdff) rfl (Frame.refl s)
  | flitCrcError _ _ => exact execFlitCrcError_frame (ω := 0x1ffff7fdff) rfl (Frame.refl s)
  | rttProbe _ => exact execRttProbe_frame (ω := 0x1ffff7fdff) rfl (Frame.refl s)
  | rttEcho _ _ => exact execRttEcho_frame (ω := 0x1ffff7fdff) rfl (Frame.refl s)
  | linkDetectDone _ => exact execLinkDetectDone_frame (ω := 0x1ffff7fdff) rfl (Frame.refl s)
  | linkEqualiseDone _ => exact execLinkEqualiseDone_frame (ω := 0x1ffff7fdff) rfl (Frame.refl s)
  | linkFecLockDone _ => exact execLinkFecLockDone_frame (ω := 0x1ffff7fdff) rfl (Frame.refl s)
  | linkDeskewDone _ => exact execLinkDeskewDone_frame (ω := 0x1ffff7fdff) rfl (Frame.refl s)
  | linkParamDone _ _ _ _ => exact execLinkParamDone_frame (ω := 0x1ffff7fdff) rfl (Frame.refl s)
  | linkStateTimeout _ => exact execLinkStateTimeout_frame (ω := 0x1ffff7fdff) rfl (Frame.refl s)
  | laneFail _ _ => exact execLaneFail_frame (ω := 0x1ffff7fdff) rfl (Frame.refl s)
  | laneSwap _ _ => exact execLaneSwap_frame (ω := 0x1ffff7fdff) rfl (Frame.refl s)
  | swapMark _ _ => exact execSwapMark_frame (ω := 0x1ffff7fdff) rfl (Frame.refl s)
  | swapLockDone _ => exact execSwapLockDone_frame (ω := 0x1ffff7fdff) rfl (Frame.refl s)
  | linkDown _ _ => exact execLinkDown_frame (ω := 0x1ffff7fdff) rfl (Frame.refl s)
  | swell _ _ => exact execSwell_frame (ω := 0x1ffff7fdff) rfl (Frame.refl s)
  | marginLow _ => exact execMarginLow_frame (ω := 0x1ffff7fdff) rfl (Frame.refl s)
  | xingHold _ _ => exact execXingHold_frame (ω := 0x1ffff7fdff) rfl (Frame.refl s)
  | genFail _ => exact execGenFail_frame (ω := 0x1ffff7fdff) rfl (Frame.refl s)
  | genFreqWindow _ _ _ => exact execGenFreqWindow_frame (ω := 0x1ffff7fdff) rfl (Frame.refl s)
  | fixedPllLoss _ => exact execFixedPllLoss_frame (ω := 0x1ffff7fdff) rfl (Frame.refl s)
  | junctionSample _ => exact execJunctionSample_frame (ω := 0x1ffff7fdff) rfl (Frame.refl s)
  | ceilingRise _ => exact execCeilingRise_frame (ω := 0x1ffff7fdff) rfl (Frame.refl s)
  | thermtrip _ _ => exact execThermtrip_frame (ω := 0x1ffff7fdff) rfl (Frame.refl s)
  | pmbusPoll _ => exact execPmbusPoll_frame (ω := 0x1ffff7fdff) rfl (Frame.refl s)
  | vrFault _ _ => exact execVrFault_frame (ω := 0x1ffff7fdff) rfl (Frame.refl s)
  | hbmRefresh => exact execHbmRefresh_frame (Frame.refl s)
  | stackTempRead _ => exact execStackTempRead_frame (ω := 0x1ffff7fdff) rfl (Frame.refl s)
  | pcCeWindow => exact execPcCeWindow_frame (ω := 0x1ffff7fdff) rfl (Frame.refl s)
  | pcThreshold _ => exact execPcThreshold_frame (ω := 0x1ffff7fdff) rfl (Frame.refl s)
  | pcCopyDone _ => exact execPcCopyDone_frame (ω := 0x1ffff7fdff) rfl (Frame.refl s)
  | sliceThreshold _ => exact execSliceThreshold_frame (ω := 0x1ffff7fdff) rfl (Frame.refl s)
  | sliceCopyDone _ => exact execSliceCopyDone_frame (ω := 0x1ffff7fdff) rfl (Frame.refl s)
  | patrolScrub _ _ => exact execPatrolScrub_frame (ω := 0x1ffff7fdff) rfl (Frame.refl s)
  | snapIntervalExpire => exact execSnapIntervalExpire_frame (ω := 0x1ffff7fdff) rfl (Frame.refl s)
  | snapReq _ _ _ => exact execSnapReq_frame (ω := 0x1ffff7fdff) rfl (Frame.refl s)
  | snapFreezeDone => exact execSnapFreezeDone_frame (ω := 0x1ffff7fdff) rfl (Frame.refl s)
  | snapTransferDone => exact execSnapTransferDone_frame (ω := 0x1ffff7fdff) rfl (Frame.refl s)
  | snapDone _ _ _ => exact execSnapDone_frame (ω := 0x1ffff7fdff) rfl (Frame.refl s)
  | snapCommit _ _ _ => exact execSnapCommit_frame (ω := 0x1ffff7fdff) rfl (Frame.refl s)
  | snapFail _ _ _ => exact execSnapFail_frame (ω := 0x1ffff7fdff) rfl (Frame.refl s)
  | snapAbort _ _ _ => exact execSnapAbort_frame (ω := 0x1ffff7fdff) rfl (Frame.refl s)
  | restoreDone => exact execRestoreDone_frame (ω := 0x1ffff7fdff) rfl (Frame.refl s)
  | resetNAssert => cases h
  | resetNRelease _ _ => cases h
  | powerOnAssert => cases h
  | powerOnRelease _ _ => cases h
  | domainClockValid _ => cases h
  | domainClockFail _ => exact execDomainClockFail_frame (ω := 0x1ffff7fdff) rfl (Frame.refl s)
  | romSelftestDone _ => exact execRomSelftestDone_frame (ω := 0x1ffff7fdff) rfl (Frame.refl s)
  | enmoraStageDone => exact execEnmoraStageDone_frame (ω := 0x1ffff7fdff) rfl (Frame.refl s)
  | memoryTrained _ _ _ => exact execMemoryTrained_frame (ω := 0x1ffff7fdff) rfl (Frame.refl s)
  | wakeDone => exact execWakeDone_frame (ω := 0x1ffff7fdff) rfl (Frame.refl s)
  | portAcquireDone _ => exact execPortAcquireDone_frame (ω := 0x1ffff7fdff) rfl (Frame.refl s)
  | portAlignDone _ => exact execPortAlignDone_frame (ω := 0x1ffff7fdff) rfl (Frame.refl s)
  | portLightLoss _ => exact execPortLightLoss_frame (ω := 0x1ffff7fdff) rfl (Frame.refl s)
  | portFecLoss _ => exact execPortFecLoss_frame (ω := 0x1ffff7fdff) rfl (Frame.refl s)
  | lighthouseError _ => exact execLighthouseError_frame (ω := 0x1ffff7fdff) rfl (Frame.refl s)
  | descDone _ _ _ => exact execDescDone_frame (ω := 0x1ffff7fdff) rfl (Frame.refl s)
  | sleepEntryDone => exact execSleepEntryDone_frame (ω := 0x1ffff7fdff) rfl (Frame.refl s)
  | ddr5Refresh => exact execDdr5Refresh_frame (Frame.refl s)
  | blockCopyDone _ _ => exact execBlockCopyDone_frame (ω := 0x1ffff7fdff) rfl (Frame.refl s)
  | measureProbe _ _ => exact execMeasureProbe_frame (ω := 0x1ffff7fdff) rfl (Frame.refl s)

/-- What every command keeps, reset and release included. -/
theorem exec_frame0 (c : Instr) (s : State) : Frame0O s (exec c s) := by
  by_cases h : resetsOrReleases c = false
  · exact (exec_frame c s h).weaken
  · cases c with
    | resetNAssert => exact execResetNAssert_frame0
    | resetNRelease _ _ => exact execResetNRelease_frame0
    | powerOnAssert => exact execPowerOnAssert_frame0
    | powerOnRelease _ _ => exact execPowerOnRelease_frame0
    | domainClockValid _ => exact execDomainClockValid_frame0
    | _ => exact absurd rfl h

theorem step_of_idle {s : State} (h : s.pending = []) : step s = .next s.idle := by unfold step; rw [h]

theorem step_of_front {s : State} {c : Instr} {rest : List Instr} (h : s.pending = c :: rest) : step s = exec c { s with pending := rest } := by
  unfold step; rw [h]

/-- A property of two states that a beat and every command establish holds of a step. -/
theorem step_cases {s t : State} (h : step s = .next t) :
    (s.pending = [] ∧ t = s.idle) ∨ ∃ c rest, s.pending = c :: rest ∧ exec c { s with pending := rest } = .next t := by
  cases hp : s.pending with
  | nil =>
    rw [step_of_idle hp, Host.Outcome.next.injEq] at h
    exact .inl ⟨rfl, h.symm⟩
  | cons c rest => exact .inr ⟨c, rest, rfl, step_of_front hp ▸ h⟩

theorem State.idle_eq (s : State) : s.idle = { s with beat := s.idle.beat } := by unfold State.idle; split <;> rfl

/-- Settles O1: the step unfolds to the front command, which keeps the queue. -/
theorem stepRunsTheFront : Obligations.StepRunsTheFront := by
  unfold Obligations.StepRunsTheFront
  exact fun c rest s t => ⟨rfl, fun hp h => (exec_frame0 c _ t (step_of_front hp ▸ h)).pending⟩

/-- Settles O4: a beat touches neither memory nor registers, and every command keeps both canonical. -/
theorem everyStepKeepsCanonicalForm : Obligations.EveryStepKeepsCanonicalForm := by
  unfold Obligations.EveryStepKeepsCanonicalForm
  intro s t hs h
  obtain ⟨_, rfl⟩ | ⟨c, rest, _, h⟩ := step_cases h
  · rw [State.idle_eq]; exact hs
  · have keeps := exec_frame0 c _ t h
    exact Bool.and_eq_true_iff.2 ⟨keeps.memWf (memWf_of_canonical hs), keeps.regsWf (regsWf_of_canonical hs)⟩

/-- Settles O7: every command outside reset and release has a frame, which keeps both. -/
theorem onlyResetMovesTheBeat : Obligations.OnlyResetMovesTheBeat := by
  unfold Obligations.OnlyResetMovesTheBeat
  intro c s t hn hp hnr hpr hd h
  have other : resetsOrReleases c = false := by
    cases c with
    | resetNAssert => exact absurd rfl hn
    | resetNRelease b k => exact absurd rfl (hnr b k)
    | powerOnAssert => exact absurd rfl hp
    | powerOnRelease b k => exact absurd rfl (hpr b k)
    | domainClockValid d => exact absurd rfl (hd d)
    | _ => rfl
  have keeps := exec_frame c s other t h
  exact ⟨keeps.beat, keeps.beatOn, keeps.asserted, keeps.powerOn, keeps.pinLow⟩

/-! ### Completion -/

theorem Cmd.serve_next (c : Cmd) (r : Req) (s : State) : ∃ t, c.serve r s = .next t := by
  unfold Cmd.serve
  split
  · exact ⟨_, rfl⟩
  · exact ⟨_, rfl⟩

/-- Every branch of every command's meaning answers a next state. -/
theorem exec_next (c : Instr) (s : State) : ∃ t, exec c s = .next t := by
  cases c
  case devIdentify | devStatus | devCaps | devResetCause | devSpares | devSleep | devWake | devEcho | devArrayCheck | tideLoad | tideArm | tideDisarm |
    tideUnload | tideRun | tideStop | tideHold | tideRelease | tideConfig | tideStatus | profSet | profGet | profLimits | profRamp | profHistory |
    memWindowOpen | memWindowClose | memRead | memWrite | memFill | memInfo | memScrub | memShelfLimit | linkStatus | linkTrain | linkMargin | linkDisable
    | linkEnable | linkCounters | linkLoopback | jobCreate | jobSetId | jobRouteSet | jobRouteGet | jobMeasure | jobGroupForm | jobGroupLeave | jobCursor
    | jobStatus | jobEnd | snapConfig | snapPolicy | snapInterval | snapNow | snapStatus | restorePrepare | restoreRun | restoreStatus | restoreVerify |
    telLogRead | telLogStatus | telAreaSet | telAlarmSet | telCounters | telEventMask | secCertGet | secAttest | secMeasureLog | secExpert | secDrop |
    secSelftest | regRead | regWrite | regModify | regPoll =>
    exact Cmd.serve_next _ _ s
  case regPollEnd | arrayRetry | verPin | verUnpin | runAheadStart | reelVectorLand | reelCreditReturn | commitToken | voidToken | reelStall | popWaitEnd |
    shelfOrder | chunkMoveDone | bktOpen | bktContrib | bucketLaunch | bktReduce | decideGate | waitBeatReached | evtCounterAdd | nominalBoundary |
    tideMarkEmit =>
    dsimp only [exec, execRegPollEnd, execArrayRetry, execVerPin, execVerUnpin, execRunAheadStart, execReelVectorLand, execReelCreditReturn,
      execCommitToken, execVoidToken, execReelStall, execPopWaitEnd, execShelfOrder, execChunkMoveDone, execBktOpen, execBktContrib,
      execBucketLaunch, execBktReduce, execDecideGate, execWaitBeatReached, execEvtCounterAdd, execNominalBoundary, execTideMarkEmit]
    repeat' split
    all_goals exact ⟨_, rfl⟩
  all_goals exact ⟨_, rfl⟩

/-- Settles O3: a beat when nothing waits, and otherwise the next state of the front command. -/
theorem everyCommandCompletes : Obligations.EveryCommandCompletes := by
  unfold Obligations.EveryCommandCompletes
  intro s
  cases hp : s.pending with
  | nil => exact ⟨_, step_of_idle hp⟩
  | cons c rest => exact step_of_front hp ▸ exec_next c _

/-! ### The spare map, the routing table and the tide group -/

/-- R463: every substitution of the spare map stands. -/
structure Kept.Extends (k k' : Kept) : Prop where
  failedSlots : ∀ x ∈ k.failedSlots, x ∈ k'.failedSlots
  spareSlotOf : ∀ x ∈ k.spareSlotOf, x ∈ k'.spareSlotOf
  spareSlice : ∀ x ∈ k.spareSlice, x ∈ k'.spareSlice
  failedGens : ∀ x ∈ k.failedGens, x ∈ k'.failedGens
  failedEnmora : ∀ x ∈ k.failedEnmora, x ∈ k'.failedEnmora

theorem Kept.Extends.refl (k : Kept) : Kept.Extends k k := ⟨fun _ h => h, fun _ h => h, fun _ h => h, fun _ h => h, fun _ h => h⟩

theorem Kept.Extends.trans {a b c : Kept} (h : Kept.Extends a b) (k : Kept.Extends b c) : Kept.Extends a c :=
  ⟨fun x m => k.failedSlots x (h.failedSlots x m), fun x m => k.spareSlotOf x (h.spareSlotOf x m), fun x m => k.spareSlice x (h.spareSlice x m),
    fun x m => k.failedGens x (h.failedGens x m), fun x m => k.failedEnmora x (h.failedEnmora x m)⟩

theorem Frame.extends {ω : Nat} {s t : State} (h : Frame ω s t) : Kept.Extends s.kept t.kept :=
  ⟨h.failedSlots, h.spareSlotOf, h.spareSlice, h.failedGens, h.failedEnmora⟩

/-- What the release of reset and of clock domains keeps: only registers, generators, centring, BEAT_COUNT and the pins move. -/
structure Steady (s t : State) : Prop where
  routes : t.routes = s.routes
  group : t.group = s.group
  kept : Kept.Extends s.kept t.kept

theorem Frame.steady {s t : State} (h : Frame 0x1ffff7fdff s t) : Steady s t := ⟨h.routes rfl, h.group rfl, h.extends⟩

theorem Steady.trans {r s t : State} (h : Steady r s) (k : Steady s t) : Steady r t :=
  ⟨k.routes.trans h.routes, k.group.trans h.group, h.kept.trans k.kept⟩

theorem Steady.of_pins {s t : State} {rst : ResetLogic} (h : Steady { s with rst := rst } t) : Steady s t := ⟨h.routes, h.group, h.kept⟩

theorem State.beginRelease_steady (s : State) (b k : BitVec 2) : Steady s (s.beginRelease b k) := by
  have after : Frame 0x1ffff7fdff { s with rst := { s.rst with asserted := false } }
      ((({ s with rst := { s.rst with asserted := false } } : State).setReg R.straps (word (b.toNat + 4 * k.toNat + 16 * 3))).setField R.bootState 0 4 1) :=
    State.setField_frame rfl (State.setReg_frame rfl (Frame.refl _))
  unfold State.beginRelease
  dsimp only
  split
  · exact (Frame.refl s).steady
  · split
    · exact (State.setField_frame rfl after).steady.of_pins
    · exact after.steady.of_pins

theorem State.domainValid_steady (s : State) (d : Nat) : Steady s (s.domainValid d) := by
  have released : Frame 0x1ffff7fdff s (s.releaseRegion d) := State.releaseRegion_frame rfl (Frame.refl s)
  unfold State.domainValid
  dsimp only
  split
  · exact ⟨rfl, rfl, Kept.Extends.refl _⟩
  · split
    · exact (State.startGen_frame (ω := 0x1ffff7fdff) rfl (State.setField_frame rfl released)).steady
    · split
      · exact (State.trainPorts_frame (ω := 0x1ffff7fdff) rfl released).steady
      · exact (State.centre_frame (ω := 0x1ffff7fdff) rfl released).steady

theorem execResetNRelease_steady {s t : State} {b k : BitVec 2} (h : exec (.resetNRelease b k) s = .next t) : Steady s t := by
  obtain rfl := Host.Outcome.next.inj h
  exact (State.beginRelease_steady _ b k).of_pins

theorem execPowerOnRelease_steady {s t : State} {b k : BitVec 2} (h : exec (.powerOnRelease b k) s = .next t) : Steady s t := by
  obtain rfl := Host.Outcome.next.inj h
  have cause : Steady s (if s.rst.powerOn then s.setReg R.resetCause 1 else s) := by
    split
    · exact ⟨rfl, rfl, Kept.Extends.refl _⟩
    · exact (Frame.refl s).steady
  exact cause.trans (State.beginRelease_steady _ b k).of_pins

theorem execDomainClockValid_steady {s t : State} {d : Fin 41} (h : exec (.domainClockValid d) s = .next t) : Steady s t := by
  obtain rfl := Host.Outcome.next.inj h
  split
  · exact s.domainValid_steady d
  · exact (Frame.refl s).steady

theorem execResetNAssert_extends {s t : State} (h : exec .resetNAssert s = .next t) : Kept.Extends s.kept t.kept := by
  obtain rfl := Host.Outcome.next.inj h
  split
  · exact Kept.Extends.refl _
  · exact ⟨fun _ h => h, fun _ h => h, fun _ h => h, fun _ h => h, fun _ h => h⟩

theorem exec_extends {c : Instr} {s t : State} (hc : c ≠ .powerOnAssert) (h : exec c s = .next t) : Kept.Extends s.kept t.kept := by
  by_cases other : resetsOrReleases c = false
  · exact (exec_frame c s other t h).extends
  · cases c with
    | resetNAssert => exact execResetNAssert_extends h
    | resetNRelease _ _ => exact (execResetNRelease_steady h).kept
    | powerOnAssert => exact absurd rfl hc
    | powerOnRelease _ _ => exact (execPowerOnRelease_steady h).kept
    | domainClockValid _ => exact (execDomainClockValid_steady h).kept
    | _ => exact absurd rfl other

/-- Settles O6: a beat leaves the spare map alone, and every command but power-on extends it. -/
theorem sparesStayInUse : Obligations.SparesStayInUse := by
  unfold Obligations.SparesStayInUse
  intro s t hp h
  have both : Kept.Extends s.kept t.kept ∧ t.part = s.part := by
    obtain ⟨_, rfl⟩ | ⟨c, rest, hq, h⟩ := step_cases h
    · rw [State.idle_eq]; exact ⟨Kept.Extends.refl _, rfl⟩
    · exact ⟨exec_extends (s := { s with pending := rest }) (fun hc => hp (by rw [hq, hc]; rfl)) h, (exec_frame0 c _ t h).part⟩
  obtain ⟨⟨slots, slotOf, slices, gens, enmora⟩, part⟩ := both
  exact ⟨slots, slotOf, slices, gens, enmora, part⟩

theorem coarseFootprint_routes {c : Instr} (hb : c ≠ .tideBoundary) (hs : c ≠ .stoppedApply) : coarseFootprint c &&& 0x200 = 0 := by
  unfold coarseFootprint
  split
  case h_1 => exact absurd rfl hb
  case h_2 => exact absurd rfl hs
  all_goals rfl

theorem coarseFootprint_group {c : Instr} (hb : c ≠ .tideBoundary) (hs : c ≠ .stoppedApply) (hf : ∀ r, c ≠ .jobGroupForm r)
    (hl : ∀ r, c ≠ .jobGroupLeave r) (hm : ∀ l b p, c ≠ .tideMark l b p) (he : c ≠ .tideMarkEmit) : coarseFootprint c &&& 0x80000 = 0 := by
  unfold coarseFootprint
  split
  case h_1 => exact absurd rfl hb
  case h_2 => exact absurd rfl hs
  case h_3 => exact absurd rfl (hf _)
  case h_4 => exact absurd rfl (hl _)
  case h_5 => exact absurd rfl (hm _ _ _)
  case h_6 => exact absurd rfl he
  case h_7 => rfl

/-- Settles O8: a release is steady, and of the other commands only boundaries have the routing table in their footprint. -/
theorem routesChangeAtBoundaries : Obligations.RoutesChangeAtBoundaries := by
  unfold Obligations.RoutesChangeAtBoundaries
  intro c s t hb hs hn hp h
  by_cases other : resetsOrReleases c = false
  · have keeps := exec_frame c s other t h
    exact ⟨keeps.routes (coarseFootprint_routes hb hs), fun hf hl hm he => keeps.group (coarseFootprint_group hb hs hf hl hm he)⟩
  · have steady : Steady s t := by
      cases c with
      | resetNAssert => exact absurd rfl hn
      | resetNRelease _ _ => exact execResetNRelease_steady h
      | powerOnAssert => exact absurd rfl hp
      | powerOnRelease _ _ => exact execPowerOnRelease_steady h
      | domainClockValid _ => exact execDomainClockValid_steady h
      | _ => exact absurd rfl other
    exact ⟨steady.routes, fun _ _ _ _ => steady.group⟩

end Sys2Proof.Machine
end

section
/-!
A mailbox command that is served in Sleep too (R518), and the DEV_* commands that report.
-/
namespace Sys2Proof.Machine

theorem safetyServes_iff (op : Nat) (r : Req) (s : State) : Safety.serves op r s = true ↔
    (s.commandRuns = true ∧ s.rst.tripped = false ∧ mayBegin op r s.enm.taken = true) ∧ s.servesFamily op = true := by
  simp [Safety.serves, Safety.begins, and_assoc]

/-- The command is answered at once, asleep or not; one that answers in a thermal trip too (R513) asks for no working sensor. -/
theorem Cmd.serve_in_sleep {c : Cmd} {r : Req} {s t : State} {p : Reply} (hruns : s.commandRuns = true)
    (htrip : s.rst.tripped = false ∨ c.inTrip = true) (hbegin : mayBegin c.op r s.enm.taken = true) (hfamily : s.servesFamily c.op = true)
    (hpay : r.pay.length ≤ 240) (hlen : c.len r.pay = true) (hact : c.act s r = (t, some p)) (hsleep : c.inSleep = true := by rfl)
    (hexpert : c.expert = false := by rfl) (hparam : c.param s r = true := by rfl) (hstate : c.state s r = true := by rfl)
    (hdenied : c.denied s r = false := by rfl) : c.serve r s = .next (t.respond r.mb c.op r.tag p) := by
  have htaken : c.taken r s = true := by obtain h | h := htrip <;> simp [Cmd.taken, hruns, hbegin, h]
  exact Cmd.serve_reply htaken (Cmd.check_none hpay hlen (.inl hexpert) hparam hfamily (.inr hsleep) hstate hdenied) hact

/-- A query without a payload answers what its report gives and changes nothing. -/
theorem Cmd.serve_query {c : Cmd} {r : Req} {s : State} {p : Reply} (h : Safety.serves c.op r s = true) (hpay : r.pay = [])
    (hact : c.act s r = (s, some p)) (hlen : c.len [] = true := by rfl) (hsleep : c.inSleep = true := by rfl)
    (hexpert : c.expert = false := by rfl) (hparam : c.param s r = true := by rfl) (hstate : c.state s r = true := by rfl)
    (hdenied : c.denied s r = false := by rfl) : c.serve r s = .next (s.respond r.mb c.op r.tag p) := by
  obtain ⟨⟨hruns, htrip, hbegin⟩, hfamily⟩ := (safetyServes_iff ..).1 h
  exact Cmd.serve_in_sleep hruns (.inl htrip) hbegin hfamily (by simp [hpay]) (hpay ▸ hlen) hact hsleep hexpert hparam hstate hdenied

/-- A list of blocks of one length, read from the start of a block. -/
theorem drop_flatMap_of_length {α β : Type} {f : α → List β} {k : Nat} (h : ∀ x, (f x).length = k) (l : List α) (i : Nat) :
    (l.flatMap f).drop (k * i) = (l.drop i).flatMap f := by
  induction l generalizing i with
  | nil => simp
  | cons x l ih =>
    cases i with
    | zero => rfl
    | succ i =>
      rw [List.flatMap_cons, List.drop_succ_cons, Nat.mul_succ, Nat.add_comm, ← List.drop_drop, List.drop_left' (h x), ih]

/-- What DEV_SPARES reports of a row of Table 13.1: `f` spares fitted, `u` in use. -/
def spareRow (x : Nat × Nat) : List Byte := leBytes 2 x.1 ++ leBytes 2 (min x.2 0xFFFF) ++ leBytes 1 (b2n (x.1 ≠ 0xFFFF && decide (x.1 ≤ x.2))) ++ [0]

theorem spareRow_length (x : Nat × Nat) : (spareRow x).length = 6 := by simp [spareRow, leBytes_length]

theorem spareRow_take (x : Nat × Nat) : (spareRow x).take 4 = leBytes 2 x.1 ++ leBytes 2 (min x.2 0xFFFF) := by
  unfold spareRow
  rw [List.append_assoc, List.take_left' (by simp [leBytes_length])]

theorem cmdDevSpares_act (s : State) (r : Req) :
    cmdDevSpares.act s r = (s, some (.ok ((sparesFitted.zip s.kept.spares).flatMap spareRow))) := rfl

/-- Settles O11: each query passes the checks of Table 3.6 and answers; of DEV_SPARES' payload, a row is a block of six bytes. -/
theorem deviceQueriesAnswer : Obligations.DeviceQueriesAnswer := by
  unfold Obligations.DeviceQueriesAnswer
  intro r s
  refine ⟨fun h hpay => Cmd.serve_query (c := cmdDevIdentify) h hpay rfl, fun h hpay => Cmd.serve_query (c := cmdDevStatus) h hpay ?status,
    fun h hpay => Cmd.serve_query (c := cmdDevCaps) h hpay rfl, fun hruns hbegin hfamily hpay => ?cause, fun h hpay hten => ?spares, fun h hpay => ?echo⟩
  case status => simp [cmdDevStatus, State.powerState, State.asleep, State.bootStage, State.regN, State.field, Reply.ok]
  case cause =>
    exact Cmd.serve_in_sleep (c := cmdDevResetCause) hruns (.inr rfl) hbegin hfamily (by simp [hpay]) (by simp [hpay, cmdDevResetCause, lenIs]) rfl
  case echo =>
    obtain ⟨⟨hruns, htrip, hbegin⟩, hfamily⟩ := (safetyServes_iff ..).1 h
    exact Cmd.serve_in_sleep (c := cmdDevEcho) hruns (.inl htrip) hbegin hfamily hpay (decide_eq_true hpay) rfl
  case spares =>
    have rows : (sparesFitted.zip s.kept.spares).length = 10 := by rw [List.length_zip, hten]; rfl
    refine ⟨_, ?_, Cmd.serve_query (c := cmdDevSpares) h hpay (cmdDevSpares_act s r), fun i hi => ?_⟩
    · simp [List.length_flatMap, spareRow_length, rows]
    · rw [drop_flatMap_of_length spareRow_length, List.drop_eq_getElem_cons (by omega), List.flatMap_cons,
        List.take_append_of_le_length (by rw [spareRow_length]; omega), spareRow_take, List.getElem_zip,
        List.getD_eq_getElem _ _ (show i < s.kept.spares.length by omega), ← sparesFitted, List.getD_eq_getElem _ _ (show i < sparesFitted.length from hi)]

end Sys2Proof.Machine
end

section
/-!
Fields of a register after a write to one, and folds whose every step touches its own unit.
-/
namespace Sys2Proof.Machine

section Fields

variable {s : State} {k j lo len lo' len' v : Nat}

theorem State.setField_wf (s : State) (k lo len v : Nat) (h : Sparse.wf regReset s.regs = true) : Sparse.wf regReset (s.setField k lo len v).regs = true :=
  State.setReg_wf s k _ h

theorem State.setField_reg_self (h : Sparse.wf regReset s.regs = true) : (s.setField k lo len v).reg k = setBits (s.reg k) lo len v :=
  State.setReg_reg_self s k _ h

theorem State.setField_reg_ne (h : j ≠ k) : (s.setField k lo len v).reg j = s.reg j := State.setReg_reg_ne s k j _ h

/-- What every register reads as after a write to a field of one. -/
theorem State.setField_reg (h : Sparse.wf regReset s.regs = true) : (s.setField k lo len v).reg j = if j = k then setBits (s.reg j) lo len v else s.reg j := by
  split
  next hj => rw [hj, State.setField_reg_self h]
  next hj => exact State.setField_reg_ne hj

/-- What every register reads as after a write to one. -/
theorem State.setReg_reg {v : Word} (h : Sparse.wf regReset s.regs = true) : (s.setReg k v).reg j = if j = k then v else s.reg j := by
  split
  next hj => rw [hj, State.setReg_reg_self s k v h]
  next hj => exact State.setReg_reg_ne s k j v hj

theorem State.field_setField_self (h : Sparse.wf regReset s.regs = true) (hl : lo + len ≤ 32) : (s.setField k lo len v).field k lo len = v % 2 ^ len := by
  rw [State.field, State.setField_reg_self h, bits_setBits_self _ _ hl]

theorem State.field_setField_ne (h : j ≠ k) : (s.setField k lo len v).field j lo' len' = s.field j lo' len' := by
  rw [State.field, State.setField_reg_ne h, State.field]

theorem State.field_congr {s t : State} {k lo len : Nat} (h : t.reg k = s.reg k) : t.field k lo len = s.field k lo len := by
  rw [State.field, h, State.field]

end Fields

theorem bits_one {w : Nat} (x : BitVec w) (i : Nat) : bits x i 1 = b2n (bit x i) := by
  apply Nat.eq_of_testBit_eq
  intro j
  rw [testBit_bits]
  cases j with
  | zero => cases h : x.getLsbD i <;> simp [b2n, bit, h]
  | succ j => cases h : x.getLsbD i <;> simp [b2n, bit, h, Nat.testBit_succ]

/-- A fold over units of which each step changes what its own unit shows, by `g`, and what no other shows. -/
theorem foldl_view {σ β ι : Type} [DecidableEq ι] {P : σ → Prop} {V : ι → σ → β} {f : σ → ι → σ} {g : ι → β → β} (hkeep : ∀ s i, P s → P (f s i))
    (hself : ∀ s i, P s → V i (f s i) = g i (V i s)) (hother : ∀ s i j, P s → j ≠ i → V j (f s i) = V j s) {l : List ι} (hl : l.Nodup) {s : σ} (h : P s)
    (j : ι) : V j (l.foldl f s) = if j ∈ l then g j (V j s) else V j s := by
  induction l generalizing s with
  | nil => simp
  | cons i l ih =>
    obtain ⟨hi, hl⟩ := List.nodup_cons.1 hl
    rw [List.foldl_cons, ih hl (hkeep s i h)]
    by_cases hj : j = i
    · subst hj
      simp [hi, hself s j h]
    · simp [hj, hother s i j h hj]

/-- A fold none of whose steps changes what `V` shows. -/
theorem foldl_view_const {σ β ι : Type} {V : σ → β} {f : σ → ι → σ} {l : List ι} (hkeep : ∀ s, ∀ i ∈ l, V (f s i) = V s) (s : σ) :
    V (l.foldl f s) = V s := by
  induction l generalizing s with
  | nil => rfl
  | cons i l ih =>
    rw [List.foldl_cons, ih fun s i hi => hkeep s i (List.mem_cons_of_mem _ hi), hkeep s i List.mem_cons_self]

end Sys2Proof.Machine
end

section
/-!
The links of a mask, and what the LINK_* commands do to one link (R406, R407, R430, R431).
-/
namespace Sys2Proof.Machine

theorem mem_linksOf {mask l : Nat} : l ∈ linksOf mask ↔ l < 64 ∧ mask.testBit l = true := by simp [linksOf, setBitsOf]

theorem linksOf_nodup (mask : Nat) : (linksOf mask).Nodup := List.nodup_range.filter _

theorem linksOf_all_iff {mask : Nat} {p : Nat → Bool} : (linksOf mask).all p = true ↔ ∀ l < 64, mask.testBit l = true → p l = true := by
  simp only [List.all_eq_true, mem_linksOf]
  exact ⟨fun h l hl ht => h l ⟨hl, ht⟩, fun h l hl => h l hl.1 hl.2⟩

theorem State.setLink_linkSt_self (s : State) (l : Nat) (x : LinkSt) : (s.setLink l x).linkSt l = if l < s.link.links.length then x else {} := by
  simp only [State.linkSt, State.setLink, List.getD_eq_getElem?_getD, List.getElem?_set_self']
  split
  · rw [List.getElem?_eq_getElem ‹_›]; rfl
  · rw [List.getElem?_eq_none (by omega)]; rfl

theorem State.setLink_linkSt_ne (s : State) {l j : Nat} (x : LinkSt) (h : j ≠ l) : (s.setLink l x).linkSt j = s.linkSt j := by
  simp only [State.linkSt, State.setLink, List.getD_eq_getElem?_getD, List.getElem?_set_ne (Ne.symm h)]

theorem State.queueField_pendingReg_self (s : State) (k lo len v : Nat) :
    (s.queueField k lo len v).pendingReg k = some (setBits (s.latest k) lo len v) := State.queueReg_pendingReg_self s k _

theorem State.queueField_pendingReg_ne (s : State) {j k : Nat} (lo len v : Nat) (h : j ≠ k) :
    (s.queueField k lo len v).pendingReg j = s.pendingReg j := State.queueReg_pendingReg_ne s j k _ h


@[simp] theorem State.setLink_reg (s : State) (l : Nat) (x : LinkSt) (k : Nat) : (s.setLink l x).reg k = s.reg k := rfl
@[simp] theorem State.setLink_regs (s : State) (l : Nat) (x : LinkSt) : (s.setLink l x).regs = s.regs := rfl
@[simp] theorem State.basic_reg (s : State) (j k : Nat) : (s.basic j).reg k = s.reg k := rfl
@[simp] theorem State.basic_regs (s : State) (j : Nat) : (s.basic j).regs = s.regs := rfl
@[simp] theorem State.queueField_reg (s : State) (j lo len v k : Nat) : (s.queueField j lo len v).reg k = s.reg k := rfl
@[simp] theorem State.queueField_regs (s : State) (j lo len v : Nat) : (s.queueField j lo len v).regs = s.regs := rfl

section Training

variable (s : State) (l : Nat) (lr : Bool)

/-- R406: a link whose training begins has made no returns, and no swap of its receiver stands. -/
def LinkSt.retrained (x : LinkSt) : LinkSt := { x with returns := 0, swap := none }

/-- R431: the reach goes into a change of IN_SERVICE that waits. -/
def State.queuedReach : State := if (s.pendingReg (R.linkCtrl l)).isSome then s.queueField (R.linkCtrl l) 1 1 (b2n lr) else s

/-- R431: an override of LANE_MAP ends. -/
def State.powerOnMap : State :=
  if s.overrides.contains (R.laneMap l) then (s.setReg (R.laneMap l) (regReset (R.laneMap l))).basic (R.laneMap l) else s

theorem State.queuedReach_eq : s.queuedReach l lr = { s with shadow := (s.queuedReach l lr).shadow } := by
  unfold State.queuedReach
  split <;> rfl

theorem State.powerOnMap_eq : s.powerOnMap l = { s with regs := (s.powerOnMap l).regs, overrides := (s.powerOnMap l).overrides } := by
  unfold State.powerOnMap
  split <;> rfl

@[simp] theorem State.queuedReach_regs : (s.queuedReach l lr).regs = s.regs := by rw [State.queuedReach_eq]
@[simp] theorem State.queuedReach_overrides : (s.queuedReach l lr).overrides = s.overrides := by rw [State.queuedReach_eq]
@[simp] theorem State.queuedReach_link : (s.queuedReach l lr).link = s.link := by rw [State.queuedReach_eq]
@[simp] theorem State.queuedReach_reg (k : Nat) : (s.queuedReach l lr).reg k = s.reg k := State.reg_congr (s.queuedReach_regs l lr) k
@[simp] theorem State.powerOnMap_link : (s.powerOnMap l).link = s.link := by rw [State.powerOnMap_eq]
@[simp] theorem State.powerOnMap_shadow : (s.powerOnMap l).shadow = s.shadow := by rw [State.powerOnMap_eq]

theorem State.queuedReach_pendingReg (k : Nat) : (s.queuedReach l lr).pendingReg k =
    if k = R.linkCtrl l then (s.pendingReg k).map (setBits · 1 1 (b2n lr)) else s.pendingReg k := by
  unfold State.queuedReach
  cases h : s.pendingReg (R.linkCtrl l) with
  | none => by_cases hk : k = R.linkCtrl l <;> simp [hk, h]
  | some v =>
    by_cases hk : k = R.linkCtrl l
    · simp [hk, State.queueField_pendingReg_self, State.latest, h]
    · simp [hk, State.queueField_pendingReg_ne]

theorem State.powerOnMap_wf (h : Sparse.wf regReset s.regs = true) : Sparse.wf regReset (s.powerOnMap l).regs = true := by
  unfold State.powerOnMap
  split
  · exact State.setReg_wf s _ _ h
  · exact h

theorem State.powerOnMap_reg (h : Sparse.wf regReset s.regs = true) (k : Nat) :
    (s.powerOnMap l).reg k = if k = R.laneMap l ∧ k ∈ s.overrides then regReset k else s.reg k := by
  unfold State.powerOnMap
  by_cases ho : R.laneMap l ∈ s.overrides
  · rw [if_pos (List.contains_iff_mem.2 ho), State.basic_reg, State.setReg_reg h]
    by_cases hk : k = R.laneMap l
    · simp [hk, ho]
    · simp [hk]
  · rw [if_neg (mt List.contains_iff_mem.1 ho), if_neg fun e : k = R.laneMap l ∧ k ∈ s.overrides => ho (e.1 ▸ e.2)]

theorem State.mem_powerOnMap_overrides {k : Nat} : k ∈ (s.powerOnMap l).overrides ↔ k ∈ s.overrides ∧ k ≠ R.laneMap l := by
  unfold State.powerOnMap
  simp only [List.contains_iff_mem]
  split
  · simp [State.basic]
  next hfree => exact ⟨fun h => ⟨h, fun e => hfree (e ▸ h)⟩, fun h => h.1⟩

theorem State.startTraining_eq : s.startTraining l lr = (((((s.queuedReach l lr).setField (R.linkCtrl l) 1 1 (b2n lr)).powerOnMap l).setLink l
    (s.linkSt l).retrained)).setLstate l L.detect := by
  have kept : (((s.queuedReach l lr).setField (R.linkCtrl l) 1 1 (b2n lr)).powerOnMap l).linkSt l = s.linkSt l := by
    unfold State.linkSt
    rw [State.powerOnMap_link]
    simp [State.setField]
  rw [← kept]
  rfl

theorem State.startTraining_wf (h : Sparse.wf regReset s.regs = true) : Sparse.wf regReset (s.startTraining l lr).regs = true := by
  rw [State.startTraining_eq]
  exact State.setField_wf _ _ _ _ _ (State.powerOnMap_wf _ l (State.setField_wf _ _ _ _ _ (by rwa [State.queuedReach_regs])))

/-- R406, R431: what training writes in the registers. -/
theorem State.startTraining_reg (h : Sparse.wf regReset s.regs = true) (k : Nat) : (s.startTraining l lr).reg k =
    if k = R.linkState l then setBits (s.reg k) 0 4 L.detect
    else if k = R.linkCtrl l then setBits (s.reg k) 1 1 (b2n lr)
    else if k = R.laneMap l ∧ k ∈ s.overrides then regReset k
    else s.reg k := by
  have hsc : R.linkState l ≠ R.linkCtrl l := by simp [R.linkState, R.linkCtrl, blk]
  have hsm : R.linkState l ≠ R.laneMap l := by simp [R.linkState, R.laneMap, blk]
  have hcm : R.linkCtrl l ≠ R.laneMap l := by simp [R.linkCtrl, R.laneMap, blk]
  have hqueued : Sparse.wf regReset (s.queuedReach l lr).regs = true := by rwa [State.queuedReach_regs]
  have hctrl := State.setField_wf _ (R.linkCtrl l) 1 1 (b2n lr) hqueued
  have hmap := State.powerOnMap_wf _ l hctrl
  rw [State.startTraining_eq, State.setLstate, State.setField_reg (by exact hmap), State.setLink_reg, State.powerOnMap_reg _ l hctrl,
    State.setField_reg hqueued, State.queuedReach_reg]
  simp only [State.setField, State.setReg_overrides, State.queuedReach_overrides]
  split
  next hk => rw [if_neg (by rw [hk]; exact fun e => hsm e.1), if_neg (by rw [hk]; exact hsc)]
  next hk =>
    split
    next hm => rw [if_neg (by rw [hm.1]; exact Ne.symm hcm)]
    next hm => rfl

theorem State.startTraining_pendingReg (k : Nat) : (s.startTraining l lr).pendingReg k =
    if k = R.linkCtrl l then (s.pendingReg k).map (setBits · 1 1 (b2n lr)) else s.pendingReg k := by
  rw [← State.queuedReach_pendingReg, State.startTraining_eq]
  refine State.pendingReg_congr ?_ k
  show (State.powerOnMap _ l).shadow = _
  rw [State.powerOnMap_shadow]
  rfl

theorem State.mem_startTraining_overrides {k : Nat} : k ∈ (s.startTraining l lr).overrides ↔ k ∈ s.overrides ∧ k ≠ R.laneMap l := by
  rw [State.startTraining_eq]
  show k ∈ (State.powerOnMap _ l).overrides ↔ _
  rw [State.mem_powerOnMap_overrides]
  simp [State.setField]

theorem State.startTraining_link : (s.startTraining l lr).link = (s.setLink l (s.linkSt l).retrained).link := by
  rw [State.startTraining_eq]
  have kept : ((((s.queuedReach l lr).setField (R.linkCtrl l) 1 1 (b2n lr)).powerOnMap l)).link = s.link := by
    rw [State.powerOnMap_link]
    exact s.queuedReach_link l lr
  show (State.setLink _ l _).link = _
  unfold State.setLink
  rw [kept]

theorem State.setLink_retrained : (s.setLink l (s.linkSt l).retrained).linkSt l = (s.linkSt l).retrained := by
  rw [State.setLink_linkSt_self]
  split
  · rfl
  next hl =>
    have unlisted : s.linkSt l = {} := by simp [State.linkSt, List.getD_eq_getElem?_getD, hl]
    rw [unlisted]
    rfl

theorem State.startTraining_linkSt (j : Nat) : (s.startTraining l lr).linkSt j = (s.setLink l (s.linkSt l).retrained).linkSt j := by
  unfold State.linkSt
  rw [State.startTraining_link, State.linkSt]

/-- What a training of one link leaves alone. -/
theorem State.startTraining_rest : s.startTraining l lr = { s with
    regs := (s.startTraining l lr).regs, link := { s.link with links := (s.startTraining l lr).link.links }
    shadow := (s.startTraining l lr).shadow, overrides := (s.startTraining l lr).overrides } := by
  have keeps := (State.startTraining_frame (ω := 0x401140) rfl (Frame.refl s) (l := l) (lr := lr)).eq
  rw [State.startTraining_link] at keeps ⊢
  exact keeps

end Training

/-- What training one link after another leaves alone. -/
def State.OnlyTrained (s t : State) : Prop :=
  t = { s with regs := t.regs, link := { s.link with links := t.link.links }, shadow := t.shadow, overrides := t.overrides }

theorem State.OnlyTrained.step {s t : State} (h : s.OnlyTrained t) (l : Nat) (lr : Bool) : s.OnlyTrained (t.startTraining l lr) := by
  unfold State.OnlyTrained at *
  have := t.startTraining_rest l lr
  rw [h] at this ⊢
  exact this

section Mask

variable {s : State} (mask reach : Nat)

/-- R430: every link of the mask is trained in the reach its second mask gives. -/
def State.trainLinks (s : State) (mask reach : Nat) : State := (linksOf mask).foldl (fun s l => s.startTraining l (reach.testBit l)) s

theorem State.trainLinks_only : s.OnlyTrained (s.trainLinks mask reach) :=
  foldl_keeps (fun _ l h => h.step l (reach.testBit l)) rfl

/-- Any reading of the registers of one link, through the fold over the links. -/
theorem State.trainLinks_view {β : Type} {V : Nat → State → β} {g : Nat → β → β}
    (hself : ∀ s l, Sparse.wf regReset s.regs = true → V l (s.startTraining l (reach.testBit l)) = g l (V l s))
    (hother : ∀ s l j, Sparse.wf regReset s.regs = true → j ≠ l → V j (s.startTraining l (reach.testBit l)) = V j s)
    (h : Sparse.wf regReset s.regs = true) {l : Nat} (hl : l < 64) :
    V l (s.trainLinks mask reach) = if mask.testBit l = true then g l (V l s) else V l s := by
  have := foldl_view (P := fun s : State => Sparse.wf regReset s.regs = true) (V := V) (g := g) (fun s l => s.startTraining_wf l _) hself hother
    (linksOf_nodup mask) h l
  simp only [mem_linksOf, hl, true_and] at this
  exact this

variable (h : Sparse.wf regReset s.regs = true) {l : Nat} (hl : l < 64)
include h hl

theorem State.trainLinks_linkState : (s.trainLinks mask reach).reg (R.linkState l) =
    if mask.testBit l = true then setBits (s.reg (R.linkState l)) 0 4 L.detect else s.reg (R.linkState l) := by
  refine State.trainLinks_view mask reach (V := fun l s => s.reg (R.linkState l)) (g := fun _ v => setBits v 0 4 L.detect) ?_ ?_ h hl
  · intro s l h
    rw [State.startTraining_reg s l _ h, if_pos rfl]
  · intro s l j h hj
    rw [State.startTraining_reg s l _ h, if_neg, if_neg, if_neg]
    all_goals simp [R.linkState, R.linkCtrl, R.laneMap, blk]; omega

theorem State.trainLinks_linkCtrl : (s.trainLinks mask reach).reg (R.linkCtrl l) =
    if mask.testBit l = true then setBits (s.reg (R.linkCtrl l)) 1 1 (b2n (reach.testBit l)) else s.reg (R.linkCtrl l) := by
  refine State.trainLinks_view mask reach (V := fun l s => s.reg (R.linkCtrl l)) (g := fun l v => setBits v 1 1 (b2n (reach.testBit l))) ?_ ?_ h hl
  · intro s l h
    rw [State.startTraining_reg s l _ h, if_neg (by simp [R.linkState, R.linkCtrl, blk]), if_pos rfl]
  · intro s l j h hj
    rw [State.startTraining_reg s l _ h, if_neg, if_neg, if_neg]
    all_goals simp [R.linkState, R.linkCtrl, R.laneMap, blk]; omega

theorem State.trainLinks_pendingReg : (s.trainLinks mask reach).pendingReg (R.linkCtrl l) =
    if mask.testBit l = true then (s.pendingReg (R.linkCtrl l)).map (setBits · 1 1 (b2n (reach.testBit l))) else s.pendingReg (R.linkCtrl l) := by
  refine State.trainLinks_view mask reach (V := fun l s => s.pendingReg (R.linkCtrl l))
    (g := fun l v => v.map (setBits · 1 1 (b2n (reach.testBit l)))) ?_ ?_ h hl
  · intro s l _
    rw [State.startTraining_pendingReg, if_pos rfl]
  · intro s l j _ hj
    rw [State.startTraining_pendingReg, if_neg]
    simp [R.linkCtrl, blk]; omega

theorem State.trainLinks_laneMap : (s.trainLinks mask reach).reg (R.laneMap l) =
    if mask.testBit l = true then (if R.laneMap l ∈ s.overrides then regReset (R.laneMap l) else s.reg (R.laneMap l)) else s.reg (R.laneMap l) := by
  have view := State.trainLinks_view mask reach (V := fun l s => (s.reg (R.laneMap l), decide (R.laneMap l ∈ s.overrides)))
    (g := fun l v => (if v.2 = true then regReset (R.laneMap l) else v.1, false)) ?_ ?_ h hl
  · have := congrArg Prod.fst view
    dsimp only at this
    rw [this]
    split <;> simp
  · intro s l h
    rw [State.startTraining_reg s l _ h, if_neg (by simp [R.linkState, R.laneMap, blk]), if_neg (by simp [R.linkCtrl, R.laneMap, blk])]
    simp [State.mem_startTraining_overrides]
  · intro s l j h hj
    have hne : R.laneMap j ≠ R.laneMap l := by simp [R.laneMap, blk]; omega
    rw [State.startTraining_reg s l _ h, if_neg, if_neg, if_neg]
    · simp [State.mem_startTraining_overrides, hne]
    all_goals simp [R.linkState, R.linkCtrl, R.laneMap, blk]; omega

theorem State.trainLinks_linkSt : (s.trainLinks mask reach).linkSt l = if mask.testBit l = true then (s.linkSt l).retrained else s.linkSt l := by
  refine State.trainLinks_view mask reach (V := fun l s => s.linkSt l) (g := fun _ v => v.retrained) ?_ ?_ h hl
  · intro s l _
    rw [State.startTraining_linkSt, State.setLink_retrained]
  · intro s l j _ hj
    rw [State.startTraining_linkSt, State.setLink_linkSt_ne s _ hj]

omit hl in
/-- Registers of links outside the mask, and all others, stay. -/
theorem State.trainLinks_other {k : Nat} (hk : ∀ l < 64, mask.testBit l = true → k ≠ R.linkState l ∧ k ≠ R.linkCtrl l ∧ k ≠ R.laneMap l) :
    (s.trainLinks mask reach).reg k = s.reg k ∧ (s.trainLinks mask reach).pendingReg k = s.pendingReg k := by
  have kept : ∀ ls : List Nat, (∀ l ∈ ls, l ∈ linksOf mask) → ∀ s : State, Sparse.wf regReset s.regs = true →
      (ls.foldl (fun s l => s.startTraining l (reach.testBit l)) s).reg k = s.reg k
        ∧ (ls.foldl (fun s l => s.startTraining l (reach.testBit l)) s).pendingReg k = s.pendingReg k := by
    intro ls
    induction ls with
    | nil => exact fun _ _ _ => ⟨rfl, rfl⟩
    | cons l ls ih =>
      intro hls s h
      obtain ⟨hlt, hbit⟩ := mem_linksOf.1 (hls l List.mem_cons_self)
      obtain ⟨hs, hc, hm⟩ := hk l hlt hbit
      obtain ⟨hreg, hpend⟩ := ih (fun l hl => hls l (List.mem_cons_of_mem _ hl)) (s.startTraining l (reach.testBit l)) (s.startTraining_wf l _ h)
      rw [List.foldl_cons, hreg, hpend, State.startTraining_reg s l _ h, if_neg hs, if_neg hc, if_neg fun e => hm e.1, State.startTraining_pendingReg,
        if_neg hc]
      exact ⟨rfl, rfl⟩
  exact kept _ (fun _ hl => hl) s h

omit h hl in
theorem State.mem_trainLinks_overrides {k : Nat} : k ∈ (s.trainLinks mask reach).overrides ↔
    k ∈ s.overrides ∧ ∀ l < 64, mask.testBit l = true → k ≠ R.laneMap l := by
  have kept : ∀ (ls : List Nat) (s : State), k ∈ (ls.foldl (fun s l => s.startTraining l (reach.testBit l)) s).overrides ↔
      k ∈ s.overrides ∧ ∀ l ∈ ls, k ≠ R.laneMap l := by
    intro ls
    induction ls with
    | nil => simp
    | cons l ls ih =>
      intro s
      rw [List.foldl_cons, ih, State.mem_startTraining_overrides, List.forall_mem_cons, and_assoc]
  rw [State.trainLinks, kept]
  simp only [mem_linksOf, and_imp]

end Mask

/-! ### IN_SERVICE (R407) -/

section Service

variable (s : State) (mask v : Nat)

/-- LINK_DISABLE and LINK_ENABLE: IN_SERVICE of every link of the mask waits for the next boundary. -/
def State.queueServices : State := (linksOf mask).foldl (·.queueService v ·) s

theorem State.queueServices_only : s.queueServices mask v = { s with shadow := (s.queueServices mask v).shadow } := by
  refine foldl_keeps (P := fun t : State => t = { s with shadow := t.shadow }) (fun t l h => ?_) rfl
  rw [h]
  rfl

theorem State.queueService_latest_ne {l k : Nat} (h : k ≠ R.linkCtrl l) : (s.queueService v l).latest k = s.latest k :=
  State.queueReg_latest_ne s k _ _ h

theorem State.queueServices_pendingReg {l : Nat} (hl : l < 64) (hb : mask.testBit l = true) :
    (s.queueServices mask v).pendingReg (R.linkCtrl l) = some (setBits (s.latest (R.linkCtrl l)) 0 1 v) := by
  have view := foldl_view (P := fun _ : State => True) (V := fun l (s : State) => (s.pendingReg (R.linkCtrl l), s.latest (R.linkCtrl l)))
    (f := fun s l => s.queueService v l) (g := fun _ x => (some (setBits x.2 0 1 v), setBits x.2 0 1 v)) (fun _ _ _ => trivial) ?_ ?_
    (linksOf_nodup mask) (s := s) trivial l
  · rw [if_pos (mem_linksOf.2 ⟨hl, hb⟩)] at view
    exact congrArg Prod.fst view
  · intro s l _
    exact Prod.ext (s.queueField_pendingReg_self _ 0 1 v) (s.queueReg_latest_self _ _)
  · intro s l j _ hj
    have hne : R.linkCtrl j ≠ R.linkCtrl l := by simp [R.linkCtrl, blk]; omega
    exact Prod.ext (s.queueField_pendingReg_ne 0 1 v hne) (s.queueService_latest_ne v hne)

theorem State.queueServices_other {k : Nat} (hk : ∀ l < 64, mask.testBit l = true → k ≠ R.linkCtrl l) :
    (s.queueServices mask v).pendingReg k = s.pendingReg k :=
  foldl_view_const (V := fun s : State => s.pendingReg k)
    (fun s l hl => s.queueField_pendingReg_ne 0 1 v (hk l (mem_linksOf.1 hl).1 (mem_linksOf.1 hl).2)) s

end Service

/-- An expert command of a session with the privilege is answered at once when its own checks pass. -/
theorem Cmd.serve_expert {c : Cmd} {r : Req} {s t : State} {p : Reply} (h : Safety.ready c.op r s = true) (hpay : r.pay.length ≤ 240)
    (hlen : c.len r.pay = true) (hexpert : s.expertReq r.mb = true) (hparam : c.param s r = true) (hstate : c.state s r = true)
    (hact : c.act s r = (t, some p)) (hdenied : c.denied s r = false := by rfl) : c.serve r s = .next (t.respond r.mb c.op r.tag p) := by
  obtain ⟨⟨hruns, htrip, hbegin⟩, hfamily, hawake⟩ := (safetyReady_iff ..).1 h
  have htaken : c.taken r s = true := by simp [Cmd.taken, hruns, htrip, hbegin]
  exact Cmd.serve_reply htaken (Cmd.check_none hpay hlen (.inr hexpert) hparam hfamily (.inl hawake) hstate hdenied) hact

/-- Settles O17: the reports and the loopback by the checks of Table 3.6, LINK_TRAIN by what a fold of trainings shows of each link, LINK_DISABLE and
LINK_ENABLE by what waits for each link's LINK_CTRL. -/
theorem linkCommandsAct : Obligations.LinkCommandsAct := by
  unfold Obligations.LinkCommandsAct
  refine ⟨fun r s => ⟨fun h hpay => ?status, fun h hlen hl => ?margin, fun h hlen hl => ?counters, fun h hlen hx hl hm hst hout => ?loopback⟩,
    fun r s => ⟨fun h hlen hwf hall => ?train, fun h hlen hall => ?disable, fun h hlen hall => ?enable⟩⟩
  case status =>
    have byte (l : Nat) : s.linkByte l = bits (s.reg (R.linkState l)) 0 4 + 16 * bits (s.reg (R.linkCtrl l)) 0 1
        + 32 * b2n (bits (s.reg (R.laneMap l)) 12 3 == 7 || (s.linkSt l).rxSpare.isNone) + 64 * bits (s.reg (R.linkStatus l)) 2 1 := by
      rw [bits_one, bits_one]
      rfl
    simp only [← byte]
    exact Cmd.serve_of_ready (c := cmdLinkStatus) h (by simp [hpay]) (by simp [hpay, cmdLinkStatus, lenIs]) rfl rfl
  case margin => exact Cmd.serve_of_ready (c := cmdLinkMargin) h (by omega) ((lenIs_iff ..).2 hlen) (decide_eq_true hl) rfl
  case counters => exact Cmd.serve_of_ready (c := cmdLinkCounters) h (by omega) ((lenIs_iff ..).2 hlen) (decide_eq_true hl) rfl
  case loopback =>
    exact Cmd.serve_expert (c := cmdLinkLoopback) h (by omega) ((lenIs_iff ..).2 hlen) hx (by simp [cmdLinkLoopback, hl, hm])
      (by simp [cmdLinkLoopback, hst, hout]) rfl
  case train =>
    have hregs := regsWf_of_canonical hwf
    refine ⟨s.trainLinks (r.at 0 8) (r.at 8 8), Cmd.serve_of_ready (c := cmdLinkTrain) h (by omega) ((lenIs_iff ..).2 hlen) rfl rfl ?_,
      State.trainLinks_only _ _, fun l hl => ?_, fun k hk => State.trainLinks_other _ _ hregs hk, fun k => State.mem_trainLinks_overrides _ _⟩
    · exact linksOf_all_iff.2 fun l hl hb => by simpa using hall l hl hb
    · rw [State.lstate, State.field, State.trainLinks_linkState _ _ hregs hl, State.trainLinks_linkCtrl _ _ hregs hl, State.trainLinks_pendingReg _ _ hregs hl,
        State.trainLinks_laneMap _ _ hregs hl, State.trainLinks_linkSt _ _ hregs hl]
      split
      next hb => exact ⟨bits_setBits_self _ _ (by decide), rfl, rfl, rfl, fun _ => rfl⟩
      next hb => exact ⟨rfl, rfl, rfl⟩
  case disable =>
    refine ⟨s.queueServices (r.at 0 8) 0, Cmd.serve_of_ready (c := cmdLinkDisable) h (by omega) ((lenIs_iff ..).2 hlen) rfl rfl (linksOf_all_iff.2 hall),
      s.queueServices_only _ 0, fun l hl hb => s.queueServices_pendingReg _ 0 hl hb, fun k hk => s.queueServices_other _ 0 hk⟩
  case enable =>
    refine ⟨s.queueServices (r.at 0 8) 1, Cmd.serve_of_ready (c := cmdLinkEnable) h (by omega) ((lenIs_iff ..).2 hlen) rfl rfl ?_,
      s.queueServices_only _ 1, fun l hl hb => s.queueServices_pendingReg _ 1 hl hb, fun k hk => s.queueServices_other _ 1 hk⟩
    exact linksOf_all_iff.2 fun l hl hb => beq_iff_eq.2 (hall l hl hb)

end Sys2Proof.Machine
end

section
/-!
O20, O53: the SNAP_* commands, and snapshots as time goes on.
-/
namespace Sys2Proof.Machine

theorem mem_basic_overrides {s : State} {j k : Nat} : k ∈ (s.basic j).overrides ↔ k ∈ s.overrides ∧ k ≠ j := by simp [State.basic]

/-- R480: without a tide group a message to the tree neighbours goes nowhere. -/
theorem State.broadcast_of_alone {s : State} (h : s.group.member = false) (p : Pkt) : s.broadcast p = s := by
  simp [State.broadcast, State.neighbours, h]

theorem State.addRequest_eq (s : State) (step : Nat) : s.addRequest step = { s with snap := { s.snap with
    requests := if step + 1 ∈ s.snap.requests then s.snap.requests else s.snap.requests ++ [step + 1] } } := by
  unfold State.addRequest
  by_cases h : step + 1 ∈ s.snap.requests
  · rw [if_pos (List.contains_iff_mem.2 h), if_pos h]
  · rw [if_neg (mt List.contains_iff_mem.1 h), if_neg h]

section Config

variable (r : Req) (s : State)

/-- R474, R491: SNAP_TABLE and SNAP_COUNT take the table and the count, and their overrides end. -/
def State.snapTabled : State :=
  ((((((s.setReg R.snapTableLo (word (r.at 24 4))).setReg R.snapTableHi (word (r.at 28 4))).setReg R.snapCount (word (r.at 32 4))).basic
    R.snapTableLo).basic R.snapTableHi).basic R.snapCount)

/-- The snapshot block as SNAP_CONFIG leaves it: the table's entries, and no base copy (R478, R490). -/
def State.configured (s : State) : Snap := { s.snap with
  configured := true, buddy := BitVec.ofNat 16 (r.at 0 2), parPos := r.at 2 1
  members := (List.range 10).map fun i => BitVec.ofNat 16 (r.at (4 + 2 * i) 2), area := r.at 36 8, areaGiB := r.at 44 4
  entries := (List.range (r.at 32 4)).map fun i => entOf (s.snapEntAt (r.at 24 8) i), based := [], base := []
  freezeBeat := if s.snap.configured then s.snap.freezeBeat else s.beat.toNat }

theorem cmdSnapConfig_act : cmdSnapConfig.act s r = ({ s.snapTabled r with snap := (s.snapTabled r).configured r }, some .ok) := by
  simp only [cmdSnapConfig, State.snapTabled, State.configured]
  rfl

theorem State.snapEntAt_congr {s t : State} (h : t.mem = s.mem) (base i : Nat) : t.snapEntAt base i = s.snapEntAt base i := by
  simp only [State.snapEntAt, State.num, State.bytes, State.byte, h]

/-- Nothing but registers and overrides is written. -/
theorem State.snapTabled_frame : Frame 0x1040 s (s.snapTabled r) :=
  State.basic_frame rfl (State.basic_frame rfl (State.basic_frame rfl (State.setReg_frame rfl (State.setReg_frame rfl
    (State.setReg_frame rfl (Frame.refl s))))))

theorem State.snapTabled_configured : (s.snapTabled r).configured r = s.configured r := by
  have same := s.snapTabled_frame r
  simp only [State.configured, State.snapEntAt_congr (same.mem rfl), same.snap rfl, same.beat]

theorem State.snapTabled_only : s.snapTabled r = { s with regs := (s.snapTabled r).regs, overrides := (s.snapTabled r).overrides } :=
  (s.snapTabled_frame r).eq

theorem State.snapTabled_reg (h : Sparse.wf regReset s.regs = true) (k : Nat) : (s.snapTabled r).reg k =
    if k = R.snapCount then word (r.at 32 4) else if k = R.snapTableHi then word (r.at 28 4)
    else if k = R.snapTableLo then word (r.at 24 4) else s.reg k := by
  have hlo := State.setReg_wf s R.snapTableLo (word (r.at 24 4)) h
  have hhi := State.setReg_wf _ R.snapTableHi (word (r.at 28 4)) hlo
  show (State.setReg _ R.snapCount _).reg k = _
  rw [State.setReg_reg hhi, State.setReg_reg hlo, State.setReg_reg h]

theorem State.mem_snapTabled_overrides {k : Nat} : k ∈ (s.snapTabled r).overrides ↔
    k ∈ s.overrides ∧ k ≠ R.snapTableLo ∧ k ≠ R.snapTableHi ∧ k ≠ R.snapCount := by
  simp only [State.snapTabled, mem_basic_overrides, State.setReg_overrides, and_assoc]

end Config

/-- Settles O20, command by command: SNAP_CONFIG by its three register writes, SNAP_NOW by the message to the tree neighbours. -/
theorem snapshotCommandsAct : Obligations.SnapshotCommandsAct := by
  unfold Obligations.SnapshotCommandsAct
  intro r s
  refine ⟨fun h hlen hparam hstaged hddr hwf => ?config, fun h hlen hlo hone hhundred hres => ?policy, fun h hlen hres => ?interval,
    fun h hpay hjob hconf hrest => ?now, fun h hpay => ?status⟩
  case config =>
    have regs := s.snapTabled_reg r (regsWf_of_canonical hwf)
    have only := s.snapTabled_only r
    have ended (k : Nat) := s.mem_snapTabled_overrides r (k := k)
    have serve := Cmd.serve_of_ready (c := cmdSnapConfig) h (by omega) ((lenIs_iff ..).2 hlen) hparam
      (by rw [cmdSnapConfig_act, State.snapTabled_configured]) (by simp [cmdSnapConfig, hstaged, State.ddrPresent, State.regN, hddr])
    generalize s.snapTabled r = t at regs only ended serve
    have others (k : Nat) (hl : k ≠ R.snapTableLo) (hh : k ≠ R.snapTableHi) (hc : k ≠ R.snapCount) : t.reg k = s.reg k :=
      (regs k).trans (by rw [if_neg hc, if_neg hh, if_neg hl])
    exact ⟨{ t with snap := s.configured r }, serve, congrArg (fun u : State => { u with snap := s.configured r }) only, regs _, regs _, regs _,
      others, rfl, ended⟩
  case policy =>
    exact Cmd.serve_of_ready (c := cmdSnapPolicy) h (by omega) ((lenIs_iff ..).2 hlen) (by simp [cmdSnapPolicy, hlo, hone, hhundred, hres]) rfl
  case interval => exact Cmd.serve_of_ready (c := cmdSnapInterval) h (by omega) ((lenIs_iff ..).2 hlen) (by simp [cmdSnapInterval, hres]) rfl
  case now =>
    intro t
    have request : s.snapRequest = if s.group.member then t.neighbours.foldl (fun u d => u.originate { tidePkt T.snapReq with
        step := s.job.step, dst := d }) t else t := by
      rw [State.snapRequest, State.addRequest_eq]
      by_cases hm : s.group.member = true
      · rw [if_pos hm]
        rfl
      · rw [if_neg hm]
        exact State.broadcast_of_alone (by simpa using hm) _
    rw [← request]
    exact Cmd.serve_of_ready (c := cmdSnapNow) h (by simp [hpay]) (by simp [hpay, cmdSnapNow, lenIs]) rfl rfl (by simp [cmdSnapNow, hjob, hconf, hrest])
  case status =>
    refine (Cmd.serve_of_ready (c := cmdSnapStatus) (t := s) h (by simp [hpay]) (by simp [hpay, cmdSnapStatus, lenIs]) rfl rfl).trans ?_
    unfold State.snapStateCode
    cases s.snap.requests <;> rfl

/-- A device whose staged snapshot holds no entry, and one of whose entries has a base. -/
def basedState : State :=
  { State.reset with snap := { State.reset.snap with staged := some ⟨⟨0, 0, 0, 0, 0, 0, [], [], [], []⟩, []⟩, based := [1] } }

theorem basedState_commit : basedState.commit.snap.based = [] := rfl

/-- The registers, counter and log entry of a commit leave the snapshot block as it is. -/
theorem State.commitMarks_snap (u : State) (q : Word) :
    ((((u.setReg R.snapSeq q).orReg R.snapStatus 1).count R.snapshots).snapEntry q false).snap = u.snap :=
  (State.snapEntry_frame (ω := 0x1FFFF) rfl (State.count_frame rfl (State.orReg_frame rfl (State.setReg_frame rfl (Frame.refl u))))).snap rfl

/-- Refutes O53: the clause on a commit has the entries with a base copy kept, but a commit sets them to those that it staged under Parity. In the
counterexample one entry has a base and the staged snapshot holds none. -/
theorem not_snapshotEventsAct : ¬ Obligations.SnapshotEventsAct := by
  unfold Obligations.SnapshotEventsAct
  intro h
  obtain ⟨-, -, -, -, -, -, -, hcommit, -⟩ := h basedState
  obtain ⟨-, -, hcommits⟩ := hcommit _ rfl
  have kept := congrArg (fun t : State => t.snap.based) (hcommits _ rfl)
  rw [basedState_commit, State.commitMarks_snap] at kept
  exact absurd kept (by decide)

end Sys2Proof.Machine
end

section
/-!
O45, O46: how a packet is received, and what this device does with one for it.
-/
namespace Sys2Proof

/-! ### A packet as the receiver takes it (R421) -/

theorem Pkt.age_eq (p : Pkt) : p.age = { p with stale := p.isMark || p.stale } := by
  unfold Pkt.age
  cases p.isMark <;> rfl

/-- The packet without the transmitter's notes on it; a resent mark is stale. -/
def Pkt.received (p : Pkt) (resent : Bool) : Pkt := { if resent then p.age else p with here := { sender := p.here.sender } }

theorem Pkt.received_eq (p : Pkt) (resent : Bool) :
    p.received resent = { p with stale := resent && p.isMark || p.stale, here := { sender := p.here.sender } } := by
  cases resent
  · rfl
  · simp only [Pkt.received, Pkt.age_eq, if_true, Bool.true_and]

@[simp] theorem Pkt.received_bad (p : Pkt) (resent : Bool) : (p.received resent).bad = p.bad := by rw [Pkt.received_eq]; rfl
@[simp] theorem Pkt.received_kind (p : Pkt) (resent : Bool) : (p.received resent).kind = p.kind := by rw [Pkt.received_eq]
@[simp] theorem Pkt.received_src (p : Pkt) (resent : Bool) : (p.received resent).src = p.src := by rw [Pkt.received_eq]
@[simp] theorem Pkt.received_dst (p : Pkt) (resent : Bool) : (p.received resent).dst = p.dst := by rw [Pkt.received_eq]

/-- The row's guard is passed: the packet is of the row's kind and message. -/
def Pkt.isFor (p : Pkt) (k : Fin 16) (tts : List Byte) : Prop := p.kind = k ∧ (tts = [] ∨ p.ttype ∈ tts)

end Sys2Proof

namespace Sys2Proof.Machine

/-! ### Arrival, case by case (R407, R411, R415, R425) -/

section Arrive

variable {s : State} {l : Nat} {resent : Bool} {p : Pkt} {k : Fin 16} {tts : List Byte} {act : State → Pkt → State}

theorem Pkt.guard_of_isFor (h : p.bad = true ∨ p.isFor k tts) : (!p.bad && (p.kind != k || !(tts.isEmpty || tts.contains p.ttype))) = false := by
  rcases h with h | ⟨hk, ht⟩
  · simp [h]
  · rcases ht with ht | ht <;> simp [hk, ht]

theorem State.arrive_of_other (hbad : p.bad = false) (h : p.kind ≠ k ∨ (tts ≠ [] ∧ p.ttype ∉ tts)) : s.arrive l resent p k tts act = s := by
  unfold State.arrive
  rw [if_pos]
  rcases h with h | ⟨hne, hmem⟩
  · simp [hbad, h]
  · simp [hbad, hne, hmem]

theorem State.arrive_of_idle (h : s.lstate l ≠ L.active) : s.arrive l resent p k tts act = s := by
  unfold State.arrive
  rw [if_pos h, ite_self]

theorem State.arrive_of_discarding (hd : (s.linkSt l).discarding = true) (hr : resent = false) : s.arrive l resent p k tts act = s := by
  unfold State.arrive
  rw [if_pos (c := ((s.linkSt l).discarding && !resent) = true) (by simp [hd, hr]), ite_self, ite_self]

/-- What a taken packet comes to, before its three cases. -/
theorem State.arrive_of_taken (hfor : p.bad = true ∨ p.isFor k tts) (hactive : s.lstate l = L.active)
    (htaken : (s.linkSt l).discarding = false ∨ resent = true) {q : Pkt} (hq : q = p.received resent) {mine : Bool}
    (hmine : mine = (p.bad || s.devId == some p.dst)) {u : State} (hu : u = (s.moreFlits l p.here.begun).takeFlits l q (!mine && !s.noRoute q)) :
    s.arrive l resent p k tts act = if p.bad then u.badPacket l q else if mine then act u q else u.checkId.forward { q with here := { via := some (l, q.cls) } } := by
  have taken : ¬ ((s.linkSt l).discarding && !resent) = true := by rcases htaken with h | h <;> simp [h]
  unfold State.arrive
  rw [if_neg (by rw [Pkt.guard_of_isFor hfor]; exact Bool.false_ne_true), if_neg (not_not.2 hactive), if_neg taken]
  subst hq hu hmine
  rw [← Pkt.received_bad p resent, ← Pkt.received_dst p resent]
  rfl

theorem State.arrive_of_bad (hactive : s.lstate l = L.active) (htaken : (s.linkSt l).discarding = false ∨ resent = true) (hbad : p.bad = true) :
    s.arrive l resent p k tts act = ((s.moreFlits l p.here.begun).takeFlits l (p.received resent) false).badPacket l (p.received resent) := by
  rw [State.arrive_of_taken (.inl hbad) hactive htaken rfl rfl rfl, if_pos hbad, hbad, Bool.true_or, Bool.not_true, Bool.false_and]

theorem State.arrive_of_mine (hfor : p.isFor k tts) (hactive : s.lstate l = L.active) (htaken : (s.linkSt l).discarding = false ∨ resent = true)
    (hbad : p.bad = false) (hmine : s.devId = some p.dst) :
    s.arrive l resent p k tts act = act ((s.moreFlits l p.here.begun).takeFlits l (p.received resent) false) (p.received resent) := by
  have mine : (p.bad || s.devId == some p.dst) = true := by simp [hmine]
  rw [State.arrive_of_taken (.inr hfor) hactive htaken rfl mine.symm rfl, if_neg (by simp [hbad]), if_pos rfl, Bool.not_true, Bool.false_and]

theorem State.arrive_of_transit (hfor : p.isFor k tts) (hactive : s.lstate l = L.active) (htaken : (s.linkSt l).discarding = false ∨ resent = true)
    (hbad : p.bad = false) (hmine : s.devId ≠ some p.dst) {q : Pkt} (hq : q = p.received resent) :
    s.arrive l resent p k tts act = ((s.moreFlits l p.here.begun).takeFlits l q (!s.noRoute q)).checkId.forward { q with here := { via := some (l, q.cls) } } := by
  have mine : (p.bad || s.devId == some p.dst) = false := by simp [hbad, hmine]
  rw [State.arrive_of_taken (.inr hfor) hactive htaken hq mine.symm rfl, if_neg (by simp [hbad]), if_neg Bool.false_ne_true, Bool.not_false, Bool.true_and]

end Arrive

/-! ### Flits as they are counted (R414) -/

theorem State.setLink_setLink (s : State) (l : Nat) (x y : LinkSt) : (s.setLink l x).setLink l y = s.setLink l y := by
  simp only [State.setLink, List.set_set]

theorem State.countFlits_setLink {s : State} {l : Nat} (h : l < s.link.links.length) (x : LinkSt) (n : Nat) :
    (s.setLink l x).countFlits l n = (List.range ((x.unacked + n) / 32)).foldl
      (fun s i => s.sendFlit l 1 ((x.rxSeq + 65536 + 32 * (i + 1) - x.unacked) % 65536) 0)
      (s.setLink l { x with rxSeq := (x.rxSeq + n) % 65536, unacked := (x.unacked + n) % 32 }) := by
  have self : (s.setLink l x).linkSt l = x := by rw [State.setLink_linkSt_self, if_pos h]
  unfold State.countFlits
  simp only [self, State.setLink_setLink]

/-- The rows of Table 11.5 and Table 11.16: each packet command, with its kind and its message types. -/
noncomputable def arrivals (l : Fin 64) (resent : Bool) (p : Pkt) (outcome : Fin 4) (cycles : Word) : List (Instr × Fin 16 × List Byte) :=
  [(.readReq l resent p outcome, K.readReq, []), (.readData l resent p, K.readData, []), (.writePkt l resent p, K.write, []),
    (.writeAck l resent p, K.writeAck, []), (.unreach l resent p, K.unreach, []), (.piece l resent p, K.piece, []),
    (.pieceCredit l resent p cycles, K.pieceCredit, []), (.barrierArrive l resent p, K.barrier, [1]), (.barrierRelease l resent p, K.barrier, [2]),
    (.lossReport l resent p, K.lossReport, []), (.tideMark l resent p, K.tide, [1]), (.holdMsg l resent p, K.tide, [2]),
    (.releaseMsg l resent p, K.tide, [3]), (.snapReq l resent p, K.tide, [4]), (.snapDone l resent p, K.tide, [5]),
    (.snapCommit l resent p, K.tide, [6]), (.snapAbort l resent p, K.tide, [7]), (.snapFail l resent p, K.tide, [8])]

/-- Every one of them is an arrival, of its own kind and messages. -/
theorem exec_arrivals (l : Fin 64) (resent : Bool) (p : Pkt) (outcome : Fin 4) (cycles : Word) (s : State) :
    ∀ y ∈ arrivals l resent p outcome cycles, ∃ act, exec y.1 s = .next (s.arrive l resent p y.2.1 y.2.2 act) := by
  simp only [arrivals, List.forall_mem_cons, List.not_mem_nil, false_imp_iff, implies_true, and_true]
  exact ⟨⟨_, rfl⟩, ⟨_, rfl⟩, ⟨_, rfl⟩, ⟨_, rfl⟩, ⟨_, rfl⟩, ⟨_, rfl⟩, ⟨_, rfl⟩, ⟨_, rfl⟩, ⟨_, rfl⟩, ⟨_, rfl⟩, ⟨_, rfl⟩, ⟨_, rfl⟩, ⟨_, rfl⟩, ⟨_, rfl⟩,
    ⟨_, rfl⟩, ⟨_, rfl⟩, ⟨_, rfl⟩, ⟨_, rfl⟩⟩

/-- Settles O45: every packet command is an arrival, whose cases are the rules above. -/
theorem packetsAreTaken : Obligations.PacketsAreTaken := by
  unfold Obligations.PacketsAreTaken
  intro l resent p a q outcome cycles s ha hq
  have received : q = p.received resent := by subst ha; exact hq
  refine ⟨fun y hy => ?arrival, fun stays x n hx hn hl => ?take, fun begun x n hx hn hl => ⟨fun hzero => ?none, fun hmore => ?more⟩⟩
  case arrival =>
    obtain ⟨act, arrive⟩ := exec_arrivals l resent p outcome cycles s y hy
    rw [arrive]
    refine ⟨fun hbad h => by rw [State.arrive_of_other hbad h], fun h => by rw [State.arrive_of_idle h],
      fun hd hr => by rw [State.arrive_of_discarding hd hr], fun hactive htaken => ⟨fun hbad u hu => ?bad, fun hbad hk ht hmine t u htu huu => ?transit⟩⟩
    case bad =>
      rw [State.arrive_of_bad hactive htaken hbad, ← received, ← hu]
      subst received
      rw [← Pkt.received_kind p resent, ← Pkt.received_src p resent]
      rfl
    case transit =>
      rw [State.arrive_of_transit ⟨hk, ht⟩ hactive htaken hbad hmine received, ← htu, huu]
      subst received
      rw [← Pkt.received_dst p resent, ← Pkt.received_kind p resent]
      rfl
  case take =>
    subst hx hn
    exact State.countFlits_setLink hl _ _
  case none =>
    subst hx hn
    exact if_pos hzero
  case more =>
    subst hx hn
    exact (if_neg hmore).trans (State.countFlits_setLink hl _ _)

end Sys2Proof.Machine
end

section
/-!
O46: what this device does with a good packet for it.
-/
namespace Sys2Proof.Machine

section Acts

variable (s : State) (p : Pkt)

/-! ### Read requests (R411, R443) -/

/-- The answer to a read request of `n` bytes. -/
def answerTo (p : Pkt) (n : Nat) (fail : Bool) (bs : List Byte) : Pkt :=
  { responseTo p K.readData fail with flits := Fin.ofNat 128 (cdiv n 64), data := padBytes (64 * cdiv n 64) bs }

theorem State.serveRead_of_bad (outcome : Fin 4) (h : s.reqOk p = false) :
    s.serveRead p outcome = s.originate (answerTo p (max 1 (min 4096 p.len)) true []) := if_pos (by rw [h]; rfl)

theorem State.serveRead_of_ok (outcome : Fin 4) (h : s.reqOk p = true) {a n : Nat} (ha : a = p.addr.toNat) (hn : n = max 1 (min 4096 p.len)) :
    s.serveRead p outcome = match s.found a n outcome with
      | .none_ => s.originate (answerTo p n false (s.bytes a n))
      | .correctable => (s.correctable (s.metAt a n false)).originate (answerTo p n false (s.bytes a n))
      | .uncorrectable k => ((s.originate (answerTo p n true (s.bytes a n))).recordUe (s.metAt a n true) k).ueHandle none (s.metAt a n true) := by
  subst ha hn
  exact if_neg (by simp [h])

/-! ### Responses (R238, R411) -/

theorem State.remoteOp_of_match {o : MemOp} {w : Bool} (hid : s.opById p.op = some o) (hdev : o.dev = some p.src) (hw : o.write = w) :
    s.remoteOp p w = some o := by
  simp [State.remoteOp, hid, hdev, hw]

theorem State.remoteOp_of_mismatch {w : Bool} (h : ∀ o, s.opById p.op = some o → o.dev ≠ some p.src ∨ o.write ≠ w) : s.remoteOp p w = none := by
  unfold State.remoteOp
  cases hid : s.opById p.op with
  | none => rfl
  | some o => rcases h o hid with h | h <;> simp [h]

/-! ### UNREACH (R238, R425) -/

theorem State.takeUnreach_of_op {o : MemOp} (ht : p.ttype = 1 ∨ p.ttype = 3) (hid : s.opById p.op = some o) (hdev : o.dev ≠ none) :
    s.takeUnreach p = s.opUnreachable o := by
  have piece : p.ttype ≠ 5 := by rcases ht with h | h <;> simp [h]
  unfold State.takeUnreach
  rw [if_neg piece, if_pos ht, hid]
  exact if_pos (Option.isSome_iff_ne_none.2 hdev)

theorem State.takeUnreach_of_nothing (hpiece : p.ttype ≠ 5)
    (h : (p.ttype ≠ 1 ∧ p.ttype ≠ 3) ∨ ∀ o, s.opById p.op = some o → o.dev = none) : s.takeUnreach p = s := by
  unfold State.takeUnreach
  rw [if_neg hpiece]
  rcases h with h | h
  · exact if_neg (by simpa using h)
  · cases hid : s.opById p.op with
    | none => exact ite_self _
    | some o => simp [h o hid]

/-! ### Pieces (R382, R390) -/

theorem State.takePiece_of_fault {v : State} (hv : v = s.count R.piecesReceived) (hf : v.pieceFault p ≠ 0) :
    s.takePiece p = v.bktError (v.pieceFault p) p.bucket.toNat ((v.bucket p.bucket.toNat).rbase + p.reducer)
      (((v.red p.bucket.toNat p.reducer).map fun r => v.tagOf r.own).getD noHalf) p.src.toNat := by
  subst hv
  exact if_pos hf

theorem State.takePiece_of_good {v : State} (hv : v = s.count R.piecesReceived) (hf : v.pieceFault p = 0) :
    s.takePiece p = match v.red p.bucket.toNat p.reducer with
      | some r => (v.setRed { r with f := r.f || p.nonfin, got := r.got ++ [p] }).redGo p.bucket.toNat p.reducer
      | none => v := by
  subst hv
  exact if_neg (not_not.2 hf)

/-! ### Barriers (R393, R394) -/

theorem State.barrierArrive_of_full (hkept : ((s.barrier p.barrier.toNat p.tide.toNat).any fun b => !b.from_.isEmpty) = false) (hfull : 256 ≤ s.barsKept) :
    s.barrierArrive p = s.bktError 9 p.barrier.toNat 0xFFFF noHalf p.src.toNat := by
  unfold State.barrierArrive
  simp only [hkept, hfull, decide_true, Bool.not_false, Bool.and_self, if_true]

theorem State.barrierArrive_of_room (hroom : ((s.barrier p.barrier.toNat p.tide.toNat).any fun b => !b.from_.isEmpty) = true ∨ s.barsKept < 256) {b : Barrier}
    (hb : (s.needBarrier p.barrier.toNat p.tide.toNat).barrier p.barrier.toNat p.tide.toNat = some b) :
    s.barrierArrive p = ((s.needBarrier p.barrier.toNat p.tide.toNat).setBarrier
      { b with from_ := if p.src ∈ b.from_ then b.from_ else b.from_ ++ [p.src] }).barrierGo p.barrier.toNat p.tide.toNat := by
  have room : (!((s.barrier p.barrier.toNat p.tide.toNat).any fun b => !b.from_.isEmpty) && decide (256 ≤ s.barsKept)) = false := by
    rcases hroom with h | h
    · simp [h]
    · simp [Nat.not_le.2 h]
  unfold State.barrierArrive
  simp only [room, hb, Bool.false_eq_true, if_false, List.contains_iff_mem]

/-! ### Messages of the mark tree (R618) -/

/-- A message from a tree neighbour is relayed and acts; without a group, or from this device, it does nothing. -/
theorem tree_of_alone {α : Type} {x y : α} (h : s.group.member = false ∨ s.devId = some p.src) :
    (if (s.group.member && s.devId != some p.src) = true then x else y) = y := if_neg (by rcases h with h | h <;> simp [h])

theorem tree_of_member {α : Type} {x y : α} (hm : s.group.member = true) (hd : s.devId ≠ some p.src) :
    (if (s.group.member && s.devId != some p.src) = true then x else y) = x := if_pos (by simp [hm, hd])

/-- The master takes what names the staged snapshot. -/
theorem master_of_staging {α : Type} {x y : α} (hm : s.isMaster = true) (hs : s.staging p.snapSeq = true) :
    (if (s.isMaster && s.staging p.snapSeq) = true then x else y) = x := if_pos (by simp [hm, hs])

theorem master_of_other {α : Type} {x y : α} (h : s.isMaster = false ∨ s.staging p.snapSeq = false) :
    (if (s.isMaster && s.staging p.snapSeq) = true then x else y) = y := if_neg (by rcases h with h | h <;> simp [h])

end Acts

/-- Settles O46: the packet is received, and each row's own rule says what follows. -/
theorem packetsAct : Obligations.PacketsAct := by
  unfold Obligations.PacketsAct
  intro l resent p a q outcome cycles s u hactive htaken hbad hmine ha hq hu
  have received : q = p.received resent := by subst ha; exact hq
  have mine {k : Fin 16} {tts : List Byte} (act : State → Pkt → State) (h : p.isFor k tts) : Host.Outcome.next (s.arrive l resent p k tts act) = (.next (act u q) : Outcome) := by
    rw [State.arrive_of_mine h hactive htaken hbad hmine, ← received, ← hu]
  clear hu ha hq
  refine ⟨fun hk adr n hadr hn answer hanswer => ?read, fun hk => ?write, ?responses, fun hk => ?unreach, fun hk v f tag hv hf htag => ?piece,
    fun hk b i ringB hb hi hr v hv => ?credit, fun hk ht id tide kept hid htide hkept => ?arrive, fun hk ht => ?release, fun hk => ?loss,
    fun hk y hy ht halone => ?alone, fun hk hm hd v hv => ?tree, fun hk ht => ?done, fun hk ht => ?fail, fun hk ht => ?mark⟩
  case read =>
    subst hadr hn
    have serve := mine (k := K.readReq) (tts := []) (fun s p => s.serveRead p outcome) ⟨hk, .inl rfl⟩
    refine ⟨fun hno => serve.trans ?_, fun hok hfound => serve.trans ?_, fun hok hfound => serve.trans ?_, fun k hok hfound => serve.trans ?_⟩
    · rw [hanswer, u.serveRead_of_bad q outcome hno]
      rfl
    · rw [hanswer, u.serveRead_of_ok q outcome hok rfl rfl, hfound]
      rfl
    · rw [hanswer, u.serveRead_of_ok q outcome hok rfl rfl, hfound]
      rfl
    · rw [hanswer, u.serveRead_of_ok q outcome hok rfl rfl, hfound]
      rfl
  case write =>
    have apply (act : State → Pkt → State) := mine (k := K.write) (tts := []) act ⟨hk, .inl rfl⟩
    exact ⟨fun hok => (apply _).trans (congrArg _ (if_pos hok)), fun hno => (apply _).trans (congrArg _ (if_neg (by simp [hno])))⟩
  case responses =>
    simp only [List.forall_mem_cons, List.not_mem_nil, false_imp_iff, implies_true, and_true]
    refine ⟨fun hk => ?read, fun hk => ?write⟩
    case read =>
      have take := mine (k := K.readData) (tts := []) (fun s p => match s.remoteOp p false with
        | some o => if p.fail then s.remoteFails o else s.opDone o (p.data.take o.len)
        | none => s) ⟨hk, .inl rfl⟩
      refine ⟨fun o hid hdev hw => take.trans ?_, fun h => take.trans ?_⟩
      · rw [u.remoteOp_of_match q hid hdev hw]
        rfl
      · rw [u.remoteOp_of_mismatch q h]
    case write =>
      have take := mine (k := K.writeAck) (tts := []) (fun s p => match s.remoteOp p true with
        | some o => if p.fail then s.remoteFails o else s.opDone o []
        | none => s) ⟨hk, .inl rfl⟩
      refine ⟨fun o hid hdev hw => take.trans ?_, fun h => take.trans ?_⟩
      · rw [u.remoteOp_of_match q hid hdev hw]
        rfl
      · rw [u.remoteOp_of_mismatch q h]
  case unreach =>
    have take := mine (k := K.unreach) (tts := []) (fun s p => s.takeUnreach p) ⟨hk, .inl rfl⟩
    exact ⟨fun h => take.trans (congrArg _ (if_pos h)), fun o ht hid hdev => take.trans (congrArg _ (u.takeUnreach_of_op q ht hid hdev)),
      fun hne h => take.trans (congrArg _ (u.takeUnreach_of_nothing q hne h))⟩
  case piece =>
    have take := mine (k := K.piece) (tts := []) (fun s p => s.takePiece p) ⟨hk, .inl rfl⟩
    subst hf htag
    refine ⟨fun hf => take.trans (congrArg _ (u.takePiece_of_fault q hv hf)), fun hf hred => take.trans (congrArg _ ?_),
      fun r hf hred => take.trans (congrArg _ ?_)⟩
    · rw [u.takePiece_of_good q hv hf, hred]
    · rw [u.takePiece_of_good q hv hf, hred]
  case credit =>
    have take := mine (k := K.pieceCredit) (tts := []) (fun s p => s.takeCredits cycles p) ⟨hk, .inl rfl⟩
    subst hb hi hr hv
    refine take.trans (congrArg _ ?_)
    simp only [State.takeCredits, Bool.and_eq_true, beq_iff_eq, and_assoc]
  case arrive =>
    have take := mine (k := K.barrier) (tts := [1]) (fun s p => s.barrierArrive p) ⟨hk, .inr (by simp [ht])⟩
    subst hid htide hkept
    exact ⟨fun hkept hfull => take.trans (congrArg _ (u.barrierArrive_of_full q hkept hfull)),
      fun hroom v b hv hb => take.trans (congrArg _ (hv ▸ u.barrierArrive_of_room q hroom (hv ▸ hb)))⟩
  case release => exact mine (k := K.barrier) (tts := [2]) _ ⟨hk, .inr (by simp [ht])⟩
  case loss => exact mine (k := K.lossReport) (tts := []) _ ⟨hk, .inl rfl⟩
  case alone =>
    have of {t : Byte} (act : State → Pkt → State) (ht : p.ttype = t) (same : act u q = u) :=
      (mine (k := K.tide) (tts := [t]) act ⟨hk, .inr (by simp [ht])⟩).trans (congrArg _ same)
    have still {x : State} := tree_of_alone u q (x := x) (y := u) (halone.imp_right (·))
    revert y
    simp only [List.forall_mem_cons, List.not_mem_nil, false_imp_iff, implies_true, and_true]
    exact ⟨fun ht => of _ ht still, fun ht => of _ ht still, fun ht => of _ ht still, fun ht => of _ ht still, fun ht => of _ ht still⟩
  case tree =>
    have of {t : Byte} (act : State → Pkt → State) (ht : p.ttype = t) := mine (k := K.tide) (tts := [t]) act ⟨hk, .inr (by simp [ht])⟩
    subst hv
    exact ⟨fun ht => (of _ ht).trans (congrArg _ (tree_of_member u q hm hd)), fun ht => (of _ ht).trans (congrArg _ (tree_of_member u q hm hd)),
      fun ht => (of _ ht).trans (congrArg _ (tree_of_member u q hm hd)), fun ht => (of _ ht).trans (congrArg _ (tree_of_member u q hm hd)),
      fun ht => (of _ ht).trans (congrArg _ (tree_of_member u q hm hd))⟩
  case done =>
    have take (act : State → Pkt → State) := mine (k := K.tide) (tts := [5]) act ⟨hk, .inr (by simp [ht])⟩
    exact ⟨fun hm hs => (take _).trans (congrArg _ (master_of_staging u q hm hs)), fun h => (take _).trans (congrArg _ (master_of_other u q h))⟩
  case fail =>
    have take (act : State → Pkt → State) := mine (k := K.tide) (tts := [8]) act ⟨hk, .inr (by simp [ht])⟩
    exact ⟨fun hm hs => (take _).trans (congrArg _ (master_of_staging u q hm hs)), fun h => (take _).trans (congrArg _ (master_of_other u q h))⟩
  case mark =>
    have take (act : State → Pkt → State) := mine (k := K.tide) (tts := [1]) act ⟨hk, .inr (by simp [ht])⟩
    exact ⟨fun hm hn => (take _).trans (congrArg _ (if_pos (by simp [hm, hn]))), fun h => (take _).trans (congrArg _ (if_neg (by rcases h with h | h <;> simp [h])))⟩

end Sys2Proof.Machine
end

section
/-!
O48: link training (R406, R413, R415 to R417, R424, R463).
-/
namespace Sys2Proof.Machine

section Training

variable (s : State) (l : Nat)

theorem State.setLstate_lstate {st : Nat} (hst : st < 16) (h : Sparse.wf regReset s.regs = true) : (s.setLstate l st).lstate l = st :=
  (State.field_setField_self h (by decide)).trans (Nat.mod_eq_of_lt hst)

/-- R406: what a link holds as it becomes ACTIVE: everything that counts flits or credits starts afresh. -/
def LinkSt.renumbered (x : LinkSt) : LinkSt :=
  { x with txSeq := 0, rxSeq := 0, replay := [], slot := 0, sent := [0, 0, 0, 0], sentCr := List.replicate 8 0, retCr := List.replicate 8 0
           freed := List.replicate 8 0, unacked := 0, part := [0, 0, 0, 0], lastWhole := 65535, discarding := false, await := false, nacks := 0, returns := 0 }

/-- R419, R463: the state whose lanes are mapped as at power-on, `n` lane spares of this link being free again. -/
def State.remapped (n : Nat) : State :=
  let r := ({ s with kept := { s.kept with spares := s.kept.spares.modify 0 (· - n) } } : State).setReg (R.laneMap l) (regReset (R.laneMap l))
  r.setLink l { r.linkSt l with rxMap := [0, 1, 2, 3], rxSpare := some 4, rxBad := false }

theorem State.restoreLanes_eq : s.restoreLanes l =
    s.remapped l ((if bits (s.reg (R.laneMap l)) 12 3 = 7 then 1 else 0) + if (s.linkSt l).rxSpare = none then 1 else 0) := by
  have spare : b2n (s.linkSt l).rxSpare.isNone = if (s.linkSt l).rxSpare = none then 1 else 0 := by cases (s.linkSt l).rxSpare <;> rfl
  have moved : b2n (s.field (R.laneMap l) 12 3 == 7) = if bits (s.reg (R.laneMap l)) 12 3 = 7 then 1 else 0 := by simp [b2n, State.field]
  rw [← spare, ← moved]
  rfl

theorem State.activate_of_param {partner : Half} {plink : Nat} {all : Bool} (h : s.lstate l = L.paramSt) {t u : State}
    (ht : t = if all then s.restoreLanes l else s) (hu : u = t.setLink l (t.linkSt l).renumbered) :
    s.activate l partner plink all = ((u.setReg (R.partner l) (word (partner.toNat + 65536 * plink))).setLstate l L.active).retryPaths := by
  subst ht hu
  exact if_neg (not_not.2 h)

/-! ### The limit of a state (R406, R420) -/

theorem State.stateLimit_of_swap (h : s.lstate l = L.swap) : s.stateLimit l = s.linkDown l 2 := if_pos h

theorem State.stateLimit_of_training (hlo : L.detect ≤ s.lstate l) (hhi : s.lstate l ≤ L.paramSt) :
    s.stateLimit l = if (s.linkSt l).returns + 1 < 3 then (s.setLink l { s.linkSt l with returns := (s.linkSt l).returns + 1 }).setLstate l L.detect
      else ((s.setLink l { s.linkSt l with returns := 0 }).setLstate l L.down).log_ (srcOf 0x18 l) 0x12 (leBytes 1 (s.lstate l)) :=
  (if_neg fun h => absurd (h ▸ hhi) (by decide)).trans (if_pos ⟨hlo, hhi⟩)

theorem State.stateLimit_of_other (h : s.lstate l = L.disabled ∨ s.lstate l = L.active ∨ L.down ≤ s.lstate l) : s.stateLimit l = s := by
  dsimp only [L.disabled, L.active, L.down] at h
  have swap : s.lstate l ≠ L.swap := by dsimp only [L.swap]; omega
  have training : ¬ (L.detect ≤ s.lstate l ∧ s.lstate l ≤ L.paramSt) := by dsimp only [L.detect, L.paramSt]; omega
  exact (if_neg swap).trans (if_neg training)

end Training

/-- Settles O48, event by event. -/
theorem linkTrainingActs : Obligations.LinkTrainingActs := by
  unfold Obligations.LinkTrainingActs
  intro l s
  refine ⟨?steps, fun h => ?enter, fun h => ?entered, fun st hst hwf => ⟨?shown, rfl⟩, fun partner plink all => ⟨fun h => ?passed, fun h n hn r t u hr ht hu => ?activate⟩,
    fun h => ?swap, fun hlo hhi => ⟨fun h => ?back, fun h => ?fails⟩, fun h => ?other, fun h => ?probe, fun hp hu => ?silent,
    fun ns => ⟨fun h u hu => ?echo, fun h => ?late⟩⟩
  case steps =>
    simp only [List.forall_mem_cons, List.not_mem_nil, false_imp_iff, implies_true, and_true]
    exact ⟨⟨fun h => congrArg _ (if_pos h), fun h => congrArg _ (if_neg h)⟩, ⟨fun h => congrArg _ (if_pos h), fun h => congrArg _ (if_neg h)⟩,
      fun h => congrArg _ (if_pos h), fun h => congrArg _ (if_neg h)⟩
  case enter => exact congrArg _ (if_pos h)
  case entered => exact congrArg _ (if_neg h)
  case shown => exact s.setLstate_lstate l hst (regsWf_of_canonical hwf)
  case passed => exact congrArg _ (if_pos h)
  case activate =>
    have mapped : t = if all then s.restoreLanes l else s := by rw [ht, hr, s.restoreLanes_eq l, ← hn]; rfl
    exact congrArg _ (s.activate_of_param l h mapped hu)
  case swap => exact congrArg _ (s.stateLimit_of_swap l h)
  case back => exact congrArg _ ((s.stateLimit_of_training l hlo hhi).trans (if_pos (by omega)))
  case fails => exact congrArg _ ((s.stateLimit_of_training l hlo hhi).trans (if_neg (by omega)))
  case other => exact congrArg _ (s.stateLimit_of_other l h)
  case probe => exact congrArg _ (if_pos h)
  case silent => exact congrArg _ (if_neg (by simp [hp, hu]))
  case echo =>
    subst hu
    exact congrArg _ (if_pos h)
  case late => exact congrArg _ (if_neg h)

end Sys2Proof.Machine
end

section
/-!
O49: acknowledgement and retry, lane swaps, and whole-link loss.
-/
namespace Sys2Proof.Machine

section Link

variable (s : State) (l : Nat)

theorem State.linkUp_iff : s.linkUp l = true ↔ s.lstate l = L.active ∨ s.lstate l = L.swap := by simp [State.linkUp]

theorem State.linkUp_eq_false_iff : s.linkUp l = false ↔ s.lstate l ≠ L.active ∧ s.lstate l ≠ L.swap := by
  rw [← Bool.not_eq_true, State.linkUp_iff, not_or]

theorem State.moreFlits_lstate (begun : List Nat) (j : Nat) : (s.moreFlits l begun).lstate j = s.lstate j :=
  State.field_congr (State.reg_congr ((State.moreFlits_frame (ω := 0x400400000) rfl (Frame.refl s)).regs rfl) _)

variable {s l}

theorem State.setLink_linkSt_of_lt (h : l < s.link.links.length) (x : LinkSt) : (s.setLink l x).linkSt l = x :=
  (s.setLink_linkSt_self l x).trans (if_pos h)

/-! ### Acknowledgement and retry (R413 to R415, R419) -/

theorem State.ackFlit_of_up {seq : Half} {cr : BitVec 96} {fixed : Word} {u : State} (hu : u = s.count (R.linkFecCorrected l) fixed.toNat)
    (hup : u.linkUp l = true) : s.ackFlit l seq cr fixed = (u.setLink l { (u.linkSt l).ack seq.toNat with retCr := creditsOf cr }).pump l := by
  subst hu
  exact if_pos hup

theorem State.ackFlit_of_idle {seq : Half} {cr : BitVec 96} {fixed : Word} {u : State} (hu : u = s.count (R.linkFecCorrected l) fixed.toNat)
    (hup : u.linkUp l = false) : s.ackFlit l seq cr fixed = u := by
  subst hu
  exact if_neg (by simp [hup])

/-- The swap that a NACK finds: one of this transmitter ends, and the lane map takes the lane's new place. -/
theorem State.swapSent_setLink (h : l < s.link.links.length) (x : LinkSt) : (s.setLink l x).swapSent l =
    match x.swap with
    | some w => if w.receive then s.setLink l x
      else State.swapDone (State.setLstate (State.setLink (((s.setLink l x).setField (R.laneMap l) (3 * w.lane) 3 w.spare).setField (R.laneMap l) 12 3 7) l
        { x with swap := none }) l L.active) l 1 w
    | none => s.setLink l x := by
  have self := s.setLink_linkSt_of_lt h x
  have kept (w : Swap) : (((s.setLink l x).setField (R.laneMap l) (3 * w.lane) 3 w.spare).setField (R.laneMap l) 12 3 7).linkSt l = x := self
  unfold State.swapSent
  simp only [self, kept] <;> cases x.swap <;> rfl

theorem State.nackFlit_of_up {seq : Half} {cr : BitVec 96} (hup : s.linkUp l = true) {z : State}
    (hz : z = (s.setLink l { s.linkSt l with retCr := creditsOf cr }).swapSent l) :
    s.nackFlit l seq cr = if z.lstate l = L.active then (z.replayFrom l seq.toNat).pump l else z := by
  subst hz
  exact if_pos hup

theorem State.ackDue_of_due {begun : List Nat} {u : State} (hu : u = if s.lstate l = L.active then s.moreFlits l begun else s)
    (hup : u.linkUp l = true) (hdue : 0 < (u.linkSt l).unacked) : s.ackDue l begun = u.sendAckFlit l := by
  subst hu
  exact if_pos ⟨hup, hdue⟩

theorem State.ackDue_of_none {begun : List Nat} {u : State} (hu : u = if s.lstate l = L.active then s.moreFlits l begun else s)
    (h : u.linkUp l = false ∨ (u.linkSt l).unacked = 0) : s.ackDue l begun = u := by
  subst hu
  exact if_neg fun hd => by rcases h with h | h <;> simp [h] at hd

theorem State.crcError_of_good {uncorr : Bool} {f : BitVec 544} {good : List Nat} (h : s.lstate l ≠ L.active ∨ (uncorr = false ∧ flitClass f ≠ none)) :
    s.crcError l uncorr f good = s := if_pos (by simpa [Option.isSome_iff_ne_none] using h)

theorem State.crcError_of_bad {uncorr : Bool} {f : BitVec 544} {good : List Nat} (hactive : s.lstate l = L.active) (hbad : uncorr = true ∨ flitClass f = none)
    {v : State} (hv : v = (s.count (if uncorr then R.linkFecUncorr l else R.crcErrors l)).moreFlits l good) : s.crcError l uncorr f good =
    if (v.linkSt l).discarding then v else (v.setLink l { v.linkSt l with discarding := true, nacks := 1 }).sendNack l := by
  have guard : ¬ (s.lstate l ≠ L.active ∨ (!uncorr) = true ∧ (flitClass f).isSome = true) := by
    rcases hbad with h | h <;> simp [h, hactive]
  subst hv
  unfold State.crcError
  rw [if_neg guard]
  cases uncorr <;> rfl

/-! ### A lane fails (R418 to R421) -/

/-- What a failed lane of an ACTIVE link comes to, `u` being the state with the flits that came before it. -/
theorem State.laneFail_of_active {lane : Nat} {begun : List Nat} (hactive : s.lstate l = L.active) {u : State} (hu : u = s.moreFlits l begun) :
    s.laneFail l lane begun =
      if (u.linkSt l).rxSpare = some lane then (u.setLink l { u.linkSt l with rxBad := true }).orReg (R.linkStatus l) 4
      else match (u.linkSt l).rxMap.idxOf? lane with
        | none => u
        | some i => match (u.linkSt l).rxSpare, (u.linkSt l).rxBad with
          | some sp, false => ((u.setLink l { u.linkSt l with swap := some { receive := true, lane := i, failed := lane, spare := sp },
                                                              queue := (u.linkSt l).queue.map Pkt.age }).setLstate l L.swap).sendFlit l 3 0 i
          | _, _ => u.linkDown l 2 := by
  have active : u.lstate l = L.active := hu ▸ (s.moreFlits_lstate l begun l).trans hactive
  unfold State.laneFail
  rw [if_pos hactive, ← hu, if_neg (by simp [(u.linkUp_iff l).2 (.inl active)]), if_neg (by rw [active]; decide)] <;> rfl

theorem State.laneFail_of_idle {lane : Nat} {begun : List Nat} (h : s.linkUp l = false) : s.laneFail l lane begun = s := by
  obtain ⟨active, -⟩ := (s.linkUp_eq_false_iff l).1 h
  unfold State.laneFail
  rw [if_neg active, if_pos (by simp [h])]

theorem State.laneFail_of_swap {lane : Nat} {begun : List Nat} (h : s.lstate l = L.swap) : s.laneFail l lane begun = s.linkDown l 2 := by
  have active : s.lstate l ≠ L.active := fun ha => absurd (h.symm.trans ha) (by decide)
  have up := (s.linkUp_iff l).2 (.inr h)
  unfold State.laneFail
  rw [if_neg active, if_neg (by simp [up]), if_pos h]

/-! ### Lane swaps (R419, R420) -/

theorem State.laneSwapFlit_of_spent {lane : Nat} (h : s.lstate l ≠ L.active ∨ bits (s.reg (R.laneMap l)) 12 3 = 7) :
    s.laneSwapFlit l lane = s.linkDown l 2 := if_neg fun hd => by rcases h with h | h <;> simp [h, State.field] at hd

theorem State.swapMark_of_match {lane : Nat} {w : Swap} (hw : (s.linkSt l).swap = some w) (hr : w.receive = true) (hl : w.lane = lane) :
    s.swapMark l lane = s.setLink l { s.linkSt l with swap := some { w with marked := true } } := by
  unfold State.swapMark
  rw [hw]
  exact if_pos ⟨hr, hl⟩

theorem State.swapMark_of_other {lane : Nat} (h : ∀ w : Swap, (s.linkSt l).swap = some w → w.receive = false ∨ w.lane ≠ lane) : s.swapMark l lane = s := by
  unfold State.swapMark
  cases hw : (s.linkSt l).swap with
  | none => rfl
  | some w => exact if_neg fun hd => by rcases h w hw with h | h <;> simp [h] at hd

theorem State.swapLock_of_marked {w : Swap} (hw : (s.linkSt l).swap = some w) (hs : s.lstate l = L.swap) (hr : w.receive = true) (hm : w.marked = true) :
    s.swapLock l = (((s.setLink l { s.linkSt l with swap := none, rxMap := (s.linkSt l).rxMap.set w.lane w.spare, rxSpare := none, rxBad := false, await := true
                                                    nacks := 1 }).setLstate l L.active).sendNack l |>.swapDone l 0 w).pump l := by
  unfold State.swapLock
  simp only [hw]
  exact if_pos ⟨hs, hr, hm⟩

theorem State.swapLock_of_other (h : s.lstate l ≠ L.swap ∨ ∀ w : Swap, (s.linkSt l).swap = some w → w.receive = false ∨ w.marked = false) : s.swapLock l = s := by
  unfold State.swapLock
  cases hw : (s.linkSt l).swap with
  | none => simp only [hw]
  | some w =>
    simp only [hw]
    refine if_neg fun ⟨hs, hr, hm⟩ => ?_
    rcases h with h | h
    · exact h hs
    · rcases h w hw with h | h
      · exact absurd hr (by simp [h])
      · exact absurd hm (by simp [h])

/-! ### Whole-link loss (R427 to R429) -/

theorem State.linkDown_of_idle {c : Nat} (ha : s.lstate l ≠ L.active) (hs : s.lstate l ≠ L.swap) : s.linkDown l c = s := if_pos ⟨ha, hs⟩

/-- The link as it goes DOWN, before its report goes out. -/
def State.lostLink (s : State) (l c : Nat) : State :=
  ((((s.setLink l { s.linkSt l with replay := [], queue := [], sent := [0, 0, 0, 0], swap := none, discarding := false, await := false, nacks := 0, part := [0, 0, 0, 0]
                                    losses := (s.linkSt l).losses ++ [⟨(s.linkSt l).heldBack, s.partnerDev l, s.partnerLink l⟩] }).setLstate l L.down).count
    (R.linkDowns l)).orReg (R.linkStatus l) 1).log_ (srcOf 0x18 l) 0x15 (leBytes 1 c)

theorem State.linkDown_of_up {c : Nat} (h : s.linkUp l = true) : s.linkDown l c = match (s.lostLink l c).devId with
    | some me => (s.lostLink l c).routePkt { kind := K.lossReport, src := me, dst := (s.lostLink l c).partnerDev l, ttype := 1, link := Fin.ofNat 64 l
                                             lastSeq := BitVec.ofNat 16 (s.linkSt l).lastWhole } true
    | none => (s.lostLink l c).checkId := by
  have up : ¬ (s.lstate l ≠ L.active ∧ s.lstate l ≠ L.swap) := fun hd => by simp [(s.linkUp_eq_false_iff l).2 hd] at h
  exact if_neg up

theorem State.lossReport1_of_none {p : Pkt} (h : ∀ y ∈ (s.linkSt l).losses, y.dev ≠ p.src ∨ y.link ≠ p.link.val) : s.lossReport1 p l = s := by
  have none : ((s.linkSt l).losses.find? fun y => y.dev == p.src && y.link == p.link.val) = none :=
    List.find?_eq_none.2 fun y hy => by rcases h y hy with h | h <;> simp [h]
  unfold State.lossReport1
  simp only [none]

theorem State.lossReport1_of_some {p : Pkt} {y : LinkLoss} (h : ((s.linkSt l).losses.find? fun y => y.dev == p.src && y.link == p.link.val) = some y) {u : State}
    (hu : u = (s.setLink l { s.linkSt l with losses := (s.linkSt l).losses.erase y }).spareUsed (srcOf 0x18 l) 1 l 0xFFFF) :
    s.lossReport1 p l = (u.routeAll ((y.held.filter (beyond p.lastSeq.toNat)).map fun e => e.2) true).unblock := by
  subst hu
  unfold State.lossReport1
  simp only [h]

theorem State.lossExpire_of_none (h : (s.linkSt l).losses = []) : s.lossExpire l = s := by
  unfold State.lossExpire
  simp only [h]

theorem State.lossExpire_of_cons {y : LinkLoss} {ys : List LinkLoss} (h : (s.linkSt l).losses = y :: ys) {t : State}
    (ht : t = s.setLink l { s.linkSt l with losses := ys }) : s.lossExpire l = if y.held.isEmpty then t else
      (((y.held.map (·.2)).foldl State.failPkt ((t.orReg (R.linkStatus l) 0x10).log_ (srcOf 0x18 l) 0x16 (leBytes 2 y.dev.toNat))).unblock).restart 0x09 := by
  subst ht
  unfold State.lossExpire
  simp only [h]

end Link

/-- Settles O49, event by event, by the rules above. -/
theorem linkEventsAct : Obligations.LinkEventsAct := by
  unfold Obligations.LinkEventsAct
  intro l s x hx
  subst hx
  refine ⟨fun seq cr fixed u y hu hy => ⟨fun hup done hdone => ?ack, fun hup => ?ackIdle⟩,
    fun seq cr => ⟨fun hup => ?nackIdle, fun hup hl v z hv hz => ?nack⟩,
    fun begun u hu => ⟨fun hup hdue => ?due, fun h => ?notDue⟩,
    fun uncorr f good u v hu hv => ⟨fun h => ?good, fun hactive hbad => ⟨fun hd => ?discarding, fun hd => ?bad⟩⟩,
    fun hactive hwait => ⟨fun hn => ?again, fun hn => ?eighth⟩, fun h => ?noRepeat,
    fun lane lost errors margin before begun bad hbad c hc => ?lane,
    fun lane => ⟨fun hup => ?swapIdle, fun hup h => ?swapSpent, fun hactive hspare => ?swapBegins⟩,
    fun lane => ⟨fun w hw hr hl => ?mark, fun h => ?markOther⟩,
    fun w hw hs hr hm => ?lock, fun h => ?lockOther, fun stopped => rfl,
    fun c => ⟨fun ha hs => ?downIdle, fun hup gone t hgone ht => ?down⟩,
    fun q => ⟨fun h => ?reportNone, fun y hy u hu => ?report⟩,
    fun h => ?expireNone, fun y ys h t u ht hu => ⟨fun hheld => ?expireEmpty, fun hheld => ?expire⟩⟩
  case ack =>
    subst hy hdone
    exact congrArg _ (State.ackFlit_of_up hu hup)
  case ackIdle => exact congrArg _ (State.ackFlit_of_idle hu hup)
  case nackIdle => exact congrArg _ (if_neg (by simp [hup]))
  case nack =>
    subst hv
    refine congrArg _ (State.nackFlit_of_up hup (hz.trans ?_))
    rw [State.swapSent_setLink hl]
    rfl
  case due => exact congrArg _ (State.ackDue_of_due hu hup hdue)
  case notDue => exact congrArg _ (State.ackDue_of_none hu h)
  case good => exact congrArg _ (State.crcError_of_good h)
  case discarding =>
    subst hu
    exact congrArg _ ((State.crcError_of_bad hactive hbad hv).trans (if_pos hd))
  case bad =>
    subst hu
    exact congrArg _ ((State.crcError_of_bad hactive hbad hv).trans (if_neg (by simp [hd])))
  case again => exact congrArg _ ((if_pos ⟨hactive, hwait⟩).trans (if_pos hn))
  case eighth => exact congrArg _ ((if_pos ⟨hactive, hwait⟩).trans (if_neg (by omega)))
  case noRepeat => exact congrArg _ (if_neg fun hd => by rcases h with h | h <;> simp [h] at hd)
  case lane =>
    subst hc
    have fails (h : bad = true) : exec (.laneFail l ⟨lane, lost, errors, margin, before, begun⟩) s = .next (s.laneFail l lane begun) :=
      congrArg _ (if_pos (hbad.symm.trans h))
    refine ⟨fun h => ?fine, fun h hs => (fails h).trans (congrArg _ (State.laneFail_of_swap hs)),
      fun h hactive u y hu hy => ?active⟩
    case fine =>
      rcases h with h | h
      · exact congrArg _ (if_neg (ne_true_of_eq_false (hbad.symm.trans h)))
      · have same : (if s.laneBad lost errors margin before then s.laneFail l lane begun else s) = s := by rw [State.laneFail_of_idle h, ite_self]
        exact congrArg _ same
    case active =>
      subst hy
      have fails := (fails h).trans (congrArg _ (State.laneFail_of_active hactive hu))
      refine ⟨fun hsp => fails.trans (congrArg _ (if_pos hsp)), fun hsp i hi => ⟨fun sp hfree hgood => fails.trans (congrArg _ ((if_neg hsp).trans ?swaps)),
        fun hspent => fails.trans (congrArg _ ((if_neg hsp).trans ?spent))⟩, fun hsp hno => fails.trans (congrArg _ ((if_neg hsp).trans ?unmapped))⟩
      case swaps => simp only [hi, hfree, hgood]
      case spent =>
        rw [hi]
        rcases hspent with h | h
        · simp only [h]
        · cases hsp : (u.linkSt l).rxSpare <;> simp only [h]
      case unmapped => rw [List.idxOf?_eq_none_iff.2 hno]
  case swapIdle => exact congrArg _ (if_neg (by simp [hup]))
  case swapSpent => exact congrArg _ ((if_pos hup).trans (State.laneSwapFlit_of_spent h))
  case swapBegins => exact congrArg _ ((if_pos ((s.linkUp_iff l).2 (.inl hactive))).trans (if_pos ⟨hactive, hspare⟩))
  case mark => exact congrArg _ (State.swapMark_of_match hw hr hl)
  case markOther => exact congrArg _ (State.swapMark_of_other h)
  case lock =>
    show Host.Outcome.next (s.swapLock l) = _
    rw [State.swapLock_of_marked hw hs hr hm]
  case lockOther => exact congrArg _ (State.swapLock_of_other h)
  case downIdle => exact State.linkDown_of_idle ha hs
  case down =>
    have lost : t = s.lostLink l c := by rw [ht, hgone]; rfl
    subst lost
    refine ⟨fun hid => ?_, fun me hid => ?_⟩
    · rw [State.linkDown_of_up hup, hid]
    · rw [State.linkDown_of_up hup, hid, Fin.ofNat_val_eq_self]
  case reportNone => exact State.lossReport1_of_none h
  case report => exact State.lossReport1_of_some hy hu
  case expireNone => exact congrArg _ (State.lossExpire_of_none h)
  case expireEmpty => exact congrArg _ ((State.lossExpire_of_cons h ht).trans (if_pos (by simp [hheld])))
  case expire =>
    subst hu
    show Host.Outcome.next (s.lossExpire l) = _
    rw [State.lossExpire_of_cons h ht, if_neg (by simpa using hheld)]

end Sys2Proof.Machine
end

section
/-!
O54: what the memory controllers do on their own.
-/
namespace Sys2Proof.Machine

/-- A fold whose steps write registers only writes registers only. -/
theorem foldl_regs_only {ι : Type} {f : State → ι → State} (h : ∀ s i, ∃ rs, f s i = { s with regs := rs }) (l : List ι) (s : State) :
    ∃ rs, l.foldl f s = { s with regs := rs } := by
  induction l generalizing s with
  | nil => exact ⟨_, rfl⟩
  | cons i l ih =>
    obtain ⟨rs, step⟩ := h s i
    obtain ⟨rs', rest⟩ := ih (f s i)
    exact ⟨rs', by rw [List.foldl_cons, rest, step]⟩

section Stacks

variable (s : State) (st : Nat)

theorem State.bit_iff_bits_one {w : Nat} (x : BitVec w) (i : Nat) : bit x i = true ↔ bits x i 1 = 1 := by
  rw [bits_one]
  cases bit x i <;> decide

/-! ### Temperatures (R444) -/

theorem State.stackTemp_only (t : Nat) : s.stackTemp st t = { s with regs := (s.stackTemp st t).regs } := by
  unfold State.stackTemp
  dsimp only
  split
  · rfl
  · split <;> rfl

/-- The doubled refresh as a temperature leaves it. -/
def refreshAt (t was : Nat) : Nat := if 85 < t then 1 else if t ≤ 80 then 0 else was

theorem State.stackTemp_reg (t k : Nat) (h : Sparse.wf regReset s.regs = true) (hk : k ≠ R.hbmState st) :
    (s.stackTemp st t).reg k = if k = R.stackTemp st then word t else s.reg k := by
  have shown := State.setReg_reg (k := R.stackTemp st) (v := word t) (j := k) h
  unfold State.stackTemp
  dsimp only
  split
  · rw [State.setField_reg_ne hk, shown]
  · split
    · rw [State.setField_reg_ne hk, shown]
    · exact shown

theorem State.stackTemp_wf (t : Nat) (h : Sparse.wf regReset s.regs = true) : Sparse.wf regReset (s.stackTemp st t).regs = true := by
  have shown := State.setReg_wf s (R.stackTemp st) (word t) h
  unfold State.stackTemp
  dsimp only
  split
  · exact State.setField_wf _ _ _ _ _ shown
  · split
    · exact State.setField_wf _ _ _ _ _ shown
    · exact shown

theorem State.stackTemp_refresh (t : Nat) (h : Sparse.wf regReset s.regs = true) (hne : R.hbmState st ≠ R.stackTemp st) :
    bits ((s.stackTemp st t).reg (R.hbmState st)) 5 1 = refreshAt t (bits (s.reg (R.hbmState st)) 5 1) := by
  have shown := State.setReg_wf s (R.stackTemp st) (word t) h
  have was := State.setReg_reg_ne s (R.stackTemp st) (R.hbmState st) (word t) hne
  unfold State.stackTemp refreshAt
  dsimp only
  split
  · exact State.field_setField_self shown (by decide)
  · split
    · exact State.field_setField_self shown (by decide)
    · rw [was]

/-- What a stack shows of its temperature: the reading, and whether its refresh is doubled. -/
def State.stackShows (s : State) (st : Nat) : Word × Nat := (s.reg (R.stackTemp st), bits (s.reg (R.hbmState st)) 5 1)

theorem State.stackTemps_show (temps : Nat → Nat) (h : Sparse.wf regReset s.regs = true) {n k : Nat} (hk : k < n) :
    ((List.range n).foldl (fun s j => s.stackTemp j (temps j)) s).stackShows k = (word (temps k), refreshAt (temps k) (s.stackShows k).2) := by
  have shows := foldl_view (P := fun s : State => Sparse.wf regReset s.regs = true) (V := fun j s => s.stackShows j)
    (f := fun s j => s.stackTemp j (temps j)) (g := fun j x => (word (temps j), refreshAt (temps j) x.2)) (l := List.range n)
    (fun s j h => s.stackTemp_wf j _ h)
    (fun s j h => Prod.ext ((s.stackTemp_reg j _ _ h (by simp [blk])).trans (if_pos rfl)) (s.stackTemp_refresh j _ h (by simp [blk])))
    (fun s i j h hj => ?other) List.nodup_range h k
  case other =>
    have reading : (s.stackTemp i (temps i)).reg (R.stackTemp j) = s.reg (R.stackTemp j) :=
      (s.stackTemp_reg i _ _ h (by simp [blk]; omega)).trans (if_neg (by simp [blk]; omega))
    have refresh : (s.stackTemp i (temps i)).reg (R.hbmState j) = s.reg (R.hbmState j) :=
      (s.stackTemp_reg i _ _ h (by simp [blk]; omega)).trans (if_neg (by simp [blk]; omega))
    exact Prod.ext reading (congrArg (bits · 5 1) refresh)
  rw [shows, if_pos (List.mem_range.2 hk)]

/-! ### Pseudo-channels (R445 to R449) -/

theorem State.mem_failingPcs {p : Nat} : p ∈ s.failingPcs st ↔ p < 64 ∧ 64 * st + p ∉ s.memc.pcFailed ∧
    (4 * bits (s.reg R.memCtrl) 2 14 ≤ Sparse.get 0 s.memc.pcCe (64 * st + p) ∨ 2 ≤ Sparse.get 0 s.memc.pcUe (64 * st + p)) := by
  change _ ↔ p < 64 ∧ _ ∧ (4 * s.field R.memCtrl 2 14 ≤ _ ∨ _)
  simp [State.failingPcs, and_comm]

theorem State.pcThreshold_of_cons {p : Nat} {rest : List Nat} (h : s.failingPcs st = p :: rest) : s.pcThreshold st =
    rest.foldl (fun u q => u.pcExhausted st q) (if bits (s.reg (R.hbmState st)) 6 3 = 0 then s.pcPending st p else s.pcExhausted st p) := by
  unfold State.pcThreshold
  rw [h]
  rfl

theorem State.pcCopied_of_busy (h : bits (s.reg (R.hbmState st)) 7 1 = 0 ∨ (s.reg (R.copyPtr st)).toNat ≠ s.pcBlocks) : s.pcCopied st = s :=
  if_neg fun ⟨hon, hat⟩ => h.elim (fun h => absurd ((State.bit_iff_bits_one _ _).1 hon) (by omega)) (· hat)

theorem State.pcCopied_of_whole (hon : bits (s.reg (R.hbmState st)) 7 1 = 1) (hat : (s.reg (R.copyPtr st)).toNat = s.pcBlocks) {k : Nat}
    (hk : k = bits (s.reg (R.pcMap st)) 8 6) : s.pcCopied st =
    (((((s.setReg (R.pcMap st) (word (k + 256 * 63))).setField (R.hbmState st) 6 3 4).orReg R.memStatus 2).log_ (srcOf 0x20 st) 0x19
      (leBytes 1 k ++ leBytes 1 k)).spareUsed (srcOf 0x20 st) 5 (64 * st + k) (64 * st + 63)) := by
  subst hk
  exact if_pos ⟨(State.bit_iff_bits_one _ _).2 hon, hat⟩

theorem State.blockCopied_of_none {e : ReadErr} (h : bits (s.reg (R.hbmState st)) 7 1 = 0 ∨ s.pcBlocks ≤ (s.reg (R.copyPtr st)).toNat) :
    s.blockCopied st e = s :=
  if_neg fun ⟨hon, hat⟩ => h.elim (fun h => absurd ((State.bit_iff_bits_one _ _).1 hon) (by omega)) (Nat.not_le.2 hat)

theorem State.blockCopied_of_busy {e : ReadErr} (hon : bits (s.reg (R.hbmState st)) 7 1 = 1) (hat : (s.reg (R.copyPtr st)).toNat < s.pcBlocks) {a : Nat}
    (ha : a = s.copyBlock st) : s.blockCopied st e = State.count (match e with
      | .none_ => s
      | .correctable => s.correctable a
      | .uncorrectable k => State.recordUe { s with memc := { s.memc with poison := s.memc.poison ++ (List.range 128).map fun i => a / 32 + i } } a k)
      (R.copyPtr st) := by
  subst ha
  exact if_pos ⟨(State.bit_iff_bits_one _ _).2 hon, hat⟩

end Stacks

section Slices

variable (s : State)

/-! ### Slices (R464, R465) -/

theorem State.sliceThreshold_of_below {n : Nat} (h : Sparse.get 0 s.memc.sliceCe n < 256 ∨ n ∈ s.memc.sliceFailed) : s.sliceThreshold n = s :=
  if_pos (h.imp_right List.contains_iff_mem.2)

theorem State.sliceThreshold_of_failed {n : Nat} (hce : 256 ≤ Sparse.get 0 s.memc.sliceCe n) (hnew : n ∉ s.memc.sliceFailed) {u : State}
    (hu : u = State.trouble { s with memc := { s.memc with sliceFailed := s.memc.sliceFailed ++ [n] } }) : s.sliceThreshold n =
    if s.sliceFree (halfOfSlice n) then { u with memc := { u.memc with slicePend := u.memc.slicePend ++ [n] } } else u.orReg R.snapStatus 0x100 := by
  subst hu
  exact if_neg fun h => h.elim (by omega) fun h => hnew (List.contains_iff_mem.1 h)

theorem State.sliceCopied_of_none {h : Nat} (hf : (s.memc.sliceCopy.find? fun x => halfOfSlice x.1 == h && x.2 == 32768) = none) : s.sliceCopied h = s := by
  unfold State.sliceCopied
  rw [hf]

theorem State.sliceCopied_of_some {h : Nat} {x : Nat × Nat} (hf : (s.memc.sliceCopy.find? fun x => halfOfSlice x.1 == h && x.2 == 32768) = some x) {u : State}
    (hu : u = { s with memc := { s.memc with sliceCopy := s.memc.sliceCopy.filter (·.1 != x.1) }
                       kept := { s.kept with spareSlice := s.kept.spareSlice ++ [(h, x.1)] } }) :
    s.sliceCopied h = (u.orReg R.snapStatus 0x80).spareUsed (srcOf 0x12 0) 4 x.1 (128 + h) := by
  subst hu
  unfold State.sliceCopied
  rw [hf]

theorem State.sliceLine_of_none {h : Nat} {e : ReadErr} (hf : (s.memc.sliceCopy.find? fun x => halfOfSlice x.1 == h && decide (x.2 < 32768)) = none) :
    s.sliceLine h e = s := by
  unfold State.sliceLine
  rw [hf]

theorem State.sliceLine_of_some {h a : Nat} {e : ReadErr} {x : Nat × Nat}
    (hf : (s.memc.sliceCopy.find? fun x => halfOfSlice x.1 == h && decide (x.2 < 32768)) = some x) (ha : a = sliceBase + x.1 * 2 ^ 21 + 64 * x.2) {u : State}
    (hu : u = match e with
      | .none_ => s
      | .correctable => s.correctable a
      | .uncorrectable _ => { s with memc := { s.memc with poison := s.memc.poison ++ [a / 32, a / 32 + 1] } }) : s.sliceLine h e =
    { u with memc := { u.memc with sliceCopy := u.memc.sliceCopy.map fun y => if halfOfSlice y.1 = h ∧ y.2 < 32768 then (y.1, y.2 + 1) else y } } := by
  subst ha hu
  unfold State.sliceLine
  simp only [hf, State.lineCopied, beq_iff_eq] <;> rfl

/-! ### Patrol scrub (R454, R455) -/

theorem State.scrub_of_running {c a : Nat} {e : ReadErr} (hs : s.scrubs = true) {i : Nat} {u v : State} (hi : i = Sparse.get 0 s.memc.scrubPos c) (ha : a = s.scrubAddr c)
    (hu : u = match e with
      | .none_ => s
      | .correctable => (s.correctable a).count (R.scrubCe c)
      | .uncorrectable k => s.recordUe a k)
    (hv : v = { u with memc := { u.memc with scrubPos := Sparse.put 0 u.memc.scrubPos c (if u.bursts ≤ i + 1 then 0 else i + 1) } }) :
    s.scrub c e = if u.bursts ≤ i + 1 then v.count (R.scrubPasses c) else v := by
  subst hi ha hv
  unfold State.scrub
  rw [if_neg (by simp [hs])]
  cases e <;> subst hu <;> simp only [decide_eq_true_eq]

end Slices

/-- Settles O54, event by event; the temperatures as a fold in which each stack's step touches its own registers. -/
theorem memoryEventsAct : Obligations.MemoryEventsAct := by
  unfold Obligations.MemoryEventsAct
  intro s
  refine ⟨rfl, rfl, fun temps hwf => ?temps, rfl, fun st => ⟨fun h => ?below, fun p rest h => ?failed, fun p => s.mem_failingPcs st, fun h => ?notWhole,
      fun hon hat k hk => ?whole, fun b o hb => ⟨fun h => ?idle, fun hon hat a ha => ?block⟩⟩,
    fun n => ⟨fun h => ?sliceBelow, fun hce hnew u hu => ?sliceFailed⟩,
    fun h => ⟨fun f hf => ⟨fun hnone => ?notCopied, fun x hx u hu => ?copied⟩, fun b o f hb hf => ⟨fun hnone => ?noLine, fun x a hx ha u hu => ?line⟩⟩,
    fun c o => ⟨fun h => ?noScrub, fun hs i a u v w hi ha hu hv hw => ?scrub⟩⟩
  case temps =>
    have reading (k : Nat) (hk : k < 8) := s.stackTemps_show (fun j => (temps.getD j 0).toNat) (regsWf_of_canonical hwf) hk
    obtain ⟨rs, only⟩ := foldl_regs_only (f := fun (s : State) j => s.stackTemp j (temps.getD j 0).toNat) (fun s j => ⟨_, s.stackTemp_only j _⟩) (List.range 8) s
    refine ⟨_, rfl, ?_, fun k hk => Prod.ext_iff.1 (reading k hk)⟩
    rw [only]
  case below =>
    show Host.Outcome.next (s.pcThreshold st) = _
    rw [State.pcThreshold, h]
  case failed => exact congrArg _ (s.pcThreshold_of_cons st h)
  case notWhole => exact congrArg _ (s.pcCopied_of_busy st h)
  case whole => exact congrArg _ (s.pcCopied_of_whole st hon hat hk)
  case idle =>
    show Host.Outcome.next (if b.val < 8 then _ else _) = _
    rw [if_pos (by omega), hb, s.blockCopied_of_none st h]
  case block =>
    have copy : exec (.blockCopyDone b o) s = .next (s.blockCopied st (readErr o)) := by
      show Host.Outcome.next (if b.val < 8 then _ else _) = _
      rw [if_pos (by omega), hb]
    rw [copy, s.blockCopied_of_busy st hon hat ha]
    refine ⟨fun h => ?_, fun h => ?_, fun h => ?_⟩
    · subst h; rfl
    · subst h; rfl
    · rcases h with h | h <;> subst h <;> rfl
  case sliceBelow => exact congrArg _ (s.sliceThreshold_of_below h)
  case sliceFailed =>
    have failed := s.sliceThreshold_of_failed hce hnew hu
    exact ⟨fun h => congrArg _ (failed.trans (if_pos h)), fun h => congrArg _ (failed.trans (if_neg (by simp [h])))⟩
  case notCopied => exact congrArg _ (s.sliceCopied_of_none (hf.trans hnone))
  case copied => exact congrArg _ (s.sliceCopied_of_some (hf.trans hx) hu)
  case noLine =>
    show Host.Outcome.next (if b.val < 8 then _ else _) = _
    rw [if_neg (by omega), s.sliceLine_of_none (by rw [hb, Nat.add_sub_cancel_left]; exact hf.trans hnone)]
  case line =>
    have line : exec (.blockCopyDone b o) s = .next (s.sliceLine h (readErr o)) := by
      show Host.Outcome.next (if b.val < 8 then _ else _) = _
      rw [if_neg (by omega), hb, Nat.add_sub_cancel_left]
    rw [line]
    refine congrArg _ (s.sliceLine_of_some (hf.trans hx) ha (hu.trans ?_))
    fin_cases o <;> rfl
  case noScrub => exact congrArg _ (if_pos (by simp [h]))
  case scrub =>
    have run : exec (.patrolScrub c o) s = .next (match s.found (s.scrubAddr c) 64 o with
        | .uncorrectable _ => (s.scrub c (s.found (s.scrubAddr c) 64 o)).ueHandle none (s.scrubAddr c)
        | _ => s.scrub c (s.found (s.scrubAddr c) 64 o)) := congrArg _ (if_neg (by simp [hs]))
    have address : s.scrubAddr c = a := by rw [ha, hi]; rfl
    rw [run, address, s.scrub_of_running hs hi address.symm hu hv, ← hw]
    refine ⟨fun hgood => ?_, fun k hbad => ?_⟩
    · cases hfound : s.found a 64 o with
      | none_ => rfl
      | correctable => rfl
      | uncorrectable k => exact absurd hfound (hgood k)
    · rw [hbad]

end Sys2Proof.Machine
end

section
/-!
O55: how a sequenced frame is received.
-/
namespace Sys2Proof.Machine

section Receive

variable {s t : State} {f : Frm} {legal : Session → Bool} {lenOk request : Bool} {act : State → State}

/-- Without the frame's session, or on a port that is not UP, the codewords are counted and no more. -/
theorem State.receive_of_silent (ht : t = s.codewords (portOf f.session) f.fixed f.uncorr) (h : t.session f.session = none ∨ t.portUp (portOf f.session) = false) :
    s.receive f legal lenOk request act = t := by
  unfold State.receive
  rw [← ht]
  cases hx : t.session f.session with
  | none => simp only [hx]
  | some x =>
    rcases h with h | h
    · exact absurd (hx.symm.trans h) (by simp)
    · simp only [hx, h, Bool.not_false, if_true]

/-- What a frame of a session on a port that is UP comes to. -/
theorem State.receive_of_up (ht : t = s.codewords (portOf f.session) f.fixed f.uncorr) {x : Session} (hx : t.session f.session = some x)
    (hup : t.portUp (portOf f.session) = true) {v : State}
    (hv : v = ((t.setSession f.session (some { x with rx := x.rx + 1, tagRun := 0 })).count (R.framesRx (portOf f.session))).sendAck f.session) :
    s.receive f legal lenOk request act =
      if f.tagOk = false then t.tagFail f.session x
      else if f.seq.toNat ≠ x.rx then (t.count (R.seqDiscards (portOf f.session))).setSession f.session (some { x with tagRun := 0 })
      else State.seqLimit (if legal x && lenOk && f.resv == 0 then act v else if request && x.isOpen then v.complete f.session f.ftag 0x07 else v) f.session := by
  subst hv
  unfold State.receive
  rw [← ht]
  simp only [hx, hup, Bool.not_true, Bool.false_eq_true, if_false, Bool.not_eq_true']

theorem State.setSession_session (s : State) {n : Nat} (x : Option Session) (h : n < s.lys.sessions.length) : (s.setSession n x).session n = x := by
  simp [State.session, State.setSession, h]

theorem State.seqLimit_of_below {n : Nat} {x : Session} (hx : s.session n = some x) (hrx : x.rx ≤ 2 ^ 48) (htx : x.tx ≤ 2 ^ 48) : s.seqLimit n = s := by
  unfold State.seqLimit
  rw [hx]
  exact if_neg (by omega)

end Receive

/-- The rows of Table 16.4: each sequenced frame, the sessions it may come in, whether it is a request, and its length and fields. -/
noncomputable def frameRows (f : Frm) : List (Instr × (Session → Bool) × Bool × Bool) :=
  [(.auth f, (fun x => !x.boot && !x.isOpen), true, f.pay.length == 132), (.closeFrame f, (fun x => x.isOpen), false, f.pay.length == 1),
    (.mbxPost f, runSession, true, f.pay.length == 257 && decide (bytesAt f.pay 0 1 < 16)),
    (.mbxRead f, runSession, true, f.pay.length == 1 && decide (bytesAt f.pay 0 1 < 16)),
    (.mbxRelease f, runSession, true, f.pay.length == 1 && decide (bytesAt f.pay 0 1 < 16)),
    (.winRead f, runSession, true, f.pay.length == 20 && winFieldsOk f.pay),
    (.winWrite f, runSession, true, f.pay.length == 20 + bytesAt f.pay 16 4 && winFieldsOk f.pay),
    (.regRd f, runSession, true, f.pay.length == 12 && decide (1 ≤ bytesAt f.pay 8 4 ∧ bytesAt f.pay 8 4 ≤ 1024)),
    (.regWr f, runSession, true, f.pay.length == 12 + 4 * bytesAt f.pay 8 4 && decide (1 ≤ bytesAt f.pay 8 4 ∧ bytesAt f.pay 8 4 ≤ 1024)),
    (.keys f, bootSession, true, f.pay.length == 266),
    (.imageFrame f, bootSession, true, decide (68 ≤ f.pay.length ∧ f.pay.length ≤ 4100) && bytesAt f.pay 0 4 % 4096 == 0)]

/-- Every one of them is received, by its own row. -/
theorem exec_frameRows (f : Frm) (s : State) : ∀ y ∈ frameRows f, ∃ act, exec y.1 s = .next (s.receive f y.2.1 y.2.2.2 y.2.2.1 act) := by
  simp only [frameRows, List.forall_mem_cons, List.not_mem_nil, false_imp_iff, implies_true, and_true]
  exact ⟨⟨_, rfl⟩, ⟨_, rfl⟩, ⟨_, rfl⟩, ⟨_, rfl⟩, ⟨_, rfl⟩, ⟨_, rfl⟩, ⟨_, rfl⟩, ⟨_, rfl⟩, ⟨_, rfl⟩, ⟨_, rfl⟩, ⟨_, rfl⟩⟩

/-- Settles O55: every sequenced frame is received alike, and the cases of that are the rules above. -/
theorem framesAreReceived : Obligations.FramesAreReceived := by
  unfold Obligations.FramesAreReceived
  intro f s t n p b hn hp hb ht
  subst hn hp hb
  refine ⟨fun y hy => ?frame, fun x v hx hrx htx hlen hv => ?limit⟩
  case frame =>
    obtain ⟨act, receive⟩ := exec_frameRows f s y hy
    rw [receive]
    refine ⟨fun h => by rw [State.receive_of_silent ht h], fun x hx hup => ?_⟩
    have taken := State.receive_of_up (legal := y.2.1) (lenOk := y.2.2.2) (request := y.2.2.1) (act := act) ht hx hup rfl
    refine ⟨fun u htag hu => ?tag, fun htag hseq => ?seq, fun v htag hseq hv h => ?illegal⟩
    case tag =>
      subst hu
      rw [taken, if_pos htag]
      rfl
    case seq => rw [taken, if_neg (by simp [htag]), if_pos hseq]
    case illegal =>
      have illegal : (y.2.1 x && y.2.2.2 && f.resv == 0) = false := by
        rcases h with h | h | h
        · simp [h]
        · simp [h]
        · rw [beq_eq_false_iff_ne.2 h, Bool.and_false]
      rw [taken, if_neg (by simp [htag]), if_neg (not_not.2 hseq), ← hv, illegal]
      rfl
  case limit =>
    subst hv
    exact State.seqLimit_of_below (State.setSession_session s _ hlen) hrx htx

end Sys2Proof.Machine
end

section
/-!
O58: temperature, power and throttling.
-/
namespace Sys2Proof.Machine

/-! ### Regions that are gated (R513, R516) -/

section Regions

variable (s : State)

theorem State.setRegionMode_regionMode_self {r m : Nat} (h : Sparse.wf regReset s.regs = true) (hm : m < 4) : (s.setRegionMode r m).regionMode r = m :=
  (State.field_setField_self h (by decide)).trans (Nat.mod_eq_of_lt hm)

theorem State.setRegionMode_regionMode_ne {r j m : Nat} (h : j ≠ r) : (s.setRegionMode r m).regionMode j = s.regionMode j :=
  State.field_setField_ne (by simpa [blk] using h)

theorem State.gate_only (r : Nat) : s.gate r = { s with regs := (s.gate r).regs } := by
  unfold State.gate
  split <;> rfl

theorem State.gate_wf (r : Nat) (h : Sparse.wf regReset s.regs = true) : Sparse.wf regReset (s.gate r).regs = true := by
  unfold State.gate
  split
  · exact State.setField_wf _ _ _ _ _ h
  · exact h

theorem State.gate_regionMode (r : Nat) (h : Sparse.wf regReset s.regs = true) :
    (s.gate r).regionMode r = if s.regionMode r = 0 then 1 else s.regionMode r := by
  unfold State.gate
  split
  · exact s.setRegionMode_regionMode_self h (by decide)
  · rfl

theorem State.gate_regionMode_ne {r j : Nat} (h : j ≠ r) : (s.gate r).regionMode j = s.regionMode j := by
  unfold State.gate
  split
  · exact s.setRegionMode_regionMode_ne h
  · rfl

theorem State.gates_only (l : List Nat) : ∃ rs, l.foldl State.gate s = { s with regs := rs } := foldl_regs_only (fun s r => ⟨_, s.gate_only r⟩) l s

/-- Gating a run of regions gates those of them that run. -/
theorem State.gates_regionMode (n r : Nat) (h : Sparse.wf regReset s.regs = true) :
    ((List.range n).foldl State.gate s).regionMode r = if r < n then (if s.regionMode r = 0 then 1 else s.regionMode r) else s.regionMode r := by
  have modes := foldl_view (P := fun s : State => Sparse.wf regReset s.regs = true) (V := fun r s => s.regionMode r) (f := State.gate)
    (g := fun _ m => if m = 0 then 1 else m) (l := List.range n) (fun s r h => s.gate_wf r h) (fun s r h => s.gate_regionMode r h)
    (fun s r j _ hj => s.gate_regionMode_ne hj) List.nodup_range h r
  simpa only [List.mem_range] using modes

end Regions

/-! ### Samples (R509 to R511, R617) -/

theorem foldl_max_lt {f : Nat → Nat} {b : Nat} (hf : ∀ i, f i < b) (l : List Nat) {m : Nat} (hm : m < b) : l.foldl (fun m i => max m (f i)) m < b := by
  induction l generalizing m with
  | nil => exact hm
  | cons i l ih => exact ih (max_lt hm (hf i))

theorem highest_lt (temps : List Byte) (h : Nat) : highest temps h < 256 := foldl_max_lt (fun _ => (temps.getD _ 0).isLt) _ (by decide)

theorem bits_word {v len : Nat} (h : v < 2 ^ len) (hl : len ≤ 32) : bits (word v) 0 len = v := by
  have small : v < 2 ^ 32 := h.trans_le (Nat.pow_le_pow_right (by decide) hl)
  show ((v % 2 ^ 32) >>> 0) % 2 ^ len = v
  rw [Nat.mod_eq_of_lt small, Nat.shiftRight_zero, Nat.mod_eq_of_lt h]

section Sample

variable (s : State)

/-- The readings of a sample, as the registers show them. -/
def State.sampled (w e p : Nat) : State := ((s.setReg R.tjWest (word w)).setReg R.tjEast (word e)).setReg R.tjPeak (word p)

variable {s} {w e p : Nat}

theorem State.sampled_tj (h : Sparse.wf regReset s.regs = true) (hw : w < 256) (he : e < 256) : (s.sampled w e p).tj 0 = w ∧ (s.sampled w e p).tj 1 = e := by
  have west := State.setReg_wf s R.tjWest (word w) h
  have readW : (s.sampled w e p).reg R.tjWest = word w := by
    rw [State.sampled, State.setReg_reg_ne _ _ _ _ (by decide), State.setReg_reg_ne _ _ _ _ (by decide), State.setReg_reg_self _ _ _ h]
  have readE : (s.sampled w e p).reg R.tjEast = word e := by
    rw [State.sampled, State.setReg_reg_ne _ _ _ _ (by decide), State.setReg_reg_self _ _ _ west]
  exact ⟨(congrArg (bits · 0 8) readW).trans (bits_word hw (by decide)), (congrArg (bits · 0 8) readE).trans (bits_word he (by decide))⟩

theorem State.sampled_resumeC : (s.sampled w e p).resumeC = bits (s.reg R.thermCtrl) 8 8 :=
  State.field_congr ((State.setReg_reg_ne _ _ _ _ (by decide)).trans ((State.setReg_reg_ne _ _ _ _ (by decide)).trans (State.setReg_reg_ne _ _ _ _ (by decide))))

end Sample

section Thermal

variable {s : State}

theorem State.thermal_of_cool (h : ∀ h < 2, s.tj h < s.throttleC) : s.thermal = s := by
  have hot : ([0, 1].filter fun h => decide (s.throttleC ≤ s.tj h)) = [] := by simp [h 0 (by decide), h 1 (by decide)]
  unfold State.thermal
  rw [hot]

theorem State.thermal_of_hot (h : ∀ h < 2, s.throttleC ≤ s.tj h) : s.thermal = s.lower [0, 1] false 1 := by
  have hot : ([0, 1].filter fun h => decide (s.throttleC ≤ s.tj h)) = [0, 1] := by simp [h 0 (by decide), h 1 (by decide)]
  unfold State.thermal
  rw [hot]
  exact ite_self _

/-- R510: the decision when one half is hot: alone in Strait-split mode, or where it may enter it; otherwise both halves together. -/
theorem State.thermal_of_half {h k : Nat} (hk : (h, k) ∈ [(0, 1), (1, 0)]) (hot : s.throttleC ≤ s.tj h) (cool : s.tj k < s.throttleC) : s.thermal =
    if s.profView.split then s.lower [h] false 1 else if s.maySplit h then s.lower [h] true 1 else s.lower [0, 1] false 1 := by
  have only : ([0, 1].filter fun h => decide (s.throttleC ≤ s.tj h)) = [h] := by
    simp only [List.mem_cons, Prod.mk.injEq, List.not_mem_nil, or_false] at hk
    rcases hk with ⟨rfl, rfl⟩ | ⟨rfl, rfl⟩ <;> simp [hot, cool]
  unfold State.thermal
  rw [only]

theorem State.crossAfter_eq_false_iff {b : Nat} : s.crossAfter b = false ↔ ∀ i ∈ s.images, i.crossStrait = true → i.reaches b = false := by
  simp [State.crossAfter]

theorem State.maySplit_iff {h k : Nat} (hk : (h, k) ∈ [(0, 1), (1, 0)]) : s.maySplit h = true ↔
    s.tj k ≤ bits (s.reg R.thermCtrl) 8 8 ∧ s.profView.effW = s.profView.effE ∧ neap < s.profView.effW ∧
      (bits (s.reg R.thermCtrl) 16 2 = 2 ∨ bits (s.reg R.thermCtrl) 16 2 = 1
        ∧ ∀ i ∈ s.images, i.crossStrait = true → i.reaches (s.forcedKey.getD s.nextStep3) = false) := by
  have other : 1 - h = k := by
    simp only [List.mem_cons, Prod.mk.injEq, List.not_mem_nil, or_false] at hk
    omega
  rw [← State.crossAfter_eq_false_iff]
  simp only [State.maySplit, State.resumeC, State.field, other, Bool.and_eq_true, Bool.or_eq_true, decide_eq_true_eq, beq_iff_eq, Bool.not_eq_true', and_assoc]

/-! ### Throttle decisions (R506, R509) -/

theorem State.lower_of_none {hs : List Nat} {split : Bool} {cause : Nat} (h : s.lowerable hs = []) : s.lower hs split cause = s := by
  unfold State.lower
  rw [h]
  rfl

theorem State.lower_of_some {hs : List Nat} {split : Bool} {cause : Nat} (h : s.lowerable hs ≠ []) {d : Nat → Int}
    (hd : ∀ h, d h = if h ∈ s.lowerable hs then -1 else 0) : s.lower hs split cause =
    { s with pwr := { s.pwr with forced := s.pwr.forced ++ [ProfForced.mk s.forcedKey (d 0) (d 1) split cause] } }.syncProf := by
  have some : ¬ (s.lowerable hs).isEmpty = true := by simpa using h
  unfold State.lower
  dsimp only
  rw [if_neg some, hd 0, hd 1]
  simp only [List.contains_iff_mem]

end Thermal

/-! ### Package power (R600 to R602) -/

section Power

variable (s : State) (xs : List Nat) (v : Word)

/-- The samples of a poll are kept, and the register shows an average. -/
def State.showPower : State := { s with pwr := { s.pwr with samples := xs } }.setReg R.pkgPower v

theorem State.showPower_reg {k : Nat} (h : k ≠ R.pkgPower) : (s.showPower xs v).reg k = s.reg k := State.setReg_reg_ne _ _ _ _ h

theorem State.showPower_window : (s.showPower xs v).window_ = xs.take (bits (s.reg R.pwrCtrl) 0 8) :=
  congrArg (fun w : Word => xs.take (bits w 0 8)) (s.showPower_reg xs v (by decide))

theorem State.profView_congr {s t : State} (h : t.reg R.profState = s.reg R.profState) : t.profView = s.profView := by
  simp only [State.profView, State.field, h]

theorem State.showPower_raisedLimit (h : Nat) : (s.showPower xs v).raisedLimit h = s.raisedLimit h := by
  have view := State.profView_congr (s.showPower_reg xs v (k := R.profState) (by decide))
  simp only [State.raisedLimit, view]
  rfl

theorem since_not_above (limit pct now : Nat) (ys : List Nat) (was : Option Nat) :
    since (!decide (limit * 10000 * pct * ys.length < 100 * ys.sum)) now was = if ys.sum * 100 ≤ limit * 10000 * pct * ys.length then some (was.getD now) else none := by
  simp only [since, Bool.not_eq_true', decide_eq_false_iff_not, Nat.not_lt, Nat.mul_comm ys.sum]

/-- The state after a poll: its sample, the average shown, and for each half how long the power has been calm. -/
def State.polled (ys : List Nat) : State :=
  { s.setReg R.pkgPower (word (min 0xFFFF (ys.sum / ys.length / 10000))) with pwr := { s.pwr with
      samples := xs, calm := [0, 1].map fun h => if ys.sum * 100 ≤ s.raisedLimit h * 10000 * bits (s.reg R.pwrCtrl) 8 8 * ys.length
                                         then some ((s.pwr.calm.getD h none).getD s.beat.toNat) else none } }

variable {s xs} {ys : List Nat}

theorem State.polled_eq {t : State} (hys : ys = xs.take (bits (s.reg R.pwrCtrl) 0 8)) (ht : t = s.showPower xs (word (min 0xFFFF (ys.sum / ys.length / 10000)))) :
    { t with pwr := { t.pwr with calm := [0, 1].map fun h => since (!t.powerAbove (t.raisedLimit h) (t.field R.pwrCtrl 8 8)) t.beat.toNat (t.pwr.calm.getD h none) } }
      = s.polled xs ys := by
  have window : t.window_ = ys := by rw [ht, State.showPower_window, ← hys]
  have pct : t.field R.pwrCtrl 8 8 = bits (s.reg R.pwrCtrl) 8 8 := by rw [ht]; exact State.field_congr (State.showPower_reg _ _ _ (by decide))
  have raised (h : Nat) : t.raisedLimit h = s.raisedLimit h := by rw [ht, State.showPower_raisedLimit]
  simp only [State.powerAbove, window, pct, raised, since_not_above]
  subst ht
  rfl

theorem State.polled_window (hys : ys = xs.take (bits (s.reg R.pwrCtrl) 0 8)) : (s.polled xs ys).window_ = ys :=
  (s.showPower_window xs _).trans hys.symm

theorem exec_pmbusPoll {reads : List (Option Nat)} (hrun : s.enm.running = true) (hxs : xs = (s.powerSample reads :: s.pwr.samples).take 100)
    (hys : ys = xs.take (bits (s.reg R.pwrCtrl) 0 8)) {u : State} (hu : u = s.polled xs ys) : exec (.pmbusPoll reads) s =
    .next (if profLimit s.part.fast u.profView.higher * 10000 * 100 * ys.length < 100 * ys.sum then
      (if u.lowerable [0, 1] = [] then u else (u.lower [0, 1] false 2).orReg R.clkStatus 0x20) else u) := by
  have window : u.window_ = ys := hu ▸ State.polled_window hys
  have poll : exec (.pmbusPoll reads) s = .next (if u.powerAbove (profLimit s.part.fast u.profView.higher) 100 then
      (if (u.lowerable [0, 1]).isEmpty then u.lower [0, 1] false 2 else (u.lower [0, 1] false 2).orReg R.clkStatus 0x20) else u) := by
    rw [hu, ← State.polled_eq hys rfl]
    subst hxs hys
    exact congrArg _ (if_neg (by simp [hrun]))
  rw [poll]
  simp only [State.powerAbove, window, decide_eq_true_eq, List.isEmpty_iff]
  congr 2
  split
  · exact State.lower_of_none ‹_›
  · rfl

end Power

/-! ### Ceiling rises (R511) -/

/-- The conditions of R511 as the statement lists them. -/
theorem State.mayRise_eq (s : State) (h : Fin 2) {ago : Nat → Bool} (hago : ∀ t, ago t = decide (t + 250000000 ≤ s.beat.toNat)) : s.mayRise h =
    (decide ((if h = 0 then s.profView.capW else s.profView.capE) < 2) && (s.pwr.cool.getD h none).any ago && (s.pwr.calm.getD h none).any ago
      && s.pwr.lastMargin.all ago && (s.pwr.lastRise.getD h none).all ago && !(s.pwr.forced.any fun f => decide (0 < if h = 0 then f.dW else f.dE))) := by
  have long : s.longAgo = ago := funext fun t => (hago t).symm
  simp only [State.mayRise, long, ProfView.cap, ProfForced.of, Fin.val_eq_zero_iff]

/-! ### Thermal trip (R513, R606) -/

/-- The state of a tripped device, before the trip is logged. -/
def State.trippedState (s : State) : State :=
  let g := (List.range 20).foldl State.gate s
  { g with rst := { s.rst with tripped := true }, job := { s.job with lost := true }, tide := { s.tide with issueStop := true } }

theorem State.trip_eq (s : State) (sensor reading : Nat) : s.trip sensor reading = s.trippedState.logKept (srcOf 0x01 0) 0x2B (leBytes 1 sensor ++ leBytes 1 reading) := by
  obtain ⟨rs, only⟩ := s.gates_only (List.range 20)
  simp only [State.trip, State.trippedState, only]

theorem State.trippedState_kept (s : State) : s.trippedState.kept = s.kept := by
  obtain ⟨rs, only⟩ := s.gates_only (List.range 20)
  simp only [State.trippedState, only]

theorem State.trippedState_log (s : State) : s.trippedState.log = s.log := by
  obtain ⟨rs, only⟩ := s.gates_only (List.range 20)
  simp only [State.trippedState, only]

/-- Settles O58, event by event. -/
theorem thermalAndPowerAct : Obligations.ThermalAndPowerAct := by
  unfold Obligations.ThermalAndPowerAct
  intro s
  refine ⟨fun temps soft struck s0 hs0 => ⟨fun h => ?noSample, fun w e u hon htrip hw he hu hwf => ?sample⟩,
    fun limit hlimit => ⟨fun h => ?cool, fun h => ?hot, fun h k hk hot cool => ?half⟩,
    fun hs ls split cause key d hkey hls hd => ?lower,
    fun reads => ⟨fun h => ?noPoll, fun xs ys u hrun hwf hxs hys hu => ?poll⟩,
    fun h ago hago rises hrises => ?rise,
    fun k b => ⟨fun h => ?noTrip, fun g u e hon htrip hb hg hu he => ⟨?trip, fun hwf r hr => ?gated⟩⟩,
    fun a => ⟨fun st h => ?noRegulator, fun w h => ?answered, fun h => ?silent⟩⟩
  case noSample =>
    subst hs0
    exact congrArg _ (if_pos (by rcases h with h | h <;> simp [h]))
  case sample =>
    have sampled : u = s0.sampled w e (max (s.reg R.tjPeak).toNat (max w e)) := hu
    have wf : Sparse.wf regReset s0.regs = true := by rw [hs0]; exact regsWf_of_canonical hwf
    obtain ⟨west, east⟩ := State.sampled_tj (p := max (s.reg R.tjPeak).toNat (max w e)) wf (hw ▸ highest_lt temps 0) (he ▸ highest_lt temps 1)
    rw [← sampled] at west east
    have resume : u.resumeC = bits (s.reg R.thermCtrl) 8 8 := by rw [sampled, State.sampled_resumeC, hs0]; rfl
    have sample : exec (.junctionSample ⟨temps, soft, struck⟩) s = .next ({ u with pwr := { u.pwr with
        cool := [0, 1].map fun h => since (decide (u.tj h ≤ u.resumeC)) u.beat.toNat (u.pwr.cool.getD h none) } }.thermal) := by
      rw [sampled, hs0, hw, he]
      exact congrArg _ (if_neg (by simp [hon, htrip]))
    refine ⟨_, sample, ?_⟩
    have same : u.pwr = s.pwr ∧ u.beat = s.beat := by rw [sampled, hs0]; exact ⟨rfl, rfl⟩
    simp only [List.map_cons, List.map_nil, since, west, east, resume, same, decide_eq_true_eq]
  case cool =>
    subst hlimit
    exact State.thermal_of_cool h
  case hot =>
    subst hlimit
    exact State.thermal_of_hot h
  case half =>
    subst hlimit
    have decision := State.thermal_of_half hk hot cool
    refine ⟨fun hsplit => decision.trans (if_pos hsplit), fun hsplit => ⟨fun hcool heff hneap hmode => ?alone, fun hfail => ?both⟩⟩
    case alone => rw [decision, if_neg (by simp [hsplit]), if_pos ((State.maySplit_iff hk).2 ⟨hcool, heff, hneap, hmode⟩)]
    case both =>
      have may : ¬ s.maySplit h = true := by
        rw [State.maySplit_iff hk]
        rintro ⟨hcool, heff, hneap, hmode⟩
        rcases hfail with h | h | h | h | ⟨h, i, hi, hcross, hreach⟩
        · omega
        · exact h heff
        · omega
        · omega
        · rcases hmode with hmode | ⟨-, hmode⟩
          · omega
          · simp [hmode i hi hcross] at hreach
      rw [decision, if_neg (by simp [hsplit]), if_neg may]
  case lower =>
    subst hkey
    have free : s.lowerable hs = ls := hls.symm
    subst free
    exact ⟨State.lower_of_none, fun h => State.lower_of_some h hd, rfl⟩
  case noPoll => exact congrArg _ (if_pos (by simp [h]))
  case poll => exact exec_pmbusPoll hrun hxs hys hu
  case rise =>
    rw [← s.mayRise_eq h hago] at hrises
    subst hrises
    refine ⟨fun h => congrArg _ (if_neg (by simp [h])), fun key t hmay hkey ht => ?_⟩
    subst hkey ht
    refine (congrArg _ (if_pos hmay)).trans ?_
    simp only [State.rise, Fin.val_eq_zero_iff]
  case noTrip => exact congrArg _ (if_neg (by rcases h with h | h | h <;> simp [h, Nat.not_le.2]))
  case trip =>
    have tripped : u = s.trippedState := by rw [hu, hg]; rfl
    have kept : u.kept = s.kept := tripped ▸ s.trippedState_kept
    have log : u.log = s.log := tripped ▸ s.trippedState_log
    refine (congrArg _ (if_pos (by simp [hon, htrip, hb]))).trans (congrArg _ ?_)
    rw [s.trip_eq, ← tripped, he, ← kept, ← log]
    rfl
  case gated =>
    rw [hg]
    exact (s.gates_regionMode 20 r (regsWf_of_canonical hwf)).trans (if_pos hr)
  case noRegulator => exact congrArg _ (if_pos (by simp [h]))
  case answered => exact congrArg _ (if_neg (by simp [h]))
  case silent => exact congrArg _ (if_neg (by simp [h]))

end Sys2Proof.Machine
end

section
/-!
O59: reset and the release of clock domains.
-/
namespace Sys2Proof.Machine

/-- A device out of reset whose spare slot serves a core that bay 0 does not have: slot 16 of bay 0 is counted as slot 0 of bay 1. -/
def straySpare : State :=
  { State.reset with kept := { State.reset.kept with spareSlotOf := [(0, 16)] }, rst := { State.reset.rst with asserted := false } }

/-- The registers that a pin reset keeps are those of these writes, the last for the slots that spares serve. -/
theorem State.keptRegs_of_spare (s : State) {b c : Nat} (h : s.kept.spareSlotOf = [(b, c)]) :
    ∃ t : State, Sparse.wf regReset t.regs = true ∧ s.keptRegs = (t.setReg (R.portSlot (16 * b + c)) 16).regs := by
  unfold State.keptRegs
  rw [h]
  refine ⟨_, ?_, rfl⟩
  refine List.foldlRecOn (motive := fun t : State => Sparse.wf regReset t.regs = true) _ _
    (List.foldlRecOn (motive := fun t : State => Sparse.wf regReset t.regs = true) _ _ rfl fun t wf n _ => ?row) fun t wf k _ => ?stack
  case row => exact State.setField_wf _ _ _ _ _ (State.setField_wf _ _ _ _ _ wf)
  case stack =>
    split
    · exact State.setField_wf _ _ _ _ _ (State.setReg_wf _ _ _ wf)
    · exact wf

theorem State.pinReset_reg (s : State) {t : State} (h : s.keptRegs = t.regs) {k : Nat} (hk : k ≠ R.resetCause) : s.pinReset.reg k = t.reg k :=
  (State.setReg_reg_ne _ _ _ _ hk).trans (State.reg_congr h k)

/-- The pin reset leaves the slot of bay 1 mapped to spare slot 16. -/
theorem straySpare_reset : straySpare.pinReset.reg (R.portSlot 16) = 16 := by
  obtain ⟨t, wf, kept⟩ := straySpare.keptRegs_of_spare (b := 0) (c := 16) rfl
  exact (straySpare.pinReset_reg kept (by decide)).trans (State.setReg_reg_self _ _ _ wf)

/-- Refutes O59: a pin reset keeps PORT_SLOT of each core that a spare slot serves by its number 16 b + c, and the statement speaks of the pair (b, c) in any state.
In the counterexample the spare map holds the pair (0, 16), of a core that no bay has and no command records: its number is that of core 0 of bay 1, which the pin
reset then maps to slot 16 though its own pair is not in the spare map. -/
theorem not_resetsAct : ¬ Obligations.ResetsAct := by
  unfold Obligations.ResetsAct
  intro h
  obtain ⟨-, ⟨t, reset, -, keeps⟩, -⟩ := h straySpare
  have pin : exec .resetNAssert straySpare = .next straySpare.pinReset := rfl
  have same : straySpare.pinReset = t := Host.Outcome.next.inj (pin.symm.trans (reset rfl))
  obtain ⟨-, -, -, -, slots⟩ := keeps rfl
  have slot := slots 1 (by decide) 0 (by decide)
  rw [← same, straySpare_reset, if_neg (by decide)] at slot
  exact absurd slot (by decide)

end Sys2Proof.Machine
end

section
/-!
O60: the stages of boot, Sleep and the Lysholt ports.
-/
namespace Sys2Proof.Machine

/-! ### Stages (R438, R452, R540 to R550) -/

section Stages

variable (s : State)

theorem State.orReg_reg_ne (k j m : Nat) (h : j ≠ k) : (s.orReg k m).reg j = s.reg j := State.setReg_reg_ne s k j _ h

theorem State.allReleased_iff : s.allReleased = true ↔ ∀ r < 40, s.regionMode r ≠ 3 := by simp [State.allReleased]

theorem State.wakeReleased_iff : s.wakeReleased = true ↔ ∀ r < 38, s.regionMode r ≠ 3 ∨ s.domainFailed r = true := by
  simp [State.wakeReleased]

variable {s}

theorem State.bootStop_shows {k : Nat} (h : Sparse.wf regReset s.regs = true) (hk : k < 16) :
    (s.bootStop k).bootStage = 15 ∧ bits ((s.bootStop k).reg R.bootState) 4 4 = k := by
  have stage := State.setField_wf s R.bootState 0 4 0xF h
  have shown : (s.bootStop k).reg R.bootState = setBits (setBits (s.reg R.bootState) 0 4 0xF) 4 4 k := by
    rw [State.bootStop, State.setField_reg_self stage, State.setField_reg_self h]
  constructor
  · rw [State.bootStage, State.field, shown, bits_setBits_disjoint _ _ (by decide) (by decide), bits_setBits_self _ _ (by decide)]
    rfl
  · rw [shown, bits_setBits_self _ _ (by decide)]
    exact Nat.mod_eq_of_lt hk

/-! ### Trained memory (R438, R452) -/

theorem State.hbmTrained_wf (h : Sparse.wf regReset s.regs = true) : Sparse.wf regReset s.hbmTrained.regs = true :=
  State.setReg_wf _ _ _ (List.foldlRecOn (motive := fun t : State => Sparse.wf regReset t.regs = true) _ _ h
    fun _ wf _ _ => State.setField_wf _ _ _ _ _ (State.setField_wf _ _ _ _ _ wf))

theorem State.hbmTrained_capacity (h : Sparse.wf regReset s.regs = true) :
    s.hbmTrained.reg R.hbmCapacity = word (if s.part.high12 then 387072 else 516096) := by
  have wf := List.foldlRecOn (motive := fun t : State => Sparse.wf regReset t.regs = true) (List.range 8)
    (fun (s : State) k => (s.setField (R.hbmState k) 0 4 4).setField (R.hbmState k) 4 1 (b2n (!s.part.high12))) h
    fun _ wf _ _ => State.setField_wf _ _ _ _ _ (State.setField_wf _ _ _ _ _ wf)
  have part := foldl_view_const (V := fun t : State => t.part) (l := List.range 8)
    (f := fun (s : State) k => (s.setField (R.hbmState k) 0 4 4).setField (R.hbmState k) 4 1 (b2n (!s.part.high12))) (fun _ _ _ => rfl) s
  unfold State.hbmTrained
  dsimp only
  rw [State.setReg_reg_self _ _ _ wf, part]

/-- The channels' states, as the fill leaves them. -/
def State.ddrShown (s : State) (ds : List (Option Dimm)) : State :=
  (List.range 8).foldl (fun s c => s.setReg (R.ddrState c) (word (ddrState (if fillOk ds then fillRate ds else 7) (ds.getD c none)))) s

theorem State.ddrShown_wf (ds : List (Option Dimm)) (h : Sparse.wf regReset s.regs = true) : Sparse.wf regReset (s.ddrShown ds).regs = true :=
  List.foldlRecOn (motive := fun t : State => Sparse.wf regReset t.regs = true) _ _ h fun _ wf _ _ => State.setReg_wf _ _ _ wf

theorem State.ddrShown_hbmCapacity (ds : List (Option Dimm)) : (s.ddrShown ds).reg R.hbmCapacity = s.reg R.hbmCapacity :=
  foldl_view_const (V := fun t : State => t.reg R.hbmCapacity) (fun t c hc => State.setReg_reg_ne _ _ _ _ (by
    have := List.mem_range.1 hc
    simp only [blk]
    omega)) s

theorem State.ddrTrained_eq (ds : List (Option Dimm)) : s.ddrTrained ds =
    if fillOk ds then (s.ddrShown ds).setReg R.ddrCapacity (word (8 * ((ds.head?.join.map Dimm.mib).getD 0)))
    else ((s.ddrShown ds).setReg R.ddrCapacity 0).orReg R.memStatus 8 := rfl

theorem State.ddrTrained_wf (ds : List (Option Dimm)) (h : Sparse.wf regReset s.regs = true) : Sparse.wf regReset (s.ddrTrained ds).regs = true := by
  have shown := s.ddrShown_wf ds h
  rw [State.ddrTrained_eq]
  split
  · exact State.setReg_wf _ _ _ shown
  · exact State.setReg_wf _ _ _ (State.setReg_wf _ _ _ shown)

theorem State.ddrTrained_hbmCapacity (ds : List (Option Dimm)) : (s.ddrTrained ds).reg R.hbmCapacity = s.reg R.hbmCapacity := by
  rw [State.ddrTrained_eq]
  split
  · exact (State.setReg_reg_ne _ _ _ _ (by decide)).trans (s.ddrShown_hbmCapacity ds)
  · exact (State.orReg_reg_ne _ _ _ _ (by decide)).trans ((State.setReg_reg_ne _ _ _ _ (by decide)).trans (s.ddrShown_hbmCapacity ds))

theorem State.ddrTrained_ddrCapacity {ds : List (Option Dimm)} (h : Sparse.wf regReset s.regs = true) (hfill : fillOk ds = false) :
    (s.ddrTrained ds).reg R.ddrCapacity = 0 := by
  rw [State.ddrTrained_eq, if_neg (by simp [hfill]), State.orReg_reg_ne _ _ _ _ (by decide), State.setReg_reg_self _ _ _ (s.ddrShown_wf ds h)]

theorem State.execMemoryTrained_of_stage (h : s.bootStage = 8) (hbm : Bool) (ds : List (Option Dimm)) (us : Word) :
    execMemoryTrained hbm ds us s = .next (if hbm then (s.hbmTrained.ddrTrained ds).ready us else s.bootStop 8) := by
  unfold execMemoryTrained
  rw [if_neg (not_not.2 h)]
  cases hbm <;> rfl

/-! ### READY (R549) -/

theorem State.gates_reg {k : Nat} (h : ∀ r < 20, k ≠ R.regionState r) : ((List.range 20).foldl State.gate s).reg k = s.reg k :=
  foldl_view_const (V := fun t : State => t.reg k) (fun t r hr => by
    unfold State.gate
    split
    · exact State.setField_reg_ne (h r (List.mem_range.1 hr))
    · rfl) s

theorem State.ready_regs (us : Word) : (s.ready us).regs = ((List.range 20).foldl State.gate ((s.setField R.bootState 0 4 9).setReg R.bootTimeUs us)).regs :=
  (State.reportSpared_frame (ω := 0x200218000) rfl (Frame.refl _)).regs rfl

theorem State.ready_reg {us : Word} {k : Nat} (hregion : ∀ r < 20, k ≠ R.regionState r) (hk : k ≠ R.bootTimeUs) (hb : k ≠ R.bootState) :
    (s.ready us).reg k = s.reg k :=
  (State.reg_congr (s.ready_regs us) k).trans ((State.gates_reg hregion).trans ((State.setReg_reg_ne _ _ _ _ hk).trans (State.setField_reg_ne hb)))

theorem State.ready_shows (us : Word) (h : Sparse.wf regReset s.regs = true) :
    (s.ready us).bootStage = 9 ∧ (s.ready us).reg R.bootTimeUs = us ∧ ∀ r < 20, (s.ready us).regionMode r ≠ 0 := by
  have staged := State.setField_wf s R.bootState 0 4 9 h
  have timed := State.setReg_wf _ R.bootTimeUs us staged
  have stage : (s.ready us).reg R.bootState = setBits (s.reg R.bootState) 0 4 9 := by
    rw [State.reg_congr (s.ready_regs us), State.gates_reg (fun r _ => by simp only [blk]; omega), State.setReg_reg_ne _ _ _ _ (by decide),
      State.setField_reg_self h]
  refine ⟨?_, ?_, fun r hr => ?_⟩
  · rw [State.bootStage, State.field, stage, bits_setBits_self _ _ (by decide)]
    rfl
  · rw [State.reg_congr (s.ready_regs us), State.gates_reg (fun r _ => by simp only [blk]; omega), State.setReg_reg_self _ _ _ staged]
  · have mode := State.gates_regionMode _ 20 r timed
    rw [if_pos hr] at mode
    rw [State.regionMode, State.field_congr (State.reg_congr (s.ready_regs us) _), ← State.regionMode, mode]
    split
    · decide
    · assumption

end Stages

/-! ### A later self-test (R576) -/

theorem State.lighthouseFail_eq {s c u : State} {test : Nat}
    (hc : c = ((s.closeSessions (List.range 8) 7).cutReports.withdrawAll.cancelRunAheads fun _ => true))
    (hu : u = { c with tide := { c.tide with issueStop := true }, job := { c.job with lost := true }, lys := { c.lys with error := true } }) :
    s.lighthouseFail test = u.logKept (srcOf 0x02 0) 0x2C (leBytes 1 test) := by
  rw [hu, hc]
  simp only [State.lighthouseFail, State.stopAsLost, State.stopIssue]

/-! ### Sleep and waking (R518, R519) -/

section Sleep

variable (s : State)

theorem State.regionMode_congr {s t : State} (h : t.regs = s.regs) (r : Nat) : t.regionMode r = s.regionMode r := State.field_congr (State.reg_congr h _)

/-- The regions outside the array, off. -/
def State.regionsOff : State := (List.range 18).foldl (fun s r => s.setRegionMode (20 + r) 2) s

theorem State.regionsOff_regionMode {r : Nat} (h : Sparse.wf regReset s.regs = true) (hr : r < 38) :
    s.regionsOff.regionMode r = if r < 20 then s.regionMode r else 2 := by
  split
  next low => exact foldl_view_const (V := fun t : State => t.regionMode r) (fun t i _ => t.setRegionMode_regionMode_ne (by omega)) s
  next high =>
    have modes := foldl_view (P := fun s : State => Sparse.wf regReset s.regs = true) (V := fun i s => s.regionMode (20 + i))
      (f := fun s i => s.setRegionMode (20 + i) 2) (g := fun _ _ => 2) (l := List.range 18) (fun s i h => State.setField_wf _ _ _ _ _ h)
      (fun s i h => s.setRegionMode_regionMode_self h (by decide)) (fun s i j _ hj => s.setRegionMode_regionMode_ne (by omega)) List.nodup_range h (r - 20)
    rw [if_pos (List.mem_range.2 (by omega)), show 20 + (r - 20) = r by omega] at modes
    exact modes

theorem State.sleepEntryDone_of_entering (h : s.pwr.entering = true) :
    execSleepEntryDone s = .next { s.regionsOff with pwr := { s.regionsOff.pwr with entering := false, sleep := true } } := by
  unfold execSleepEntryDone
  rw [if_pos h]
  rfl

/-- A state that differs in registers, once it is asleep. -/
theorem State.asleep_of_regs {s t : State} {o : Outcome} {mode : Nat → Nat} (ho : o = .next { t with pwr := { t.pwr with entering := false, sleep := true } })
    (only : t = { s with regs := t.regs }) (modes : Safety.canonical s = true → ∀ r < 38, t.regionMode r = mode r) : ∃ t : State, o = .next t
      ∧ t = { s with regs := t.regs, pwr := { s.pwr with entering := false, sleep := true } } ∧ (Safety.canonical s = true → ∀ r < 38, t.regionMode r = mode r) :=
  ⟨_, ho, by rw [only], fun hwf r hr => (State.regionMode_congr rfl r).trans (modes hwf r hr)⟩

theorem State.regionsOff_only : s.regionsOff = { s with regs := s.regionsOff.regs } := by
  obtain ⟨rs, only⟩ := foldl_regs_only (f := fun (s : State) r => s.setRegionMode (20 + r) 2) (fun _ _ => ⟨_, rfl⟩) (List.range 18) s
  have same : s.regionsOff = { s with regs := rs } := only
  rw [same]

/-- What WAKE_DONE makes of the state. -/
def State.wakes : State :=
  match s.pwr.waking with
  | some (mb, tag) => if s.asleep && s.wakeReleased then s.wake mb tag else s
  | none => s

theorem State.wakes_of_other (h : s.pwr.waking = none ∨ s.asleep = false ∨ s.wakeReleased = false) : s.wakes = s := by
  unfold State.wakes
  cases hw : s.pwr.waking with
  | none => rfl
  | some w =>
    refine if_neg ?_
    rcases h with h | h | h
    · exact absurd (hw.symm.trans h) (by simp)
    · simp [h]
    · simp [h]

theorem State.wakes_of_released {mb : Nat} {tag : Half} (hw : s.pwr.waking = some (mb, tag)) (ha : s.asleep = true) (hrel : s.wakeReleased = true) :
    s.wakes = s.wake mb tag := by
  unfold State.wakes
  rw [hw]
  exact if_pos (by simp [ha, hrel])

theorem State.wake_eq {mb : Nat} {tag : Half} {u : State} (hu : u = ((List.range 20).foldl State.gate s).centre fun _ => true) : s.wake mb tag = { u with
    pwr := { u.pwr with sleep := false, waking := none, retain := false }
    memc := { u.memc with pcCe := [], pcUe := [], pcFailed := [], sliceCe := [], sliceFailed := [] } }.respond mb 0x0107 tag .ok := by
  rw [hu]
  rfl

end Sleep

/-- Settles O60, event by event. -/
theorem bootAndPortsAct : Obligations.BootAndPortsAct := by
  unfold Obligations.BootAndPortsAct
  intro s
  refine ⟨fun ok => ⟨fun h => ?noSelftest, fun h => ⟨fun hok => ?selftestFails, fun hok htest => ?testMode, fun u hok hboot hu => ?fetch⟩⟩,
    fun h hrel => ?enmora, fun h => ?enmoraWaits,
    fun hbm ds us => ⟨fun h => ?noTraining, fun h => ?untrained, fun h => ?trained, fun hwf => ?ready⟩,
    fun k hwf hk => State.bootStop_shows (regsWf_of_canonical hwf) hk,
    fun p => ⟨fun h => ?noAcquire, fun h hr => ?acquired, fun h hr => ?locked, fun h => ?aligned, fun h => ?noAlign, fun h => ?notUp, fun down hdown h => ?down⟩,
    fun test => ⟨fun h => ?noError, fun c u e hstage herr hstop hc hu he => ?error⟩,
    fun h => ?noEntry, fun h => ?entry, fun h => ?noWake, fun mb tag u hw ha hrel hu => ?wake⟩
  case noSelftest => exact congrArg _ (if_pos h)
  case selftestFails => exact congrArg _ ((if_neg (not_not.2 h)).trans (if_pos (by simp [hok])))
  case testMode => exact congrArg _ ((if_neg (not_not.2 h)).trans ((if_neg (by simp [hok])).trans (if_pos htest)))
  case fetch =>
    subst hu
    exact congrArg _ ((if_neg (not_not.2 h)).trans ((if_neg (by simp [hok])).trans (if_neg hboot)))
  case enmora => exact congrArg _ (if_pos ⟨h, s.allReleased_iff.2 hrel⟩)
  case enmoraWaits =>
    refine congrArg _ (if_neg fun ⟨hs, hall⟩ => ?_)
    rcases h with h | ⟨r, hr, h⟩
    · exact h hs
    · exact s.allReleased_iff.1 hall r hr h
  case noTraining => exact congrArg _ (if_pos h)
  case untrained => exact State.execMemoryTrained_of_stage h false ds us
  case trained => exact State.execMemoryTrained_of_stage h true ds us
  case ready =>
    have wf := State.hbmTrained_wf (regsWf_of_canonical hwf)
    obtain ⟨stage, time, modes⟩ := State.ready_shows us (s.hbmTrained.ddrTrained_wf ds wf)
    refine ⟨(s.hbmTrained.ddrTrained ds).ready us, rfl, stage, time, ?_, fun hfill => ?_, modes⟩
    · rw [State.ready_reg (fun r _ => by simp only [blk]; omega) (by decide) (by decide), State.ddrTrained_hbmCapacity,
        State.hbmTrained_capacity (regsWf_of_canonical hwf)]
    · rw [State.ready_reg (fun r _ => by simp only [blk]; omega) (by decide) (by decide), State.ddrTrained_ddrCapacity wf hfill]
  case noAcquire => exact congrArg _ (if_pos h)
  case acquired => exact congrArg _ ((if_neg (not_not.2 h)).trans (if_pos hr))
  case locked => exact congrArg _ ((if_neg (not_not.2 h)).trans (if_neg hr))
  case aligned => exact congrArg _ (if_pos h)
  case noAlign => exact congrArg _ (if_neg h)
  case notUp =>
    have down : ¬ s.portUp p = true := by simpa [State.portUp, State.field] using h
    exact ⟨congrArg _ (if_neg down), fun n => congrArg _ (if_neg down)⟩
  case down =>
    have up : s.portUp p = true := by simpa [State.portUp, State.field] using h
    have falls (t : State) : t.portDown p = down t := (hdown t).symm
    refine ⟨congrArg _ ((if_pos up).trans (falls s)), fun n => congrArg _ ((if_pos up).trans ?_)⟩
    rw [State.codewords, if_pos up]
    exact falls _
  case noError =>
    refine congrArg _ (if_neg ?_)
    rcases h with h | h | h
    · simp [Nat.not_le.2 h]
    · simp [h]
    · simp [h]
  case error =>
    subst he
    exact congrArg _ ((if_pos (by simp [hstage, herr, hstop])).trans (State.lighthouseFail_eq hc hu))
  case noEntry => exact congrArg _ (if_neg (by simp [h]))
  case entry =>
    exact State.asleep_of_regs (s.sleepEntryDone_of_entering h) s.regionsOff_only fun hwf _ => s.regionsOff_regionMode (regsWf_of_canonical hwf)
  case noWake => exact congrArg _ (s.wakes_of_other h)
  case wake => exact congrArg _ ((s.wakes_of_released hw ha (s.wakeReleased_iff.2 hrel)).trans (s.wake_eq hu))

end Sys2Proof.Machine
end

section
/-!
O2, O5: a beat, and the state after reset.
-/
namespace Sys2Proof.Machine
open Sys2Proof

theorem step_of_no_command {s : State} (h : s.pending = []) : step s = .next s.idle := by
  rw [step, h]

/-- Settles O2: without a command the step is `State.idle`, which counts a beat or does nothing. -/
theorem idleStepIsOneBeat : Obligations.IdleStepIsOneBeat := by
  unfold Obligations.IdleStepIsOneBeat
  intro s hpending
  rw [step_of_no_command hpending, State.idle]
  by_cases h : s.beatOn = true
  · rw [if_pos h, if_pos h]
  · rw [if_neg h, if_neg h]

/-- No handle of the image list after reset holds an image. -/
theorem image_reset (h : Nat) : State.reset.image h = {} := by
  rw [State.image, List.getD_eq_getElem?_getD, show State.reset.images = List.replicate 16 {} from rfl, List.getElem?_replicate]
  split <;> rfl

theorem session_reset (n : Nat) : State.reset.session n = none := by
  rw [State.session, show State.reset.lys.sessions = List.replicate 8 none from rfl, List.getElem?_replicate]
  split <;> rfl

/-- Settles O5: field by field; the images and the sessions are lists of free places. -/
theorem resetState : Obligations.ResetState := by
  unfold Obligations.ResetState
  exact ⟨by decide, rfl, fun k => rfl, rfl, rfl, rfl, rfl, rfl, rfl, rfl, rfl, fun h => by rw [image_reset]; rfl, rfl, rfl, session_reset, rfl, rfl, rfl⟩

end Sys2Proof.Machine
end
section
/-!
O10: the checks of Table 3.6 in their order, first as laws of any mailbox command, then for the opcodes one by one.
-/
namespace Sys2Proof.Machine
open Sys2Proof

section Checks

variable {c : Cmd} {r : Req} {s : State}

theorem Cmd.taken_of_begins (h : Safety.begins c.op r s = true) : c.taken r s = true := by
  simp only [Safety.begins, Bool.and_eq_true, Bool.not_eq_true'] at h
  obtain ⟨⟨hruns, htrip⟩, hbegin⟩ := h
  simp [Cmd.taken, hruns, htrip, hbegin]

/-- Only a command that a thermal trip leaves (R513) is taken where Enmora may not begin one. -/
theorem Cmd.not_taken_of_not_begins (h : Safety.begins c.op r s = false) (ht : c.inTrip = true → s.rst.tripped = false) : c.taken r s = false := by
  have hsame : (!s.rst.tripped || c.inTrip) = !s.rst.tripped := by
    cases hi : c.inTrip with
    | false => simp
    | true => simp [ht hi]
  rw [Cmd.taken, hsame]
  exact h

theorem Cmd.check_long (h : 240 < r.pay.length) : c.check s r = some St.length := by simp [Cmd.check, h]

theorem Cmd.check_length (h : c.len r.pay = false) : c.check s r = some St.length := by simp [Cmd.check, h]

theorem Cmd.check_privilege (hpay : r.pay.length ≤ 240) (hlen : c.len r.pay = true) (hexpert : c.expert = true) (hreq : s.expertReq r.mb = false) :
    c.check s r = some St.privilege := by simp [Cmd.check, Nat.not_lt.2 hpay, hlen, hexpert, hreq]

variable (hpay : r.pay.length ≤ 240) (hlen : c.len r.pay = true) (hexpert : c.expert = true → s.expertReq r.mb = true)
include hpay hlen hexpert

theorem Cmd.check_param (hparam : c.param s r = false) : c.check s r = some St.param := by
  have hpriv : (c.expert && !s.expertReq r.mb) = false := by cases hc : c.expert <;> simp_all
  simp [Cmd.check, Nat.not_lt.2 hpay, hlen, hpriv, hparam]

theorem Cmd.check_state (hparam : c.param s r = true)
    (h : s.servesFamily c.op = false ∨ s.asleep = true ∧ c.inSleep = false ∨ c.state s r = false) : c.check s r = some St.state := by
  have hpriv : (c.expert && !s.expertReq r.mb) = false := by cases hc : c.expert <;> simp_all
  have hstate : (!s.servesFamily c.op || (s.asleep && !c.inSleep) || !c.state s r) = true := by
    obtain h | ⟨h, h'⟩ | h := h <;> simp [*]
  simp [Cmd.check, Nat.not_lt.2 hpay, hlen, hpriv, hparam, hstate]

theorem Cmd.check_denied (hparam : c.param s r = true) (hfamily : s.servesFamily c.op = true) (hawake : s.asleep = false) (hstate : c.state s r = true)
    (hdenied : c.denied s r = true) : c.check s r = some St.denied := by
  have hpriv : (c.expert && !s.expertReq r.mb) = false := by cases hc : c.expert <;> simp_all
  simp [Cmd.check, Nat.not_lt.2 hpay, hlen, hpriv, hparam, hfamily, hawake, hstate, hdenied]

end Checks

/-- The dispatch has the row `f` serve the command `c` of opcode `op`. -/
structure ServesAs (f : Req → Instr) (op : Nat) (c : Cmd) : Prop where
  serve : ∀ r s, exec (f r) s = c.serve r s
  op : c.op = op

/-- A command that Enmora begins and that fails a check answers the STATUS and nothing else. -/
theorem ServesAs.refused {f : Req → Instr} {op st : Nat} {c : Cmd} {r : Req} {s : State} (hc : ServesAs f op c) (hb : Safety.begins op r s = true)
    (hcheck : c.check s r = some st) : exec (f r) s = .next (s.respond r.mb op r.tag ⟨st, []⟩) := by
  obtain ⟨hserve, rfl⟩ := hc
  rw [hserve, Cmd.serve_status (Cmd.taken_of_begins hb) hcheck]
  rfl

theorem ServesAs.waits {f : Req → Instr} {op : Nat} {c : Cmd} {r : Req} {s : State} (hc : ServesAs f op c) (hb : Safety.begins op r s = false)
    (ht : c.inTrip = true → s.rst.tripped = false) : exec (f r) s = .next s := by
  obtain ⟨hserve, rfl⟩ := hc
  rw [hserve, Cmd.serve_waits (Cmd.not_taken_of_not_begins hb ht)]

/-- Settles O10, check by check: of each list, the commands that its opcodes are served by and what that check is for them. -/
theorem commandChecksInOrder : Obligations.CommandChecksInOrder := by
  unfold Obligations.CommandChecksInOrder
  intro r s
  refine ⟨fun x hx => ?begin, fun x hx => ?fixedLength, fun x hx => ?ownLength, fun x hx => ?privilege, fun hb hlen hle hreq => ?writePrivilege,
    fun x hx => ?emptyState, fun hb hlen => ?routeLength, fun x hx => ?param, fun x hx => ?state, fun k h hlen hreq hlo hhi hres hk hblock => ?denied⟩
  case begin =>
    have row : ∃ c, ServesAs x.1 x.2 c ∧ c.inTrip = (x.2 == 0x0104) := by
      revert x
      simp only [List.cons_append, List.nil_append, List.forall_mem_cons, List.not_mem_nil, false_imp_iff, implies_true, and_true]
      and_intros
      all_goals exact ⟨_, ⟨fun _ _ => rfl, rfl⟩, rfl⟩
    obtain ⟨c, hc, htrip⟩ := row
    exact ⟨fun hb ht => hc.waits hb fun hi => ht (beq_iff_eq.1 (htrip ▸ hi)), fun hb hlong => hc.refused hb (Cmd.check_long hlong)⟩
  case fixedLength =>
    have row : ∃ c, ServesAs x.1 x.2.1 c ∧ c.len = lenIs x.2.2 := by
      revert x
      simp only [List.cons_append, List.nil_append, List.forall_mem_cons, List.not_mem_nil, false_imp_iff, implies_true, and_true]
      and_intros
      all_goals exact ⟨_, ⟨fun _ _ => rfl, rfl⟩, rfl⟩
    obtain ⟨c, hc, hl⟩ := row
    exact fun hb hne => hc.refused hb (Cmd.check_length (by rw [hl]; simpa [lenIs] using hne))
  case ownLength =>
    have row : ∃ c, ServesAs x.1 x.2.1 c ∧ (r.pay.length ≠ x.2.2 → c.len r.pay = false) := by
      revert x
      simp only [List.forall_mem_cons, List.not_mem_nil, false_imp_iff, implies_true, and_true]
      and_intros
      · exact ⟨cmdMemWrite, ⟨fun _ _ => rfl, rfl⟩, fun h => beq_eq_false_iff_ne.2 h⟩
      · exact ⟨cmdJobGroupForm, ⟨fun _ _ => rfl, rfl⟩, fun h => by simp only [cmdJobGroupForm, Bool.and_eq_false_iff]; exact .inr (beq_eq_false_iff_ne.2 h)⟩
      · exact ⟨cmdRestorePrepare, ⟨fun _ _ => rfl, rfl⟩, fun h => by simp only [cmdRestorePrepare, Bool.and_eq_false_iff]; exact .inr (beq_eq_false_iff_ne.2 h)⟩
      · exact ⟨cmdRegWrite, ⟨fun _ _ => rfl, rfl⟩, fun h => beq_eq_false_iff_ne.2 h⟩
    obtain ⟨c, hc, hl⟩ := row
    exact fun hb hne => hc.refused hb (Cmd.check_length (hl hne))
  case privilege =>
    have row : ∃ c, ServesAs x.1 x.2.1 c ∧ c.len = lenIs x.2.2 ∧ x.2.2 ≤ 240 ∧ c.expert = true := by
      revert x
      simp only [List.forall_mem_cons, List.not_mem_nil, false_imp_iff, implies_true, and_true]
      and_intros
      all_goals exact ⟨_, ⟨fun _ _ => rfl, rfl⟩, rfl, by decide, rfl⟩
    obtain ⟨c, hc, hl, hle, hx⟩ := row
    exact fun hb hlen hreq => hc.refused hb (Cmd.check_privilege (hlen ▸ hle) (by rw [hl, lenIs_iff, hlen]) hx hreq)
  case writePrivilege =>
    have hc : ServesAs .regWrite 0x0B02 cmdRegWrite := ⟨fun _ _ => rfl, rfl⟩
    exact hc.refused hb (Cmd.check_privilege hle (beq_iff_eq.2 hlen) rfl hreq)
  case emptyState =>
    have row : ∃ c, ServesAs x.1 x.2 c ∧ c.len = lenIs 0 ∧ c.expert = false ∧ c.inSleep = false ∧ c.param s r = true := by
      revert x
      simp only [List.forall_mem_cons, List.not_mem_nil, false_imp_iff, implies_true, and_true]
      and_intros
      all_goals exact ⟨_, ⟨fun _ _ => rfl, rfl⟩, rfl, rfl, rfl, rfl⟩
    obtain ⟨c, hc, hl, hx, hsleep, hparam⟩ := row
    refine fun hb hpay h => hc.refused hb (Cmd.check_state (by simp [hpay]) (by simp [hl, lenIs, hpay]) (by simp [hx]) hparam ?_)
    rw [hc.op]
    exact h.elim (fun h => .inr (.inl ⟨h, hsleep⟩)) .inl
  case routeLength =>
    have hc : ServesAs .jobRouteSet 0x0603 cmdJobRouteSet := ⟨fun _ _ => rfl, rfl⟩
    exact hc.refused hb (Cmd.check_length hlen)
  case param =>
    have row : ∃ c, ServesAs x.1 x.2.1 c ∧ c.len = lenIs x.2.2.1 ∧ x.2.2.1 ≤ 240 ∧
        (x.2.2.2 = true → c.param s r = false ∧ (c.expert = true → s.expertReq r.mb = true)) := by
      revert x
      simp only [List.forall_mem_cons, List.not_mem_nil, false_imp_iff, implies_true, and_true]
      and_intros
      · exact ⟨cmdTideDisarm, ⟨fun _ _ => rfl, rfl⟩, rfl, by decide, by simp [cmdTideDisarm]⟩
      · exact ⟨cmdTideUnload, ⟨fun _ _ => rfl, rfl⟩, rfl, by decide, by simp [cmdTideUnload]⟩
      · exact ⟨cmdProfSet, ⟨fun _ _ => rfl, rfl⟩, rfl, by decide, by simp +contextual [cmdProfSet]⟩
      · exact ⟨cmdMemWindowClose, ⟨fun _ _ => rfl, rfl⟩, rfl, by decide, by simp [cmdMemWindowClose]⟩
      · exact ⟨cmdMemRead, ⟨fun _ _ => rfl, rfl⟩, rfl, by decide, by simp [cmdMemRead, memRangeOk]; omega⟩
      · exact ⟨cmdLinkMargin, ⟨fun _ _ => rfl, rfl⟩, rfl, by decide, by simp [cmdLinkMargin]⟩
      · exact ⟨cmdSnapPolicy, ⟨fun _ _ => rfl, rfl⟩, rfl, by decide, by simp [cmdSnapPolicy]; omega⟩
      · exact ⟨cmdSnapInterval, ⟨fun _ _ => rfl, rfl⟩, rfl, by decide, by simp [cmdSnapInterval]⟩
      · exact ⟨cmdDevSleep, ⟨fun _ _ => rfl, rfl⟩, rfl, by decide, by simp [cmdDevSleep]; omega⟩
      · exact ⟨cmdRegRead, ⟨fun _ _ => rfl, rfl⟩, rfl, by decide, by simp +contextual [cmdRegRead, regReqOk]; omega⟩
    obtain ⟨c, hc, hl, hle, hbad⟩ := row
    exact fun hb hlen h => hc.refused hb (Cmd.check_param (hlen ▸ hle) (by rw [hl, lenIs_iff, hlen]) (hbad h).2 (hbad h).1)
  case state =>
    have row : ∃ c, ServesAs x.1 x.2.1 c ∧ c.len = lenIs x.2.2.1 ∧ x.2.2.1 ≤ 240 ∧ c.expert = false ∧ c.inSleep = false ∧ c.param s r = x.2.2.2 := by
      revert x
      simp only [List.forall_mem_cons, List.not_mem_nil, false_imp_iff, implies_true, and_true]
      and_intros
      all_goals exact ⟨_, ⟨fun _ _ => rfl, rfl⟩, rfl, by decide, rfl, rfl, rfl⟩
    obtain ⟨c, hc, hl, hle, hx, hsleep, hparam⟩ := row
    refine fun hb hlen hok h => hc.refused hb (Cmd.check_state (hlen ▸ hle) (by rw [hl, lenIs_iff, hlen]) (by simp [hx]) (hparam.trans hok) ?_)
    rw [hc.op]
    exact h.elim (fun h => .inr (.inl ⟨h, hsleep⟩)) .inl
  case denied =>
    have hc : ServesAs .regRead 0x0B01 cmdRegRead := ⟨fun _ _ => rfl, rfl⟩
    obtain ⟨⟨hruns, htrip, hbegin⟩, hfamily, hawake⟩ := (safetyReady_iff ..).1 h
    refine hc.refused (by simp [Safety.begins, hruns, htrip, hbegin]) (Cmd.check_denied (by omega) ((lenIs_iff ..).2 hlen) (fun _ => hreq) ?_ hfamily hawake rfl ?_)
    · simp [cmdRegRead, regReqOk, regReqKey, hk, hlo, hhi, hres]
    · simp [cmdRegRead, regReqDenied, regReqK, regReqKey, hk, hblock]

end Sys2Proof.Machine
end

section
/-!
Fields of a register of many units that a mask names, and the overrides of those units (R30, R112).
-/
namespace Sys2Proof.Machine

theorem mem_setBitsOf {n x i : Nat} : i ∈ setBitsOf n x ↔ i < n ∧ x.testBit i = true := by simp [setBitsOf]

theorem setBitsOf_nodup (n x : Nat) : (setBitsOf n x).Nodup := List.nodup_range.filter _

theorem mem_override_overrides {s : State} {j k : Nat} : k ∈ (s.override j).overrides ↔ k ∈ s.overrides ∨ k = j := by
  unfold State.override
  split
  next h => exact ⟨.inl, fun hk => hk.elim id fun e => e ▸ List.contains_iff_mem.1 h⟩
  next h => simp

theorem mem_foldl_basic_overrides {α : Type} {name : α → Nat} {l : List α} {s : State} {k : Nat} :
    k ∈ (l.foldl (fun s x => s.basic (name x)) s).overrides ↔ k ∈ s.overrides ∧ ∀ x ∈ l, k ≠ name x := by
  induction l generalizing s with
  | nil => simp
  | cons x l ih => rw [List.foldl_cons, ih, mem_basic_overrides, List.forall_mem_cons, and_assoc]

theorem mem_foldl_override_overrides {α : Type} {name : α → Nat} {l : List α} {s : State} {k : Nat} :
    k ∈ (l.foldl (fun s x => s.override (name x)) s).overrides ↔ k ∈ s.overrides ∨ ∃ x ∈ l, k = name x := by
  induction l generalizing s with
  | nil => simp
  | cons x l ih => rw [List.foldl_cons, ih, mem_override_overrides, or_assoc, List.exists_mem_cons_iff]

theorem arrayCtrl_injective {m n : Nat} (h : R.arrayCtrl m = R.arrayCtrl n) : m = n := by
  simp only [R.arrayCtrl, blk] at h
  omega

section Mask

variable (s : State) (mask lo len v : Nat)

theorem State.queueArrayCtrl_latest {n : Nat} (hn : n < 256) : (s.queueArrayCtrl mask lo len v).latest (R.arrayCtrl n) =
    if mask.testBit n then setBits (s.latest (R.arrayCtrl n)) lo len v else s.latest (R.arrayCtrl n) := by
  have step := foldl_view (P := fun _ => True) (V := fun n (s : State) => s.latest (R.arrayCtrl n)) (g := fun _ w => setBits w lo len v)
    (f := fun s n => s.queueField (R.arrayCtrl n) lo len v) (fun _ _ _ => trivial) (fun s i _ => s.queueReg_latest_self _ _)
    (fun s i j _ hj => s.queueReg_latest_ne _ _ _ fun e => hj (arrayCtrl_injective e)) (setBitsOf_nodup 256 mask) (s := s) trivial n
  simp only [mem_setBitsOf, hn, true_and] at step
  exact step

theorem State.queueArrayCtrl_pendingReg {k : Nat} (hk : ∀ n < 256, k ≠ R.arrayCtrl n) : (s.queueArrayCtrl mask lo len v).pendingReg k = s.pendingReg k :=
  foldl_view_const (V := (·.pendingReg k)) (fun _ n hn => State.queueField_pendingReg_ne _ _ _ _ (hk n (mem_setBitsOf.1 hn).1)) s

theorem State.queueArrayCtrl_only : s.queueArrayCtrl mask lo len v = { s with shadow := (s.queueArrayCtrl mask lo len v).shadow } :=
  (State.queueArrayCtrl_frame (ω := 0x100) rfl (Frame.refl s)).eq

theorem State.overrideMask_only (name : Nat → Nat) (on : Bool) :
    s.overrideMask mask name on = { s with overrides := (s.overrideMask mask name on).overrides } :=
  (State.overrideMask_frame (ω := 0x1000) rfl (Frame.refl s)).eq

theorem State.mem_overrideMask_ends {name : Nat → Nat} {k : Nat} : k ∈ (s.overrideMask mask name false).overrides ↔
    k ∈ s.overrides ∧ ∀ n < 256, mask.testBit n → k ≠ name (R.arrayCtrl n) := by
  simp only [State.overrideMask, Bool.false_eq_true, if_false, mem_foldl_basic_overrides, mem_setBitsOf, and_imp]

theorem State.mem_overrideMask_begins {name : Nat → Nat} {k : Nat} : k ∈ (s.overrideMask mask name true).overrides ↔
    k ∈ s.overrides ∨ ∃ n < 256, mask.testBit n ∧ k = name (R.arrayCtrl n) := by
  simp only [State.overrideMask, if_true, mem_foldl_override_overrides, mem_setBitsOf, and_assoc]

/-- What queueing a field of ARRAY_CTRL for a mask and starting or ending its overrides leave. -/
theorem State.arrayCtrl_only (name : Nat → Nat) (on : Bool) : (s.queueArrayCtrl mask lo len v).overrideMask mask name on =
    { s with shadow := ((s.queueArrayCtrl mask lo len v).overrideMask mask name on).shadow
             overrides := ((s.queueArrayCtrl mask lo len v).overrideMask mask name on).overrides } :=
  (State.overrideMask_frame (ω := 0x1100) rfl (State.queueArrayCtrl_frame rfl (Frame.refl s))).eq

theorem State.arrayCtrl_latest (name : Nat → Nat) (on : Bool) {n : Nat} (hn : n < 256) :
    ((s.queueArrayCtrl mask lo len v).overrideMask mask name on).latest (R.arrayCtrl n) =
      if mask.testBit n then setBits (s.latest (R.arrayCtrl n)) lo len v else s.latest (R.arrayCtrl n) := by
  rw [← State.queueArrayCtrl_latest s mask lo len v hn, State.overrideMask_only]
  rfl

theorem State.arrayCtrl_pendingReg (name : Nat → Nat) (on : Bool) {k : Nat} (hk : ∀ n < 256, k ≠ R.arrayCtrl n) :
    ((s.queueArrayCtrl mask lo len v).overrideMask mask name on).pendingReg k = s.pendingReg k := by
  rw [← State.queueArrayCtrl_pendingReg s mask lo len v hk, State.overrideMask_only]
  rfl

theorem State.queueArrayCtrl_overrides : (s.queueArrayCtrl mask lo len v).overrides = s.overrides := by rw [State.queueArrayCtrl_only]

end Mask

end Sys2Proof.Machine
end

section
/-!
O12: DEV_SLEEP, DEV_WAKE, DEV_ARRAY_CHECK and PROF_RAMP. That of two DEV_SLEEP with different boundaries the earlier acts is the model's choice (log entries
23 and 121).
-/
namespace Sys2Proof.Machine

/-- A command that is served in Sleep too, begun and served by its family. -/
theorem Cmd.serve_of_serves {c : Cmd} {r : Req} {s t : State} {p : Reply} (h : Safety.serves c.op r s = true) (hpay : r.pay.length ≤ 240)
    (hlen : c.len r.pay = true) (hparam : c.param s r = true) (hact : c.act s r = (t, some p)) (hsleep : c.inSleep = true := by rfl)
    (hexpert : c.expert = false := by rfl) (hstate : c.state s r = true := by rfl) (hdenied : c.denied s r = false := by rfl) :
    c.serve r s = .next (t.respond r.mb c.op r.tag p) := by
  obtain ⟨⟨hruns, htrip, hbegin⟩, hfamily⟩ := (safetyServes_iff ..).1 h
  exact Cmd.serve_in_sleep hruns (.inl htrip) hbegin hfamily hpay hlen hact hsleep hexpert hparam hstate hdenied

theorem safetyServes_of_ready {op : Nat} {r : Req} {s : State} (h : Safety.ready op r s = true) : Safety.serves op r s = true := by
  obtain ⟨hbegins, hfamily, -⟩ := (safetyReady_iff ..).1 h
  exact (safetyServes_iff ..).2 ⟨hbegins, hfamily⟩

theorem Cmd.taken_of_serves {c : Cmd} {r : Req} {s : State} (h : Safety.serves c.op r s = true) : c.taken r s = true :=
  Cmd.taken_of_begins (Bool.and_eq_true_iff.1 h).1

theorem awake_of_ready {op : Nat} {r : Req} {s : State} (h : Safety.ready op r s = true) : s.asleep = false := ((safetyReady_iff ..).1 h).2.2

/-- R65, R41: what DEV_SLEEP names, for a boundary that is named first, again or besides another. -/
theorem State.sleepNamed_eq {s : State} {b : Nat} {retain : Bool} {x : Option Nat × Bool} (hstopped : s.tide.running = false → x = (none, retain))
    (hrunning : s.tide.running = true → (∀ b0 r0, s.pwr.sleepAt = some (some b0, r0) → b0 < b → x = (some b0, r0)) ∧
      ((∀ b0 r0, s.pwr.sleepAt = some (some b0, r0) → b ≤ b0) → x = (some b, retain))) : s.sleepNamed b retain = some x := by
  unfold State.sleepNamed
  cases hr : s.tide.running with
  | false => simp [hstopped hr]
  | true =>
    obtain ⟨hearlier, hfirst⟩ := hrunning hr
    simp only [Bool.not_true, Bool.false_eq_true, if_false]
    split
    next b0 r0 hat =>
      split
      next hlt => rw [hearlier b0 r0 hat hlt]
      next hge => rw [hfirst fun b1 r1 h1 => by rw [hat] at h1; cases h1; omega]
    next hnone => rw [hfirst fun b1 r1 h1 => absurd h1 (hnone b1 r1)]

/-- R519: the regions that Sleep powered off are powered, and wait for their clock. -/
def State.wakeRegions (s : State) : State :=
  (List.range 38).foldl (fun s i => if s.regionMode i = 2 then s.setField (R.regionState i) 0 2 3 else s) s

theorem cmdDevWake_act (s : State) (r : Req) :
    cmdDevWake.act s r = ({ s.wakeRegions with pwr := { s.wakeRegions.pwr with waking := some (r.mb, r.tag) } }, none) := by
  simp only [cmdDevWake, State.wakeRegions]

theorem State.wakeRegions_only (s : State) : s.wakeRegions = { s with regs := s.wakeRegions.regs } :=
  (Frame.foldl (ω := 0x40) (Frame.refl s) fun _ _ h => Frame.ite (State.setField_frame rfl h) h).eq

theorem State.wakeRegions_reg (s : State) {k : Nat} (hk : ∀ i < 38, k ≠ R.regionState i) : s.wakeRegions.reg k = s.reg k := by
  refine foldl_view_const (V := (·.reg k)) (fun t i hi => ?_) s
  split
  · exact State.setField_reg_ne (hk i (List.mem_range.1 hi))
  · rfl

theorem regionState_injective {i j : Nat} (h : R.regionState i = R.regionState j) : i = j := by
  simp only [R.regionState, blk] at h
  omega

theorem State.wakeRegions_regionMode {s : State} (h : Sparse.wf regReset s.regs = true) {i : Nat} (hi : i < 38) :
    s.wakeRegions.regionMode i = if s.regionMode i = 2 then 3 else s.regionMode i := by
  have step := foldl_view (P := fun s : State => Sparse.wf regReset s.regs = true) (V := fun i (s : State) => s.regionMode i)
    (g := fun _ m => if m = 2 then 3 else m) (f := fun s i => if s.regionMode i = 2 then s.setField (R.regionState i) 0 2 3 else s) ?_ ?_ ?_
    (List.nodup_range (n := 38)) h i
  · rwa [if_pos (List.mem_range.2 hi)] at step
  · intro t i ht
    split
    · exact State.setField_wf _ _ _ _ _ ht
    · exact ht
  · intro t i ht
    split
    · exact State.field_setField_self ht (by decide)
    · rfl
  · intro t i j ht hj
    split
    · exact State.field_setField_ne fun e => hj (regionState_injective e)
    · rfl

/-- Settles O12: DEV_SLEEP by what it names, DEV_WAKE by a fold over the regions, the other two by a fold over the cores of the mask. -/
theorem deviceCommandsAct : Obligations.DeviceCommandsAct := by
  unfold Obligations.DeviceCommandsAct
  intro r s
  refine ⟨fun h hlen hle hgroup hcopy hreach => ?sleep, fun h hasleep hwaking hpay hwf => ?wake, fun h hlen hle => ?check, fun h hlen hreq hle => ?ramp⟩
  case sleep =>
    have hbit : (r.at 0 1 % 2 == 1) = (r.at 0 1 == 1) := by rw [Nat.mod_eq_of_lt (by omega)]
    have serve {t : State} {p : Reply} (hact : cmdDevSleep.act s r = (t, some p)) : exec (.devSleep r) s = .next (t.respond r.mb 0x0106 r.tag p) := by
      refine Cmd.serve_of_serves (c := cmdDevSleep) (safetyServes_of_ready h) (by omega) ((lenIs_iff ..).2 hlen) ?_ hact rfl rfl ?_
      · simp [cmdDevSleep]
        omega
      · simp [cmdDevSleep, awake_of_ready h, hgroup, hcopy, hreach]
    refine ⟨fun hlate x hstopped hrunning => serve ?_, fun hlate => serve ?_⟩
    · simp only [cmdDevSleep, hlate, hbit, State.sleepNamed_eq hstopped hrunning]
      rfl
    · simp only [cmdDevSleep, hlate]
      rfl
  case wake =>
    obtain ⟨-, hfamily⟩ := (safetyServes_iff ..).1 h
    have hcheck : cmdDevWake.check s r = none :=
      Cmd.check_none (by simp [hpay]) ((lenIs_iff ..).2 (by simp [hpay])) (.inl rfl) rfl hfamily (.inr rfl) (by simp [cmdDevWake, State.asleep, hasleep, hwaking]) rfl
    have only := s.wakeRegions_only
    have modes (i : Nat) (hi : i < 38) := State.wakeRegions_regionMode (regsWf_of_canonical hwf) hi
    have others (k : Nat) (hk : ∀ i < 38, k ≠ R.regionState i) := s.wakeRegions_reg hk
    have serve := Cmd.serve_later (c := cmdDevWake) (Cmd.taken_of_serves h) hcheck (cmdDevWake_act s r)
    generalize s.wakeRegions = t at only modes others serve
    exact ⟨_, serve, congrArg (fun u : State => { u with
      pwr := { u.pwr with waking := some (r.mb, r.tag) }, enm := { u.enm with taken := Taken.mark u.enm.taken r.mb .begun } }) only, modes, others⟩
  case check =>
    refine ⟨_, Cmd.serve_of_serves (c := cmdDevArrayCheck) h (by omega) ((lenIs_iff ..).2 hlen) ?_ rfl, State.arrayCtrl_only ..,
      fun n hn => State.arrayCtrl_latest _ _ _ _ _ _ _ hn, fun k hk => State.arrayCtrl_pendingReg _ _ _ _ _ _ _ hk, fun k => ?_⟩
    · simp only [cmdDevArrayCheck, beq_iff_eq]
      omega
    · rw [State.mem_overrideMask_ends, State.queueArrayCtrl_overrides]
  case ramp =>
    obtain ⟨-, hfamily, hawake⟩ := (safetyReady_iff ..).1 h
    have hcheck : cmdProfRamp.check s r = none :=
      Cmd.check_none (by omega) ((lenIs_iff ..).2 hlen) (.inr hreq) (by simp [cmdProfRamp]; omega) hfamily (.inl hawake) rfl rfl
    refine ⟨_, Cmd.serve_reply (c := cmdProfRamp) (Cmd.taken_of_serves (safetyServes_of_ready h)) hcheck rfl, State.arrayCtrl_only .., fun n hn => State.arrayCtrl_latest _ _ _ _ _ _ _ hn,
      fun k hk => State.arrayCtrl_pendingReg _ _ _ _ _ _ _ hk, fun k => ?_⟩
    rw [State.mem_overrideMask_begins, State.queueArrayCtrl_overrides]

end Sys2Proof.Machine
end

section
/-!
O13: the image commands (R50, R81, R578). That TIDE_LOAD gives the lowest free handle is the model's choice (log entry 121).
-/
namespace Sys2Proof.Machine

theorem State.setImage_image_self (s : State) {h : Nat} (i : Image) (hlt : h < s.images.length) : (s.setImage h i).image h = i := by
  simp [State.image, State.setImage, List.getD_eq_getElem?_getD, hlt]

theorem State.setImage_image_ne (s : State) {h j : Nat} (i : Image) (hj : j ≠ h) : (s.setImage h i).image j = s.image j := by
  simp only [State.image, State.setImage, List.getD_eq_getElem?_getD, List.getElem?_set_ne (Ne.symm hj)]

/-- The handle that a TIDE_LOAD gets is the free one with none below it. -/
theorem State.freeHandle_eq {s : State} {h : Nat} (hlt : h < s.images.length) (hfree : (s.image h).st = .free) (hlow : ∀ i < h, (s.image i).st ≠ .free) :
    s.freeHandle = some h := by
  have at_ {i : Nat} (hi : i < s.images.length) : s.image i = s.images[i] := by simp [State.image, List.getD_eq_getElem?_getD, hi]
  refine List.findIdx?_eq_some_iff_getElem.2 ⟨hlt, by rw [← at_ hlt, hfree]; rfl, fun i hi => ?_⟩
  rw [← at_ (Nat.lt_trans hi hlt), beq_iff_eq]
  exact hlow i hi

section Admission

variable (s : State) (n : Nat) (i : Image)

theorem State.admitImage_only : s.admitImage n i = { s with images := (s.admitImage n i).images, lys := (s.admitImage n i).lys } :=
  (State.admitImage_frame (ω := 0x400040000) rfl (Frame.refl s)).eq

theorem State.admitImage_images : (s.admitImage n i).images = (s.setImage n { i with st := .admitted, resid := s.bindsBf16 (s.spots i) }).images := rfl

theorem State.admitImage_image (h : Nat) :
    (s.admitImage n i).image h = (s.setImage n { i with st := .admitted, resid := s.bindsBf16 (s.spots i) }).image h := by
  rw [State.image, State.admitImage_images, State.image]

end Admission

/-- Settles O13, command by command; TIDE_ARM by what admission answers. -/
theorem imageCommandsAct : Obligations.ImageCommandsAct := by
  unfold Obligations.ImageCommandsAct
  intro r s
  refine ⟨fun h hlen hok n hlt hfree hlow => ?load, fun h hlen hlt hst => ?disarm, fun h hlen hlt hst => ?unload,
    fun h hlen hlt hres hst hpriv => ⟨fun hadmit => ?arm, fun x hx => ?refuse⟩⟩
  case load =>
    have hhandle := State.freeHandle_eq hlt hfree hlow
    refine Cmd.serve_of_ready (c := cmdTideLoad) h (by omega) ((lenIs_iff ..).2 hlen) hok ?_ (by simp [cmdTideLoad, hhandle])
    simp only [cmdTideLoad, hhandle, Option.getD_some, State.setImage, Reply.ok]
  case disarm =>
    exact Cmd.serve_of_ready (c := cmdTideDisarm) h (by omega) ((lenIs_iff ..).2 hlen) (decide_eq_true hlt) rfl
      (by simp [cmdTideDisarm, State.reqImage, hst])
  case unload =>
    exact Cmd.serve_of_ready (c := cmdTideUnload) h (by omega) ((lenIs_iff ..).2 hlen) (decide_eq_true hlt) rfl
      (by simp [cmdTideUnload, State.reqImage, hst])
  all_goals
    have hparam : cmdTideArm.param s r = true := by simp [cmdTideArm, hlt, hres]
    have hstate : cmdTideArm.state s r = true := by simp [cmdTideArm, State.reqImage, hst]
  case arm =>
    have act : cmdTideArm.act s r = (s.admitImage (r.at 0 1) (s.candidate (s.image (r.at 0 1)) (r.at 8 8)), some .ok) := by
      simp only [cmdTideArm, State.reqImage, hpriv, hadmit, Bool.false_eq_true, if_false]
    refine ⟨_, Cmd.serve_of_ready (c := cmdTideArm) h (by omega) ((lenIs_iff ..).2 hlen) hparam act hstate, State.admitImage_only .., fun hin => ?_,
      fun k hk => ?_, rfl, rfl⟩
    · rw [State.admitImage_image, State.setImage_image_self s _ hin]
      exact ⟨rfl, rfl⟩
    · rw [State.admitImage_image, State.setImage_image_ne s _ hk]
  case refuse =>
    refine Cmd.serve_of_ready (c := cmdTideArm) h (by omega) ((lenIs_iff ..).2 hlen) hparam ?_ hstate
    simp only [cmdTideArm, State.reqImage, hpriv, hx, Bool.false_eq_true, if_false]
    rfl

end Sys2Proof.Machine
end

section
/-!
Lists without repeats, and registers that a basic command queues (R30, R112).
-/
namespace Sys2Proof.Machine

theorem mem_insertRising {x y : Nat} {l : List Nat} : y ∈ insertRising x l ↔ y = x ∨ y ∈ l := by
  induction l with
  | nil => simp [insertRising]
  | cons z l ih =>
    unfold insertRising
    split
    · rw [List.mem_cons]
    · split
      next h => simp [h]
      · rw [List.mem_cons, ih, List.mem_cons, or_left_comm]

theorem mem_sortDedup {y : Nat} {l : List Nat} : y ∈ sortDedup l ↔ y ∈ l := by
  have step : ∀ acc : List Nat, y ∈ l.foldl (fun l x => insertRising x l) acc ↔ y ∈ l ∨ y ∈ acc := by
    induction l with
    | nil => simp
    | cons x l ih => intro acc; rw [List.foldl_cons, ih, mem_insertRising, List.mem_cons, or_left_comm, or_assoc]
  rw [sortDedup, step]
  simp

theorem State.queueReg_pendingReg (s : State) (j k : Nat) (v : Word) : (s.queueReg k v).pendingReg j = if j = k then some v else s.pendingReg j := by
  split
  next h => rw [h, State.queueReg_pendingReg_self]
  next h => exact s.queueReg_pendingReg_ne j k v h

@[simp] theorem State.basic_pendingReg (s : State) (j k : Nat) : (s.basic k).pendingReg j = s.pendingReg j := rfl

theorem State.queueBasic_pendingReg (s : State) (j k v : Nat) : (s.queueBasic k v).pendingReg j = if j = k then some (word v) else s.pendingReg j :=
  s.queueReg_pendingReg j k (word v)

@[simp] theorem State.queueBasic_regs (s : State) (k v : Nat) : (s.queueBasic k v).regs = s.regs := rfl

/-- A field of 0 leaves its register. -/
def State.queueNonzero (s : State) (k v : Nat) : State := if v = 0 then s else s.queueBasic k v

theorem State.queueNonzero_pendingReg (s : State) (j k v : Nat) :
    (s.queueNonzero k v).pendingReg j = if j = k then (if v = 0 then s.pendingReg j else some (word v)) else s.pendingReg j := by
  unfold State.queueNonzero
  split
  · simp
  · exact s.queueBasic_pendingReg j k v

theorem State.queueNonzero_frame {ω : Nat} (hw : Within 0x1100 ω) {r s : State} {k v : Nat} (h : Frame ω r s) : Frame ω r (s.queueNonzero k v) :=
  Frame.ite h (State.queueBasic_frame hw h)

@[simp] theorem State.queueNonzero_regs (s : State) (k v : Nat) : (s.queueNonzero k v).regs = s.regs := by
  unfold State.queueNonzero
  split <;> rfl

end Sys2Proof.Machine
end

section
/-!
O14: the TIDE_* commands besides those of images. That TIDE_STOPs of different boundaries are all kept, and that TIDE_HOLD names a boundary whose step 3 has
not begun, are the model's choices (log entry 52).
-/
namespace Sys2Proof.Machine

theorem State.lateHold_of_alone {s : State} (h : s.group.member = false) (k : Nat) : s.lateHold k = s := by simp [State.lateHold, h]

theorem State.ownDone_of_not_holding {s : State} (h : s.tide.selfHolds = []) : s.ownDone = s := by simp [State.ownDone, State.ownRelease, h]

section Config

variable (s : State) (r : Req)

/-- R77: what TIDE_CONFIG queues for the next boundary, -/
def State.configQueued : State := (s.queueNonzero R.tidePeriod (r.at 0 4)).queueNonzero R.tideSlack (r.at 4 2)

/-- and what it sets at once. -/
def State.tideConfigured : State :=
  if r.at 8 4 = 0 then s.configQueued r else ((s.configQueued r).setReg R.holdLimit (word (r.at 8 4))).basic R.holdLimit

theorem cmdTideConfig_act : cmdTideConfig.act s r = (s.tideConfigured r, some .ok) := rfl

theorem State.configQueued_frame : Frame 0x1140 s (s.configQueued r) :=
  State.queueNonzero_frame rfl (State.queueNonzero_frame rfl (Frame.refl s))

theorem State.tideConfigured_only : s.tideConfigured r =
    { s with shadow := (s.tideConfigured r).shadow, overrides := (s.tideConfigured r).overrides, regs := (s.tideConfigured r).regs } :=
  (Frame.ite (s.configQueued_frame r) (State.basic_frame rfl (State.setReg_frame rfl (s.configQueued_frame r)))).eq

theorem State.tideConfigured_pendingReg (j : Nat) : (s.tideConfigured r).pendingReg j =
    if j = R.tideSlack ∧ r.at 4 2 ≠ 0 then some (word (r.at 4 2)) else if j = R.tidePeriod ∧ r.at 0 4 ≠ 0 then some (word (r.at 0 4)) else s.pendingReg j := by
  have hq : (s.tideConfigured r).pendingReg j = (s.configQueued r).pendingReg j := by
    unfold State.tideConfigured
    split <;> rfl
  rw [hq, State.configQueued, State.queueNonzero_pendingReg, State.queueNonzero_pendingReg]
  by_cases h0 : r.at 4 2 = 0 <;> by_cases h1 : r.at 0 4 = 0 <;> simp [h0, h1]

theorem State.tideConfigured_reg (hwf : Sparse.wf regReset s.regs = true) (j : Nat) : (s.tideConfigured r).reg j =
    if j = R.holdLimit ∧ r.at 8 4 ≠ 0 then word (r.at 8 4) else s.reg j := by
  have hregs : (s.configQueued r).regs = s.regs := by simp [State.configQueued]
  unfold State.tideConfigured
  split
  next h => rw [State.reg_congr hregs, if_neg fun e => e.2 h]
  next h =>
    rw [State.basic_reg, State.setReg_reg (by rwa [hregs]), State.reg_congr hregs]
    simp [h]

end Config

/-- Settles O14, command by command. -/
theorem tideCommandsAct : Obligations.TideCommandsAct := by
  unfold Obligations.TideCommandsAct
  intro r s
  refine ⟨fun h hlen hstopped hpast hbeat => ?run, fun h hlen hruns hsplit halone => ?stop, fun h hlen hcount hnext halone => ?hold,
    fun h hlen hheld hself => ?release, fun h hlen hres hp hs hl hwf => ?config, fun h hpay => ?status⟩
  case run =>
    exact Cmd.serve_of_ready (c := cmdTideRun) h (by omega) ((lenIs_iff ..).2 hlen) rfl rfl (by simp [cmdTideRun, hstopped, hpast, reqBeat, hbeat])
  case stop =>
    have serve {t : State} {p : Reply} (hact : cmdTideStop.act s r = (t, some p)) : exec (.tideStop r) s = .next (t.respond r.mb 0x0206 r.tag p) :=
      Cmd.serve_of_ready (c := cmdTideStop) h (by omega) ((lenIs_iff ..).2 hlen) rfl hact (by simp [cmdTideStop, hruns, hsplit, halone])
    refine ⟨fun hin => ⟨sortDedup (r.at 0 8 :: s.tide.stops), fun k => by rw [mem_sortDedup, List.mem_cons], serve ?_⟩, fun hlate => serve ?_⟩
    · have : s.late (r.at 0 8) = false := by simp [State.late]; omega
      simp only [cmdTideStop, this]
      rfl
    · have : s.late (r.at 0 8) = true := by simp [State.late, hruns, hlate]
      simp only [cmdTideStop, this]
      rfl
  case hold =>
    refine ⟨sortDedup (r.at 0 8 :: s.tide.hostHolds), fun k => by rw [mem_sortDedup, List.mem_cons], ?_⟩
    refine Cmd.serve_of_ready (c := cmdTideHold) h (by omega) ((lenIs_iff ..).2 hlen) rfl ?_ (by simp [cmdTideHold, hcount, hnext])
    simp only [cmdTideHold]
    rw [State.lateHold_of_alone (by exact halone)]
    rfl
  case release =>
    refine ⟨{ s with tide := { s.tide with hostHolds := s.tide.hostHolds.filter (· != r.at 0 8), hostReleased := s.tide.hostReleased ++ [(r.at 0 8, s.groupBeat)] } },
      Cmd.serve_of_ready (c := cmdTideRelease) h (by omega) ((lenIs_iff ..).2 hlen) rfl ?_ (by simp [cmdTideRelease, hheld]), rfl, rfl⟩
    simp only [cmdTideRelease]
    rw [State.ownDone_of_not_holding (by exact hself)]
    rfl
  case config =>
    have legal {k v : Nat} (hv : v = 0 ∨ regLegal k v = true) : configOk k v = true := by simpa [configOk] using hv
    have hparam : cmdTideConfig.param s r = true := by simp [cmdTideConfig, hres, legal hp, legal hs, legal hl]
    have hne : R.tidePeriod ≠ R.tideSlack := by decide
    have pends := s.tideConfigured_pendingReg r
    have regs := s.tideConfigured_reg r (regsWf_of_canonical hwf)
    refine ⟨_, Cmd.serve_of_ready (c := cmdTideConfig) h (by omega) ((lenIs_iff ..).2 hlen) hparam (cmdTideConfig_act s r), s.tideConfigured_only r,
      ?_, ?_, ?_, fun k hk1 hk2 => ?_, fun k hk => ?_⟩
    · rw [pends, if_neg fun e => hne e.1]
      simp
    · rw [pends, if_neg (c := _ = R.tidePeriod ∧ _) fun e => hne e.1.symm]
      simp
    · rw [regs]
      simp
    · rw [pends]
      simp [hk1, hk2]
    · rw [regs]
      simp [hk]
  case status =>
    exact Cmd.serve_of_ready (c := cmdTideStatus) h (by simp [hpay]) ((lenIs_iff ..).2 (by simp [hpay])) rfl rfl

end Sys2Proof.Machine
end

section
/-!
O15: what PROF_SET leaves of the overrides (R112).
-/
namespace Sys2Proof.Machine

/-- A PROF_SET of profile 0 at boundary 0. -/
def neapRequest : Req := ⟨0, 0, List.replicate 9 0⟩

/-- A device that has booted and taken `neapRequest`, with its sequencer stopped, after an expert write of PROF_BOUNDARY_LO. -/
def boundaryOverridden : State :=
  { State.reset with
    regs := [(R.bootState, 9)], enm := { State.reset.enm with running := true, taken := [⟨0, 0x0301, 0, List.replicate 9 0, .waiting⟩] }
    overrides := [R.profBoundaryLo] }

theorem boundaryOverridden_ready : Safety.ready 0x0301 neapRequest boundaryOverridden = true := by decide +kernel

theorem boundaryOverridden_judge : boundaryOverridden.judgeProf (neapRequest.at 0 1) (neapRequest.at 1 8) = none := by decide +kernel

/-- An accepted PROF_SET ends the overrides of PROF_TARGET and of both words of PROF_BOUNDARY. -/
theorem exec_profSet_of_accepted {r : Req} {s : State} (h : Safety.ready 0x0301 r s = true) (hlen : r.pay.length = 9) (hp : r.at 0 1 < 3)
    (hjudge : s.judgeProf (r.at 0 1) (r.at 1 8) = none) : exec (.profSet r) s = .next
      (((((s.acceptProf (r.at 0 1) (r.at 1 8)).basic R.profTarget).basic R.profBoundaryLo).basic R.profBoundaryHi).respond r.mb 0x0301 r.tag .ok) := by
  refine Cmd.serve_of_ready (c := cmdProfSet) h (by omega) ((lenIs_iff ..).2 hlen) (decide_eq_true hp) ?_
  simp only [cmdProfSet, hjudge]

/-- Refutes O15: the clause on an accepted PROF_SET has every override kept but that of PROF_TARGET, and the model ends those of PROF_BOUNDARY_LO and
PROF_BOUNDARY_HI too, which the command also sets. In the counterexample PROF_BOUNDARY_LO is overridden. -/
theorem not_profileCommandsAct : ¬ Obligations.ProfileCommandsAct := by
  unfold Obligations.ProfileCommandsAct
  rintro ⟨h, -⟩
  obtain ⟨-, -, accepted⟩ := h neapRequest boundaryOverridden boundaryOverridden_ready rfl (by decide)
  obtain ⟨t, exec_t, only, -⟩ := accepted boundaryOverridden_judge (by decide +kernel)
  have same := Host.Outcome.next.inj (exec_t.symm.trans (exec_profSet_of_accepted boundaryOverridden_ready rfl (by decide) boundaryOverridden_judge))
  have left : R.profBoundaryLo ∈ t.overrides := by
    rw [only]
    exact (by decide : R.profBoundaryLo ∈ [R.profBoundaryLo].filter (· != R.profTarget))
  have ended : R.profBoundaryLo ∉ t.overrides := by
    have overrides := congrArg State.overrides same
    rw [State.respond_overrides, State.respond_overrides] at overrides
    rw [overrides]
    simp [mem_basic_overrides]
  exact ended left

end Sys2Proof.Machine
end

section
/-!
What a restart (R472) and the entry into JIT (R296) leave of the job and of memory.
-/
namespace Sys2Proof.Machine

theorem State.restart_job (s : State) (code : Nat) :
    (s.restart code).job = { s.job with restart := some code, lost := s.job.lost || causeLost code, soft := s.job.soft.filter spoilStays } := by
  have stopped : s.stopIssue.job = s.job := (State.stopIssue_frame (ω := 0x1406478040) rfl (Frame.refl s)).job rfl
  unfold State.restart
  generalize s.stopIssue = u at stopped ⊢
  rw [← stopped]
  exact (State.masterAbort_frame (ω := 0x600418040) rfl (State.logFull_frame rfl (State.orReg_frame rfl (Frame.refl _)))).job rfl

/-- A restart writes nothing else of a job than its cause, whether the device is lost, and the words it writes anew. -/
def Job.SameBut (j k : Job) : Prop := ∃ restart lost soft, k = { j with restart, lost, soft }

theorem Job.SameBut.of_eq {j k : Job} (h : k = j) : j.SameBut k := ⟨_, _, _, h⟩

theorem State.scaleFault_job (s : State) : s.job.SameBut s.scaleFault.job := ⟨_, _, _, State.restart_job _ _⟩

theorem State.scaleFault_mem (s : State) : s.scaleFault.mem = s.mem := (State.scaleFault_frame (ω := 0x1606578040) rfl (Frame.refl s)).mem rfl

section Table

variable (s : State) (base count : Nat)

/-- The records of the table rewritten, before the fault of those that fail is raised. -/
def State.rewriteRecs (f : Nat → ScaleRec → ScaleRec) : State :=
  (List.range count).foldl (fun s r =>
    let v := s.scaleRecAt base r
    let v' := f r v
    if v.ok && v.state != 0 && v' != v then s.putScaleRec base r v' else s) s

theorem State.eachRec_eq (f : Nat → ScaleRec → ScaleRec) : s.eachRec base count f =
    if (List.range count).any fun r => !(s.scaleRecAt base r).ok then (s.rewriteRecs base count f).scaleFault else s.rewriteRecs base count f := rfl

theorem State.rewriteRecs_byte (f : Nat → ScaleRec → ScaleRec) {a : Nat} (ha : a < base ∨ base + 128 * count ≤ a) :
    (s.rewriteRecs base count f).byte a = s.byte a := by
  refine foldl_view_const (V := (·.byte a)) (fun t r hr => ?_) s
  have hr := List.mem_range.1 hr
  dsimp only
  split
  · exact State.store_byte_out _ (by rw [leBytes_length, scaleAddr]; omega)
  · rfl

theorem State.rewriteRecs_job (f : Nat → ScaleRec → ScaleRec) : (s.rewriteRecs base count f).job = s.job :=
  (Frame.foldl (ω := 0x100006000) (Frame.refl s) fun _ _ h => Frame.ite (State.putScaleRec_frame rfl h) h).job rfl

theorem State.eachRec_byte (f : Nat → ScaleRec → ScaleRec) {a : Nat} (ha : a < base ∨ base + 128 * count ≤ a) :
    (s.eachRec base count f).byte a = s.byte a := by
  rw [← s.rewriteRecs_byte base count f ha, State.eachRec_eq]
  split
  · rw [State.byte, State.scaleFault_mem, State.byte]
  · rfl

theorem State.eachRec_job (f : Nat → ScaleRec → ScaleRec) : s.job.SameBut (s.eachRec base count f).job := by
  rw [State.eachRec_eq]
  split
  · rw [← s.rewriteRecs_job base count f]
    exact State.scaleFault_job _
  · exact .of_eq (s.rewriteRecs_job base count f)

/-- After its records the entry into JIT writes registers only. -/
theorem State.jitAll_rest : Frame 0x40 (s.eachRec base count fun _ v => v.toJit) (s.jitAll base count) :=
  Frame.ite (State.orReg_frame rfl (State.countJit_frame rfl (Frame.refl _))) (State.countJit_frame rfl (Frame.refl _))

theorem State.jitAll_byte {a : Nat} (ha : a < base ∨ base + 128 * count ≤ a) : (s.jitAll base count).byte a = s.byte a := by
  rw [← s.eachRec_byte base count (fun _ v => v.toJit) ha, State.byte, (s.jitAll_rest base count).mem rfl, State.byte]

theorem State.jitAll_job : s.job.SameBut (s.jitAll base count).job := by
  rw [(s.jitAll_rest base count).job rfl]
  exact s.eachRec_job base count _

theorem State.jitAll_shadow : (s.jitAll base count).shadow = s.shadow := (State.jitAll_frame (ω := 0x170657e040) rfl (Frame.refl s)).shadow rfl

end Table

/-- Registers that a basic command queues one after the other, each once. -/
theorem State.foldl_queueBasic_pendingReg {l : List (Nat × Nat)} (hl : (l.map (·.1)).Nodup) (s : State) :
    (∀ w ∈ l, (l.foldl (fun s w => s.queueBasic w.1 w.2) s).pendingReg w.1 = some (word w.2)) ∧
      ∀ k, k ∉ l.map (·.1) → (l.foldl (fun s w => s.queueBasic w.1 w.2) s).pendingReg k = s.pendingReg k := by
  induction l generalizing s with
  | nil => simp
  | cons x l ih =>
    obtain ⟨hx, hl⟩ := List.nodup_cons.1 hl
    obtain ⟨listed, others⟩ := ih hl (s.queueBasic x.1 x.2)
    rw [List.forall_mem_cons]
    refine ⟨⟨?_, listed⟩, fun k hk => ?_⟩
    · rw [List.foldl_cons, others _ hx, State.queueBasic_pendingReg, if_pos rfl]
    · obtain ⟨hk1, hk⟩ := not_or.1 (mt List.mem_cons.2 hk)
      rw [List.foldl_cons, others _ hk, State.queueBasic_pendingReg, if_neg hk1]

end Sys2Proof.Machine
end

section
/-!
O18: JOB_CREATE and the JOB_* commands of identity and group. What JOB_END keeps, and that the earliest JOB_GROUP_LEAVE acts, are the model's choices (log
entries 69 and 120).
-/
namespace Sys2Proof.Machine

section Create

variable (s : State) (r : Req)

/-- The registers of the payload wait for the next boundary. -/
def State.jobQueued : State := (jobWrites r).foldl (fun s w => s.queueBasic w.1 w.2) s

/-- The job that the payload describes, at step 0. -/
def State.jobMade : Job where
  exists_ := true
  id := word (r.at 0 4)
  seed := BitVec.ofNat 48 (r.at 4 6)
  perStep := BitVec.ofNat 64 (r.at 72 8)
  epoch := word (r.at 80 4)
  shard := word (r.at 84 4)
  sample := BitVec.ofNat 64 (r.at 88 8)
  step := 0
  lost := s.job.lost
  soft := s.job.soft.filter spoilStays

/-- The job with its layer and update tables, before the hyperparameter sets are latched and the scale records enter JIT. -/
def State.jobTabled : State := { s with
  job := s.jobMade r
  nums := { s.nums with modes := s.readLayers (r.at 28 8) (r.at 26 2) }
  upd := { s.upd with recs := s.readRecs (s.jobDefaults r) (r.at 56 8) (r.at 54 2) } }

theorem State.jobTabled_shadow : (s.jobTabled r).shadow = s.shadow := rfl
theorem State.jobTabled_mem : (s.jobTabled r).mem = s.mem := rfl
theorem State.jobTabled_job : (s.jobTabled r).job = s.jobMade r := rfl

theorem cmdJobCreate_act : cmdJobCreate.act s r =
    ((((s.jobQueued r).jobTabled r).latchHp (r.at 64 8)).jitAll (r.at 16 8) (r.at 24 2), some .ok) := by
  simp only [cmdJobCreate, State.jobQueued, State.jobTabled, State.jobMade]

theorem State.jobQueued_frame : Frame 0x1100 s (s.jobQueued r) :=
  Frame.foldl (Frame.refl s) fun _ _ h => State.queueBasic_frame rfl h

theorem State.jobTabled_latchHp_frame : Frame 0x20018040 ((s.jobQueued r).jobTabled r) (((s.jobQueued r).jobTabled r).latchHp (r.at 64 8)) :=
  State.latchHp_frame rfl (Frame.refl _)

theorem jobWrites_nodup : ((jobWrites r).map (·.1)).Nodup := by
  unfold jobWrites
  split
  · exact (by decide : ([R.shelfCtrl, R.shelfTopBase, R.scaleCount, R.layerCount, R.shelfSpillSize, R.updCount, R.bktCtrl, R.scaleBaseLo, R.scaleBaseHi,
      R.layerBaseLo, R.layerBaseHi, R.shelfBodyBaseLo, R.shelfBodyBaseHi, R.shelfSpillBaseLo, R.shelfSpillBaseHi, R.updBaseLo, R.updBaseHi, R.hpBaseLo,
      R.hpBaseHi, R.updDefaults] : List Nat).Nodup)
  · exact (by decide : ([R.shelfCtrl, R.shelfTopBase, R.scaleCount, R.layerCount, R.shelfSpillSize, R.updCount, R.bktCtrl, R.scaleBaseLo, R.scaleBaseHi,
      R.layerBaseLo, R.layerBaseHi, R.shelfBodyBaseLo, R.shelfBodyBaseHi, R.shelfSpillBaseLo, R.shelfSpillBaseHi, R.updBaseLo, R.updBaseHi, R.hpBaseLo,
      R.hpBaseHi] : List Nat).Nodup)

theorem bit_word (x : Nat) {i : Nat} (hi : i < 32) : bit (word x) i = x.testBit i := by
  rw [bit, word, BitVec.getLsbD_ofNat]
  simp [hi]

theorem State.jobCreated_pendingReg (k : Nat) :
    ((((s.jobQueued r).jobTabled r).latchHp (r.at 64 8)).jitAll (r.at 16 8) (r.at 24 2)).pendingReg k = (s.jobQueued r).pendingReg k := by
  refine State.pendingReg_congr ?_ k
  rw [State.jitAll_shadow, (s.jobTabled_latchHp_frame r).shadow rfl, State.jobTabled_shadow]

/-- The job is that of the payload, whatever the entry into JIT finds. -/
theorem State.jobCreated_job : (s.jobMade r).SameBut ((((s.jobQueued r).jobTabled r).latchHp (r.at 64 8)).jitAll (r.at 16 8) (r.at 24 2)).job := by
  have made : (((s.jobQueued r).jobTabled r).latchHp (r.at 64 8)).job = s.jobMade r := by
    rw [(s.jobTabled_latchHp_frame r).job rfl, State.jobTabled_job, State.jobMade, (s.jobQueued_frame r).job rfl, State.jobMade]
  rw [← made]
  exact State.jitAll_job ..

theorem State.jobCreated_byte {a : Nat} (ha : a < r.at 16 8 ∨ r.at 16 8 + 128 * r.at 24 2 ≤ a) :
    ((((s.jobQueued r).jobTabled r).latchHp (r.at 64 8)).jitAll (r.at 16 8) (r.at 24 2)).byte a = s.byte a := by
  have same : (((s.jobQueued r).jobTabled r).latchHp (r.at 64 8)).mem = s.mem := by
    rw [(s.jobTabled_latchHp_frame r).mem rfl, State.jobTabled_mem, (s.jobQueued_frame r).mem rfl]
  rw [State.jitAll_byte _ _ _ ha, State.byte, same, State.byte]

end Create

section Form

variable (s : State) (r : Req)

/-- R84: the timing of a group waits for the next boundary. -/
def State.groupQueued : State := (s.queueBasic R.holdWindow (holdWindowOf (r.at 12 2) (r.at 14 2))).queueNonzero R.markInterval (r.at 16 4)

/-- R84: the device as a member of the group that the payload describes. -/
def State.groupMade : Group where
  member := true
  size := r.at 0 4
  master := r.at 4 2
  parent := r.at 6 2
  pathDelay := r.at 8 4
  children := (List.range (r.at 20 2)).map fun i => r.at (24 + 2 * i) 2
  firstMark := true
  lastMark := s.groupBeat

theorem State.groupQueued_frame : Frame 0x1100 s (s.groupQueued r) := State.queueNonzero_frame rfl (State.queueBasic_frame rfl (Frame.refl s))

theorem State.groupQueued_groupBeat : (s.groupQueued r).groupBeat = s.groupBeat := by
  rw [State.groupBeat, (s.groupQueued_frame r).beat, (s.groupQueued_frame r).tide rfl, State.groupBeat]

theorem cmdJobGroupForm_act (h : ¬(1 < r.at 0 4 ∧ s.clkmode = 2)) :
    cmdJobGroupForm.act s r = ({ s.groupQueued r with group := s.groupMade r }, some .ok) := by
  rw [State.groupMade, ← s.groupQueued_groupBeat r]
  exact if_neg h

theorem State.groupFormed_only : ({ s.groupQueued r with group := s.groupMade r } : State) =
    { s with group := s.groupMade r, shadow := (s.groupQueued r).shadow, overrides := (s.groupQueued r).overrides } :=
  congrArg (fun u : State => { u with group := s.groupMade r }) (s.groupQueued_frame r).eq

end Form

/-- Settles O18: JOB_CREATE by its registers, its job and its tables in turn, the others as they act. -/
theorem jobCommandsAct : Obligations.JobCommandsAct := by
  unfold Obligations.JobCommandsAct
  refine ⟨fun r s h hlen hparam hfree hspill => ?create, fun r s => ⟨fun h hlen hpair => ?setId, fun h hmin hlen hmax hparam hjob halone => ?form,
    fun h hlen hmember => ?leave, fun h hpay hjob halone himages => ?finish⟩⟩
  case create =>
    have hstate : cmdJobCreate.state s r = true := by
      simp only [cmdJobCreate, hfree, Bool.not_false, Bool.true_and, Bool.or_eq_true, beq_iff_eq, bne_iff_ne, State.regN]
      exact hspill.imp_right fun hne h0 => hne (BitVec.eq_of_toNat_eq (by simpa using h0))
    obtain ⟨restart, lost, soft, job⟩ := s.jobCreated_job r
    obtain ⟨listed, others⟩ := State.foldl_queueBasic_pendingReg (jobWrites_nodup r) s
    refine ⟨_, Cmd.serve_of_ready (c := cmdJobCreate) h (by omega) ((lenIs_iff ..).2 hlen) hparam (cmdJobCreate_act s r) hstate, ?_⟩
    rw [job]
    refine ⟨rfl, rfl, rfl, rfl, rfl, rfl, rfl, rfl, fun w hw => ?_, ?_, fun a ha => s.jobCreated_byte r ha⟩
    · rw [State.jobCreated_pendingReg]
      refine listed (w.1, r.at w.2.1 w.2.2) ?_
      revert w
      simp [jobWrites]
    · rw [State.jobCreated_pendingReg]
      by_cases hbit : (r.at 12 1).testBit 4 = true
      · rw [if_pos hbit]
        exact listed (R.updDefaults, r.at 12 1 % 16) (by simp [jobWrites, bit_word, hbit])
      · rw [if_neg hbit]
        refine others _ ?_
        have unset : bit (word (r.at 12 1)) 4 = false := by simpa [bit_word] using hbit
        simp only [jobWrites, unset, Bool.false_eq_true, if_false]
        exact (by decide : R.updDefaults ∉ ([R.shelfCtrl, R.shelfTopBase, R.scaleCount, R.layerCount, R.shelfSpillSize, R.updCount, R.bktCtrl, R.scaleBaseLo,
          R.scaleBaseHi, R.layerBaseLo, R.layerBaseHi, R.shelfBodyBaseLo, R.shelfBodyBaseHi, R.shelfSpillBaseLo, R.shelfSpillBaseHi, R.updBaseLo, R.updBaseHi,
          R.hpBaseLo, R.hpBaseHi] : List Nat))
  case setId =>
    have serve {t : State} {p : Reply} (hact : cmdJobSetId.act s r = (t, some p)) : exec (.jobSetId r) s = .next (t.respond r.mb 0x0602 r.tag p) :=
      Cmd.serve_of_ready (c := cmdJobSetId) h (by omega) ((lenIs_iff ..).2 hlen) hpair hact
    refine ⟨fun hmember => serve ?_, fun halone => serve ?_⟩
    · simp only [cmdJobSetId, hmember, if_true]
      rfl
    · simp only [cmdJobSetId, halone, Bool.false_eq_true, if_false]
      rfl
  case form =>
    have serve {t : State} {p : Reply} (hact : cmdJobGroupForm.act s r = (t, some p)) : exec (.jobGroupForm r) s = .next (t.respond r.mb 0x0606 r.tag p) :=
      Cmd.serve_of_ready (c := cmdJobGroupForm) h hmax (by simp only [cmdJobGroupForm, Bool.and_eq_true, decide_eq_true_eq, beq_iff_eq]; exact ⟨hmin, hlen⟩)
        hparam hact (by simp [cmdJobGroupForm, hjob, halone])
    refine ⟨fun hsize hclk => serve ?_, fun hone => ?_⟩
    · simp only [cmdJobGroupForm, hsize, hclk, and_self, if_true]
      rfl
    · have hnot : ¬ (1 < r.at 0 4 ∧ s.clkmode = 2) := fun ⟨hsize, hclk⟩ => hone.elim (by omega) (· hclk)
      have hne : R.markInterval ≠ R.holdWindow := by decide
      refine ⟨_, serve (cmdJobGroupForm_act s r hnot), s.groupFormed_only r, rfl, ?_, ?_⟩
      · show (s.groupQueued r).pendingReg R.holdWindow = _
        rw [State.groupQueued, State.queueNonzero_pendingReg, if_neg hne.symm, State.queueBasic_pendingReg, if_pos rfl]
        rfl
      · show (s.groupQueued r).pendingReg R.markInterval = _
        rw [State.groupQueued, State.queueNonzero_pendingReg, if_pos rfl, State.queueBasic_pendingReg, if_neg hne]
  case leave =>
    have serve {t : State} {p : Reply} (hact : cmdJobGroupLeave.act s r = (t, some p)) : exec (.jobGroupLeave r) s = .next (t.respond r.mb 0x0607 r.tag p) :=
      Cmd.serve_of_ready (c := cmdJobGroupLeave) h (by omega) ((lenIs_iff ..).2 hlen) rfl hact hmember
    refine ⟨fun hlate => serve ?_, fun hin => serve ?_⟩
    · simp only [cmdJobGroupLeave, hlate, if_true]
      rfl
    · simp only [cmdJobGroupLeave, hin, Bool.false_eq_true, if_false]
      rfl
  case finish =>
    have idle : s.images.any Image.active = false := List.any_eq_false.2 fun i hi => by simpa [Image.active] using himages i hi
    exact ⟨_, Cmd.serve_of_ready (c := cmdJobEnd) h (by simp [hpay]) ((lenIs_iff ..).2 (by simp [hpay])) rfl rfl (by simp [cmdJobEnd, hjob, halone, idle]), rfl⟩

end Sys2Proof.Machine
end

section
/-!
Routing entries and ring entries that a JOB_ROUTE_SET queues (R30, R402, R423).
-/
namespace Sys2Proof.Machine

theorem State.mem_queueRoute_shadow {s : State} {d e : Nat} {v w : Dword} :
    Shadow.route d v ∈ (s.queueRoute e w).shadow ↔ if d = e then v = w else Shadow.route d v ∈ s.shadow := by
  simp only [State.queueRoute, List.mem_append, List.mem_filter, List.mem_singleton, Shadow.route.injEq, Shadow.isRoute]
  split
  next h => simp [h]
  next h => simp [h]

theorem State.queueRoute_pendingReg (s : State) (d k : Nat) (v : Dword) : (s.queueRoute d v).pendingReg k = s.pendingReg k := by
  have filtered (l : List Shadow) (f : Shadow → Option Word) (hf : ∀ w, f (.route d w) = none) :
      (l.filter (!·.isRoute d)).reverse.findSome? f = l.reverse.findSome? f := by
    rw [← List.filter_reverse]
    generalize l.reverse = l
    induction l with
    | nil => rfl
    | cons x l ih =>
      rw [List.filter_cons]
      split
      · rw [List.findSome?_cons, List.findSome?_cons, ih]
      next h =>
        cases x with
        | reg => simp [Shadow.isRoute] at h
        | route d' w =>
          obtain rfl : d' = d := by simpa [Shadow.isRoute] using h
          rw [List.findSome?_cons, hf, ih]
  simp only [State.pendingReg, State.queueRoute, List.reverse_append, List.reverse_cons, List.reverse_nil, List.nil_append, List.singleton_append,
    List.findSome?_cons]
  exact filtered _ _ fun _ => rfl

theorem State.mem_queueReg_shadow_route {s : State} {d k : Nat} {v : Dword} {w : Word} :
    Shadow.route d v ∈ (s.queueReg k w).shadow ↔ Shadow.route d v ∈ s.shadow := by
  simp [State.queueReg, Shadow.isReg]

section Routes

variable (s : State) (r : Req)

/-- The routing entries of the payload, queued. -/
def State.routesQueued : State := (List.range (r.at 1 1)).foldl (fun s i =>
  (s.queueRoute (r.at 2 2 + i) (BitVec.ofNat 64 (r.at (16 + 8 * i) 8))).basic (routeName (r.at 2 2 + i))) s

theorem State.mem_routesQueued_shadow {d : Nat} {v : Dword} : Shadow.route d v ∈ (s.routesQueued r).shadow ↔
    if r.at 2 2 ≤ d ∧ d < r.at 2 2 + r.at 1 1 then v = BitVec.ofNat 64 (r.at (16 + 8 * (d - r.at 2 2)) 8) else Shadow.route d v ∈ s.shadow := by
  have step : ∀ n, Shadow.route d v ∈ ((List.range n).foldl (fun s i =>
      (s.queueRoute (r.at 2 2 + i) (BitVec.ofNat 64 (r.at (16 + 8 * i) 8))).basic (routeName (r.at 2 2 + i))) s).shadow ↔
      if r.at 2 2 ≤ d ∧ d < r.at 2 2 + n then v = BitVec.ofNat 64 (r.at (16 + 8 * (d - r.at 2 2)) 8) else Shadow.route d v ∈ s.shadow := by
    intro n
    induction n with
    | zero => rw [if_neg (by omega)]; rfl
    | succ n ih =>
      rw [List.range_succ, List.foldl_append, List.foldl_cons, List.foldl_nil, State.basic_shadow, State.mem_queueRoute_shadow, ih]
      by_cases hd : d = r.at 2 2 + n
      · rw [if_pos hd, if_pos (by omega), hd, Nat.add_sub_cancel_left]
      · rw [if_neg hd]
        by_cases hin : r.at 2 2 ≤ d ∧ d < r.at 2 2 + n
        · rw [if_pos hin, if_pos (by omega)]
        · rw [if_neg hin, if_neg (by omega)]
  exact step _

theorem State.routesQueued_pendingReg (k : Nat) : (s.routesQueued r).pendingReg k = s.pendingReg k := by
  refine foldl_view_const (V := (·.pendingReg k)) (fun t i _ => ?_) s
  exact t.queueRoute_pendingReg _ k _

theorem mem_foldl_overrides {α : Type} {f : State → α → State} {P : α → Nat → Prop} (hf : ∀ s x k, k ∈ (f s x).overrides ↔ k ∈ s.overrides ∧ P x k)
    {l : List α} {s : State} {k : Nat} : k ∈ (l.foldl f s).overrides ↔ k ∈ s.overrides ∧ ∀ x ∈ l, P x k := by
  induction l generalizing s with
  | nil => simp
  | cons x l ih => rw [List.foldl_cons, ih, hf, List.forall_mem_cons, and_assoc]

theorem State.mem_routesQueued_overrides {k : Nat} : k ∈ (s.routesQueued r).overrides ↔ k ∈ s.overrides ∧ ∀ i < r.at 1 1, k ≠ routeName (r.at 2 2 + i) := by
  have step := mem_foldl_overrides (P := fun i k => k ≠ routeName (r.at 2 2 + i)) (l := List.range (r.at 1 1)) (s := s) (k := k)
    (f := fun s i => (s.queueRoute (r.at 2 2 + i) (BitVec.ofNat 64 (r.at (16 + 8 * i) 8))).basic (routeName (r.at 2 2 + i)))
    fun _ _ _ => mem_basic_overrides
  simp only [List.mem_range] at step
  exact step

/-- Word `j` of a ring entry as it is queued. -/
def ringWord (ws : List Word) (j : Nat) : Word := ws.getD j 0 &&& (if j = 0 then 0x8FFF0FFF else 0xFFFFFFFF)

theorem State.queueRing_eq (n : Nat) (ws : List Word) : s.queueRing n ws =
    (List.range 5).foldl (fun s j => (s.queueReg (R.ringCfg n + 4 * j) (ringWord ws j)).basic (R.ringCfg n + 4 * j)) s := rfl

theorem State.queueRing_pendingReg_in (n : Nat) (ws : List Word) {j : Nat} (hj : j < 5) :
    (s.queueRing n ws).pendingReg (R.ringCfg n + 4 * j) = some (ringWord ws j) := by
  have step := foldl_view (P := fun _ => True) (V := fun j (s : State) => s.pendingReg (R.ringCfg n + 4 * j)) (g := fun j _ => some (ringWord ws j))
    (f := fun s j => (s.queueReg (R.ringCfg n + 4 * j) (ringWord ws j)).basic (R.ringCfg n + 4 * j)) (fun _ _ _ => trivial)
    (fun s j _ => s.queueReg_pendingReg_self _ _) (fun s i j _ hj => s.queueReg_pendingReg_ne _ _ _ (by omega)) (List.nodup_range (n := 5)) (s := s) trivial j
  rwa [if_pos (List.mem_range.2 hj)] at step

theorem State.queueRing_pendingReg_out (n : Nat) (ws : List Word) {k : Nat} (hk : ∀ j < 5, k ≠ R.ringCfg n + 4 * j) :
    (s.queueRing n ws).pendingReg k = s.pendingReg k := by
  rw [State.queueRing_eq]
  refine foldl_view_const (V := (·.pendingReg k)) (fun t j hj => ?_) s
  exact t.queueReg_pendingReg_ne _ _ _ (hk j (List.mem_range.1 hj))

theorem State.mem_queueRing_shadow_route {n d : Nat} {ws : List Word} {v : Dword} :
    Shadow.route d v ∈ (s.queueRing n ws).shadow ↔ Shadow.route d v ∈ s.shadow := by
  rw [State.queueRing_eq]
  refine iff_of_eq (foldl_view_const (V := fun t : State => Shadow.route d v ∈ t.shadow) (fun t j _ => propext ?_) s)
  exact State.mem_queueReg_shadow_route

theorem State.mem_queueRing_overrides {s : State} {n k : Nat} {ws : List Word} :
    k ∈ (s.queueRing n ws).overrides ↔ k ∈ s.overrides ∧ ∀ j < 5, k ≠ R.ringCfg n + 4 * j := by
  have step := mem_foldl_overrides (P := fun j k => k ≠ R.ringCfg n + 4 * j) (l := List.range 5) (s := s) (k := k)
    (f := fun s j => (s.queueReg (R.ringCfg n + 4 * j) (ringWord ws j)).basic (R.ringCfg n + 4 * j)) fun _ _ _ => mem_basic_overrides
  simpa only [List.mem_range, State.queueRing_eq] using step

/-- The words of the ring entry that the payload gives in place `i`. -/
def reqRing (i : Nat) : List Word := wordsFrom r.pay (16 + 20 * i) 5

theorem ringWord_reqRing (i : Nat) {j : Nat} (hj : j < 5) :
    ringWord (reqRing r i) j = word (r.at (16 + 20 * i + 4 * j) 4) &&& (if j = 0 then 0x8FFF0FFF else 0xFFFFFFFF) := by
  have : (reqRing r i).getD j 0 = word (r.at (16 + 20 * i + 4 * j) 4) := by simp [reqRing, wordsFrom, List.getD_eq_getElem?_getD, hj, Req.at]
  rw [ringWord, this]

/-- The ring entries of the payload, queued. -/
def State.ringsQueued : State := (List.range (r.at 1 1)).foldl (fun s i => s.queueRing (r.at 2 2 + i) (reqRing r i)) s

theorem ringCfg_disjoint {m n i j : Nat} (h : m ≠ n) (hi : i < 5) (hj : j < 5) : R.ringCfg m + 4 * i ≠ R.ringCfg n + 4 * j := by
  simp only [R.ringCfg, blk]
  omega

theorem State.ringsQueued_pendingReg_in {i j : Nat} (hi : i < r.at 1 1) (hj : j < 5) :
    (s.ringsQueued r).pendingReg (R.ringCfg (r.at 2 2 + i) + 4 * j) = some (ringWord (reqRing r i) j) := by
  have step := foldl_view (P := fun _ => True) (V := fun i (s : State) => s.pendingReg (R.ringCfg (r.at 2 2 + i) + 4 * j))
    (g := fun i _ => some (ringWord (reqRing r i) j)) (f := fun s i => s.queueRing (r.at 2 2 + i) (reqRing r i)) (fun _ _ _ => trivial)
    (fun s i _ => s.queueRing_pendingReg_in _ _ hj)
    (fun s a b _ hb => s.queueRing_pendingReg_out _ _ fun j' hj' => ringCfg_disjoint (by omega) hj hj')
    (List.nodup_range (n := r.at 1 1)) (s := s) trivial i
  rwa [if_pos (List.mem_range.2 hi)] at step

theorem State.ringsQueued_pendingReg_out {k : Nat} (hk : ∀ i < r.at 1 1, ∀ j < 5, k ≠ R.ringCfg (r.at 2 2 + i) + 4 * j) :
    (s.ringsQueued r).pendingReg k = s.pendingReg k :=
  foldl_view_const (V := (·.pendingReg k)) (fun t i hi => t.queueRing_pendingReg_out _ _ (hk i (List.mem_range.1 hi))) s

theorem State.mem_ringsQueued_shadow_route {d : Nat} {v : Dword} : Shadow.route d v ∈ (s.ringsQueued r).shadow ↔ Shadow.route d v ∈ s.shadow :=
  iff_of_eq (foldl_view_const (V := fun t : State => Shadow.route d v ∈ t.shadow) (f := fun s i => s.queueRing (r.at 2 2 + i) (reqRing r i))
    (fun t _ _ => propext t.mem_queueRing_shadow_route) s)

theorem State.mem_ringsQueued_overrides {k : Nat} : k ∈ (s.ringsQueued r).overrides ↔
    k ∈ s.overrides ∧ ∀ i < r.at 1 1, ∀ j < 5, k ≠ R.ringCfg (r.at 2 2 + i) + 4 * j := by
  have step := mem_foldl_overrides (P := fun i k => ∀ j < 5, k ≠ R.ringCfg (r.at 2 2 + i) + 4 * j) (l := List.range (r.at 1 1)) (s := s) (k := k)
    (f := fun s i => s.queueRing (r.at 2 2 + i) (reqRing r i)) fun _ _ _ => State.mem_queueRing_overrides
  simp only [List.mem_range] at step
  exact step

theorem cmdJobRouteSet_act : cmdJobRouteSet.act s r = (if r.at 0 1 = 1 then s.routesQueued r else s.ringsQueued r, some .ok) := rfl

end Routes

end Sys2Proof.Machine
end

section
/-!
O19: the JOB_* commands of routes and reports. How an even number of trips has a median, and which state JOB_STATUS reports of several, are the model's choices
(log entries 62 and 121).
-/
namespace Sys2Proof.Machine

theorem State.routesQueued_frame (s : State) (r : Req) : Frame 0x1100 s (s.routesQueued r) :=
  Frame.foldl (Frame.refl s) fun _ _ h => State.basic_frame rfl (State.queueRoute_frame rfl h)

theorem State.ringsQueued_frame (s : State) (r : Req) : Frame 0x1100 s (s.ringsQueued r) :=
  Frame.foldl (Frame.refl s) fun _ _ h => State.queueRing_frame rfl h

/-- A measurement that one mailbox alone has open goes on until its sixteenth trip (R82). -/
theorem State.probeBack_of_single {s : State} {mb : Nat} {tag : Half} {trips : List Nat} (h : s.link.measures = [⟨mb, tag, trips⟩]) (beats : Nat) :
    s.probeBack mb beats = if (trips ++ [beats]).length < 16 then { s with link := { s.link with measures := [⟨mb, tag, trips ++ [beats]⟩] } }
      else { s with link := { s.link with measures := [] } }.respond mb 0x0605 tag
        (.ok (leBytes 4 (medianOf (trips ++ [beats])) ++ leBytes 4 (medianOf (trips ++ [beats]) / 2))) := by
  simp [State.probeBack, h]

/-- Settles O19, command by command. -/
theorem jobRoutesAndReports : Obligations.JobRoutesAndReports := by
  unfold Obligations.JobRoutesAndReports
  intro r s
  refine ⟨fun h hlen hkind hok => ?set, fun h hlen hok => ?get, fun h hlen l hl hservice hpartner => ?measure, fun mb tag trips n hm => ?probe,
    fun h hpay hjob => ?cursor, fun h hpay => ?status⟩
  case set =>
    refine ⟨_, Cmd.serve_of_ready (c := cmdJobRouteSet) h hlen hkind hok (cmdJobRouteSet_act s r), ?_, fun hone => ?_, fun htwo => ?_⟩
    · exact (Frame.ite (s.routesQueued_frame r) (s.ringsQueued_frame r)).eq
    · rw [if_pos hone]
      exact ⟨fun d v => s.mem_routesQueued_shadow r, s.routesQueued_pendingReg r, fun k => s.mem_routesQueued_overrides r⟩
    · rw [if_neg (by omega)]
      exact ⟨fun i hi j hj => by rw [s.ringsQueued_pendingReg_in r hi hj, ringWord_reqRing r i hj], fun k hk => s.ringsQueued_pendingReg_out r hk,
        fun d v => s.mem_ringsQueued_shadow_route r, fun k => s.mem_ringsQueued_overrides r⟩
  case get => exact Cmd.serve_of_ready (c := cmdJobRouteGet) h (by omega) ((lenIs_iff ..).2 hlen) hok rfl
  case measure =>
    obtain ⟨-, hfamily, hawake⟩ := (safetyReady_iff ..).1 h
    have found : (s.linkTo (r.at 0 2)).isSome = true :=
      List.find?_isSome.2 ⟨l, List.mem_range.2 hl, by simp [hservice, State.field, hpartner]⟩
    have hcheck : cmdJobMeasure.check s r = none :=
      Cmd.check_none (by omega) ((lenIs_iff ..).2 hlen) (.inl rfl) rfl hfamily (.inl hawake) found rfl
    exact Cmd.serve_later (c := cmdJobMeasure) (Cmd.taken_of_serves (safetyServes_of_ready h)) hcheck rfl
  case probe =>
    have back := State.probeBack_of_single hm n.toNat
    rw [List.length_append, List.length_singleton] at back
    exact ⟨fun hlt => congrArg _ (back.trans (if_pos (by omega))), fun heq => congrArg _ (back.trans (if_neg (by omega)))⟩
  case cursor =>
    exact Cmd.serve_of_ready (c := cmdJobCursor) h (by simp [hpay]) ((lenIs_iff ..).2 (by simp [hpay])) rfl rfl hjob
  case status =>
    have code : s.jobState = if !s.job.exists_ then 0 else if s.snap.restore = .running then 4 else if s.job.restart.isSome then 3
        else if s.group.member then 2 else 1 := by simp [State.jobState]
    rw [← code]
    exact Cmd.serve_of_ready (c := cmdJobStatus) h (by simp [hpay]) ((lenIs_iff ..).2 (by simp [hpay])) rfl rfl

end Sys2Proof.Machine
end

section
/-!
O21: the RESTORE_* commands (R65, R472, R485, R487, R491). The layout of RESTORE_STATUS, the earlier of two boundaries of RESTORE_RUN and the two digests of
RESTORE_VERIFY are the model's choices (log entries 104, 121 and 120).
-/
namespace Sys2Proof.Machine

theorem State.restart_issueStop (s : State) (code : Nat) : (s.restart code).tide.issueStop = true := by
  have stopped : s.stopIssue.tide.issueStop = true := rfl
  unfold State.restart
  generalize s.stopIssue = u at stopped ⊢
  rw [← stopped]
  exact congrArg Tide.issueStop
    ((State.masterAbort_frame (ω := 0x600418040) rfl (State.logFull_frame rfl (State.orReg_frame rfl (Frame.refl _)))).tide rfl)

/-- R485: the restore that the payload names, prepared. -/
def Snap.prepare (x : Snap) (r : Req) : Snap := { x with
  restore := .prepared, restoreSeq := word (r.at 0 4), mapAddr := r.at 4 8, mapCount := r.at 12 4, lost := lostIds r, restoreAt := none, restored := 0 }

theorem cmdRestorePrepare_act (s : State) (r : Req) : cmdRestorePrepare.act s r =
    ({ (if s.job.restart.isNone then s.restart 0x0B else s) with snap := (if s.job.restart.isNone then s.restart 0x0B else s).snap.prepare r }, some .ok) := rfl

/-- Settles O21, command by command; RESTORE_PREPARE by whether the job runs. -/
theorem restoreCommandsAct : Obligations.RestoreCommandsAct := by
  unfold Obligations.RestoreCommandsAct
  intro r s
  have prepare (h : Safety.ready 0x0801 r s = true) (hmin : 20 ≤ r.pay.length) (hlen : r.pay.length = 20 + 2 * r.at 16 2) (hcount : r.at 16 2 ≤ 64)
      (hres : r.at 18 2 = 0) (hmap : s.mapOk (r.at 4 8) (r.at 12 4) = true) (hlost : s.job.lost = false)
      (hseq : ∃ x, s.snap.committed = some x ∧ x.block.seq = word (r.at 0 4)) (hfew : s.tooManyLost (lostIds r) = false) {t : State}
      (hact : cmdRestorePrepare.act s r = (t, some .ok)) : exec (.restorePrepare r) s = .next (t.respond r.mb 0x0801 r.tag ⟨0, []⟩) := by
    obtain ⟨x, hx, hseq⟩ := hseq
    refine Cmd.serve_of_ready (c := cmdRestorePrepare) h (by omega) ?_ ?_ hact ?_
    · simp only [cmdRestorePrepare, Bool.and_eq_true, decide_eq_true_eq, beq_iff_eq]
      exact ⟨hmin, hlen⟩
    · simp [cmdRestorePrepare, hcount, hres, hmap]
    · simp [cmdRestorePrepare, hlost, hx, hseq, hfew]
  refine ⟨fun h hmin hlen hcount hres hmap hlost hseq hfew hstopped => ?stopped, fun h hmin hlen hcount hres hmap hlost hseq hfew hruns => ?running,
    fun h hlen htables hprep => ?run, fun h hpay => ?status, fun h hpay b hb => ?verify⟩
  case stopped =>
    refine prepare h hmin hlen hcount hres hmap hlost hseq hfew ?_
    rw [cmdRestorePrepare_act, if_neg (by simpa [Option.isSome_iff_ne_none] using hstopped)]
    rfl
  case running =>
    refine ⟨prepare h hmin hlen hcount hres hmap hlost hseq hfew ?_, by rw [State.restart_job], s.restart_issueStop 0x0B⟩
    rw [cmdRestorePrepare_act, if_pos (by simp [hruns])]
    rfl
  case run =>
    have serve {t : State} {p : Reply} (hact : cmdRestoreRun.act s r = (t, some p)) : exec (.restoreRun r) s = .next (t.respond r.mb 0x0802 r.tag p) :=
      Cmd.serve_of_ready (c := cmdRestoreRun) h (by omega) ((lenIs_iff ..).2 hlen) htables hact (by simp [cmdRestoreRun, hprep])
    refine ⟨fun hlate => serve ?_, fun hin => serve ?_⟩
    · simp only [cmdRestoreRun, hlate, if_true]
      rfl
    · simp only [cmdRestoreRun, hin, Bool.false_eq_true, if_false]
      cases s.snap.restoreAt <;> cases s.tide.running <;> rfl
  case status =>
    refine (Cmd.serve_of_ready (c := cmdRestoreStatus) (t := s) h (by simp [hpay]) ((lenIs_iff ..).2 (by simp [hpay])) rfl rfl).trans ?_
    cases s.snap.restore <;> rfl
  case verify =>
    refine Cmd.serve_of_ready (c := cmdRestoreVerify) (t := s) h (by simp [hpay]) ((lenIs_iff ..).2 (by simp [hpay])) rfl ?_ (by simp [cmdRestoreVerify, hb])
    simp only [cmdRestoreVerify, hb, Option.map_some, Option.getD_some]
    rfl

end Sys2Proof.Machine
end

section
/-!
O22: the TEL_* commands (R118, R120, R121, R303, R518).
-/
namespace Sys2Proof.Machine

theorem Log.advance_eq (l : Log) (got : List (Word × LogEntry)) : l.advance got = { l with read := (got.getLast?.map (·.1)).getD l.read } := by
  unfold Log.advance
  split
  next h => rw [h]; rfl
  next h => rw [h]; rfl

/-- R121: with ADVANCE the read pointer moves, which may leave the log high. -/
theorem cmdTelLogRead_act (s : State) (r : Req) : cmdTelLogRead.act s r =
    (if r.at 4 1 = 1 then { s with log := s.log.advance (s.log.from_ (word (r.at 0 4)) 3) }.logHigh s.log.unread else s,
      some (.ok (leBytes 4 (s.log.from_ (word (r.at 0 4)) 3).length ++ leBytes 4 s.log.lost.toNat
        ++ (s.log.from_ (word (r.at 0 4)) 3).flatMap fun e => e.2.bytes e.1))) := rfl

section Counters

/-- `n` counters from `k` on. -/
def counterRun (k n : Nat) : List Nat := (List.range n).map fun i => k + 4 * i

theorem counterRun_length (k n : Nat) : (counterRun k n).length = n := by simp [counterRun]

/-- The counters of the device group of each block (Table 17.3). -/
def deviceCounters : List (Nat × List Nat) :=
  [(0x01, counterRun R.throttles 2), (0x09, counterRun R.skippedSteps 3 ++ [R.numAlarms]), (0x0A, counterRun R.spillChunks 7),
    (0x0B, counterRun R.gateWaitCycles 5), (0x0C, counterRun R.snapshots 5), (0x11, counterRun R.reelStalls 2), (0x12, [R.sramCeCount]),
    (0x13, counterRun R.bucketsDone 7), (0x18, [R.routeErrors])]

/-- The counters of one unit of each block, and how many units it has. -/
def unitCounters : List (Nat × Nat × (Nat → List Nat)) :=
  [(0x01, 40, fun u => [R.swells u, R.xingHolds u, R.marginRuns u]), (0x03, 2, fun u => counterRun (R.portFecCorrected u) 9), (0x05, 16, fun _ => []),
    (0x10, 256, fun u => counterRun (R.chkFails u) 8), (0x11, 256, fun u => counterRun (R.fwdVectors u) 6), (0x12, 256, fun u => counterRun (R.coreStall u) 10),
    (0x13, 16, fun _ => []), (0x18, 64, fun u => counterRun (R.crcErrors u) 7),
    (0x20, 16, fun u => if u < 8 then counterRun (R.copyPtr u) 3 else counterRun (R.chCeCount (u - 8)) 4)]

theorem counterGroup_device (block : Nat) : (counterGroup block).1 = (deviceCounters.lookup block).getD [] := by
  unfold counterGroup
  split
  case h_14 => rw [List.lookup_eq_none_iff.2 (by simp [deviceCounters]; grind), Option.getD_none]
  all_goals rfl

theorem counterGroup_device_length (block : Nat) : (counterGroup block).1.length ≤ 56 := by
  unfold counterGroup
  split <;> simp

theorem counterGroup_unit {block n : Nat} {f : Nat → List Nat} (h : (block, n, f) ∈ unitCounters) : (counterGroup block).2 = (n, f) := by
  simp only [unitCounters, List.mem_cons, Prod.mk.injEq, List.not_mem_nil, or_false] at h
  obtain ⟨rfl, rfl, rfl⟩ | ⟨rfl, rfl, rfl⟩ | ⟨rfl, rfl, rfl⟩ | ⟨rfl, rfl, rfl⟩ | ⟨rfl, rfl, rfl⟩ | ⟨rfl, rfl, rfl⟩ | ⟨rfl, rfl, rfl⟩ | ⟨rfl, rfl, rfl⟩ |
    ⟨rfl, rfl, rfl⟩ := h <;> rfl

theorem unitCounters_length {block n : Nat} {f : Nat → List Nat} (h : (block, n, f) ∈ unitCounters) (u : Nat) : (f u).length ≤ 56 := by
  have all : ∀ x ∈ unitCounters, (x.2.2 u).length ≤ 56 := by
    simp only [unitCounters, List.forall_mem_cons, counterRun_length, List.length_cons, List.length_nil, List.not_mem_nil, false_imp_iff, implies_true]
    refine ⟨by decide, by decide, by decide, by decide, by decide, by decide, by decide, by decide, ?_, trivial⟩
    split <;> rw [counterRun_length] <;> decide
  exact all _ h

theorem cmdTelCounters_act (s : State) (r : Req) {ks : List Nat}
    (hks : (if r.at 1 1 = 0xFF then (counterGroup (r.at 0 1)).1 else (counterGroup (r.at 0 1)).2.2 (r.at 1 1)) = ks) (hlen : ks.length ≤ 56) :
    cmdTelCounters.act s r = (s, some (.ok (ks.flatMap fun k => leBytes 4 (s.look enmoraReq k).toNat))) := by
  simp only [cmdTelCounters, hks, List.take_of_length_le hlen]

end Counters

/-- Settles O22, command by command; TEL_COUNTERS by the table of its groups. -/
theorem telemetryCommandsAct : Obligations.TelemetryCommandsAct := by
  unfold Obligations.TelemetryCommandsAct
  intro r s
  refine ⟨fun h hlen hadv => ?read, fun h hpay => ?status, fun h hlen hres halign hrange => ?area, fun h hlen hres hkind hhi hlo => ?alarm,
    fun h hlen hlisted hsealed => ?counters, fun h hlen hmask => ?mask⟩
  case read =>
    intro held got p t
    have serve {u : State} (hact : cmdTelLogRead.act s r = (u, some p)) : exec (.telLogRead r) s = .next (u.respond r.mb 0x0901 r.tag p) :=
      Cmd.serve_of_serves (c := cmdTelLogRead) h (by omega) ((lenIs_iff ..).2 hlen) (by simp [cmdTelLogRead]; omega) hact
    have advanced : { s with log := s.log.advance (s.log.from_ (word (r.at 0 4)) 3) } = t := by
      rw [Log.advance_eq]
      rfl
    refine ⟨fun h0 => serve ?_, fun h1 => serve ?_⟩
    · rw [cmdTelLogRead_act, if_neg (by omega)]
      rfl
    · rw [cmdTelLogRead_act, if_pos h1, advanced]
      rfl
  case status =>
    refine (Cmd.serve_of_serves (c := cmdTelLogStatus) (t := s) h (by simp [hpay]) ((lenIs_iff ..).2 (by simp [hpay])) rfl rfl).trans ?_
    simp only [List.flatMap_cons, List.flatMap_nil, List.append_nil, List.append_assoc]
    rfl
  case area =>
    refine Cmd.serve_of_serves (c := cmdTelAreaSet) h (by omega) ((lenIs_iff ..).2 hlen) ?_ rfl
    simpa [cmdTelAreaSet, hres, halign] using hrange
  case alarm =>
    have hparam : alarmSetOk s r = true := by
      obtain ⟨htype, hlt⟩ | ⟨htype | htype, hlt, hzero⟩ := hkind
      · simp [alarmSetOk, hres, htype, State.regN, hlt]
      · simp [alarmSetOk, hres, htype, State.regN, hlt, hzero]
      · simp [alarmSetOk, hres, htype, State.regN, hlt, hzero]
    have put {m : List (Nat × Word)} (hm : Sparse.wf (fun _ => (0 : Word)) m = true) (v : Word) (k : Nat) :
        Sparse.get 0 (Sparse.put 0 m (r.at 2 1 * 1024 + r.at 0 2) v) k = if k = r.at 2 1 * 1024 + r.at 0 2 then v else Sparse.get 0 m k := by
      split
      next hk => rw [hk]; exact Sparse.get_put_self (fun _ => 0) m _ v hm
      next hk => exact Sparse.get_put_ne 0 0 m v hk
    exact ⟨_, Cmd.serve_of_serves (c := cmdTelAlarmSet) h (by omega) ((lenIs_iff ..).2 hlen) hparam rfl, rfl, put hhi _, put hlo _⟩
  case counters =>
    intro run device unit
    have serve {ks : List Nat} (hin : r.at 1 1 = 0xFF ∨ r.at 1 1 < (counterGroup (r.at 0 1)).2.1)
        (hks : (if r.at 1 1 = 0xFF then (counterGroup (r.at 0 1)).1 else (counterGroup (r.at 0 1)).2.2 (r.at 1 1)) = ks) (hks56 : ks.length ≤ 56) :
        exec (.telCounters r) s = .next (s.respond r.mb 0x0905 r.tag ⟨0, ks.flatMap fun k => leBytes 4 (s.look enmoraReq k).toNat⟩) := by
      refine Cmd.serve_of_serves (c := cmdTelCounters) h (by omega) ((lenIs_iff ..).2 hlen) ?_ (cmdTelCounters_act s r hks hks56)
      simpa [cmdTelCounters, countersOk, hlisted, hsealed] using hin
    refine ⟨fun hall => ?_, fun hone n f hmem hlt => ?_⟩
    · have group := counterGroup_device (r.at 0 1)
      exact serve (.inl hall) ((if_pos hall).trans group) (group ▸ counterGroup_device_length _)
    · have group := counterGroup_unit hmem
      exact serve (.inr (by rw [group]; exact hlt)) ((if_neg hone).trans (by rw [group])) (unitCounters_length hmem _)
  case mask =>
    refine Cmd.serve_of_serves (c := cmdTelEventMask) h (by omega) ((lenIs_iff ..).2 hlen) ?_ rfl
    simp [cmdTelEventMask]
    omega

end Sys2Proof.Machine
end

section
/-!
O23: the SEC_* commands (R112, R570, R575, R576, R578 to R580, R582). That an index of TIDE_MEASURES returns no entry, and what a command of a session that is
gone answers, are the model's choices (log entries 120 and 110).
-/
namespace Sys2Proof.Machine

theorem State.reqSession_of_open {s : State} {mb n : Nat} {x : Session} (hposter : s.posterOf mb = some n) (hsession : s.session n = some x) :
    s.reqSession mb = some (n, x) := by simp [State.reqSession, hposter, hsession]

theorem State.reqSession_of_gone {s : State} {mb : Nat} (h : ∀ n, s.posterOf mb = some n → s.session n = none) : s.reqSession mb = none := by
  unfold State.reqSession
  cases hposter : s.posterOf mb with
  | none => rfl
  | some n => simp [h n hposter]

/-- R578: an entry is held when its place is within the ring. -/
theorem State.measureEntry_eq (s : State) (i : Nat) : s.measureEntry i = if i < s.lys.tideMeasures.toNat then
    (s.lys.measures[s.lys.tideMeasures.toNat - 1 - i]?).map fun e => leBytes 8 i ++ leBytes 8 e.1.toNat ++ e.2 else none := by
  unfold State.measureEntry
  dsimp only
  by_cases hi : i < s.lys.tideMeasures.toNat
  · by_cases hheld : s.lys.tideMeasures.toNat - 1 - i < s.lys.measures.length
    · rw [if_pos ⟨hi, hheld⟩, if_pos hi]
    · rw [if_neg fun h => hheld h.2, if_pos hi, List.getElem?_eq_none (by omega)]
      rfl
  · rw [if_neg fun h => hi h.1, if_neg hi]

theorem flatten_toList_append (a b : Option (List Byte)) : (a.toList ++ b.toList).flatten = a.getD [] ++ b.getD [] := by
  cases a <;> cases b <;> simp

/-- Settles O23, command by command; SEC_EXPERT by whether the signature verifies. -/
theorem securityCommandsAct : Obligations.SecurityCommandsAct := by
  unfold Obligations.SecurityCommandsAct
  intro r s
  refine ⟨fun h hlen c hwhich hc hpart => ?cert, fun h hlen n x hposter hsession => ?attest, fun h hlen => ?measures,
    fun h hlen n x hposter hsession => ?expert, fun h hlen hgone => ?expertGone, fun h hpay n x hposter hsession => ?drop, fun h hpay hgone => ?dropGone,
    fun h hpay => ?selftest⟩
  case cert =>
    subst hc
    refine Cmd.serve_of_serves (c := cmdSecCertGet) h (by omega) ((lenIs_iff ..).2 hlen) ?_ rfl
    simp only [cmdSecCertGet, Bool.and_eq_true, decide_eq_true_eq]
    exact ⟨hwhich, hpart⟩
  case attest =>
    have session := State.reqSession_of_open hposter hsession
    have serve {t : State} {p : Reply} (hparam : r.at 0 1 < 3) (hstate : r.at 0 1 = 0 ∨ x.report.isSome = true) (hact : cmdSecAttest.act s r = (t, some p)) :
        exec (.secAttest r) s = .next (t.respond r.mb 0x0A02 r.tag p) := by
      refine Cmd.serve_of_serves (c := cmdSecAttest) h (by omega) ((lenIs_iff ..).2 hlen) (decide_eq_true hparam) hact rfl rfl ?_
      simpa [cmdSecAttest, session] using hstate
    refine ⟨fun hzero => ?_, fun hone htwo rep hrep => ?_⟩
    · refine serve (by omega) (.inl hzero) ?_
      simp only [cmdSecAttest, session, hzero, if_true]
      rfl
    · refine serve (by omega) (.inr (by rw [hrep]; rfl)) ?_
      simp only [cmdSecAttest, session, if_neg (show r.at 0 1 ≠ 0 by omega), hrep]
      rfl
  case measures =>
    intro total ent hindex
    have held (i : Nat) : s.measureEntry i = ent i := s.measureEntry_eq i
    refine Cmd.serve_of_serves (c := cmdSecMeasureLog) (t := s) h (by omega) ((lenIs_iff ..).2 hlen) ?_ ?_
    · have hle : r.at 0 8 ≤ total := by
        obtain heq | hsome := hindex
        · exact Nat.le_of_eq heq
        · by_contra hgt
          rw [show ent (r.at 0 8) = none from if_neg (by omega)] at hsome
          exact absurd hsome (by decide)
      simp only [cmdSecMeasureLog, Bool.and_eq_true, Bool.or_eq_true, decide_eq_true_eq, beq_iff_eq, held]
      exact ⟨hle, hindex⟩
    · simp only [cmdSecMeasureLog, held, flatten_toList_append, ← List.append_assoc]
      rfl
  case expert =>
    have session := State.reqSession_of_open hposter hsession
    have serve {t : State} {p : Reply} (hact : cmdSecExpert.act s r = (t, some p)) : exec (.secExpert r) s = .next (t.respond r.mb 0x0A04 r.tag p) :=
      Cmd.serve_of_serves (c := cmdSecExpert) h (by omega) ((lenIs_iff ..).2 hlen) rfl hact
    refine ⟨fun hverifies => ?_, fun hfails => ?_⟩
    · intro u
      refine serve ?_
      simp only [cmdSecExpert, session, hverifies, if_true]
      rfl
    · intro u
      have fail : s.expertFail n x = if x.expertFails < 7 then u else u.closeSession n 4 := by
        unfold State.expertFail
        by_cases hlt : x.expertFails < 7
        · rw [if_pos hlt, if_neg (by omega)]
        · rw [if_neg hlt, if_pos (by omega)]
      refine serve ?_
      simp only [cmdSecExpert, session, hfails, Bool.false_eq_true, if_false, fail]
      rfl
  case expertGone =>
    refine Cmd.serve_of_serves (c := cmdSecExpert) (t := s) h (by omega) ((lenIs_iff ..).2 hlen) rfl ?_
    simp only [cmdSecExpert, State.reqSession_of_gone hgone]
    rfl
  case drop =>
    refine Cmd.serve_of_serves (c := cmdSecDrop) h (by simp [hpay]) ((lenIs_iff ..).2 (by simp [hpay])) rfl ?_
    simp only [cmdSecDrop, State.reqSession_of_open hposter hsession]
    rfl
  case dropGone =>
    refine Cmd.serve_of_serves (c := cmdSecDrop) (t := s) h (by simp [hpay]) ((lenIs_iff ..).2 (by simp [hpay])) rfl ?_
    simp only [cmdSecDrop, State.reqSession_of_gone hgone]
    rfl
  case selftest =>
    refine ⟨Cmd.serve_of_serves (c := cmdSecSelftest none) h (by simp [hpay]) ((lenIs_iff ..).2 (by simp [hpay])) rfl rfl, fun f => ?_⟩
    obtain ⟨-, hfamily⟩ := (safetyServes_iff ..).1 h
    exact Cmd.serve_later (c := cmdSecSelftest (some f)) (Cmd.taken_of_serves h)
      (Cmd.check_none (by simp [hpay]) ((lenIs_iff ..).2 (by simp [hpay])) (.inl rfl) rfl hfamily (.inr rfl) rfl rfl) rfl

end Sys2Proof.Machine
end

section
/-!
O24: the REG_* commands (R110, R111, R588, R590).
-/
namespace Sys2Proof.Machine

/-- A fold over `n + 1` consecutive words is the first word's step and the fold over the rest. -/
theorem foldl_words_succ {σ : Type} (f : σ → Nat → Nat → σ) (k n : Nat) (s : σ) :
    (List.range (n + 1)).foldl (fun t i => f t (k + 4 * i) i) s = (List.range n).foldl (fun t i => f t (k + 4 + 4 * i) (i + 1)) (f s k 0) := by
  rw [List.range_succ_eq_map, List.foldl_cons, List.foldl_map]
  simp only [Nat.mul_zero, Nat.add_zero, Nat.succ_eq_add_one, Nat.mul_add, Nat.mul_one, Nat.add_comm, Nat.add_assoc]

/-- The state after `n` words from `k` have been read. -/
def State.afterReads (s : State) (q k n : Nat) : State := (List.range n).foldl (fun t i => t.readEffect q (k + 4 * i)) s

theorem State.afterReads_succ (s : State) (q k n : Nat) : s.afterReads q k (n + 1) = (s.readEffect q k).afterReads q (k + 4) n :=
  foldl_words_succ (fun (t : State) k _ => t.readEffect q k) k n s

/-- R110, R590: each word is read after the effects of those before. -/
theorem State.readRegs_eq (s : State) (q k n : Nat) :
    s.readRegs q k n = ((List.range n).map fun i => (s.afterReads q k i).look q (k + 4 * i), s.afterReads q k n) := by
  induction n generalizing s k with
  | zero => rfl
  | succ n ih =>
    rw [State.readRegs, ih, List.range_succ_eq_map, List.map_cons, List.map_map, State.afterReads_succ]
    simp only [Function.comp_def, Nat.succ_eq_add_one, State.afterReads_succ, Nat.mul_add, Nat.mul_one, Nat.add_assoc, Nat.add_comm 4]
    rfl

theorem State.writeRegs_map_range (s : State) (q : Nat) (via : Via) (mark : Bool) (k n : Nat) (f : Nat → Word) :
    s.writeRegs q via mark k ((List.range n).map f) = (List.range n).foldl (fun t i => t.writeReg q via mark (k + 4 * i) (f i)) s := by
  induction n generalizing s k f with
  | zero => rfl
  | succ n ih =>
    rw [foldl_words_succ (fun (t : State) k i => t.writeReg q via mark k (f i)), ← ih _ _ fun i => f (i + 1), List.range_succ_eq_map, List.map_cons, List.map_map]
    rfl

theorem pollHit_eq (v mask value : Word) : pollHit v mask value = decide (v &&& mask = value &&& mask) := by
  rw [Bool.eq_iff_iff, pollHit, beq_iff_eq, decide_eq_true_iff]

/-- The poll that a mailbox waits on, read once more. -/
theorem execRegPollEnd_of_waiting {s : State} {mb : Fin 16} {p : Poll} (h : s.enm.polls.find? (·.mb == mb.val) = some p) (late : Bool) :
    exec (.regPollEnd mb late) s = .next (s.pollEnd p late) := by
  show execRegPollEnd mb late s = _
  rw [execRegPollEnd, h]

theorem execRegPollEnd_of_none {s : State} {mb : Fin 16} (h : s.enm.polls.find? (·.mb == mb.val) = none) (late : Bool) :
    exec (.regPollEnd mb late) s = .next s := by
  show execRegPollEnd mb late s = _
  rw [execRegPollEnd, h]

/-- Settles O24: each command by the registers it reads and writes, a later read of a poll by whether it matches or is late. -/
theorem registerCommandsAct : Obligations.RegisterCommandsAct := by
  unfold Obligations.RegisterCommandsAct
  intro r s k hexpert hkey hblock hres hlo hhi q hq
  subst hq
  have reqKey : regReqK r = k := by rw [regReqK, regReqKey, hkey, Option.getD_some]
  have param {one : Bool} (hone : one = true → r.at 8 4 = 1) : regReqOk r one = true := by
    cases one with
    | false => simp [regReqOk, regReqKey, hkey, hlo, hhi, hres]
    | true =>
      have hone := hone rfl
      rw [hone] at hkey
      simp [regReqOk, regReqKey, hone, hkey, hres]
  have denied : regReqDenied r = false := by simpa [regReqDenied, reqKey] using hblock
  have passes {c : Cmd} (h : Safety.ready c.op r s = true) (hpay : r.pay.length ≤ 240) (hlen : c.len r.pay = true) (hparam : c.param s r = true)
      (hstate : c.state s r = true) (hdenied : c.denied s r = false) : c.check s r = none := by
    obtain ⟨-, hfamily, hawake⟩ := (safetyReady_iff ..).1 h
    exact Cmd.check_none hpay hlen (.inr hexpert) hparam hfamily (.inl hawake) hstate hdenied
  have taken {c : Cmd} (h : Safety.ready c.op r s = true) : c.taken r s = true := Cmd.taken_of_serves (safetyServes_of_ready h)
  refine ⟨fun h hlen => ?read, fun h hlen hmax hwrites => ?write, fun h hlen hone hwrites => ?modify, fun h hlen hone => ?poll, fun p late hp hpk => ?pollEnd,
    fun late hnone => execRegPollEnd_of_none hnone late⟩
  case read =>
    intro after
    refine Cmd.serve_reply (c := cmdRegRead) (taken h) (passes (c := cmdRegRead) h (by omega) ((lenIs_iff ..).2 hlen) (param (by simp)) rfl denied) ?_
    simp only [cmdRegRead, reqKey, State.readRegs_eq, wordBytes, List.flatMap_map]
    rfl
  case write =>
    have allowed : s.rangeRefused k (r.at 8 4) = false := List.any_eq_false.2 fun i hi => by simp [hwrites i (List.mem_range.1 hi)]
    refine Cmd.serve_reply (c := cmdRegWrite) (taken h)
      (passes (c := cmdRegWrite) h hmax (beq_iff_eq.2 hlen) (param (by simp)) (by simp [cmdRegWrite, reqKey, allowed]) denied) ?_
    simp only [cmdRegWrite, reqKey, wordsFrom, State.writeRegs_map_range]
    rfl
  case modify =>
    intro new
    have allowed : s.rangeRefused k 1 = false := by simp [State.rangeRefused, hwrites]
    refine Cmd.serve_reply (c := cmdRegModify) (taken h)
      (passes (c := cmdRegModify) h (by omega) ((lenIs_iff ..).2 hlen) (param fun _ => hone) (by simp [cmdRegModify, reqKey, allowed]) denied) ?_
    simp only [cmdRegModify, reqKey, wordBytes, List.flatMap_cons, List.flatMap_nil, List.append_nil]
    rfl
  case poll =>
    have check := passes (c := cmdRegPoll) h (by omega) ((lenIs_iff ..).2 hlen) (param fun _ => hone) rfl denied
    split
    next hit =>
      refine Cmd.serve_reply (c := cmdRegPoll) (taken h) check ?_
      simp only [cmdRegPoll, reqKey, pollHit_eq, hit, decide_true, if_true]
      rfl
    next miss =>
      refine Cmd.serve_later (c := cmdRegPoll) (t := { s.readEffect (s.requester r.mb) k with enm := { (s.readEffect (s.requester r.mb) k).enm with
        polls := (s.readEffect (s.requester r.mb) k).enm.polls ++ [⟨r.mb, r.tag, k, word (r.at 16 4), word (r.at 20 4)⟩] } }) (taken h) check ?_
      simp only [cmdRegPoll, reqKey, pollHit_eq, miss, decide_false, Bool.false_eq_true, if_false]
  case pollEnd =>
    intro u
    have hmb : p.mb = r.mb := by simpa using List.find?_some hp
    rw [execRegPollEnd_of_waiting hp, State.pollEnd, hmb, hpk, pollHit_eq]
    by_cases hit : s.look (s.requester r.mb) k &&& p.mask = p.value &&& p.mask
    · simp only [hit, decide_true, Bool.true_or, true_or, if_true]
      rfl
    · cases late with
      | true =>
        simp only [hit, decide_false, Bool.or_true, or_true, if_true, if_false]
        rfl
      | false =>
        simp only [hit, decide_false, Bool.or_false, or_false, Bool.false_eq_true, if_false]
        rfl

end Sys2Proof.Machine
end

section
/-!
O27, O29: a doorbell of a bay after a thermal trip (R513), and the failure of an Enmora core where the failed cores are none of the four (R86, R90).
-/
namespace Sys2Proof.Machine

/-- A tripped device, bay 0 of which is powered off. -/
def trippedDark : State := { State.reset with regs := [(R.regionState 0, 2)], rst := { State.reset.rst with tripped := true } }

/-- Refutes O27: the clause on a doorbell of a bay has a bay that is powered off wait for its clock afterwards, in any state; after a thermal trip the model powers
none. In the counterexample bay 0 of a tripped device is off, and its mailbox is rung. -/
theorem not_doorbellsAndReleasesAct : ¬ Obligations.DoorbellsAndReleasesAct := by
  unfold Obligations.DoorbellsAndReleasesAct
  intro h
  obtain ⟨-, rings, -⟩ := h trippedDark (by decide +kernel)
  obtain ⟨-, free⟩ := rings 0 []
  obtain ⟨t, exec_t, -, -, -, -, powered⟩ := free (by decide +kernel) (by decide)
  have mode : t.regionMode 0 = 3 := powered (.inl (by decide +kernel))
  have off : (match exec (.e2bDoorbell 0 []) trippedDark with | .next t => t.regionMode 0 | _ => 0) = 2 := by decide +kernel
  rw [exec_t] at off
  exact absurd (off.symm.trans mode) (by decide)

/-- A device whose firmware runs, in a replay, with three failed cores of numbers that no Enmora core has: cores 0 to 3 all run. -/
def strayFailures : State :=
  { State.reset with
    enm := { State.reset.enm with running := true, failed := [4, 5, 6] }
    tide := { State.reset.tide with replayed := true } }

/-- Refutes O29: its last clause takes three failed cores and a fourth that fails to leave none, in any state; where the three are not of the four cores of R86
(a state that no run reaches, which the statement does not exclude), core 3 takes the role of core 0, and the spare used in a replay restarts the job (R471). -/
theorem not_enmoraCoreFailureActs : ¬ Obligations.EnmoraCoreFailureActs := by
  unfold Obligations.EnmoraCoreFailureActs
  intro h
  obtain ⟨-, -, -, -, lastCore⟩ := h 0 strayFailures
  obtain ⟨t, exec_t, -, -, job_t, -⟩ := lastCore rfl (by decide) rfl
  have restarted : (match exec (.enmoraCoreFail 0) strayFailures with | .next t => t.job.restart | _ => none) = some 0x02 := by decide +kernel
  rw [exec_t] at restarted
  have kept : t.job.restart = none := congrArg Job.restart job_t
  exact absurd (kept.symm.trans restarted) (by decide)

end Sys2Proof.Machine
end

section
/-!
O28: the Command role's turns.
-/
namespace Sys2Proof.Machine

/-! ### A slot reads as it was written (R91) -/

section Slots

variable {s : State} {k : Nat}

theorem leNat_lt (bs : List Byte) : leNat bs < 256 ^ bs.length := by
  induction bs with
  | nil => exact Nat.one_pos
  | cons b bs ih =>
    have low := b.isLt
    rw [leNat, List.length_cons, Nat.pow_succ]
    omega

theorem bytesAt_lt (bs : List Byte) (at_ n : Nat) : bytesAt bs at_ n < 256 ^ n :=
  (leNat_lt _).trans_le (Nat.pow_le_pow_right (by decide) (List.length_take_le ..))

theorem padBytes_length (n : Nat) (bs : List Byte) : (padBytes n bs).length = n := by
  rw [padBytes, List.length_take, List.length_append, List.length_replicate]
  omega

/-- The first `n` words of a slot written. -/
def State.setWords (s : State) (k : Nat) (bs : List Byte) (n : Nat) : State :=
  (List.range n).foldl (fun s i => s.setReg (k + 4 * i) (word (bytesAt bs (4 * i) 4))) s

theorem State.setWords_succ (s : State) (k : Nat) (bs : List Byte) (n : Nat) :
    s.setWords k bs (n + 1) = (s.setWords k bs n).setReg (k + 4 * n) (word (bytesAt bs (4 * n) 4)) := by
  rw [State.setWords, List.range_succ, List.foldl_append]
  rfl

theorem State.setWords_wf (h : Sparse.wf regReset s.regs = true) (bs : List Byte) (n : Nat) : Sparse.wf regReset (s.setWords k bs n).regs = true := by
  induction n with
  | zero => exact h
  | succ n ih => rw [State.setWords_succ]; exact State.setReg_wf _ _ _ ih

theorem State.setWords_reg_ne (s : State) {j : Nat} (bs : List Byte) {n : Nat} (h : ∀ i < n, j ≠ k + 4 * i) : (s.setWords k bs n).reg j = s.reg j := by
  induction n with
  | zero => rfl
  | succ n ih =>
    rw [State.setWords_succ, State.setReg_reg_ne _ _ _ _ (h n (by omega))]
    exact ih fun i hi => h i (by omega)

theorem State.setWords_reg (h : Sparse.wf regReset s.regs = true) (bs : List Byte) {n i : Nat} (hi : i < n) :
    (s.setWords k bs n).reg (k + 4 * i) = word (bytesAt bs (4 * i) 4) := by
  induction n with
  | zero => omega
  | succ n ih =>
    rw [State.setWords_succ, State.setReg_reg (State.setWords_wf h bs n)]
    split
    next last => rw [show i = n by omega]
    next before => exact ih (by omega)

theorem State.setSlot_wf (h : Sparse.wf regReset s.regs = true) (bs : List Byte) : Sparse.wf regReset (s.setSlot k bs).regs = true :=
  State.setWords_wf h bs 64

theorem State.setSlot_reg_ne (s : State) {j : Nat} (bs : List Byte) (h : ∀ i < 64, j ≠ k + 4 * i) : (s.setSlot k bs).reg j = s.reg j :=
  State.setWords_reg_ne s bs h

theorem flatMap_words (bs : List Byte) {n : Nat} (h : 4 * n ≤ bs.length) :
    ((List.range n).flatMap fun i => leBytes 4 (bytesAt bs (4 * i) 4)) = bs.take (4 * n) := by
  induction n with
  | zero => rfl
  | succ n ih =>
    rw [List.range_succ, List.flatMap_append, ih (by omega), List.flatMap_singleton, leBytes_bytesAt (by omega), Nat.mul_succ, List.take_add]

theorem State.slot_of_words {t : State} {bs : List Byte} (hlen : bs.length = 256) (h : ∀ i < 64, t.reg (k + 4 * i) = word (bytesAt bs (4 * i) 4)) :
    t.slot k = bs := by
  have words : t.slot k = (List.range 64).flatMap fun i => leBytes 4 (bytesAt bs (4 * i) 4) := by
    refine List.flatMap_congr fun i hi => ?_
    rw [State.regN, h i (List.mem_range.mp hi), word, BitVec.toNat_ofNat, Nat.mod_eq_of_lt (b := 2 ^ 32) (bytesAt_lt bs (4 * i) 4)]
  rw [words, flatMap_words bs (by omega), List.take_of_length_le (by omega)]

/-- A slot written, and then registers that are none of its words: it reads as it was written. -/
theorem State.slot_setSlot {t : State} (h : Sparse.wf regReset s.regs = true) {bs : List Byte} (hlen : bs.length = 256)
    (same : ∀ i < 64, t.reg (k + 4 * i) = (s.setSlot k bs).reg (k + 4 * i)) : t.slot k = bs :=
  State.slot_of_words hlen fun i hi => (same i hi).trans (State.setWords_reg h bs hi)

end Slots

/-! ### One bit of a mailbox register -/

section Bits

variable {s : State} {k n : Nat}

theorem State.orReg_bit (h : Sparse.wf regReset s.regs = true) (hn : n < 32) : bit ((s.orReg k (2 ^ n)).reg k) n = true := by
  rw [State.orReg, State.setReg_reg_self _ _ _ h, bit, BitVec.getLsbD_or, word, BitVec.getLsbD_ofNat, Nat.testBit_two_pow_self, decide_eq_true hn]
  exact Bool.or_true _

theorem State.andNotReg_bit (h : Sparse.wf regReset s.regs = true) (hn : n < 32) : bit ((s.andNotReg k (2 ^ n)).reg k) n = false := by
  rw [State.andNotReg, State.setReg_reg_self _ _ _ h, bit, BitVec.getLsbD_and, BitVec.getLsbD_not, word, BitVec.getLsbD_ofNat, Nat.testBit_two_pow_self,
    decide_eq_true hn]
  exact Bool.and_false _

theorem State.orReg_wf (h : Sparse.wf regReset s.regs = true) (m : Nat) : Sparse.wf regReset (s.orReg k m).regs = true := State.setReg_wf _ _ _ h

theorem State.andNotReg_reg_ne (s : State) {j : Nat} (m : Nat) (h : j ≠ k) : (s.andNotReg k m).reg j = s.reg j := State.setReg_reg_ne s k j _ h

end Bits

/-! ### Taking commands (R102, R104, R109) -/

theorem State.h2eNext_readEffect (s : State) (q : Nat) :
    s.readEffect q R.h2eNext = if q = enmoraReq ∧ s.commandRuns then s.takeNext else s := by
  rw [State.readEffect, if_neg (by decide), if_neg (by decide), if_neg (by decide), if_pos rfl]

theorem State.untaken_eq_false_iff (s : State) (n : Nat) :
    s.untaken n = false ↔ bit (s.reg R.h2eFull) n = false ∨ ∃ x ∈ s.enm.taken, x.mb = n := by
  simp only [State.untaken, State.mbit, Bool.and_eq_false_iff, Bool.not_eq_false', List.any_eq_true, beq_iff_eq]

theorem State.takeIf_eq (s : State) (n : Nat) : s.takeIf n =
    let m := s.slot (R.h2eSlot n)
    let v : State := { s with enm := { s.enm with
      taken := s.enm.taken ++ [⟨n, BitVec.ofNat 16 (bytesAt m 0 2), headerTag m, msgPayload m, .waiting⟩] } }
    if bit (s.reg R.h2eFull) n = false ∨ ∃ x ∈ s.enm.taken, x.mb = n then s
    else if headerOk m = false then
      (v.logFull 0x0400 0x0028 0xFFFF (headerTag m) (leBytes 1 0 ++ leBytes 1 n) []).respond n (bytesAt m 0 2) (headerTag m) ⟨1, []⟩
    else if opcodeListed (bytesAt m 0 2) = false then v.respond n (bytesAt m 0 2) (headerTag m) ⟨3, []⟩
    else v := by
  simp only [State.takeIf, ← State.untaken_eq_false_iff]
  cases s.untaken n with
  | false => rfl
  | true =>
    rw [if_pos rfl, if_neg (by decide), State.take]
    cases headerOk (s.slot (R.h2eSlot n)) <;> cases opcodeListed (bytesAt (s.slot (R.h2eSlot n)) 0 2) <;> rfl

/-! ### Posting (R105, R107, R108) -/

/-- Mailbox `n`'s slot is none of the mailbox registers. -/
theorem e2hSlot_ne {n i : Nat} (hn : n < 16) (hi : i < 64) :
    R.e2hSlot n + 4 * i ≠ R.e2hFull ∧ R.e2hSlot n + 4 * i ≠ R.h2eFull := by
  simp only [R.e2hSlot, R.e2hFull, R.h2eFull, blk]
  omega

/-- The message `bs` stands in E2H mailbox `n`, which is FULL. -/
@[irreducible] def State.posted (s : State) (n : Nat) (bs : List Byte) : State := (s.setSlot (R.e2hSlot n) bs).orReg R.e2hFull (2 ^ n)

section Posted

variable {s : State} {n : Nat} {bs : List Byte}

theorem State.posted_regs_only (s : State) (n : Nat) (bs : List Byte) : s.posted n bs = { s with regs := (s.posted n bs).regs } := by
  rw [State.posted]
  exact Frame.eq (State.orReg_frame (ω := 0x40) rfl (State.setSlot_frame (ω := 0x40) rfl (Frame.refl s)))

theorem State.posted_wf (h : Sparse.wf regReset s.regs = true) : Sparse.wf regReset (s.posted n bs).regs = true := by
  rw [State.posted]
  exact State.orReg_wf (State.setSlot_wf h bs) _

theorem State.posted_full (h : Sparse.wf regReset s.regs = true) (hn : n < 16) : bit ((s.posted n bs).reg R.e2hFull) n = true := by
  rw [State.posted]
  exact State.orReg_bit (State.setSlot_wf h bs) (by omega)

theorem State.posted_slotWord (hn : n < 16) {i : Nat} (hi : i < 64) :
    (s.posted n bs).reg (R.e2hSlot n + 4 * i) = (s.setSlot (R.e2hSlot n) bs).reg (R.e2hSlot n + 4 * i) := by
  rw [State.posted]
  exact State.orReg_reg_ne _ _ _ _ (e2hSlot_ne hn hi).1

theorem State.posted_reg_ne {j : Nat} (hslot : ∀ i < 64, j ≠ R.e2hSlot n + 4 * i) (hfull : j ≠ R.e2hFull) : (s.posted n bs).reg j = s.reg j := by
  rw [State.posted]
  exact (State.orReg_reg_ne _ _ _ _ hfull).trans (State.setSlot_reg_ne _ bs hslot)

end Posted

/-- A response leaves the journal, with the command that it answers. -/
def State.unjournal (s : State) (m : Msg) : State :=
  { s with enm := { s.enm with responses := s.enm.responses.erase m, taken := s.enm.taken.filter (·.mb != m.mb) } }.enmoraIdle

/-- A response posted, up to the notification. -/
def State.answered (s : State) (m : Msg) : State := ((s.unjournal m).posted m.mb m.bytes).andNotReg R.h2eFull (2 ^ m.mb)

section Answered

variable {s : State} {m : Msg}

theorem State.answered_only (s : State) (m : Msg) : s.answered m = { s with
    regs := (s.answered m).regs
    enm := { s.enm with
      responses := s.enm.responses.erase m, taken := s.enm.taken.filter (·.mb != m.mb)
      gated := s.part.enmoraGated && s.enm.order.isEmpty && (s.enm.taken.filter (·.mb != m.mb)).isEmpty && (s.enm.responses.erase m).isEmpty } } := by
  rw [State.answered, State.posted_regs_only (s.unjournal m)]
  rfl

theorem State.postResponse_eq (s : State) (m : Msg) : s.postResponse m = (s.answered m).notify m.mb (s.posterOf m.mb) := by
  have poster : ((s.unjournal m).posted m.mb m.bytes).posterOf m.mb = s.posterOf m.mb := by rw [State.posted_regs_only]; rfl
  rw [← poster]
  simp only [State.postResponse, State.answered, State.unjournal, State.posted]

theorem State.answered_slot (h : Sparse.wf regReset s.regs = true) (hn : m.mb < 16) : (s.answered m).slot (R.e2hSlot m.mb) = m.bytes := by
  refine State.slot_setSlot (s := s.unjournal m) h (padBytes_length 256 _) fun i hi => ?_
  exact (State.andNotReg_reg_ne _ _ (e2hSlot_ne hn hi).2).trans (State.posted_slotWord hn hi)

theorem State.answered_e2hFull (h : Sparse.wf regReset s.regs = true) (hn : m.mb < 16) : bit ((s.answered m).reg R.e2hFull) m.mb = true := by
  rw [State.answered, State.andNotReg_reg_ne _ _ (by decide)]
  exact State.posted_full h hn

theorem State.answered_h2eFull (h : Sparse.wf regReset s.regs = true) (hn : m.mb < 16) : bit ((s.answered m).reg R.h2eFull) m.mb = false :=
  State.andNotReg_bit (State.posted_wf (n := m.mb) (bs := m.bytes) h) (by omega)

theorem State.answered_reg_ne {j : Nat} (hslot : ∀ i < 64, j ≠ R.e2hSlot m.mb + 4 * i) (he2h : j ≠ R.e2hFull) (hh2e : j ≠ R.h2eFull) :
    (s.answered m).reg j = s.reg j :=
  (State.andNotReg_reg_ne _ _ hh2e).trans (State.posted_reg_ne hslot he2h)

end Answered

theorem mayAnswer_iff (s : State) (m : Msg) : s.mayAnswer m = true ↔ s.rst.tripped = false ∨ m.opcode = 0x0104 := by
  rw [State.mayAnswer, Bool.or_eq_true, Bool.not_eq_true', beq_iff_eq]

theorem mb_of_found {l : List Msg} {mb : Nat} {x : Msg} (h : l.find? (·.mb == mb) = some x) : x.mb = mb := by
  have hit := List.find?_some h
  exact beq_iff_eq.mp hit

theorem execResponsePost_eq (s : State) {mb : Fin 16} {x : Msg} (h : s.enm.responses.find? (·.mb == mb.val) = some x) :
    exec (.responsePost mb) s = .next
      (if s.commandRuns = true ∧ (s.rst.tripped = false ∨ x.opcode = 0x0104) ∧ bit (s.reg R.e2hFull) mb = false then (s.answered x).notify mb (s.posterOf mb) else s) := by
  have box : x.mb = mb.val := mb_of_found h
  have may : (s.commandRuns && s.mayAnswer x && !s.mbit R.e2hFull mb) = true
      ↔ s.commandRuns = true ∧ (s.rst.tripped = false ∨ x.opcode = 0x0104) ∧ bit (s.reg R.e2hFull) mb = false := by
    rw [Bool.and_eq_true, Bool.and_eq_true, mayAnswer_iff, Bool.not_eq_true', and_assoc]
    rfl
  have posts : exec (.responsePost mb) s = .next (match s.enm.responses.find? (·.mb == mb.val) with
    | some m => if s.commandRuns && s.mayAnswer m && !s.mbit R.e2hFull mb then s.postResponse m else s
    | none => s) := rfl
  rw [posts, h]
  dsimp only
  rw [State.postResponse_eq, box, if_congr may rfl rfl]

/-- The oldest event leaves the queue. -/
def State.afterEvent (s : State) (rest : List Evt) : State := { s with enm := { s.enm with events := rest } }

theorem execEventPost_eq (s : State) {e : Evt} {rest : List Evt} (h : s.enm.events = e :: rest) :
    exec .eventPost s = .next
      (if s.commandRuns = true ∧ s.rst.tripped = false ∧ bit (s.reg R.e2hFull) 15 = false then ((s.afterEvent rest).posted 15 e.bytes).notify 15 none else s) := by
  have posts : exec .eventPost s = .next (match s.enm.events with
    | e :: rest => if s.commandRuns && !s.rst.tripped && !s.mbit R.e2hFull 15 then
        (((s.afterEvent rest).setSlot (R.e2hSlot 15) e.bytes).orReg R.e2hFull (2 ^ 15)).notify 15 none else s
    | [] => s) := rfl
  have may : (s.commandRuns && !s.rst.tripped && !s.mbit R.e2hFull 15) = true
      ↔ s.commandRuns = true ∧ s.rst.tripped = false ∧ bit (s.reg R.e2hFull) 15 = false := by
    rw [Bool.and_eq_true, Bool.and_eq_true, Bool.not_eq_true', Bool.not_eq_true', and_assoc]
    rfl
  rw [posts, h]
  dsimp only
  rw [if_congr may rfl rfl, State.posted]

/-! ### The obligation -/

/-- Settles O28: the taking by `State.takeIf_eq`, the two postings by what a slot written reads as (`State.slot_setSlot`). -/
theorem commandRoleActs : Obligations.CommandRoleActs := by
  unfold Obligations.CommandRoleActs
  intro s canonical
  have wf := regsWf_of_canonical canonical
  refine ⟨?_, ?_, ?_, ?_, ?_, ?_⟩
  case refine_1 =>
    intro q idle
    have reads : exec (.h2eNextRead q) s = .next (s.readEffect q R.h2eNext) := rfl
    rw [reads, State.h2eNext_readEffect]
    rcases idle with other | down | none
    · rw [if_neg fun h => other (Fin.ext h.1)]
    · rw [if_neg fun h => Bool.false_ne_true (down.symm.trans h.2)]
    · rw [State.takeNext, none, ite_self]
  case refine_2 =>
    intro mb rest runs order _
    have reads : exec (.h2eNextRead 8) s = .next (s.readEffect enmoraReq R.h2eNext) := rfl
    rw [reads, State.h2eNext_readEffect, if_pos ⟨rfl, runs⟩, State.takeNext, order]
    simp only [State.takeIf_eq]
  case refine_3 =>
    intro mb none
    change Host.Outcome.next _ = _
    rw [none]
  case refine_4 =>
    intro mb x found _
    have box : x.mb = mb.val := mb_of_found found
    rw [execResponsePost_eq s found]
    constructor
    · intro waits
      rw [if_neg]
      rintro ⟨runs, may, free⟩
      rcases waits with down | ⟨tripped, other⟩ | full
      · exact Bool.false_ne_true (down.symm.trans runs)
      · exact may.elim (fun untripped => Bool.false_ne_true (untripped.symm.trans tripped)) other
      · exact Bool.false_ne_true (free.symm.trans full)
    · intro runs may free
      rw [if_pos ⟨runs, may, free⟩]
      have hn : x.mb < 16 := box ▸ mb.isLt
      rw [← box]
      exact ⟨_, rfl, State.answered_only s x, State.answered_slot wf hn, State.answered_e2hFull wf hn, State.answered_h2eFull wf hn,
        fun _ => State.answered_reg_ne⟩
  case refine_5 =>
    intro idle
    cases events : s.enm.events with
    | nil =>
      change Host.Outcome.next _ = _
      rw [events]
    | cons e rest =>
      rw [execEventPost_eq s events, if_neg]
      rintro ⟨runs, untripped, free⟩
      rcases idle with none | down | tripped | full
      · exact absurd (none.symm.trans events) (List.cons_ne_nil _ _).symm
      · exact Bool.false_ne_true (down.symm.trans runs)
      · exact Bool.false_ne_true (untripped.symm.trans tripped)
      · exact Bool.false_ne_true (free.symm.trans full)
  case refine_6 =>
    intro e rest events runs untripped free _
    rw [execEventPost_eq s events, if_pos ⟨runs, untripped, free⟩]
    refine ⟨_, rfl, ?_, ?_, ?_, ?_⟩
    · exact State.posted_regs_only _ 15 e.bytes
    · exact State.slot_setSlot (s := s.afterEvent rest) wf (padBytes_length 256 _) fun i hi =>
        State.posted_slotWord (by decide) hi
    · exact State.posted_full wf (by decide)
    · exact fun k => State.posted_reg_ne

end Sys2Proof.Machine
end

section
/-!
O30: the orders of the bay control units.
-/
namespace Sys2Proof.Machine

/-! ### A bay control unit's turn (R102, R116) -/

section Turns

variable {s : State} {b op : Nat} {act : State → Half → State × Nat}

theorem headerTag_of_ok {m : List Byte} (h : headerOk m = true) : headerTag m = BitVec.ofNat 16 (bytesAt m 4 2) := by
  simp only [headerOk, Bool.and_eq_true] at h
  obtain ⟨⟨⟨⟨⟨⟨-, tagPair⟩, -⟩, -⟩, -⟩, -⟩, -⟩ := h
  rw [headerTag, if_pos tagPair]

theorem State.bayOrder_waits (s : State) (act : State → Half → State × Nat)
    (h : bit (s.reg R.e2bFull) b = false ∨ 2 ≤ s.regionMode b ∨ (headerOk (s.slot (R.e2bSlot b)) = true ∧ bytesAt (s.slot (R.e2bSlot b)) 0 2 ≠ op)) :
    s.bayOrder b op act = s := by
  rw [State.bayOrder, State.clocked, State.mbit]
  rcases h with empty | off | ⟨ok, other⟩
  · rw [empty, Bool.not_false, Bool.true_or, if_pos rfl]
  · rw [decide_eq_false (by omega), Bool.not_false, Bool.or_true, if_pos rfl]
  · rw [ok, bne_iff_ne.mpr other, Bool.not_true, if_neg Bool.false_ne_true, if_pos rfl, ite_self]

theorem State.bayOrder_header (act : State → Half → State × Nat) (full : bit (s.reg R.e2bFull) b = true) (on : s.regionMode b < 2)
    (bad : headerOk (s.slot (R.e2bSlot b)) = false) :
    s.bayOrder b op act = ((s.headerFault 2 b (headerTag (s.slot (R.e2bSlot b)))).bayOutcome b (headerTag (s.slot (R.e2bSlot b)))
      (bytesAt (s.slot (R.e2bSlot b)) 0 2) outHeader).releaseBay b := by
  rw [State.bayOrder, State.clocked, State.mbit, full, decide_eq_true on, bad, Bool.not_false, if_neg (by decide), if_pos rfl]

theorem State.bayOrder_takes (full : bit (s.reg R.e2bFull) b = true) (on : s.regionMode b < 2) (ok : headerOk (s.slot (R.e2bSlot b)) = true)
    (names : bytesAt (s.slot (R.e2bSlot b)) 0 2 = op) {u : State} {out : Nat}
    (h : act s (BitVec.ofNat 16 (bytesAt (s.slot (R.e2bSlot b)) 4 2)) = (u, out)) :
    s.bayOrder b op act = (u.bayOutcome b (BitVec.ofNat 16 (bytesAt (s.slot (R.e2bSlot b)) 4 2)) op out).releaseBay b := by
  rw [State.bayOrder, State.clocked, State.mbit, full, decide_eq_true on, ok, bne_eq_false_iff_eq.mpr names, if_neg (by decide), if_neg (by decide), if_neg (by decide),
    headerTag_of_ok ok, h]

end Turns

theorem State.spareFree_iff (s : State) (b : Nat) :
    s.spareFree b = true ↔ (∀ x ∈ s.kept.spareSlotOf, x.1 ≠ b) ∧ ∀ o ∈ s.bay.scheduled, o.bay = b → o.opcode ≠ 0xC002 := by
  simp [State.spareFree]

/-- A slot that the self-test names serves a core with admitted work (R592). -/
theorem State.slotAtWork_iff (s : State) (b : Nat) (named : BitVec 17) :
    ((setBitsOf 17 named.toNat).any fun i => (s.coreAt b i).any fun c => s.hasWork (· == c)) = true ↔
      ∃ i < 17, named.toNat.testBit i = true ∧ ∃ c, s.coreAt b i = some c ∧ s.hasWork (· == c) = true := by
  simp only [List.any_eq_true, mem_setBitsOf, Option.any_eq_true, and_assoc]

/-- Settles O30: a unit waits, answers a failed header, or takes the order, and each order by its own condition. -/
theorem bayOrdersAct : Obligations.BayOrdersAct := by
  unfold Obligations.BayOrdersAct
  intro b s m hm tag done held
  subst hm
  refine ⟨?_, ?_⟩
  case refine_1 =>
    intro mode pos row k named faulty p hp
    simp only [List.mem_cons, List.not_mem_nil, or_false] at hp
    constructor
    · intro waits
      rcases hp with rfl | rfl | rfl | rfl | rfl <;> exact congrArg _ (State.bayOrder_waits s _ waits)
    · intro full on bad
      rcases hp with rfl | rfl | rfl | rfl | rfl <;> exact congrArg _ (State.bayOrder_header _ full on bad)
  case refine_2 =>
    intro full on ok
    have carries {act : State → Half → State × Nat} {op : Nat} {u : State} {out : Nat} (names : bytesAt (s.slot (R.e2bSlot b)) 0 2 = op)
        (h : act s tag = (u, out)) : (Host.Outcome.next (s.bayOrder b op act) : Outcome) = .next (done u op out) :=
      congrArg _ (State.bayOrder_takes full on ok names h)
    refine ⟨?power, ?coreMap, ?rowMap, ?clkgen, ?selftest⟩
    case power =>
      intro names
      refine ⟨fun work => ⟨carries names ?_, carries names ?_⟩, fun idle => ⟨carries names ?_, carries names ?_⟩, carries names rfl⟩
      · simp only [State.bayPower, work]; rfl
      · simp only [State.bayPower, work]; rfl
      · simp only [State.bayPower, idle]; rfl
      · simp only [State.bayPower, idle]; rfl
    case coreMap =>
      intro names pos k
      refine ⟨fun taken => carries names (if_neg fun free => ?_), fun slots orders => carries names (if_pos ((s.spareFree_iff b).mpr ⟨slots, orders⟩))⟩
      obtain ⟨slots, orders⟩ := (s.spareFree_iff b).mp free
      rcases taken with ⟨x, hx, same⟩ | ⟨o, ho, same, op⟩
      · exact slots x hx same
      · exact orders o ho same op
    case rowMap =>
      intro names pos row k
      exact ⟨fun used => carries names (if_pos used), fun spare => carries names (if_neg (ne_true_of_eq_false spare))⟩
    case clkgen =>
      intro names
      have standby : s.standbyOk b = bit (s.reg (R.regionState b)) 4 := by
        rw [State.standbyOk, decide_eq_true (show b.val < 20 by omega), Bool.true_and]
      exact ⟨fun none => carries names (if_neg (ne_true_of_eq_false (standby.trans none))), fun fresh => carries names (if_pos (standby.trans fresh))⟩
    case selftest =>
      intro names named faulty
      refine ⟨fun work => carries names (if_pos ((s.slotAtWork_iff b named).mpr work)), fun idle => ?_⟩
      have none : ¬ ((setBitsOf 17 named.toNat).any fun i => (s.coreAt b i).any fun c => s.hasWork (· == c)) = true := fun busy => by
        obtain ⟨i, hi, bitSet, c, slot, work⟩ := (s.slotAtWork_iff b named).mp busy
        exact Bool.false_ne_true ((idle i hi bitSet c slot).symm.trans work)
      have outcome : (if (named &&& faulty).toNat = 0 then outDone else outSelftest) = if named &&& faulty = 0 then 1 else 5 :=
        if_congr ⟨fun h => BitVec.eq_of_toNat_eq h, fun h => congrArg BitVec.toNat h⟩ rfl rfl
      rw [← outcome]
      exact carries names (if_neg none)

end Sys2Proof.Machine
end

section
/-!
O31: what keeps the next descriptor of a list from issuing.
-/
namespace Sys2Proof.Machine

/-- A list of one descriptor. -/
def oneDescList : DList := { handle := 0, core := 0, num := 0, tide := 0, close := 1, mb := 0, descs := [0] }

/-- That list on a device whose set points have not settled at step 4 (R507). -/
def unsettledIssue : State :=
  { State.reset with
    lists := [oneDescList]
    tide := { State.reset.tide with issueStop := false, faults := [], settleAt := some 1 } }

/-- Refutes O31: the conditions that the statement names leave out that no descriptor issues while step 4 is delayed (R507); in the counterexample
the one descriptor of the one list meets them all, and waits for the set points. -/
theorem not_descriptorsIssueInOrder : ¬ Obligations.DescriptorsIssueInOrder := by
  unfold Obligations.DescriptorsIssueInOrder
  intro h
  obtain ⟨-, -, -, -, -, issues, -⟩ := h unsettledIssue 0 0 (fun _ => true) oneDescList 0 rfl rfl rfl
  have issued := issues rfl (by decide) (.inr rfl) rfl rfl (by decide) (by decide)
  have waits : unsettledIssue.nextDesc 0 0 (fun _ => true) = none := rfl
  exact absurd (waits.symm.trans issued) (Option.some_ne_none _).symm

end Sys2Proof.Machine
end

section
/-!
O40: what ends a stream operation.
-/
namespace Sys2Proof.Machine

/-! ### The end of an operation (R231, R238, R247, R249) -/

section Ends

variable {s : State} {o : MemOp} {data : List Byte}

theorem State.opEnds_of_gone (h : o.gone = true) :
    s.opEnds o data = ((s.endOp o.id).count (R.raDiscardBytes o.own.core) ((o.len + 63) / 64)).pumpCore o.own.core := by
  rw [State.opEnds, if_pos h]
  rfl

/-- Nothing is staged of a write, of an SD of a skipped step (R348), or without an SD. -/
theorem State.opEnds_of_unstaged (h : o.gone = false) (hs : o.write = true ∨ ∀ r, (s.endOp o.id).sdRun o.own = some r → r.skip = true) :
    s.opEnds o data = (s.endOp o.id).pumpCore o.own.core := by
  rw [State.opEnds, h, if_neg Bool.false_ne_true]
  split
  next r hr =>
    have unstaged : (o.write || r.skip) = true := hs.elim (fun hw => by rw [hw, Bool.true_or]) fun hk => by rw [hk r hr, Bool.or_true]
    rw [if_pos unstaged]
  next => rfl

theorem State.opEnds_of_staged {r : SdRun} (h : o.gone = false) (hw : o.write = false) (hr : (s.endOp o.id).sdRun o.own = some r) (hk : r.skip = false) :
    s.opEnds o data = ((s.endOp o.id).setSd { r with staged := r.staged ++ [(o.dst, data)] }).pumpCore o.own.core := by
  rw [State.opEnds, h, if_neg Bool.false_ne_true, hr]
  dsimp only
  rw [hw, hk, Bool.or_false, if_neg Bool.false_ne_true]

theorem State.opDone_of_head {h : HeadRun} (hh : s.headOf o = some h) :
    s.opDone o data = ((s.headEnds { o with data } h).settle o.own.core).settle (o.eng.getD o.own.core) := by
  rw [State.opDone, hh]

theorem State.opDone_of_sd (hh : s.headOf o = none) :
    s.opDone o data = ((s.opEnds o data).settle o.own.core).settle (o.eng.getD o.own.core) := by
  rw [State.opDone, hh]

/-- What a correctable error of a read leaves before the operation ends well (R442). -/
theorem State.opComplete_of_well {got : ReadErr} (h : ∀ k, got ≠ .uncorrectable k) : s.opComplete o got =
    (if o.write = false ∧ got = .correctable then s.correctable (s.metAt o.addr o.len false) else s).opDone o (if o.write then [] else o.data) := by
  cases hw : o.write with
  | true =>
    delta State.opComplete
    rw [hw, if_pos rfl, if_neg fun both => Bool.false_ne_true both.1.symm, if_pos rfl]
    cases got with
    | none_ => dsimp only
    | correctable => dsimp only
    | uncorrectable k => exact absurd rfl (h k)
  | false =>
    delta State.opComplete
    rw [hw, if_neg Bool.false_ne_true, if_neg Bool.false_ne_true]
    cases got with
    | none_ => rw [if_neg fun both => ReadErr.noConfusion both.2]
    | correctable => rw [if_pos ⟨rfl, rfl⟩]
    | uncorrectable k => exact absurd rfl (h k)

theorem State.opComplete_of_bad {k : Bool} (hw : o.write = false) (hh : s.headOf o = none) :
    s.opComplete o (.uncorrectable k) = s.opFails o (ueCode (s.metAt o.addr o.len true) k) (badRead o.own.core (ueCode (s.metAt o.addr o.len true) k)) := by
  delta State.opComplete State.opBad
  rw [hw, if_neg Bool.false_ne_true]
  dsimp only
  rw [hh]

theorem ueCode_eq (a : Nat) (k : Bool) : ueCode a k = a + if k then 2 ^ 48 else 0 := by
  cases k <;> rfl

theorem execMemOpComplete_of_local {op : Nat} (ho : s.opById op = some o) (hd : o.dev = none) (f : Fin 4) :
    exec (.memOpComplete op f) s = .next (s.opComplete o (if o.write then readErr f else s.found o.addr o.len f)) := by
  have ends : exec (.memOpComplete op f) s = execMemOpComplete op f s := rfl
  rw [ends, execMemOpComplete, ho]
  dsimp only
  rw [hd, Option.isSome_none, if_neg Bool.false_ne_true]

end Ends

section Fails

variable {s : State} {o : MemOp} {a : Nat} {handle : State → State}

theorem State.opFails_of_gone (h : o.gone = true) : s.opFails o a handle = ((s.endOp o.id).count (R.raErrors o.own.core)).pumpCore o.own.core := by
  rw [State.opFails, if_pos h]

variable {r : SdRun} (h : o.gone = false) (hr : (s.endOp o.id).sdRun o.own = some r)
include h hr

/-- The error of a provisional read is held (R249). -/
theorem State.opFails_of_provisional (he : r.entry = none) :
    s.opFails o a handle = (s.endOp o.id).setSd { r with errs := r.errs ++ [a], row := 65536 } := by
  rw [State.opFails, h, if_neg Bool.false_ne_true, hr]
  dsimp only
  rw [he, Option.isNone_none, if_pos rfl]

theorem State.opFails_of_failed (he : r.entry ≠ none) (hf : r.failed = true) :
    s.opFails o a handle = handle ((s.endOp o.id).setSd { r with errs := r.errs ++ [a] }) := by
  rw [State.opFails, h, if_neg Bool.false_ne_true, hr]
  dsimp only
  rw [Option.isNone_eq_false_iff.mpr (Option.isSome_iff_ne_none.mpr he), if_neg Bool.false_ne_true, hf, if_pos rfl]

theorem State.opFails_of_sound (he : r.entry ≠ none) (hf : r.failed = false) :
    s.opFails o a handle = handle (((s.endOp o.id).setSd { r with errs := r.errs ++ [a], failed := true }).streamErr o.own a) := by
  rw [State.opFails, h, if_neg Bool.false_ne_true, hr]
  dsimp only
  rw [Option.isNone_eq_false_iff.mpr (Option.isSome_iff_ne_none.mpr he), if_neg Bool.false_ne_true, hf, if_neg Bool.false_ne_true]

end Fails

/-! ### Run-ahead (R243) -/

section RunAhead

variable {s : State} {core : Fin 256} {list : Fin 8} {idx : Nat} {l : DList} {d : BitVec 512} (hl : s.dlist core list = some l) (hd : l.descs[idx]? = some d)
include hl hd

theorem execRunAheadStart_of_sd (op : bits d 0 8 = 4) : exec (.runAheadStart core list idx) s = .next (s.sdAhead l idx d) := by
  have starts : exec (.runAheadStart core list idx) s = execRunAheadStart core list idx s := rfl
  rw [starts, execRunAheadStart, hl]
  dsimp only
  rw [hd]
  dsimp only
  rw [if_pos (show dOpcode d = Op.sd from op)]

theorem execRunAheadStart_of_rld (op : bits d 0 8 = 5) : exec (.runAheadStart core list idx) s = .next (s.headAhead l idx d) := by
  have starts : exec (.runAheadStart core list idx) s = execRunAheadStart core list idx s := rfl
  have other : dOpcode d ≠ Op.sd := fun h => absurd (op.symm.trans h) (by decide)
  rw [starts, execRunAheadStart, hl]
  dsimp only
  rw [hd]
  dsimp only
  rw [if_neg other, if_pos (show dOpcode d = Op.rld from op)]

theorem execRunAheadStart_of_other (sd : bits d 0 8 ≠ 4) (rld : bits d 0 8 ≠ 5) : exec (.runAheadStart core list idx) s = .next s := by
  have starts : exec (.runAheadStart core list idx) s = execRunAheadStart core list idx s := rfl
  rw [starts, execRunAheadStart, hl]
  dsimp only
  rw [hd]
  dsimp only
  rw [if_neg (show ¬ dOpcode d = Op.sd from sd), if_neg (show ¬ dOpcode d = Op.rld from rld)]

end RunAhead

section Ahead

variable {s : State} {l : DList} {i : Nat} {d : Desc}

theorem State.sdAhead_waits (h : s.mayRunAhead l i = false ∨ s.noneWaits l.core = false ∨ bit d 210 = false ∨ bit d 208 = true ∨ bits d 384 32 = 0) :
    s.sdAhead l i d = s := by
  rw [State.sdAhead, if_neg]
  simp only [sdRa, sdSrcRemote, sdLen, Bool.and_eq_true, Bool.not_eq_true']
  rintro ⟨⟨⟨⟨ra, local_⟩, may⟩, none⟩, len⟩
  rcases h with h | h | h | h | h
  · exact Bool.false_ne_true (h.symm.trans may)
  · exact Bool.false_ne_true (h.symm.trans none)
  · exact Bool.false_ne_true (h.symm.trans ra)
  · exact Bool.false_ne_true (local_.symm.trans h)
  · exact of_decide_eq_true len h

theorem State.sdAhead_starts (may : s.mayRunAhead l i = true) (none : s.noneWaits l.core = true) (ra : bit d 210 = true) (local_ : bit d 208 = false)
    (len : bits d 384 32 ≠ 0) : s.sdAhead l i d =
      (State.addSd { s.count (R.raStarted l.core) with str := { (s.count (R.raStarted l.core)).str with nextRa := (s.count (R.raStarted l.core)).str.nextRa + 1 } }
        { own := ⟨l.core, l.num, i⟩, desc := d, entry := Option.none, born := (s.count (R.raStarted l.core)).str.nextRa }).pumpCore l.core := by
  have may : (sdRa d && !sdSrcRemote d && s.mayRunAhead l i && s.noneWaits l.core && decide (sdLen d ≠ 0)) = true := by
    simp only [sdRa, sdSrcRemote, sdLen, ra, local_, may, none, len, ne_eq, not_false_eq_true, decide_true, Bool.not_false, Bool.and_self]
  rw [State.sdAhead, if_pos may]
  rfl

theorem State.headAhead_waits (h : s.mayRunAhead l i = false ∨ s.noneWaits l.core = false ∨ bit d 291 = false ∨ bits d 286 3 < 4 ∨ bits d 432 32 = 0) :
    s.headAhead l i d = s := by
  rw [State.headAhead, if_neg]
  simp only [rRa, rHead, rRole, rCount, Bool.and_eq_true, bne_iff_ne]
  rintro ⟨⟨⟨⟨ra, head⟩, may⟩, none⟩, count⟩
  rcases h with h | h | h | h | h
  · exact Bool.false_ne_true (h.symm.trans may)
  · exact Bool.false_ne_true (h.symm.trans none)
  · exact Bool.false_ne_true (h.symm.trans ra)
  · exact absurd (of_decide_eq_true head) (Nat.not_le.mpr h)
  · exact count h

theorem State.headAhead_starts (may : s.mayRunAhead l i = true) (none : s.noneWaits l.core = true) (ra : bit d 291 = true) (head : 4 ≤ bits d 286 3)
    (count : bits d 432 32 ≠ 0) : s.headAhead l i d =
      (State.startHead { s.count (R.raStarted l.core) with str := { (s.count (R.raStarted l.core)).str with nextRa := (s.count (R.raStarted l.core)).str.nextRa + 1 } }
        ⟨l.core, l.num, i⟩ d true (s.count (R.raStarted l.core)).str.nextRa).reelGo l.core := by
  have may : (rRa d && rHead d && s.mayRunAhead l i && s.noneWaits l.core && rCount d != 0) = true := by
    simp only [rRa, rHead, rRole, rCount, ra, head, may, none, decide_true, Bool.true_and, bne_iff_ne]
    exact count
  rw [State.headAhead, if_pos may]
  rfl

end Ahead

/-! ### Completion of a descriptor (R73) -/

section Done

variable {s : State} {core num : Nat} {l : DList}

/-- A list replaced by one of its own core and number. -/
theorem State.setList_dlist_self (h : s.dlist core num = some l) {l' : DList} (hc : l'.core = core) (hn : l'.num = num) :
    (s.setList l').dlist core num = some l' := by
  obtain ⟨lc, ln⟩ := State.place_of_dlist h
  have same (x : DList) : ((if x.core == l'.core && x.num == l'.num then l' else x).core == core
      && (if x.core == l'.core && x.num == l'.num then l' else x).num == num) = (x.core == core && x.num == num) := by
    rw [hc, hn]
    split
    next hit => rw [hc, hn, hit, beq_self_eq_true, beq_self_eq_true, Bool.and_self]
    next => rfl
  have found : (s.lists.find? fun x => x.core == core && x.num == num) = some l := h
  rw [State.dlist, State.setList]
  dsimp only
  rw [List.find?_map]
  simp only [Function.comp_def, same]
  rw [found, Option.map_some, lc, ln, hc, hn, beq_self_eq_true, beq_self_eq_true, Bool.and_self, if_pos rfl]

theorem State.desc_of_dlist {r : DescRef} {d : Desc} (h : s.dlist r.core r.list = some l) (hd : l.descs[r.idx]? = some d) : s.desc r = some d := by
  rw [State.desc, h, Option.bind_some, hd]

theorem State.logDone_of_unlogged {r : DescRef} {d : Desc} (h : s.desc r = some d) (quiet : bit d 17 = false) : s.logDone r = s := by
  rw [State.logDone, h]
  dsimp only
  rw [dLog, quiet, if_neg Bool.false_ne_true]

theorem State.logDone_dlist (s : State) (r : DescRef) : (s.logDone r).dlist core num = s.dlist core num := by
  have lists := congrArg (fun u : State => u.lists) (Frame.eq (State.logDone_frame (ω := 0x18000) (r := s) (a1 := r) rfl (Frame.refl s)))
  exact congrArg (fun ls : List DList => ls.find? fun l => l.core == core && l.num == num) lists

variable {r : DescRef} {d : Desc} (h : s.dlist r.core r.list = some l) (hd : l.descs[r.idx]? = some d)
include h hd

/-- List `l` without descriptor `i` at work. -/
def DList.leave (l : DList) (i : Nat) : DList := { l with busy := l.busy.filter (· != i), drained := l.drained.filter (· != i) }

theorem State.descDone_eq : s.descDone r = (s.setList (l.leave r.idx)).logDone r := by
  rw [State.descDone, h, State.desc_of_dlist h hd]
  rfl

theorem State.descDone_busy : ((s.descDone r).dlist r.core r.list).map (·.busy) = some (l.busy.filter (· != r.idx)) := by
  obtain ⟨lc, ln⟩ := State.place_of_dlist h
  rw [State.descDone_eq h hd, State.logDone_dlist, State.setList_dlist_self h (l' := l.leave r.idx) lc ln]
  rfl

theorem State.descDone_log (quiet : bit d 17 = false) : (s.descDone r).log = s.log := by
  obtain ⟨lc, ln⟩ := State.place_of_dlist h
  have left : (s.setList (l.leave r.idx)).desc r = some d := State.desc_of_dlist (State.setList_dlist_self h (l' := l.leave r.idx) lc ln) hd
  rw [State.descDone_eq h hd, State.logDone_of_unlogged left quiet]
  rfl

end Done

theorem State.isDrained_of_none {s : State} {r : DescRef} (h : s.dlist r.core r.list = none) : s.isDrained r = false := by
  rw [State.isDrained, h, Option.any_none]

theorem State.isDrained_iff {s : State} {r : DescRef} {l : DList} (h : s.dlist r.core r.list = some l) :
    s.isDrained r = true ↔ r.idx ∈ l.busy ∧ r.idx ∈ l.drained := by
  rw [State.isDrained, h, Option.any_some, Bool.and_eq_true, List.contains_iff_mem, List.contains_iff_mem]

theorem execDescDone_eq (s : State) (core : Fin 256) (list : Fin 8) (idx : Nat) : exec (.descDone core list idx) s =
    .next (if s.isDrained ⟨core, list, idx⟩ then s.completeDesc ⟨core, list, idx⟩ else s) := rfl

theorem State.completeDesc_eq {s : State} {r : DescRef} {l : DList} (h : s.dlist r.core r.list = some l) :
    s.completeDesc r = (if r.idx ∈ l.skipped then (s.descDone r).skipWaiters r else s.descDone r).settle r.core := by
  rw [State.completeDesc, h]
  simp only [Option.any_some, DList.skipFree, List.contains_iff_mem]

/-! ### The obligation -/

/-- Settles O40: an operation by how it ends, a run-ahead by its conditions, a completion by its list. -/
theorem streamEventsAct : Obligations.StreamEventsAct := by
  unfold Obligations.StreamEventsAct
  intro s
  refine ⟨?memOp, ?runAhead, ?done⟩
  case memOp =>
    intro op f
    constructor
    · rintro (none | ⟨o, ho, remote⟩)
      · have ends : exec (.memOpComplete op f) s = execMemOpComplete op f s := rfl
        rw [ends, execMemOpComplete, none]
      · have ends : exec (.memOpComplete op f) s = execMemOpComplete op f s := rfl
        rw [ends, execMemOpComplete, ho]
        dsimp only
        rw [if_pos (Option.isSome_iff_ne_none.mpr remote)]
    · rintro o ho hd c e rfl rfl got hgot
      rw [execMemOpComplete_of_local ho hd f, ← hgot]
      constructor
      · rintro well t ht u rfl
        rw [State.opComplete_of_well well, ← ht]
        refine ⟨?_, ?_, ?_, ?_⟩
        · intro h hh read
          rw [read, if_neg Bool.false_ne_true, State.opDone_of_head hh]
          rfl
        · intro hh gone
          rw [State.opDone_of_sd hh, State.opEnds_of_gone gone]
        · intro hh kept unstaged
          rw [State.opDone_of_sd hh, State.opEnds_of_unstaged kept unstaged]
        · intro hh kept read r hr runs
          rw [State.opDone_of_sd hh, State.opEnds_of_staged kept read hr runs, read, if_neg Bool.false_ne_true]
      · rintro k bad read hh a ha u rfl
        rw [bad, State.opComplete_of_bad read hh, ueCode_eq, ← ha]
        constructor
        · intro gone
          rw [State.opFails_of_gone gone]
        · rintro kept r hr r' rfl
          refine ⟨fun prov => ?_, fun armed failed => ?_, fun armed sound => ?_⟩
          · rw [State.opFails_of_provisional kept hr prov]
          · rw [State.opFails_of_failed kept hr armed failed]
          · rw [State.opFails_of_sound kept hr armed sound]
  case runAhead =>
    intro core list idx l d hl hd
    obtain ⟨lc, ln⟩ := State.place_of_dlist hl
    refine ⟨?_, ?_, ?_, ?_⟩
    · intro h
      by_cases sd : bits d 0 8 = 4
      · rw [execRunAheadStart_of_sd hl hd sd, State.sdAhead_waits]
        rcases h with h | h | h
        · exact .inl h
        · exact .inr (.inl (lc ▸ h))
        · exact absurd sd h.1
      · by_cases rld : bits d 0 8 = 5
        · rw [execRunAheadStart_of_rld hl hd rld, State.headAhead_waits]
          rcases h with h | h | h
          · exact .inl h
          · exact .inr (.inl (lc ▸ h))
          · exact absurd rld h.2
        · exact execRunAheadStart_of_other hl hd sd rld
    · intro sd h
      rw [execRunAheadStart_of_sd hl hd sd, State.sdAhead_waits (.inr (.inr h))]
    · intro rld h
      rw [execRunAheadStart_of_rld hl hd rld, State.headAhead_waits (.inr (.inr h))]
    · rintro may none u rfl
      rw [← lc, ← ln] at *
      constructor
      · intro sd ra local_ len
        rw [execRunAheadStart_of_sd hl hd sd, State.sdAhead_starts may none ra local_ len]
        rfl
      · intro rld ra head count
        rw [execRunAheadStart_of_rld hl hd rld, State.headAhead_starts may none ra head count]
        rfl
  case done =>
    intro core list idx
    rw [execDescDone_eq]
    constructor
    · intro none
      rw [State.isDrained_of_none none, if_neg Bool.false_ne_true]
    · intro l hl
      constructor
      · intro h
        rw [if_neg]
        intro drained
        obtain ⟨busy, drained⟩ := (State.isDrained_iff (r := ⟨core, list, idx⟩) hl).mp drained
        exact h.elim (fun h => h busy) fun h => h drained
      · rintro busy drained d hd u rfl
        rw [if_pos ((State.isDrained_iff (r := ⟨core, list, idx⟩) hl).mpr ⟨busy, drained⟩), State.completeDesc_eq (r := ⟨core, list, idx⟩) hl]
        exact ⟨rfl, State.descDone_busy (r := ⟨core, list, idx⟩) hl hd, State.descDone_log (r := ⟨core, list, idx⟩) hl hd⟩

end Sys2Proof.Machine
end

section
/-!
O44: the tide-mark descriptors, their waits and their barriers.
-/
namespace Sys2Proof.Machine

/-! ### A TMK issues (R12, R74) -/

section Tmk

variable {s : State} {core num op : Nat} {act : State → DList → Desc → State}

theorem State.tmk_of_none (h : s.nextTmk core num op = none) : s.tmk core num op act = s := by
  rw [State.tmk, h]

variable {l : DList} {d : Desc} (h : s.nextTmk core num op = some (l, d))
include h

theorem State.tmk_of_bad (bad : tmkPairsOk d = false) : s.tmk core num op act = s.descFault core := by
  rw [State.tmk, h]
  dsimp only
  rw [bad, Bool.not_false, if_pos rfl]

theorem State.tmk_of_sound (ok : tmkPairsOk d = true) : s.tmk core num op act = act (s.issue l) l d := by
  rw [State.tmk, h]
  dsimp only
  rw [ok, Bool.not_true, if_neg Bool.false_ne_true]

end Tmk

section Instrs

variable (core : Fin 256) (list : Fin 8) (s : State)

theorem execLocalMark_eq : exec (.localMark core list) s = .next (s.tmk core list 0 fun s l d =>
    ((s.addMark core (tMarkId d)).markEffect core d).completeDesc l.ref) := rfl

theorem execWaitBeat_eq : exec (.waitBeat core list) s = .next (s.tmk core list 1 fun s l d => if s.beatReached l d then s.completeDesc l.ref else s) := rfl

/-- The increments of a SIGNAL set out (R74). -/
def State.signalsSent (s : State) (l : DList) (d : Desc) : State :=
  let s := (setBitsOf 256 (tTargets d)).foldl (fun s c => s.emit (.signal c (tEvt d) (word (tCount d)))) s
  { s with str := { s.str with
    signals := s.str.signals ++ (setBitsOf 256 (tTargets d)).map fun c => ({ own := l.ref, target := c, evt := tEvt d, count := tCount d } : Signal) } }

theorem execTmkSignal_eq : exec (.tmkSignal core list) s = .next (s.tmk core list 2 fun s l d =>
    if (setBitsOf 256 (tTargets d)).isEmpty then (s.signalsSent l d).completeDesc l.ref else s.signalsSent l d) := rfl

theorem execWaitEvent_eq : exec (.waitEvent core list) s = .next (s.tmk core list 3 fun s l d =>
    if tCount d ≤ (s.evt core (tEvt d)).toNat then s.completeDesc l.ref else s) := rfl

theorem execGroupBarrier_eq : exec (.groupBarrier core list) s = .next (s.tmk core list 4 fun s l d =>
    if s.tide.replayed && s.bkt.released.contains (tBarrier d, l.tide) then s.completeDesc l.ref
    else (s.needBarrier (tBarrier d) l.tide).barrierGo (tBarrier d) l.tide) := rfl

end Instrs

/-- Without a target a SIGNAL sets nothing out. -/
theorem State.signalsSent_of_none {s : State} {l : DList} {d : Desc} (h : setBitsOf 256 (tTargets d) = []) : s.signalsSent l d = s := by
  rw [State.signalsSent, h, List.map_nil, List.foldl_nil, List.append_nil]

/-! ### What a LOCAL_MARK does (R285, R345, R488) -/

theorem nbits_bits {w : Nat} (x : BitVec w) {lo len i n : Nat} (h : i + n ≤ len) : nbits (bits x lo len) i n = bits x (lo + i) n := by
  apply Nat.eq_of_testBit_eq
  intro j
  simp only [nbits, bits, Nat.testBit_mod_two_pow, Nat.testBit_shiftRight]
  by_cases hj : j < n
  · rw [decide_eq_true hj, decide_eq_true (show i + j < len by omega), Bool.true_and, Bool.true_and, Bool.true_and, Nat.add_assoc]
  · rw [decide_eq_false hj, Bool.false_and, Bool.false_and]

theorem State.addMark_eq (s : State) (core id : Nat) : s.addMark core id =
    { s with tide := if s.tide.marks.length < 112 then { s.tide with marks := s.tide.marks ++ [({ beat := BitVec.ofInt 64 s.groupBeat, id, core } : Mark)] }
                     else { s.tide with marksLost := true } } := by
  rw [State.addMark]
  split
  next room => rfl
  next full => rfl

theorem State.positionMark_eq (s : State) (core : Nat) (d : Desc) :
    s.positionMark core (tCount d) = s.setArr core { s.arr core with mb := bits d 106 5, layer := bits d 96 10, draws := [] } := by
  rw [State.positionMark, tCount, nbits_bits d (by decide), nbits_bits d (by decide)]

/-! ### Waits (R74, R75) -/

theorem State.beatReached_iff {s : State} {l : DList} {d : Desc} :
    s.beatReached l d = true ↔ s.tide.openBeat + bits d 128 32 ≤ s.groupBeat ∨ l.tide < s.tide.count.toNat := by
  rw [State.beatReached, Bool.or_eq_true, decide_eq_true_eq, decide_eq_true_eq, or_comm, tBeatOff]

theorem State.not_beatReached {s : State} {l : DList} {d : Desc} (ahead : s.groupBeat < s.tide.openBeat + bits d 128 32) (here : s.tide.count.toNat ≤ l.tide) :
    ¬ s.beatReached l d = true := fun reached => by
  rcases State.beatReached_iff.mp reached with h | h <;> omega

/-! ### A barrier of a device in no group (R393) -/

theorem State.barrierGo_of_alone {s : State} {id tide : Nat} {b : Barrier} (alone : s.group.member = false) (hb : s.barrier id tide = some b)
    (unsent : b.sent = false) (arrived : b.arrived ≠ none) : s.barrierGo id tide = s.releaseBarrier id tide := by
  have here : b.arrived.isNone = false := Option.isNone_eq_false_iff.mpr (Option.isSome_iff_ne_none.mpr arrived)
  have noted : s.noteArrival id tide = s := by
    rw [State.noteArrival, hb]
    dsimp only
    rw [here, Bool.false_and, if_neg Bool.false_ne_true]
  rw [State.barrierGo, noted, hb]
  dsimp only
  rw [here, unsent, Bool.or_false, if_neg Bool.false_ne_true, alone, Bool.not_false, if_pos rfl]

/-- The TMKs of a barrier complete. -/
def State.partiesDone (s : State) (id tide : Nat) : State := (s.parties id tide).foldl (fun s x => s.completeDesc ⟨x.1.core, x.1.num, x.2⟩) s

/-- The barrier is no longer pending, and it is counted. -/
def State.barrierEnds (s : State) (id tide : Nat) (beats : Word) : State :=
  (({ s with bkt := { s.bkt with bars := s.bkt.bars.filter fun x => !(x.id == id && x.tide == tide), released := s.bkt.released ++ [(id, tide)] } } : State).count
    R.barriersDone).setReg R.barLastBeats beats

theorem State.releaseBarrier_of_alone {s : State} {id tide : Nat} {b : Barrier} (alone : s.group.member = false) (hb : s.barrier id tide = some b) :
    s.releaseBarrier id tide = (s.partiesDone id tide).barrierEnds id tide (word ((b.arrived.map fun a => (s.groupBeat - a).toNat).getD 0)) := by
  rw [State.releaseBarrier, hb, alone, Bool.not_false, Bool.true_or, if_pos rfl]
  rfl

/-! ### The obligation -/

/-- Settles O44: each TMK by the rule of its issue; a barrier of a device in no group is released with the beats since its arrival. -/
theorem tideMarksAct : Obligations.TideMarksAct := by
  unfold Obligations.TideMarksAct
  constructor
  · intro core list s
    constructor
    · intro x hx f hf
      simp only [List.mem_cons, List.not_mem_nil, or_false] at hx
      constructor
      · intro none
        rw [none] at hf
        rcases hx with rfl | rfl | rfl | rfl | rfl <;> exact congrArg _ (State.tmk_of_none hf)
      · intro l d some bad
        rw [some] at hf
        rcases hx with rfl | rfl | rfl | rfl | rfl <;> exact congrArg _ (State.tmk_of_bad hf bad)
    · intro l d ok u hu next
      subst hu
      refine ⟨?localMark, ?waitBeat, ?signal, ?waitEvent, ?groupBarrier⟩
      case localMark =>
        rintro issues id rfl v w rfl rfl
        rw [execLocalMark_eq, State.tmk_of_sound issues ok]
        rw [State.addMark_eq, State.markEffect, State.positionMark_eq]
        rfl
      case waitBeat =>
        intro issues
        rw [execWaitBeat_eq, State.tmk_of_sound issues ok]
        refine ⟨fun reached => ?_, fun ahead here => ?_⟩
        · rw [if_pos (State.beatReached_iff.mpr reached)]
        · rw [if_neg (State.not_beatReached ahead here)]
      case signal =>
        rintro issues cs rfl
        rw [execTmkSignal_eq, State.tmk_of_sound issues ok]
        refine ⟨fun none => ?_, ?_⟩
        · have none : setBitsOf 256 (tTargets d) = [] := none
          rw [State.signalsSent_of_none none, none, List.isEmpty_nil, if_pos rfl]
        · rintro some v rfl
          have some : (setBitsOf 256 (tTargets d)).isEmpty = false := List.isEmpty_eq_false_iff.mpr some
          rw [some, if_neg Bool.false_ne_true]
          rfl
      case waitEvent =>
        intro issues
        rw [execWaitEvent_eq, State.tmk_of_sound issues ok]
        exact ⟨fun reached => congrArg _ (if_pos reached), fun ahead => congrArg _ (if_neg (Nat.not_le.mpr ahead))⟩
      case groupBarrier =>
        intro issues
        rw [execGroupBarrier_eq, State.tmk_of_sound issues ok]
        refine ⟨fun replay released => ?_, fun fresh => ?_⟩
        · rw [if_pos]
          rw [replay, Bool.true_and, List.contains_iff_mem]
          exact released
        · rw [if_neg]
          · rfl
          · rw [Bool.and_eq_true, List.contains_iff_mem]
            rintro ⟨replay, released⟩
            exact fresh.elim (fun h => Bool.false_ne_true (h.symm.trans replay)) fun h => h released
  · intro core s
    refine ⟨?reached, ?none, ?add, ?barrier⟩
    case reached =>
      rintro list f rfl
      have exec_eq : exec (.waitBeatReached core list) s = execWaitBeatReached core list s := rfl
      rw [exec_eq, execWaitBeatReached]
      constructor
      · intro none
        rw [none]
      · intro l j d held
        rw [held]
        dsimp only
        refine ⟨fun reached => ?_, fun ahead here => ?_⟩
        · rw [if_pos (State.beatReached_iff.mpr reached)]
        · rw [if_neg (State.not_beatReached ahead here)]
    case none =>
      intro k beyond
      have exec_eq : exec (.evtCounterAdd core k) s = execEvtCounterAdd core k s := rfl
      rw [exec_eq, execEvtCounterAdd, List.getElem?_eq_none beyond]
    case add =>
      rintro k g coming u rfl
      have exec_eq : exec (.evtCounterAdd core k) s = execEvtCounterAdd core k s := rfl
      rw [exec_eq, execEvtCounterAdd, coming]
      rfl
    case barrier =>
      rintro id tide b alone hb unsent arrived u rfl
      exact ⟨_, (State.barrierGo_of_alone alone hb unsent arrived).trans (State.releaseBarrier_of_alone alone hb)⟩

end Sys2Proof.Machine
end

section
/-!
O47: alignment to the master's marks.
-/
namespace Sys2Proof.Machine

section Align

variable {s : State} {e : Int}

/-- R59: after the first mark GROUP_OFFSET goes towards the master's, by at most 4 beats. -/
def State.steered (s : State) (e : Int) : State := if 1 < e.natAbs then s.shiftGroup (e.sign * (min e.natAbs 4 : Nat)) else s

/-- R60: above 125 beats ALIGN_WARN sets. -/
def State.alignWarned (s : State) (e : Int) : State := if 125 < e.natAbs then s.orReg R.tideStatus 8 else s

/-- R60: above 1,250 beats alignment is lost. -/
def State.lostAbove (s : State) (e : Int) : State := if 1250 < e.natAbs then s.alignLost e else s

theorem State.align_of_first {p : Pkt} (he : e = p.beat.toInt + s.group.pathDelay - s.groupBeat) (h : s.group.firstMark = true) : s.align p =
    { s.setReg R.alignError (BitVec.ofInt 32 e) with
      group := { s.group with firstMark := false }, tide := { s.tide with offset := s.tide.offset + BitVec.ofInt 64 e } } := by
  subst he
  exact if_pos h

theorem State.align_of_later {p : Pkt} (he : e = p.beat.toInt + s.group.pathDelay - s.groupBeat) (h : s.group.firstMark = false) : s.align p =
    (((s.setReg R.alignError (BitVec.ofInt 32 e)).steered e).alignWarned e).lostAbove e := by
  subst he
  exact if_neg (ne_true_of_eq_false h)

/-! ### What each of the three leaves -/

theorem State.steered_only (s : State) (e : Int) : s.steered e =
    { s with tide := { s.tide with offset := if e.natAbs ≤ 1 then s.tide.offset else s.tide.offset + BitVec.ofInt 64 (e.sign * (min e.natAbs 4 : Nat)) } } := by
  rw [State.steered]
  by_cases h : 1 < e.natAbs
  · rw [if_pos h, if_neg (by omega)]
    rfl
  · rw [if_neg h, if_pos (by omega)]

theorem State.alignWarned_only (s : State) (e : Int) : s.alignWarned e = { s with regs := (s.alignWarned e).regs } := by
  rw [State.alignWarned]
  split <;> rfl

theorem State.alignWarned_tideStatus (h : Sparse.wf regReset s.regs = true) :
    (s.alignWarned e).reg R.tideStatus = s.reg R.tideStatus ||| word (if 125 < e.natAbs then 8 else 0) := by
  rw [State.alignWarned]
  split
  · exact State.setReg_reg_self _ _ _ h
  · exact (BitVec.or_zero).symm

theorem State.alignWarned_reg_ne {k : Nat} (hk : k ≠ R.tideStatus) : (s.alignWarned e).reg k = s.reg k := by
  rw [State.alignWarned]
  split
  · exact State.orReg_reg_ne _ _ _ _ hk
  · rfl

theorem State.alignWarned_wf (h : Sparse.wf regReset s.regs = true) : Sparse.wf regReset (s.alignWarned e).regs = true := by
  rw [State.alignWarned]
  split
  · exact State.orReg_wf h 8
  · exact h

theorem State.alignLost_reg (s : State) (e : Int) (k : Nat) : (s.alignLost e).reg k = (s.orReg R.tideStatus 0x10).reg k := by
  rw [State.alignLost]
  split
  · rfl
  · exact State.logFull_reg _ _ _ _ _ _ _ k

theorem State.alignLost_group (s : State) (e : Int) : (s.alignLost e).group = { s.group with lossRaised := true } := by
  rw [State.alignLost]
  split
  next raised =>
    have same : s.group.lossRaised = true := raised
    rw [← same]
    rfl
  next => exact State.logFull_group _ _ _ _ _ _ _

theorem State.alignLost_tide (s : State) (e : Int) : (s.alignLost e).tide = { s.tide with stopNext := s.tide.stopNext || !s.group.lossRaised } := by
  rw [State.alignLost]
  split
  next raised =>
    have same : s.group.lossRaised = true := raised
    rw [same, Bool.not_true, Bool.or_false]
    rfl
  next fresh =>
    have same : s.group.lossRaised = false := Bool.eq_false_iff.mpr fresh
    rw [same, Bool.not_false, Bool.or_true]
    exact State.logFull_tide _ _ _ _ _ _ _

theorem State.lostAbove_group (s : State) (e : Int) :
    (s.lostAbove e).group = { s.group with lossRaised := s.group.lossRaised || decide (1250 < e.natAbs) } := by
  rw [State.lostAbove]
  split
  next above => rw [State.alignLost_group, decide_eq_true above, Bool.or_true]
  next below => rw [decide_eq_false below, Bool.or_false]

theorem State.lostAbove_tide (s : State) (e : Int) :
    (s.lostAbove e).tide = { s.tide with stopNext := s.tide.stopNext || (decide (1250 < e.natAbs) && !s.group.lossRaised) } := by
  rw [State.lostAbove]
  split
  next above => rw [State.alignLost_tide, decide_eq_true above, Bool.true_and]
  next below => rw [decide_eq_false below, Bool.false_and, Bool.or_false]

theorem State.lostAbove_tideStatus (h : Sparse.wf regReset s.regs = true) :
    (s.lostAbove e).reg R.tideStatus = s.reg R.tideStatus ||| word (if 1250 < e.natAbs then 0x10 else 0) := by
  rw [State.lostAbove]
  split
  · rw [State.alignLost_reg]
    exact State.setReg_reg_self _ _ _ h
  · exact (BitVec.or_zero).symm

theorem State.lostAbove_reg_ne {k : Nat} (hk : k ≠ R.tideStatus) : (s.lostAbove e).reg k = s.reg k := by
  rw [State.lostAbove]
  split
  · rw [State.alignLost_reg]
    exact State.orReg_reg_ne _ _ _ _ hk
  · rfl

/-- TIDE_STATUS after a mark: ALIGN_WARN and ALIGN_LOST as the two limits say. -/
theorem State.limits_tideStatus (h : Sparse.wf regReset s.regs = true) : ((s.alignWarned e).lostAbove e).reg R.tideStatus =
    s.reg R.tideStatus ||| word ((if 125 < e.natAbs then 8 else 0) + if 1250 < e.natAbs then 0x10 else 0) := by
  rw [State.lostAbove_tideStatus (State.alignWarned_wf h), State.alignWarned_tideStatus h, BitVec.or_assoc]
  congr 1
  split
  · split <;> rfl
  · rw [if_neg (by omega)]
    rfl

theorem State.limits_reg_ne {k : Nat} (hk : k ≠ R.tideStatus) : ((s.alignWarned e).lostAbove e).reg k = s.reg k :=
  (State.lostAbove_reg_ne hk).trans (State.alignWarned_reg_ne hk)

theorem State.limits_group (s : State) (e : Int) :
    ((s.alignWarned e).lostAbove e).group = { s.group with lossRaised := s.group.lossRaised || decide (1250 < e.natAbs) } := by
  rw [State.lostAbove_group, State.alignWarned_only]

theorem State.limits_tide (s : State) (e : Int) :
    ((s.alignWarned e).lostAbove e).tide = { s.tide with stopNext := s.tide.stopNext || (decide (1250 < e.natAbs) && !s.group.lossRaised) } := by
  rw [State.lostAbove_tide, State.alignWarned_only]

end Align

/-- TIDE_MARK of a member that is no master (R58, R421). -/
theorem execTideMark_of_member {l : Fin 64} {resent : Bool} {p : Pkt} {s u : State} (hfor : p.isFor K.tide [T.mark]) (hactive : s.lstate l = L.active)
    (htaken : (s.linkSt l).discarding = false ∨ resent = true) (hbad : p.bad = false) (hmine : s.devId = some p.dst)
    (hu : u = (s.moreFlits l p.here.begun).takeFlits l (p.received resent) false) (member : u.group.member = true) (under : u.isMaster = false) :
    exec (.tideMark l resent p) s = .next (if (p.received resent).stale then u.toChildren (p.received resent)
      else (u.toChildren (p.received resent)).align (p.received resent)) := by
  have arrives : exec (.tideMark l resent p) s = execTideMark l resent p s := rfl
  rw [arrives, execTideMark, State.arrive_of_mine hfor hactive htaken hbad hmine, ← hu, member, under]
  rfl

/-- Settles O47: the first mark at once; a later one by its three stages, of which each touches its own fields. -/
theorem marksAlign : Obligations.MarksAlign := by
  unfold Obligations.MarksAlign
  constructor
  · intro l p q s u hq hactive htaken hbad hmine hkind htype fresh hu member under
    have received : q = p.received false := hq
    have fresh : ¬ (p.received false).stale = true := ne_true_of_eq_false fresh
    subst received
    rw [execTideMark_of_member ⟨hkind, .inr (List.mem_singleton.mpr htype)⟩ hactive (.inl htaken) hbad hmine hu member under]
    rw [if_neg fresh]
  · rintro p s e he t rfl canonical
    have wf := regsWf_of_canonical canonical
    have shows : (s.setReg R.alignError (BitVec.ofInt 32 e)).reg R.alignError = BitVec.ofInt 32 e := State.setReg_reg_self _ _ _ wf
    have keeps : (s.setReg R.alignError (BitVec.ofInt 32 e)).reg R.tideStatus = s.reg R.tideStatus := State.setReg_reg_ne _ _ _ _ (by decide)
    cases first : s.group.firstMark with
    | true =>
      rw [State.align_of_first he first]
      exact ⟨shows, fun _ => ⟨rfl, rfl, keeps⟩, fun later => Bool.noConfusion later⟩
    | false =>
      rw [State.align_of_later he first, State.limits_reg_ne (by decide), State.limits_tideStatus, State.limits_group, State.limits_tide, State.steered_only]
      · exact ⟨shows, fun later => Bool.noConfusion later, fun _ => ⟨rfl, congrArg (· ||| _) keeps, rfl, rfl⟩⟩
      · rw [State.steered_only]
        exact State.setReg_wf _ _ _ wf

end Sys2Proof.Machine
end

section
/-!
O52: core faults and hangs.
-/
namespace Sys2Proof.Machine

section CoreFault

variable {s : State} {core : Nat} {ue : Bool}

/-- The fault of a core is taken in hand (R467). -/
def State.faultTaken (s : State) (core : Nat) : State := { s with tide := { s.tide with faults := s.tide.faults.filter (· != core) } }

theorem State.coreFault_eq (s : State) (core : Nat) (ue : Bool) : s.coreFault core ue =
    if s.job.lost then s.faultTaken core
    else if !s.spareFree (core / 16) then (s.faultTaken core).restart 0x03
    else if s.tide.replayed then ((s.faultTaken core).orderSpare core).restart 0x02
    else if !s.tide.running then (s.faultTaken core).orderSpare core
    else if s.tide.past3 || !s.mayReplay s.tide.count.toNat core then ((s.faultTaken core).orderSpare core).restart 0x01
    else if ue then (s.faultTaken core).replayStart.restart 0x04
    else (s.faultTaken core).replay.threadSpare core := rfl

theorem State.coreFault_of_lost (lost : s.job.lost = true) : s.coreFault core ue = s.faultTaken core := by
  rw [State.coreFault_eq, if_pos lost]

variable (goes : s.job.lost = false)
include goes

theorem State.coreFault_of_noSpare (none : s.spareFree (core / 16) = false) : s.coreFault core ue = (s.faultTaken core).restart 0x03 := by
  rw [State.coreFault_eq, goes, if_neg Bool.false_ne_true, none, Bool.not_false, if_pos rfl]

variable (spare : s.spareFree (core / 16) = true)
include spare

theorem State.coreFault_of_replayed (again : s.tide.replayed = true) : s.coreFault core ue = ((s.faultTaken core).orderSpare core).restart 0x02 := by
  rw [State.coreFault_eq, goes, if_neg Bool.false_ne_true, spare, Bool.not_true, if_neg Bool.false_ne_true, if_pos again]

variable (first : s.tide.replayed = false)
include first

theorem State.coreFault_of_stopped (stopped : s.tide.running = false) : s.coreFault core ue = (s.faultTaken core).orderSpare core := by
  rw [State.coreFault_eq, goes, if_neg Bool.false_ne_true, spare, Bool.not_true, if_neg Bool.false_ne_true, first, if_neg Bool.false_ne_true, stopped,
    Bool.not_false, if_pos rfl]

variable (running : s.tide.running = true)
include running

theorem State.coreFault_of_running : s.coreFault core ue =
    if s.tide.past3 || !s.mayReplay s.tide.count.toNat core then ((s.faultTaken core).orderSpare core).restart 0x01
    else if ue then (s.faultTaken core).replayStart.restart 0x04
    else (s.faultTaken core).replay.threadSpare core := by
  rw [State.coreFault_eq, goes, if_neg Bool.false_ne_true, spare, Bool.not_true, if_neg Bool.false_ne_true, first, if_neg Bool.false_ne_true, running,
    Bool.not_true, if_neg Bool.false_ne_true]

end CoreFault

/-- Settles O52, branch by branch of `State.coreFault_eq`. -/
theorem coreFaultsAct : Obligations.CoreFaultsAct := by
  unfold Obligations.CoreFaultsAct
  intro core ue s u hu
  have taken : u = s.faultTaken core := hu.trans (by simp only [State.faultTaken, ne_eq, bne, beq_eq_decide, decide_not])
  subst taken
  have faults : exec (.coreFault core ue) s = .next (s.coreFault core ue) := rfl
  have hangs : exec (.tideHang ue) s = execTideHang ue s := rfl
  rw [faults, hangs, execTideHang]
  refine ⟨?lost, ?noSpare, ?spare, ?order, ?reported, ?within, ?hung⟩
  case lost => exact fun lost => congrArg _ (State.coreFault_of_lost lost)
  case noSpare => exact fun goes none => congrArg _ (State.coreFault_of_noSpare goes none)
  case spare =>
    intro goes spare
    refine ⟨fun again => congrArg _ (State.coreFault_of_replayed goes spare again),
      fun first stopped => congrArg _ (State.coreFault_of_stopped goes spare first stopped), fun first running => ?_⟩
    rw [State.coreFault_of_running goes spare first running]
    constructor
    · intro fixed
      have fixed : (s.tide.past3 || !s.mayReplay s.tide.count.toNat core) = true := by
        rw [Bool.or_eq_true, Bool.not_eq_true']
        exact fixed
      rw [if_pos fixed]
    · intro open_ may
      rw [open_, may, Bool.not_true, Bool.or_false, if_neg Bool.false_ne_true]
  case order =>
    intro v t drawn
    rw [State.orderSpare, drawn]
  case reported =>
    intro none
    rw [none]
  case within =>
    intro within
    have waits : ¬ (s.tide.fallen = true ∧ s.regN R.holdLimit ≤ s.hangBeats) := by
      rintro ⟨fallen, limit⟩
      exact within.elim (fun h => Bool.false_ne_true (h.symm.trans fallen)) (Nat.not_lt.mpr limit)
    simp only [if_neg waits]
    split <;> rfl
  case hung =>
    rintro e es first fallen limit v rfl
    rw [first]
    dsimp only
    rw [if_pos ⟨fallen, limit⟩]
    rfl

end Sys2Proof.Machine
end

section
/-!
O56: the frames of a session.
-/
namespace Sys2Proof.Machine

/-! ### HELLO (R565, R566) -/

section Hello

variable {s : State} {p : Fin 2} {pay : List Byte}

/-- The first session number of port `p` that is free. -/
def State.freeNumber (s : State) (p : Fin 2) : Option Nat :=
  ([4 * p.val, 4 * p.val + 1, 4 * p.val + 2, 4 * p.val + 3].filter fun n => (s.session n).isNone).head?

theorem State.freeNumber_eq (s : State) (p : Fin 2) :
    s.freeNumber p = ((List.range 4).find? fun k => (s.session (4 * p.val + k)).isNone).map (4 * p.val + ·) := by
  have numbers : [4 * p.val, 4 * p.val + 1, 4 * p.val + 2, 4 * p.val + 3] = (List.range 4).map (4 * p.val + ·) := rfl
  rw [State.freeNumber, numbers, List.head?_filter, List.find?_map]
  rfl

theorem State.freeNumber_of_taken (h : ∀ k < 4, s.session (4 * p.val + k) ≠ none) : s.freeNumber p = none := by
  rw [State.freeNumber_eq, List.find?_eq_none.mpr, Option.map_none]
  intro k hk free
  exact h k (List.mem_range.mp hk) (Option.isNone_iff_eq_none.mp free)

theorem State.freeNumber_of_free {k : Nat} (hk : k < 4) (free : s.session (4 * p.val + k) = none) (h : ∀ j < k, s.session (4 * p.val + j) ≠ none) :
    s.freeNumber p = some (4 * p.val + k) := by
  have first : ((List.range 4).find? fun k => (s.session (4 * p.val + k)).isNone) = some k := by
    rw [List.find?_range_eq_some]
    refine ⟨Option.isNone_iff_eq_none.mpr free, List.mem_range.mpr hk, fun j hj => ?_⟩
    rw [Bool.not_eq_true', Option.isNone_eq_false_iff, Option.isSome_iff_ne_none]
    exact h j hj
  rw [State.freeNumber_eq, first, Option.map_some]

theorem State.freeNumber_of_any (h : ∃ k < 4, s.session (4 * p.val + k) = none) : ∃ n, s.freeNumber p = some n := by
  obtain ⟨k, hk, free⟩ := h
  rw [State.freeNumber_eq]
  cases first : (List.range 4).find? fun k => (s.session (4 * p.val + k)).isNone with
  | some n => exact ⟨_, rfl⟩
  | none => exact absurd (Option.isNone_iff_eq_none.mpr free) (List.find?_eq_none.mp first k (List.mem_range.mpr hk))

theorem execHello_of_silent (h : s.portUp p = false ∨ helloOk pay = false) : exec (.hello p pay) s = .next s := by
  have hello : exec (.hello p pay) s = execHello p pay s := rfl
  have silent : (!s.portUp p || !helloOk pay) = true := by
    rw [Bool.or_eq_true, Bool.not_eq_true', Bool.not_eq_true']
    exact h
  rw [hello, execHello, if_pos silent]

variable (hup : s.portUp p = true) (hok : helloOk pay = true)
include hup hok

theorem execHello_of_full (h : s.freeNumber p = none) : exec (.hello p pay) s = .next (s.helloRefuse p 0x09) := by
  have hello : exec (.hello p pay) s = execHello p pay s := rfl
  have free : ([4 * p.val, 4 * p.val + 1, 4 * p.val + 2, 4 * p.val + 3].filter fun n => (s.session n).isNone).head? = none := h
  rw [hello, execHello, hup, hok, Bool.not_true, Bool.or_self, if_neg Bool.false_ne_true]
  dsimp only
  rw [free]

theorem execHello_of_free {n : Nat} (h : s.freeNumber p = some n) : exec (.hello p pay) s = .next
    (if helloKnown pay && s.helloStage (bytesAt pay 0 1 == 0) then s.helloAccept p n (bytesAt pay 0 1 == 0) pay else s.helloRefuse p 0x08) := by
  have hello : exec (.hello p pay) s = execHello p pay s := rfl
  have free : ([4 * p.val, 4 * p.val + 1, 4 * p.val + 2, 4 * p.val + 3].filter fun n => (s.session n).isNone).head? = some n := h
  rw [hello, execHello, hup, hok, Bool.not_true, Bool.or_self, if_neg Bool.false_ne_true]
  dsimp only
  rw [free]

end Hello

/-- The session that a HELLO opens has its keys, and HELLO_REPLY is sent. -/
def State.helloReplied (s : State) (p n : Nat) (boot : Bool) (pay : List Byte) : State :=
  let nd := s.drawBytes 32
  let qd := nd.2.drawBytes 133
  let sg := qd.2.drawBytes 132
  let body := leBytes 1 n ++ [0] ++ nd.1 ++ qd.1
  let keys := deriveKeys ((pay.drop 3).take 32) nd.1 (Config.ecdh qd.1 (pay.drop 35))
  ((sg.2.drbgUsed.setSession n (some { boot, isOpen := boot, th := sha512 (pay ++ body), sec := some keys })).count (R.framesTx p)).emit
    (.frame n 0x02 0 [] 0 (body ++ sg.1))

theorem State.helloAccept_of_run (s : State) (p n : Nat) (pay : List Byte) : s.helloAccept p n false pay = s.helloReplied p n false pay := rfl

/-- A boot session starts the fetch afresh, and leaves the other port idle (R542, R543). -/
def State.fetchBegun (s : State) (p n : Nat) : State :=
  let w := ((s.count (R.sessionsOpened p)).syncPort p).setField R.straps 4 2 p
  { w with lys := { w.lys with image := [], imageBlocks := [], imageBy := some n } }

theorem State.helloAccept_of_boot (s : State) (p n : Nat) (pay : List Byte) : s.helloAccept p n true pay =
    (let y := ((s.helloReplied p n true pay).fetchBegun p n).idleOther p
     if y.bootStage = 3 then y.setField R.bootState 0 4 4 else y.imgStatus) := by
  rw [State.helloAccept, if_pos rfl]
  rfl

/-! ### A frame that is received and legal (R563) -/

section Legal

/-- What a session holds once the frame that it expects has been acknowledged. -/
def Session.acked (x : Session) : Session := { x with rx := x.rx + 1, tagRun := 0, ackTx := x.ackTx + 1 }

variable {s t v : State} {f : Frm} {legal : Session → Bool} {lenOk request : Bool} {act : State → State} {x : Session} {n : Nat}

theorem State.receive_of_legal (ht : t = s.codewords (portOf f.session) f.fixed f.uncorr) (hx : t.session f.session = some x)
    (hup : t.portUp (portOf f.session) = true) (htag : f.tagOk = true) (hseq : f.seq.toNat = x.rx) (hresv : f.resv = 0)
    (hv : v = ((t.setSession f.session (some { x with rx := x.rx + 1, tagRun := 0 })).count (R.framesRx (portOf f.session))).sendAck f.session)
    (hlegal : legal x = true) (hlen : lenOk = true) : s.receive f legal lenOk request act = (act v).seqLimit f.session := by
  have acts : (legal x && lenOk && f.resv == 0) = true := by rw [hlegal, hlen, hresv]; rfl
  rw [State.receive_of_up ht hx hup hv, if_neg (by rw [htag]; decide), if_neg (not_not.mpr hseq), if_pos acts]

theorem State.lt_of_session (h : s.session n = some x) : n < s.lys.sessions.length := by
  by_contra beyond
  rw [State.session, List.getElem?_eq_none (Nat.le_of_not_lt beyond)] at h
  cases h

theorem State.sendAck_eq (h : s.session n = some x) : s.sendAck n =
    ((s.setSession n (some { x with ackTx := x.ackTx + 1 })).count (R.framesTx (portOf n))).emit
      (.frame n 0x05 (2 ^ 63 + x.ackTx + 1) (x.nonce (2 ^ 63 + x.ackTx + 1)) 0 (leBytes 8 x.rx)) := by
  rw [State.sendAck, h]

theorem State.count_lys (s : State) (k n : Nat) : (s.count k n).lys = s.lys := rfl

theorem State.session_congr {s t : State} (h : t.lys = s.lys) (n : Nat) : t.session n = s.session n := by rw [State.session, State.session, h]

theorem State.sendAck_view (h : s.session n = some x) :
    (s.sendAck n).session n = some { x with ackTx := x.ackTx + 1 } ∧ (s.sendAck n).lys.qb = s.lys.qb := by
  rw [State.sendAck_eq h]
  exact ⟨State.setSession_session s _ (State.lt_of_session h), rfl⟩

/-- The state after the acknowledgement, as far as the sessions and the keys go. -/
theorem State.acked_view (hx : t.session n = some x)
    (hv : v = ((t.setSession n (some { x with rx := x.rx + 1, tagRun := 0 })).count (R.framesRx (portOf n))).sendAck n) :
    v.session n = some x.acked ∧ v.lys.qb = t.lys.qb := by
  have began := (State.session_congr (State.count_lys (t.setSession n (some { x with rx := x.rx + 1, tagRun := 0 })) (R.framesRx (portOf n)) 1) n).trans
    (t.setSession_session _ (State.lt_of_session hx))
  obtain ⟨session, key⟩ := State.sendAck_view began
  rw [hv]
  exact ⟨session, key⟩

theorem State.codewords_qb (s : State) (p : Nat) (fixed uncorr : Word) : (s.codewords p fixed uncorr).lys.qb = s.lys.qb := by
  rw [State.codewords]
  split <;> rfl

end Legal

/-- Frame `f` is the next that its session `x` expects: `t` is `s` with its codewords counted, and `v` is the state in which it has been acknowledged. -/
structure FrameArrives (f : Frm) (s t v : State) (x : Session) : Prop where
  counted : t = s.codewords (portOf f.session) f.fixed f.uncorr
  held : t.session f.session = some x
  up : t.portUp (portOf f.session) = true
  tag : f.tagOk = true
  next : f.seq.toNat = x.rx
  resv : f.resv = 0
  answered : v = ((t.setSession f.session (some { x with rx := x.rx + 1, tagRun := 0 })).count (R.framesRx (portOf f.session))).sendAck f.session

section Frames

variable {f : Frm} {s t v : State} {x : Session} (h : FrameArrives f s t v x)
include h

theorem FrameArrives.receive {legal : Session → Bool} {lenOk request : Bool} {act : State → State} (hlegal : legal x = true) (hlen : lenOk = true) :
    s.receive f legal lenOk request act = (act v).seqLimit f.session :=
  State.receive_of_legal h.counted h.held h.up h.tag h.next h.resv h.answered hlegal hlen

theorem FrameArrives.session : v.session f.session = some x.acked := (State.acked_view h.held h.answered).1

theorem FrameArrives.qb : v.lys.qb = s.lys.qb :=
  (State.acked_view h.held h.answered).2.trans (by rw [h.counted, State.codewords_qb])

/-! ### AUTH and CLOSE (R566, R568) -/

section Auth

variable (run : x.boot = false) (shut : x.isOpen = false) (len : f.pay.length = 132)
include run shut len

theorem FrameArrives.auth_verified (good : Config.ecdsaVerifies s.lys.qb (sha512 (x.th ++ [0x42])) f.pay = true) : exec (.auth f) s = .next
    ((((((v.setSession f.session (some { x.acked with isOpen := true })).count (R.sessionsOpened (portOf f.session))).syncPort (portOf f.session)).sendFrame
      f.session 0x04 f.ftag []).notifyFull f.session).seqLimit f.session) := by
  have auth : exec (.auth f) s = execAuth f s := rfl
  have good : Config.ecdsaVerifies v.lys.qb (sha512 (x.acked.th ++ [0x42])) f.pay = true := by rw [h.qb]; exact good
  rw [auth, execAuth, h.receive (by rw [run, shut]; rfl) (beq_iff_eq.mpr len), h.session]
  dsimp only
  rw [if_pos good]

theorem FrameArrives.auth_failed (bad : Config.ecdsaVerifies s.lys.qb (sha512 (x.th ++ [0x42])) f.pay = false) : exec (.auth f) s = .next
    ((((v.orReg (R.portStatus (portOf f.session)) 2).count (R.sessionsRefused (portOf f.session))).closeSession f.session 3).seqLimit f.session) := by
  have auth : exec (.auth f) s = execAuth f s := rfl
  have bad : ¬ Config.ecdsaVerifies v.lys.qb (sha512 (x.acked.th ++ [0x42])) f.pay = true := by rw [h.qb]; exact ne_true_of_eq_false bad
  rw [auth, execAuth, h.receive (by rw [run, shut]; rfl) (beq_iff_eq.mpr len), h.session]
  dsimp only
  rw [if_neg bad]

end Auth

theorem FrameArrives.close (open_ : x.isOpen = true) (len : f.pay.length = 1) :
    exec (.closeFrame f) s = .next ((v.closeSession f.session 0).seqLimit f.session) := by
  have close : exec (.closeFrame f) s = execCloseFrame f s := rfl
  rw [close, execCloseFrame, h.receive open_ (beq_iff_eq.mpr len)]

/-! ### Mailbox frames, windows and the register window (R92 to R95, R571, R572) -/

section Run

variable (run : runSession x = true)
include run

theorem FrameArrives.mbxPost (len : f.pay.length = 257) (mb : bytesAt f.pay 0 1 < 16) : exec (.mbxPost f) s = .next ((if v.mbit R.h2eFull (bytesAt f.pay 0 1)
    then (v.orReg R.h2eReject (2 ^ bytesAt f.pay 0 1)).complete f.session f.ftag 0x01
    else (v.h2ePost f.session (bytesAt f.pay 0 1) (f.pay.drop 1)).complete f.session f.ftag 0x00).seqLimit f.session) := by
  have post : exec (.mbxPost f) s = execMbxPost f s := rfl
  rw [post, execMbxPost, h.receive run (by rw [beq_iff_eq.mpr len, decide_eq_true mb]; rfl)]

theorem FrameArrives.mbxRead (len : f.pay.length = 1) (mb : bytesAt f.pay 0 1 < 16) : exec (.mbxRead f) s = .next ((if v.mbit R.e2hFull (bytesAt f.pay 0 1)
    then v.complete f.session f.ftag 0x00 (v.slot (R.e2hSlot (bytesAt f.pay 0 1))) else v.complete f.session f.ftag 0x02).seqLimit f.session) := by
  have read : exec (.mbxRead f) s = execMbxRead f s := rfl
  rw [read, execMbxRead, h.receive run (by rw [beq_iff_eq.mpr len, decide_eq_true mb]; rfl)]

theorem FrameArrives.mbxRelease (len : f.pay.length = 1) (mb : bytesAt f.pay 0 1 < 16) : exec (.mbxRelease f) s = .next
    (((v.release 1 (BitVec.ofNat 16 (2 ^ bytesAt f.pay 0 1))).complete f.session f.ftag 0x00).seqLimit f.session) := by
  have release : exec (.mbxRelease f) s = execMbxRelease f s := rfl
  rw [release, execMbxRelease, h.receive run (by rw [beq_iff_eq.mpr len, decide_eq_true mb]; rfl)]

theorem FrameArrives.winRead (len : f.pay.length = 20) (fields : winFieldsOk f.pay = true) : exec (.winRead f) s = .next
    ((if v.asleep then v.complete f.session f.ftag 0x08
      else if !v.winOk (bytesAt f.pay 0 1) f.session (bytesAt f.pay 8 8) (bytesAt f.pay 16 4) false then v.complete f.session f.ftag 0x03
      else (v.meetRead (((v.window (bytesAt f.pay 0 1)).map (·.base)).getD 0 + bytesAt f.pay 8 8) (bytesAt f.pay 16 4)).complete f.session f.ftag 0x00
        (v.bytes (((v.window (bytesAt f.pay 0 1)).map (·.base)).getD 0 + bytesAt f.pay 8 8) (bytesAt f.pay 16 4))).seqLimit f.session) := by
  have read : exec (.winRead f) s = execWinRead f s := rfl
  rw [read, execWinRead, h.receive run (by rw [beq_iff_eq.mpr len, fields]; rfl)]

theorem FrameArrives.winWrite (len : f.pay.length = 20 + bytesAt f.pay 16 4) (fields : winFieldsOk f.pay = true) : exec (.winWrite f) s = .next
    ((if v.asleep then v.complete f.session f.ftag 0x08
      else if !v.winOk (bytesAt f.pay 0 1) f.session (bytesAt f.pay 8 8) (bytesAt f.pay 16 4) true then v.complete f.session f.ftag 0x03
      else (v.store (((v.window (bytesAt f.pay 0 1)).map (·.base)).getD 0 + bytesAt f.pay 8 8) (f.pay.drop 20)).complete f.session f.ftag 0x00).seqLimit
        f.session) := by
  have write : exec (.winWrite f) s = execWinWrite f s := rfl
  rw [write, execWinWrite, h.receive run (by rw [beq_iff_eq.mpr len, fields]; rfl)]

section Registers

variable (some_ : 1 ≤ bytesAt f.pay 8 4) (most : bytesAt f.pay 8 4 ≤ 1024)
include some_ most

theorem FrameArrives.regRd_refused (len : f.pay.length = 12) {st : Nat}
    (refused : v.regFrameStatus f.session (bytesAt f.pay 0 8) (bytesAt f.pay 8 4) false = some st) :
    exec (.regRd f) s = .next ((v.complete f.session f.ftag st).seqLimit f.session) := by
  have read : exec (.regRd f) s = execRegRd f s := rfl
  rw [read, execRegRd, h.receive run (by rw [beq_iff_eq.mpr len, decide_eq_true ⟨some_, most⟩]; rfl)]
  dsimp only
  rw [refused]

theorem FrameArrives.regRd_served (len : f.pay.length = 12)
    (served : v.regFrameStatus f.session (bytesAt f.pay 0 8) (bytesAt f.pay 8 4) false = none) : exec (.regRd f) s = .next
      (((v.readRegs f.session (bytesAt f.pay 0 8 - windowBase) (bytesAt f.pay 8 4)).2.complete f.session f.ftag 0x00
        (wordBytes (v.readRegs f.session (bytesAt f.pay 0 8 - windowBase) (bytesAt f.pay 8 4)).1)).seqLimit f.session) := by
  have read : exec (.regRd f) s = execRegRd f s := rfl
  rw [read, execRegRd, h.receive run (by rw [beq_iff_eq.mpr len, decide_eq_true ⟨some_, most⟩]; rfl)]
  dsimp only
  rw [served]

theorem FrameArrives.regWr_refused (len : f.pay.length = 12 + 4 * bytesAt f.pay 8 4) {st : Nat}
    (refused : v.regFrameStatus f.session (bytesAt f.pay 0 8) (bytesAt f.pay 8 4) true = some st) :
    exec (.regWr f) s = .next ((v.complete f.session f.ftag st).seqLimit f.session) := by
  have write : exec (.regWr f) s = execRegWr f s := rfl
  rw [write, execRegWr, h.receive run (by rw [beq_iff_eq.mpr len, decide_eq_true ⟨some_, most⟩]; rfl)]
  dsimp only
  rw [refused]

theorem FrameArrives.regWr_served (len : f.pay.length = 12 + 4 * bytesAt f.pay 8 4)
    (served : v.regFrameStatus f.session (bytesAt f.pay 0 8) (bytesAt f.pay 8 4) true = none) : exec (.regWr f) s = .next
      (((v.writeRegs f.session .frame true (bytesAt f.pay 0 8 - windowBase) (wordsFrom f.pay 12 (bytesAt f.pay 8 4))).complete f.session f.ftag
        0x00).seqLimit f.session) := by
  have write : exec (.regWr f) s = execRegWr f s := rfl
  rw [write, execRegWr, h.receive run (by rw [beq_iff_eq.mpr len, decide_eq_true ⟨some_, most⟩]; rfl)]
  dsimp only
  rw [served]

end Registers

end Run

/-- Register frames need expert privilege (R571). -/
theorem FrameArrives.regFrameStatus_of_basic (basic : x.expert = false) (a c : Nat) (wr : Bool) : v.regFrameStatus f.session a c wr = some 0x04 := by
  have plain : (!(v.session f.session).any (·.expert)) = true := by rw [h.session, Option.any_some, Bool.not_eq_true']; exact basic
  rw [State.regFrameStatus, if_pos plain]

/-! ### The boot session (R543, R569) -/

section Boot

variable (boot : bootSession x = true)
include boot

theorem FrameArrives.keys (len : f.pay.length = 266) : exec (.keys f) s = .next
    (State.seqLimit { v.setSession f.session (some { x.acked with keys := true }) with
      lys := { (v.setSession f.session (some { x.acked with keys := true })).lys with
        qb := f.pay.take 133, qe := (f.pay.drop 133).take 133, operatorDigest := sha512 f.pay } } f.session) := by
  have keys : exec (.keys f) s = execKeys f s := rfl
  rw [keys, execKeys, h.receive boot (beq_iff_eq.mpr len), h.session]

theorem FrameArrives.imageFrame (least : 68 ≤ f.pay.length) (most : f.pay.length ≤ 4100) (aligned : bytesAt f.pay 0 4 % 4096 = 0) :
    exec (.imageFrame f) s = .next (State.seqLimit (if v.bootStage ≠ 4 ∧ v.bootStage ≠ 6 then v.complete f.session f.ftag 0x08
      else if !x.keys then State.imgStatus { v.imageFail 1 with lys := { (v.imageFail 1).lys with imageBy := some f.session.val } }
      else
        let w := State.imgStore { v with lys := { v.lys with imageBy := some f.session.val } } (bytesAt f.pay 0 4) (f.pay.drop 4)
        if w.imgFetched then w.setField R.bootState 0 4 5 else w) f.session) := by
  have image : exec (.imageFrame f) s = execImageFrame f s := rfl
  have sized : (decide (68 ≤ f.pay.length ∧ f.pay.length ≤ 4100) && bytesAt f.pay 0 4 % 4096 == 0) = true := by
    rw [decide_eq_true ⟨least, most⟩, beq_iff_eq.mpr aligned]
    rfl
  rw [image, execImageFrame, h.receive boot sized, h.session]
  rfl

end Boot

end Frames

/-! ### What a session that closes leaves (R568) -/

/-- What is held for sessions: the sessions, the windows, and who posted each mailbox. -/
def State.holdings (s : State) : List (Option Session) × List (Option Window) × List (Nat × Nat) := (s.lys.sessions, s.lys.windows, s.enm.poster)

section Close

variable {s : State} {n reason : Nat} {x : Session}

theorem State.retrainBoot_holdings (s : State) : s.retrainBoot.holdings = s.holdings := by
  have kept := congrArg State.holdings (Frame.eq (State.retrainBoot_frame (ω := 0x40) rfl (Frame.refl s)))
  exact kept

theorem State.imageFail_holdings (s : State) (code : Nat) : (s.imageFail code).holdings = s.holdings := rfl

theorem State.orReg_holdings (s : State) (k m : Nat) : (s.orReg k m).holdings = s.holdings := rfl

theorem State.syncPort_holdings (s : State) (p : Nat) : (s.syncPort p).holdings = s.holdings := rfl

/-- The session and what is held for it are gone. -/
def State.forgotten (s : State) (n : Nat) : State :=
  let s := s.setSession n none
  let s := State.dropOwn { s with lys := { s.lys with windows := s.lys.windows.map (Option.filter fun (w : Window) => w.session != n) } } n
  { s with enm := { s.enm with poster := s.enm.poster.filter fun (e : Nat × Nat) => e.2 != n } }

theorem State.forgotten_holdings (s : State) (n : Nat) : (s.forgotten n).holdings =
    (s.lys.sessions.set n none, s.lys.windows.map (Option.filter fun (w : Window) => w.session != n), s.enm.poster.filter fun (e : Nat × Nat) => e.2 != n) := rfl

theorem State.closeSession_holdings (h : s.session n = some x) : (s.closeSession n reason).holdings =
    (s.lys.sessions.set n none, s.lys.windows.map (Option.filter fun (w : Window) => w.session != n), s.enm.poster.filter fun (e : Nat × Nat) => e.2 != n) := by
  have forgets (u : State) (same : u.holdings = s.holdings) : (u.forgotten n).holdings = (s.forgotten n).holdings := by
    simp only [State.holdings, Prod.mk.injEq] at same
    rw [State.forgotten_holdings, State.forgotten_holdings, same.1, same.2.1, same.2.2]
  rw [← State.forgotten_holdings, State.closeSession, h]
  dsimp only
  rw [State.syncPort_holdings, apply_ite State.holdings, State.retrainBoot_holdings, ite_self, apply_ite State.holdings, State.imageFail_holdings, ite_self,
    apply_ite State.holdings, State.orReg_holdings, ite_self]
  refine forgets _ ?_
  split <;> rfl

theorem State.closeSession_forgets (h : s.session n = some x) : (s.closeSession n reason).session n = none
    ∧ (∀ (w : Nat) (W : Window), (s.closeSession n reason).window w = some W → W.session ≠ n)
    ∧ ∀ e ∈ (s.closeSession n reason).enm.poster, e.2 ≠ n := by
  have left := State.closeSession_holdings (reason := reason) h
  simp only [State.holdings, Prod.mk.injEq] at left
  obtain ⟨sessions, windows, posters⟩ := left
  refine ⟨?_, ?_, ?_⟩
  · rw [State.session, sessions, List.getElem?_set_self (State.lt_of_session h), Option.join_some]
  · intro w W hW
    rw [State.window, windows, List.getElem?_map, Option.join_eq_some_iff, Option.map_eq_some_iff] at hW
    obtain ⟨held, -, kept⟩ := hW
    obtain ⟨-, other⟩ := Option.filter_eq_some_iff.mp kept
    exact bne_iff_ne.mp other
  · intro e he
    rw [posters] at he
    exact bne_iff_ne.mp (List.mem_filter.mp he).2

end Close

/-! ### ACK frames and frames sent again (R563) -/

section Ack

variable {f : Frm} {s t : State} {x : Session}

theorem execFrameAck_of_silent (ht : t = s.codewords (portOf f.session) f.fixed f.uncorr) (h : t.session f.session = none ∨ t.portUp (portOf f.session) = false) :
    exec (.frameAck f) s = .next t := by
  have ack : exec (.frameAck f) s = execFrameAck f s := rfl
  rw [ack, execFrameAck, ← ht]
  dsimp only
  cases held : t.session f.session with
  | none => dsimp only
  | some x =>
    dsimp only
    rcases h with none | down
    · exact absurd (held.symm.trans none) (Option.some_ne_none x)
    · rw [down, Bool.not_false, if_pos rfl]

theorem execFrameAck_of_held (ht : t = s.codewords (portOf f.session) f.fixed f.uncorr) (hx : t.session f.session = some x)
    (hup : t.portUp (portOf f.session) = true) : exec (.frameAck f) s = .next
      (if !f.tagOk then t.tagFail f.session x
      else if !bit f.seq 63 || decide (f.seq.toNat % 2 ^ 63 ≤ x.ackRx) then
        (t.count (R.seqDiscards (portOf f.session))).setSession f.session (some { x with tagRun := 0 })
      else if f.pay.length ≠ 8 ∨ f.resv ≠ 0 ∨ !x.isOpen then
        (t.count (R.framesRx (portOf f.session))).setSession f.session (some { x with ackRx := f.seq.toNat % 2 ^ 63, tagRun := 0 })
      else ((t.count (R.framesRx (portOf f.session))).setSession f.session (some { x with
        ackRx := f.seq.toNat % 2 ^ 63, tagRun := 0, unacked := x.unacked.filter fun e => decide (bytesAt f.pay 0 8 ≤ e.seq) })).sendWaiting f.session 64) := by
  have ack : exec (.frameAck f) s = execFrameAck f s := rfl
  rw [ack, execFrameAck, ← ht]
  dsimp only
  rw [hx]
  dsimp only
  rw [hup, Bool.not_true, if_neg Bool.false_ne_true]

end Ack

section Resend

variable {k : Fin 8} {seq : BitVec 64} {s : State}

theorem execFrameResend_of_none (h : s.session k = none) : exec (.frameResend k seq) s = .next s := by
  have resend : exec (.frameResend k seq) s = execFrameResend k seq s := rfl
  rw [resend, execFrameResend, h]

variable {x : Session} (h : s.session k = some x)
include h

theorem execFrameResend_of_acked (none : ∀ t ∈ x.unacked, t.seq ≠ seq.toNat) : exec (.frameResend k seq) s = .next s := by
  have resend : exec (.frameResend k seq) s = execFrameResend k seq s := rfl
  have absent : x.unacked.find? (fun t => t.seq == seq.toNat) = Option.none := List.find?_eq_none.mpr fun t ht same => none t ht (beq_iff_eq.mp same)
  rw [resend, execFrameResend, h]
  dsimp only
  rw [absent]

theorem execFrameResend_of_unacked {t : TxFrame} (found : x.unacked.find? (fun t => t.seq == seq.toNat) = some t) :
    exec (.frameResend k seq) s = .next (s.resend k x t) := by
  have resend : exec (.frameResend k seq) s = execFrameResend k seq s := rfl
  rw [resend, execFrameResend, h]
  dsimp only
  rw [found]

end Resend

/-! ### The obligation -/

/-- Settles O56: HELLO by the first free number, the sequenced frames by `FrameArrives.receive`, a close by what is left of the holdings. -/
theorem sessionsAct : Obligations.SessionsAct := by
  unfold Obligations.SessionsAct
  refine ⟨?hello, ?frames, ?ack, ?close, ?gone, ?resend, ?verify⟩
  case hello =>
    intro p pay s
    refine ⟨execHello_of_silent, ?_⟩
    rintro hup hok boot rfl refuse hrefuse
    have refused (st : Nat) : refuse st = s.helloRefuse p st := hrefuse st
    refine ⟨?_, ?_, ?_⟩
    · intro full
      rw [execHello_of_full hup hok (State.freeNumber_of_taken full), refused]
    · intro room unfit
      obtain ⟨n, hn⟩ := State.freeNumber_of_any room
      have unfit : ¬ (helloKnown pay && s.helloStage (bytesAt pay 0 1 == 0)) = true := by
        rw [Bool.and_eq_true]
        rintro ⟨known, stage⟩
        exact unfit.elim (fun h => Bool.false_ne_true (h.symm.trans known)) fun h => Bool.false_ne_true (h.symm.trans stage)
      rw [execHello_of_free hup hok hn, if_neg unfit, refused]
    · rintro k hk known stage free first nd qd sg body u w rfl rfl rfl hbody hu hw
      have fit : (helloKnown pay && s.helloStage (bytesAt pay 0 1 == 0)) = true := by rw [known, stage]; rfl
      rw [execHello_of_free hup hok (State.freeNumber_of_free hk free first), if_pos fit]
      subst hbody
      constructor
      · intro run
        rw [run] at hu ⊢
        rw [State.helloAccept_of_run, hu]
        rfl
      · rintro boot z hz y hy
        rw [boot] at hu ⊢
        have replied : u = s.helloReplied p (4 * p.val + k) true pay := hu
        have begun : z = (s.helloReplied p (4 * p.val + k) true pay).fetchBegun p (4 * p.val + k) := by rw [hz, hw, replied]; rfl
        rw [State.helloAccept_of_boot, ← begun, hy]
        rfl
  case frames =>
    intro f s t v x n hn ht held up tag next resv hv
    subst hn
    have h : FrameArrives f s t v x := ⟨ht, held, up, tag, next, resv, hv⟩
    refine ⟨?auth, h.close, ?run, ?boot⟩
    case auth => exact fun run shut len _ => ⟨h.auth_verified run shut len, h.auth_failed run shut len⟩
    case run =>
      intro open_ run
      have run : runSession x = true := by rw [runSession, open_, run]; rfl
      refine ⟨h.mbxPost run, fun len mb => ⟨h.mbxRead run len mb, h.mbxRelease run len mb⟩, ?window, ?register, fun a c wr basic _ =>
        h.regFrameStatus_of_basic basic a c wr⟩
      case window =>
        rintro w off len rfl rfl rfl zero aligned least most whole
        have fields : winFieldsOk f.pay = true := by
          rw [winFieldsOk, beq_iff_eq.mpr zero, beq_iff_eq.mpr aligned, beq_iff_eq.mpr whole, decide_eq_true ⟨least, most⟩]
          rfl
        constructor
        · intro length
          rw [h.winRead run length fields]
          refine ⟨fun asleep => ?_, fun awake refused => ?_, fun W awake window granted => ?_⟩
          · rw [if_pos asleep]
          · rw [awake, if_neg Bool.false_ne_true, refused, Bool.not_false, if_pos rfl]
          · rw [awake, if_neg Bool.false_ne_true, granted, Bool.not_true, if_neg Bool.false_ne_true, window]
            rfl
        · intro length
          rw [h.winWrite run length fields]
          refine ⟨fun asleep => ?_, fun awake refused => ?_, fun W awake window granted => ?_⟩
          · rw [if_pos asleep]
          · rw [awake, if_neg Bool.false_ne_true, refused, Bool.not_false, if_pos rfl]
          · rw [awake, if_neg Bool.false_ne_true, granted, Bool.not_true, if_neg Bool.false_ne_true, window]
            rfl
      case register =>
        rintro count rfl least most
        refine ⟨fun length => ?_, fun length => ?_⟩
        · exact ⟨fun st => h.regRd_refused run least most length, h.regRd_served run least most length⟩
        · exact ⟨fun st => h.regWr_refused run least most length, h.regWr_served run least most length⟩
    case boot =>
      intro open_ boot
      have boot : bootSession x = true := by rw [bootSession, open_, boot]; rfl
      refine ⟨fun len _ => h.keys boot len, fun least most aligned _ => ?_⟩
      rw [h.imageFrame boot least most aligned]
      refine ⟨fun not4 not6 => ?_, fun fetching => ?_⟩
      · rw [if_pos ⟨not4, not6⟩]
      · have fetching : ¬ (v.bootStage ≠ 4 ∧ v.bootStage ≠ 6) := fun ⟨not4, not6⟩ => fetching.elim not4 not6
        rw [if_neg fetching]
        refine ⟨?_, ?_⟩
        · rintro keyless u rfl
          rw [keyless, Bool.not_false, if_pos rfl]
        · rintro w keys rfl
          rw [keys, Bool.not_true, if_neg Bool.false_ne_true]
  case ack =>
    intro f s t n hn ht
    subst hn
    have counted : t = s.codewords (portOf f.session) f.fixed f.uncorr := ht
    refine ⟨execFrameAck_of_silent counted, fun x hx hup => ?_⟩
    rw [execFrameAck_of_held counted hx hup]
    refine ⟨?_, ?_, ?_⟩
    · rintro u bad rfl
      rw [bad, Bool.not_false, if_pos rfl]
      rfl
    · intro good late
      have late : (!bit f.seq 63 || decide (f.seq.toNat % 2 ^ 63 ≤ x.ackRx)) = true := by
        rw [Bool.or_eq_true, Bool.not_eq_true', decide_eq_true_eq]
        exact late
      rw [good, Bool.not_true, if_neg Bool.false_ne_true, if_pos late]
    · intro good counter fresh
      rw [good, Bool.not_true, if_neg Bool.false_ne_true, counter, Bool.not_true, Bool.false_or, decide_eq_false (Nat.not_le.mpr fresh), if_neg Bool.false_ne_true]
      constructor
      · intro bad
        rw [if_pos]
        simpa only [Bool.not_eq_true'] using bad
      · intro len resv open_
        rw [if_neg]
        rintro (h | h | h)
        · exact h len
        · exact h resv
        · rw [open_] at h
          exact absurd h (by decide)
  case close =>
    rintro k reason s u rfl held -
    obtain ⟨x, hx⟩ := Option.ne_none_iff_exists'.mp held
    exact State.closeSession_forgets hx
  case gone => exact fun k seq s h => execFrameResend_of_none h
  case resend =>
    intro k seq s x hx
    refine ⟨execFrameResend_of_acked hx, fun t found => ?_⟩
    rw [execFrameResend_of_unacked hx found]
    exact ⟨fun last => congrArg _ (if_pos last), fun again => congrArg _ (if_neg (Nat.not_le.mpr again))⟩
  case verify =>
    intro s
    have verify : exec .imageVerify s = execImageVerify s := rfl
    rw [verify, execImageVerify]
    refine ⟨fun other => congrArg _ (if_pos other), fun here => ⟨fun code bad => ?_, fun good => ?_⟩⟩
    · rw [if_neg (not_not.mpr here), bad]
    · rw [if_neg (not_not.mpr here), good]

end Sys2Proof.Machine
end
